-- ==== Sys2Proof/Word.lean ====
section
/-! DEFINITION. The word types of the machine (R2, R55, R56, R61). -/

namespace Sys2Proof

/-- A byte of memory. -/
abbrev Byte := BitVec 8

/-- A 64-bit scalar word. -/
abbrev Word := BitVec 64

/-- A 1,024-bit vector register. -/
abbrev Vec := BitVec 1024

/-- A 128-bit mask register. -/
abbrev Mask := BitVec 128

/-- A 64-byte memory line. -/
abbrev Line := BitVec 512

/-- An 80-bit accumulator cell (R61). -/
abbrev Acc := BitVec 80

end Sys2Proof
end

