-- ==== Sys2Proof/Syntax.lean ====
section
/-! DEFINITION. The syntax of the machine: operand kinds and the one type of instructions, one constructor for
each row of the opcode table. The header bits E and G and the literal word belong to the bundle (R20, R23) and stand in Slot. -/

namespace Sys2Proof

/-- A 6-bit scalar destination field: s0 to s62 (R23, R83). -/
abbrev SReg := Fin 63

/-- A 6-bit scalar source field: a register, or 63 with the slot's literal word (R23). -/
inductive Src where
  | reg (r : Fin 63)
  | lit (w : BitVec 32)
  deriving DecidableEq, Repr, Inhabited

/-- A 5-bit vector field: v0 to v15, or windrow w0 to w15 (R36). -/
inductive VOp where
  | reg (v : Fin 16)
  | win (w : Fin 16)
  deriving DecidableEq, Repr, Inhabited

/-- The W field (R36). -/
inductive Width where
  | w256 | w512 | w1k
  deriving DecidableEq, Repr, Inhabited

/-- The scope codes 0 to 6 (R223). -/
inductive Scope where
  | ctx | core | sheaf | field | pkg | host | sys
  deriving DecidableEq, Repr, Inhabited

/-- The ord field of a fence (R40). -/
inductive Order where
  | acq | rel | ar
  deriving DecidableEq, Repr, Inhabited

/-- One constructor for each row of the opcode table. -/
inductive Instr where
  -- BC, major opcode 0
  /-- Bundle control slot: sets the stall, yield point, loop levels ending, region marker, breakpoint and stated run length of its bundle (R26). -/
  | bc (stall : BitVec 4) (y : Bool) (lend : Fin 7) (rm : BitVec 2) (brk : Bool) (run : BitVec 11)
  -- SAR, major opcode 1
  /-- Writes (a + b) mod 2^64 to d (R86). -/
  | add (d : SReg) (a : Src) (b : Src)
  /-- Writes (a - b) mod 2^64 to d (R86). -/
  | sub (d : SReg) (a : Src) (b : Src)
  /-- Writes the low 64 bits of a times b, with latency 3 (R86). -/
  | mul (d : SReg) (a : Src) (b : Src)
  /-- Writes the high 64 bits of the signed 128-bit product (R86). -/
  | mulh (d : SReg) (a : Src) (b : Src)
  /-- Writes the high 64 bits of the natural 128-bit product (R86). -/
  | mulhn (d : SReg) (a : Src) (b : Src)
  /-- Writes the bitwise AND of a and b (R86). -/
  | and (d : SReg) (a : Src) (b : Src)
  /-- Writes the bitwise OR of a and b (R86). -/
  | or (d : SReg) (a : Src) (b : Src)
  /-- Writes the bitwise XOR of a and b (R86). -/
  | xor (d : SReg) (a : Src) (b : Src)
  /-- Writes a AND NOT b (R86). -/
  | andn (d : SReg) (a : Src) (b : Src)
  /-- Shifts a left by b[5:0] (R86). -/
  | shl (d : SReg) (a : Src) (b : Src)
  /-- Shifts a right by b[5:0], shifting in zeros (R86). -/
  | shr (d : SReg) (a : Src) (b : Src)
  /-- Shifts a right arithmetically by b[5:0] (R86). -/
  | sar (d : SReg) (a : Src) (b : Src)
  /-- Writes the smaller of a and b as signed integers (R86). -/
  | min (d : SReg) (a : Src) (b : Src)
  /-- Writes the larger of a and b as signed integers (R86). -/
  | max (d : SReg) (a : Src) (b : Src)
  /-- Writes the smaller of a and b as natural integers (R86). -/
  | minn (d : SReg) (a : Src) (b : Src)
  /-- Writes the larger of a and b as natural integers (R86). -/
  | maxn (d : SReg) (a : Src) (b : Src)
  -- SAI, major opcode 2
  /-- Adds the sign-extended 7-bit immediate to a (R87). -/
  | addi (d : SReg) (a : Src) (imm : BitVec 7)
  /-- ANDs a with the sign-extended immediate (R87). -/
  | andi (d : SReg) (a : Src) (imm : BitVec 7)
  /-- ORs a with the sign-extended immediate (R87). -/
  | ori (d : SReg) (a : Src) (imm : BitVec 7)
  /-- XORs a with the sign-extended immediate (R87). -/
  | xori (d : SReg) (a : Src) (imm : BitVec 7)
  /-- Shifts a left by imm7[5:0] (R87). -/
  | shli (d : SReg) (a : Src) (imm : BitVec 6)
  /-- Shifts a right logically by imm7[5:0] (R87). -/
  | shri (d : SReg) (a : Src) (imm : BitVec 6)
  /-- Shifts a right arithmetically by imm7[5:0] (R87). -/
  | sari (d : SReg) (a : Src) (imm : BitVec 6)
  /-- Writes (imm - a) mod 2^64 (R87). -/
  | rsubi (d : SReg) (a : Src) (imm : BitVec 7)
  -- SMX, major opcode 3
  /-- Starts a signed divide on the slot's divider, with an interlocked result (R88). -/
  | div (d : SReg) (a : Src) (b : Src)
  /-- Starts a natural divide, with an interlocked result (R88). -/
  | divn (d : SReg) (a : Src) (b : Src)
  /-- Starts a signed remainder, with an interlocked result (R88). -/
  | rem (d : SReg) (a : Src) (b : Src)
  /-- Starts a natural remainder, with an interlocked result (R88). -/
  | remn (d : SReg) (a : Src) (b : Src)
  /-- Counts the leading zero bits of a (R88). -/
  | clz (d : SReg) (a : Src)
  /-- Counts the trailing zero bits of a (R88). -/
  | ctz (d : SReg) (a : Src)
  /-- Counts the one bits of a (R88). -/
  | popc (d : SReg) (a : Src)
  /-- Reverses the bit order of a (R88). -/
  | brev (d : SReg) (a : Src)
  /-- Reverses the byte order of a (R88). -/
  | bswap (d : SReg) (a : Src)
  /-- Sign-extends the low b[5:0]+1 bits of a (R88). -/
  | sext (d : SReg) (a : Src) (b : Src)
  /-- Zero-extends the low b[5:0]+1 bits of a (R88). -/
  | zext (d : SReg) (a : Src) (b : Src)
  /-- Extracts a bit field of a without sign (R89). -/
  | bfx (d : SReg) (a : Src) (b : Src)
  /-- Inserts a field from a into the old d (R89). -/
  | bfi (d : SReg) (a : Src) (b : Src)
  /-- Writes the absolute value of a modulo 2^64 (R88). -/
  | abs (d : SReg) (a : Src)
  /-- Writes (0 - a) mod 2^64 (R88). -/
  | neg (d : SReg) (a : Src)
  -- SFP, major opcode 4
  /-- Adds two FP32 values under FPMODE.RM (R90). -/
  | fadd (d : SReg) (a : Src) (b : Src)
  /-- Subtracts two FP32 values (R90). -/
  | fsub (d : SReg) (a : Src) (b : Src)
  /-- Multiplies two FP32 values (R90). -/
  | fmul (d : SReg) (a : Src) (b : Src)
  /-- Starts an FP32 divide with an interlocked result (R90). -/
  | fdiv (d : SReg) (a : Src) (b : Src)
  /-- Starts an FP32 square root with an interlocked result (R90). -/
  | fsqrt (d : SReg) (a : Src)
  /-- Writes the smaller FP32 operand (R90). -/
  | fmin (d : SReg) (a : Src) (b : Src)
  /-- Writes the larger FP32 operand (R90). -/
  | fmax (d : SReg) (a : Src) (b : Src)
  /-- Clears the sign of an FP32 value (R90). -/
  | fabs (d : SReg) (a : Src)
  /-- Inverts the sign of an FP32 value (R90). -/
  | fneg (d : SReg) (a : Src)
  /-- Converts a signed 64-bit integer to FP32 (R90). -/
  | fitof (d : SReg) (a : Src)
  /-- Converts FP32 to INT64 under R72 (R90). -/
  | ftoi (d : SReg) (a : Src)
  /-- Rounds an FP32 value to an integral value (R90). -/
  | fround (d : SReg) (a : Src)
  -- SCP, major opcode 5
  /-- Sets pd when a equals b, and the complement to pd+1 when C is set (R92). -/
  | ceq (p : Fin 16) (cflag : Bool) (a : Src) (b : Src)
  /-- Sets pd when a differs from b (R92). -/
  | cne (p : Fin 16) (cflag : Bool) (a : Src) (b : Src)
  /-- Signed less-than compare into predicates (R92). -/
  | clt (p : Fin 16) (cflag : Bool) (a : Src) (b : Src)
  /-- Signed greater-or-equal compare into predicates (R92). -/
  | cge (p : Fin 16) (cflag : Bool) (a : Src) (b : Src)
  /-- Natural less-than compare into predicates (R92). -/
  | cltn (p : Fin 16) (cflag : Bool) (a : Src) (b : Src)
  /-- Natural greater-or-equal compare into predicates (R92). -/
  | cgen (p : Fin 16) (cflag : Bool) (a : Src) (b : Src)
  /-- Sets pd when a AND b is nonzero (R92). -/
  | ctst (p : Fin 16) (cflag : Bool) (a : Src) (b : Src)
  /-- FP32 equality compare into predicates (R92). -/
  | fceq (p : Fin 16) (cflag : Bool) (a : Src) (b : Src)
  /-- FP32 less-than compare into predicates (R92). -/
  | fclt (p : Fin 16) (cflag : Bool) (a : Src) (b : Src)
  /-- FP32 less-or-equal compare into predicates (R92). -/
  | fcle (p : Fin 16) (cflag : Bool) (a : Src) (b : Src)
  /-- Sets pd when either FP32 operand is a NaN (R92). -/
  | fcun (p : Fin 16) (cflag : Bool) (a : Src) (b : Src)
  /-- Writes pa AND pb to pd (R92). -/
  | pand (p : Fin 16) (cflag : Bool) (q : Fin 16) (r : Fin 16)
  /-- Writes pa OR pb to pd (R92). -/
  | por (p : Fin 16) (cflag : Bool) (q : Fin 16) (r : Fin 16)
  /-- Writes pa XOR pb to pd (R92). -/
  | pxor (p : Fin 16) (cflag : Bool) (q : Fin 16) (r : Fin 16)
  /-- Writes pa AND NOT pb to pd (R92). -/
  | pandn (p : Fin 16) (cflag : Bool) (q : Fin 16) (r : Fin 16)
  /-- Writes a constant bit to pd (R92). -/
  | pset (p : Fin 16) (cflag : Bool) (v : Bool)
  /-- Sets pd when some bit of a mask is 1 (R92). -/
  | kany (p : Fin 16) (cflag : Bool) (k : Fin 8)
  /-- Sets pd when every bit of a mask is 1 (R92). -/
  | kall (p : Fin 16) (cflag : Bool) (k : Fin 8)
  /-- Sets pd when every bit of a mask is 0 (R92). -/
  | knone (p : Fin 16) (cflag : Bool) (k : Fin 8)
  -- BR, major opcode 6
  /-- Branches to a PC-relative bundle (R94). -/
  | br (o : BitVec 19)
  /-- Branches PC-relative and writes the return address to s62 (R94). -/
  | call (o : BitVec 19)
  /-- Branches to the address in a register (R94). -/
  | bi (a : Src)
  /-- Branches to a register address and writes s62 (R94). -/
  | calli (a : Src)
  /-- Returns to the address in a register, s62 by default (R94). -/
  | ret (a : Src)
  /-- Branches when every mask bit is 1; raises NONUNI on a mixed mask (R95). -/
  | bk (k : Fin 8) (o : BitVec 16)
  /-- Branches when every mask bit is 0; raises NONUNI on a mixed mask (R95). -/
  | bkn (k : Fin 8) (o : BitVec 16)
  -- LOOP, major opcode 7
  /-- Pushes a loop level with a register count, or skips the body on zero (R100). -/
  | loop (a : Src) (o : BitVec 13)
  /-- Pushes a loop level with an immediate count (R100). -/
  | loopi (n : BitVec 9) (o : BitVec 10)
  /-- Pops levels 0 to lvl and continues at that level's EXIT (R102). -/
  | lexit (l : Fin 6)
  /-- Reads li or lc of a loop level (R103). -/
  | rdlp (d : SReg) (x : Bool) (l : Fin 6)
  /-- Writes li or lc of a loop level (R103). -/
  | wrlp (a : Src) (x : Bool) (l : Fin 6)
  /-- Reads a delta table and arms a replay binding for the next pushed level (R155). -/
  | replay (a : Src) (n : BitVec 6)
  /-- Arms a stage-predicate binding for the next pushed level (R156). -/
  | stgset (p : Fin 16) (n : BitVec 3)
  -- LD, major opcode 8
  /-- Loads one byte zero-extended, with optional post-increment (R143). -/
  | ldb (d : SReg) (b : Src) (m : Fin 8) (i : BitVec 4)
  /-- Loads two bytes zero-extended (R143). -/
  | ldh (d : SReg) (b : Src) (m : Fin 8) (i : BitVec 4)
  /-- Loads four bytes zero-extended (R143). -/
  | ldw (d : SReg) (b : Src) (m : Fin 8) (i : BitVec 4)
  /-- Loads eight bytes (R143). -/
  | ldd (d : SReg) (b : Src) (m : Fin 8) (i : BitVec 4)
  /-- Loads 32 bytes into a vector register or pushes them to a write windrow (R143). -/
  | ldv256 (v : VOp) (b : Src) (m : Fin 8) (i : BitVec 4)
  /-- Loads 64 bytes into a vector or a write windrow (R143). -/
  | ldv512 (v : VOp) (b : Src) (m : Fin 8) (i : BitVec 4)
  /-- Loads 128 bytes into a vector or a write windrow (R143). -/
  | ldv1k (v : VOp) (b : Src) (m : Fin 8) (i : BitVec 4)
  /-- Loads four bytes and broadcasts them to every 32-bit lane (R143). -/
  | ldbc (v : VOp) (b : Src) (m : Fin 8) (i : BitVec 4)
  -- ST, major opcode 9
  /-- Stores one byte into the region store buffer (R143). -/
  | stb (a : Src) (b : Src) (m : Fin 8) (i : BitVec 4)
  /-- Stores two bytes into the store buffer (R143). -/
  | sth (a : Src) (b : Src) (m : Fin 8) (i : BitVec 4)
  /-- Stores four bytes into the store buffer (R143). -/
  | stw (a : Src) (b : Src) (m : Fin 8) (i : BitVec 4)
  /-- Stores eight bytes into the store buffer (R143). -/
  | std (a : Src) (b : Src) (m : Fin 8) (i : BitVec 4)
  /-- Stores 32 bytes of a vector or a read-windrow element vector (R143). -/
  | stv256 (v : VOp) (b : Src) (m : Fin 8) (i : BitVec 4)
  /-- Stores 64 bytes of a vector (R143). -/
  | stv512 (v : VOp) (b : Src) (m : Fin 8) (i : BitVec 4)
  /-- Stores 128 bytes of a vector (R143). -/
  | stv1k (v : VOp) (b : Src) (m : Fin 8) (i : BitVec 4)
  /-- Stores the bytes of a vector selected by a mask (R143). -/
  | stvk (v : VOp) (b : Src) (k : Fin 8) (i : BitVec 4)
  -- ATM, major opcode 10
  /-- Atomic swap, executed at commit at the point its scope selects (R240). -/
  | aswap (d : Fin 32) (a : Fin 32) (b : Fin 32) (s : Scope) (z : Bool)
  /-- Atomic add at commit (R240). -/
  | aadd (d : Fin 32) (a : Fin 32) (b : Fin 32) (s : Scope) (z : Bool)
  /-- Atomic AND at commit (R240). -/
  | aand (d : Fin 32) (a : Fin 32) (b : Fin 32) (s : Scope) (z : Bool)
  /-- Atomic OR at commit (R240). -/
  | aor (d : Fin 32) (a : Fin 32) (b : Fin 32) (s : Scope) (z : Bool)
  /-- Atomic signed maximum at commit (R240). -/
  | amax (d : Fin 32) (a : Fin 32) (b : Fin 32) (s : Scope) (z : Bool)
  /-- Atomic signed minimum at commit (R240). -/
  | amin (d : Fin 32) (a : Fin 32) (b : Fin 32) (s : Scope) (z : Bool)
  /-- Atomic compare-and-swap against d at commit (R240). -/
  | acas (d : Fin 32) (a : Fin 32) (b : Fin 32) (s : Scope) (z : Bool)
  /-- Atomic FP32 add with RNE at commit (R240). -/
  | afadd (d : Fin 32) (a : Fin 32) (b : Fin 32) (s : Scope)
  -- SYNC, major opcode 11
  /-- Release, acquire or both at a scope, dividing the store buffer for release (R234). -/
  | fence (s : Scope) (o : Order)
  /-- Holds the next bundle until the context's earlier accesses have completed (R235). -/
  | drain
  /-- Loads 4 or 8 bytes single-copy atomically and then acquires at a scope (R236). -/
  | lda (d : SReg) (b : Src) (s : Scope) (z : Bool)
  /-- Stores 4 or 8 bytes at commit as a release at a scope (R237). -/
  | strl (a : Src) (b : Src) (s : Scope) (z : Bool)
  /-- Waits for an engine token to leave PENDING, traps on a bad status and acquires when A was set (R238). -/
  | waiteng (t : Fin 64)
  /-- Releases and records the member's arrival at a rendezvous slot (R349). -/
  | arrive (b : Fin 16)
  /-- Waits for a rendezvous generation to complete and acquires (R349). -/
  | waitb (b : Fin 16)
  /-- Arrives at a rendezvous slot and waits for its generation in one issue (R349). -/
  | rdv (b : Fin 16)
  /-- Ends a group phase: release, arrival, wait for completion, acquire (R339). -/
  | gphase
  -- VIA, major opcode 12
  /-- Adds 8-bit elements modulo 2^8 (R112). -/
  | vaddI8 (w : Width) (d : VOp) (a : VOp) (b : VOp)
  /-- Adds 16-bit elements (R112). -/
  | vaddI16 (w : Width) (d : VOp) (a : VOp) (b : VOp)
  /-- Adds 32-bit elements (R112). -/
  | vaddI32 (w : Width) (d : VOp) (a : VOp) (b : VOp)
  /-- Subtracts 8-bit elements (R112). -/
  | vsubI8 (w : Width) (d : VOp) (a : VOp) (b : VOp)
  /-- Subtracts 16-bit elements (R112). -/
  | vsubI16 (w : Width) (d : VOp) (a : VOp) (b : VOp)
  /-- Subtracts 32-bit elements (R112). -/
  | vsubI32 (w : Width) (d : VOp) (a : VOp) (b : VOp)
  /-- Multiplies 16-bit elements modulo 2^16 (R112). -/
  | vmulI16 (w : Width) (d : VOp) (a : VOp) (b : VOp)
  /-- Multiplies 32-bit elements modulo 2^32 (R112). -/
  | vmulI32 (w : Width) (d : VOp) (a : VOp) (b : VOp)
  /-- Writes the high 32 bits of signed 32-bit products (R112). -/
  | vmulhI32 (w : Width) (d : VOp) (a : VOp) (b : VOp)
  /-- Signed 32-bit elementwise minimum (R112). -/
  | vminI32 (w : Width) (d : VOp) (a : VOp) (b : VOp)
  /-- Signed 32-bit elementwise maximum (R112). -/
  | vmaxI32 (w : Width) (d : VOp) (a : VOp) (b : VOp)
  /-- Natural 32-bit elementwise minimum (R112). -/
  | vminnN32 (w : Width) (d : VOp) (a : VOp) (b : VOp)
  /-- Natural 32-bit elementwise maximum (R112). -/
  | vmaxnN32 (w : Width) (d : VOp) (a : VOp) (b : VOp)
  /-- Bitwise AND of vectors (R112). -/
  | vand (w : Width) (d : VOp) (a : VOp) (b : VOp)
  /-- Bitwise OR of vectors (R112). -/
  | vor (w : Width) (d : VOp) (a : VOp) (b : VOp)
  /-- Bitwise XOR of vectors (R112). -/
  | vxor (w : Width) (d : VOp) (a : VOp) (b : VOp)
  /-- Bitwise a AND NOT b of vectors (R112). -/
  | vandn (w : Width) (d : VOp) (a : VOp) (b : VOp)
  /-- Shifts 32-bit elements left (R112). -/
  | vshlI32 (w : Width) (d : VOp) (a : VOp) (b : VOp)
  /-- Shifts 32-bit elements right logically (R112). -/
  | vshrN32 (w : Width) (d : VOp) (a : VOp) (b : VOp)
  /-- Shifts 32-bit elements right arithmetically (R112). -/
  | vsarI32 (w : Width) (d : VOp) (a : VOp) (b : VOp)
  /-- Saturating add of 8-bit elements (R112). -/
  | vaddsI8 (w : Width) (d : VOp) (a : VOp) (b : VOp)
  /-- Saturating add of 16-bit elements (R112). -/
  | vaddsI16 (w : Width) (d : VOp) (a : VOp) (b : VOp)
  /-- Saturating subtract of 8-bit elements (R112). -/
  | vsubsI8 (w : Width) (d : VOp) (a : VOp) (b : VOp)
  /-- Saturating subtract of 16-bit elements (R112). -/
  | vsubsI16 (w : Width) (d : VOp) (a : VOp) (b : VOp)
  /-- Compares 32-bit elements for equality into a mask (R113). -/
  | vceqI32 (w : Width) (k : Fin 8) (a : VOp) (b : VOp)
  /-- Signed 32-bit less-than compare into a mask (R113). -/
  | vcltI32 (w : Width) (k : Fin 8) (a : VOp) (b : VOp)
  /-- Natural 32-bit less-than compare into a mask (R113). -/
  | vcltnN32 (w : Width) (k : Fin 8) (a : VOp) (b : VOp)
  /-- Absolute value of 32-bit elements (R112). -/
  | vabsI32 (w : Width) (d : VOp) (a : VOp)
  /-- Multiply-adds 16-bit elements into the old destination (R112). -/
  | vmadI16 (w : Width) (d : VOp) (a : VOp) (b : VOp)
  /-- Adds four signed byte products into each 32-bit destination element (R112). -/
  | vdot4I8 (w : Width) (d : VOp) (a : VOp) (b : VOp)
  /-- Counts leading zeros of 32-bit elements (R112). -/
  | vclzI32 (w : Width) (d : VOp) (a : VOp)
  /-- Counts one bits of 32-bit elements (R112). -/
  | vpopcI32 (w : Width) (d : VOp) (a : VOp)
  -- VFA, major opcode 13
  /-- Adds FP32 elements (R114). -/
  | vfaddF32 (w : Width) (d : VOp) (a : VOp) (b : VOp)
  /-- Subtracts FP32 elements (R114). -/
  | vfsubF32 (w : Width) (d : VOp) (a : VOp) (b : VOp)
  /-- Multiplies FP32 elements (R114). -/
  | vfmulF32 (w : Width) (d : VOp) (a : VOp) (b : VOp)
  /-- Fused d + a x b on FP32 elements (R114). -/
  | vfmaF32 (w : Width) (d : VOp) (a : VOp) (b : VOp)
  /-- Fused d - a x b on FP32 elements (R114). -/
  | vfmsF32 (w : Width) (d : VOp) (a : VOp) (b : VOp)
  /-- FP32 elementwise minimum (R114). -/
  | vfminF32 (w : Width) (d : VOp) (a : VOp) (b : VOp)
  /-- FP32 elementwise maximum (R114). -/
  | vfmaxF32 (w : Width) (d : VOp) (a : VOp) (b : VOp)
  /-- Clears the sign of FP32 elements (R114). -/
  | vfabsF32 (w : Width) (d : VOp) (a : VOp)
  /-- Inverts the sign of FP32 elements (R114). -/
  | vfnegF32 (w : Width) (d : VOp) (a : VOp)
  /-- Starts an FP32 vector divide on the shared vector divide unit (R116). -/
  | vfdivF32 (w : Width) (d : VOp) (a : VOp) (b : VOp)
  /-- Starts an FP32 vector square root on the vector divide unit (R116). -/
  | vfsqrtF32 (w : Width) (d : VOp) (a : VOp)
  /-- FP32 equality compare into a mask (R114). -/
  | vfceqF32 (w : Width) (k : Fin 8) (a : VOp) (b : VOp)
  /-- FP32 less-than compare into a mask (R114). -/
  | vfcltF32 (w : Width) (k : Fin 8) (a : VOp) (b : VOp)
  /-- FP32 less-or-equal compare into a mask (R114). -/
  | vfcleF32 (w : Width) (k : Fin 8) (a : VOp) (b : VOp)
  /-- FP32 unordered compare into a mask (R114). -/
  | vfcunF32 (w : Width) (k : Fin 8) (a : VOp) (b : VOp)
  /-- Adds BF16 elements with one rounding (R115). -/
  | vfaddBf16 (w : Width) (d : VOp) (a : VOp) (b : VOp)
  /-- Multiplies BF16 elements (R115). -/
  | vfmulBf16 (w : Width) (d : VOp) (a : VOp) (b : VOp)
  /-- Fused multiply-add on BF16 elements (R115). -/
  | vfmaBf16 (w : Width) (d : VOp) (a : VOp) (b : VOp)
  /-- BF16 elementwise minimum (R115). -/
  | vfminBf16 (w : Width) (d : VOp) (a : VOp) (b : VOp)
  /-- BF16 elementwise maximum (R115). -/
  | vfmaxBf16 (w : Width) (d : VOp) (a : VOp) (b : VOp)
  /-- Scales FP32 elements by 2^n (R114). -/
  | vfsclF32 (w : Width) (d : VOp) (a : VOp) (b : VOp)
  /-- Rounds FP32 elements to integral values (R114). -/
  | vfrndF32 (w : Width) (d : VOp) (a : VOp)
  /-- Writes the larger magnitude of FP32 element pairs (R114). -/
  | vfamaxF32 (w : Width) (d : VOp) (a : VOp) (b : VOp)
  -- VCV, major opcode 14
  /-- Widens BF16 elements to FP32 exactly (R118). -/
  | cvtF32Bf16 (w : Width) (d : VOp) (a : VOp)
  /-- Narrows FP32 to BF16 under RM and updates MAXMAG (R118). -/
  | cvtBf16F32 (w : Width) (d : VOp) (a : VOp)
  /-- Converts INT32 elements to FP32 (R118). -/
  | cvtF32I32 (w : Width) (d : VOp) (a : VOp)
  /-- Converts FP32 elements to INT32 under R72 (R118). -/
  | cvtI32F32 (w : Width) (d : VOp) (a : VOp)
  /-- Quantises 32 FP32 elements to MXINT8 with a scalar scale (R118). -/
  | cvtMx8F32 (d : VOp) (a : VOp) (s : Src)
  /-- Quantises 32 FP32 elements to MXINT6 (R118). -/
  | cvtMx6F32 (d : VOp) (a : VOp) (s : Src)
  /-- Quantises 32 FP32 elements to MXINT4 (R118). -/
  | cvtMx4F32 (d : VOp) (a : VOp) (s : Src)
  /-- Dequantises an MXINT8 block to FP32 (R118). -/
  | cvtF32Mx8 (d : VOp) (a : VOp) (s : Src)
  /-- Dequantises an MXINT6 block to FP32 (R118). -/
  | cvtF32Mx6 (d : VOp) (a : VOp) (s : Src)
  /-- Dequantises an MXINT4 block to FP32 (R118). -/
  | cvtF32Mx4 (d : VOp) (a : VOp) (s : Src)
  /-- Narrows FP32 to FP8 E4M3 under RM and SAT8 (R118). -/
  | cvtF8e4F32 (w : Width) (d : VOp) (a : VOp)
  /-- Widens FP8 E4M3 to FP32 exactly (R118). -/
  | cvtF32F8e4 (w : Width) (d : VOp) (a : VOp)
  /-- Narrows FP32 to FP8 E5M2 (R118). -/
  | cvtF8e5F32 (w : Width) (d : VOp) (a : VOp)
  /-- Widens FP8 E5M2 to FP32 exactly (R118). -/
  | cvtF32F8e5 (w : Width) (d : VOp) (a : VOp)
  /-- Computes the block scale of 32 FP32 elements into every 64-bit lane (R120). -/
  | bscale (d : VOp) (a : VOp)
  /-- Narrows FP32 to BF16 with stochastic rounding (R118). -/
  | cvtBf16F32Sr (w : Width) (d : VOp) (a : VOp)
  -- VRD, major opcode 15
  /-- Pair-tree sum of FP32 lanes into every lane (R121). -/
  | vrsumF32 (w : Width) (d : VOp) (a : VOp)
  /-- Pair-tree maximum of FP32 lanes (R121). -/
  | vrmaxF32 (w : Width) (d : VOp) (a : VOp)
  /-- Pair-tree minimum of FP32 lanes (R121). -/
  | vrminF32 (w : Width) (d : VOp) (a : VOp)
  /-- Sum of INT32 lanes modulo 2^32 (R121). -/
  | vrsumI32 (w : Width) (d : VOp) (a : VOp)
  /-- Largest INT32 lane (R121). -/
  | vrmaxI32 (w : Width) (d : VOp) (a : VOp)
  /-- Smallest INT32 lane (R121). -/
  | vrminI32 (w : Width) (d : VOp) (a : VOp)
  /-- Largest FP32 lane magnitude (R121). -/
  | vramaxF32 (w : Width) (d : VOp) (a : VOp)
  /-- Largest rounded-up FP32 difference magnitude, fed to MAXMAG (R122). -/
  | vdeltaF32 (w : Width) (d : VOp) (a : VOp) (b : VOp)
  /-- Largest difference magnitude of BF16 pairs, fed to MAXMAG (R122). -/
  | vdeltaBf16 (w : Width) (d : VOp) (a : VOp) (b : VOp)
  /-- Largest FP32 magnitude, fed to MAXMAG (R122). -/
  | vmaxmagF32 (w : Width) (d : VOp) (a : VOp)
  /-- Largest BF16 magnitude as FP32, fed to MAXMAG (R122). -/
  | vmaxmagBf16 (w : Width) (d : VOp) (a : VOp)
  /-- Inclusive FP32 prefix sums by ScanTree (R121). -/
  | vscanF32 (w : Width) (d : VOp) (a : VOp)
  /-- Inclusive INT32 prefix sums (R121). -/
  | vscanI32 (w : Width) (d : VOp) (a : VOp)
  /-- Counts the one bits of a mask into every lane (R121). -/
  | kcnt (w : Width) (d : VOp) (k : Fin 8)
  -- VPM, major opcode 16
  /-- Copies a vector (R123). -/
  | vmov (w : Width) (d : VOp) (a : VOp)
  /-- Broadcasts a scalar to every element of a vector (R124). -/
  | vbc (w : Width) (d : VOp) (i : BitVec 4) (s : Src)
  /-- Extracts a 64-bit lane to a scalar register (R124). -/
  | vext (w : Width) (d : SReg) (a : VOp) (i : BitVec 4)
  /-- Inserts a scalar into a 64-bit lane of a vector (R124). -/
  | vins (w : Width) (d : VOp) (i : BitVec 4) (s : Src)
  /-- Byte permute of a by indices in b (R123). -/
  | vperm (w : Width) (d : VOp) (a : VOp) (b : VOp)
  /-- Interleaves 32-bit elements of two vectors (R123). -/
  | vzip (w : Width) (d : VOp) (a : VOp) (b : VOp)
  /-- Gathers the even elements of two vectors (R123). -/
  | vunzip (w : Width) (d : VOp) (a : VOp) (b : VOp)
  /-- Rotates 32-bit elements by an immediate count (R123). -/
  | vrotl (w : Width) (d : VOp) (a : VOp) (c : BitVec 5)
  /-- Selects bytes of a or b under mask kj (R123). -/
  | vsel (w : Width) (j : Fin 8) (d : VOp) (a : VOp) (b : VOp)
  /-- Bitwise AND of two masks (R125). -/
  | kand (k : Fin 8) (a : Fin 8) (b : Fin 8)
  /-- Bitwise OR of two masks (R125). -/
  | kor (k : Fin 8) (a : Fin 8) (b : Fin 8)
  /-- Bitwise XOR of two masks (R125). -/
  | kxor (k : Fin 8) (a : Fin 8) (b : Fin 8)
  /-- Inverts a mask (R125). -/
  | knot (k : Fin 8) (a : Fin 8)
  /-- Writes a scalar into one half of a cleared mask (R125). -/
  | kfroms (k : Fin 8) (h : Bool) (s : Src)
  /-- Reads one half of a mask into a scalar register (R125). -/
  | ktos (a : Fin 8) (h : Bool) (d : SReg)
  /-- Writes each lane's index into it (R123). -/
  | viota (w : Width) (d : VOp)
  -- SFU, major opcode 17
  /-- SFU base-2 exponential (R127). -/
  | vexp2 (w : Bool) (d : VOp) (a : VOp)
  /-- SFU natural exponential (R127). -/
  | vexp (w : Bool) (d : VOp) (a : VOp)
  /-- SFU base-2 logarithm (R127). -/
  | vlog2 (w : Bool) (d : VOp) (a : VOp)
  /-- SFU reciprocal (R127). -/
  | vrcp (w : Bool) (d : VOp) (a : VOp)
  /-- SFU reciprocal square root (R127). -/
  | vrsqrt (w : Bool) (d : VOp) (a : VOp)
  /-- SFU natural logarithm (R127). -/
  | vlog (w : Bool) (d : VOp) (a : VOp)
  /-- SFU sine (R127). -/
  | vsin (w : Bool) (d : VOp) (a : VOp)
  /-- SFU cosine (R127). -/
  | vcos (w : Bool) (d : VOp) (a : VOp)
  /-- SFU hyperbolic tangent (R127). -/
  | vtanh (w : Bool) (d : VOp) (a : VOp)
  /-- SFU logistic sigmoid (R127). -/
  | vsigm (w : Bool) (d : VOp) (a : VOp)
  /-- SFU error function (R127). -/
  | verf (w : Bool) (d : VOp) (a : VOp)
  /-- SFU SiLU (R127). -/
  | vsilu (w : Bool) (d : VOp) (a : VOp)
  -- WIN, major opcode 18
  /-- Reads and checks a windrow descriptor and makes the windrow ACTIVE (R148). -/
  | wcfg (w : Fin 16) (s : Src)
  /-- Writes a windrow or modulo-descriptor item, seeking for ORD (R149). -/
  | wset (w : Fin 16) (s : Src) (t : Src)
  /-- Reads a windrow or modulo-descriptor item (R149). -/
  | wget (w : Fin 16) (s : SReg) (t : Src)
  /-- Rewinds a windrow's cursor and empties its buffer (R150). -/
  | wrst (w : Fin 16)
  /-- Advances a windrow's cursor without data (R150). -/
  | wskip (w : Fin 16) (s : Src)
  /-- Starts counting the intersection of two IDX32 windrows (R151). -/
  | wisect (w : Fin 16)
  /-- Starts counting IDX32 elements below a bound (R151). -/
  | wicnt (w : Fin 16) (s : Src)
  /-- Writes a status snapshot of a windrow (R152). -/
  | wstat (w : Fin 16) (s : SReg)
  -- MXC, major opcode 19
  /-- Checks an mp value and queues a matrix routine call at commit (R174). -/
  | mcall (a : Fin 4) (r : BitVec 8) (m : Fin 8)
  /-- Writes a matrix parameter register (R178). -/
  | mset (m : Fin 8) (a : Src)
  /-- Reads a matrix parameter register (R178). -/
  | mget (m : Fin 8) (d : SReg)
  /-- Queues a bank clear at commit (R174). -/
  | mzero (a : Fin 4)
  /-- Waits for a bank, then converts and drains cells or checksums, optionally queueing a clear (R175). -/
  | mdrain (a : Fin 4) (clr : Bool) (v : VOp) (f : Fin 6)
  /-- Waits until a bank is not BUSY and raises any recorded error (R177). -/
  | mwait (a : Fin 4)
  /-- Writes a bank's status word (R177). -/
  | mstat (a : Fin 4) (d : SReg)
  /-- Writes DRM or DSAT of MXCFG (R178). -/
  | mcfg (a : Src) (s : Bool)
  -- RNG, major opcode 20
  /-- Loads a ring descriptor into an rb and binds it, with an init deferred to commit (R194). -/
  | rcfg (b : Fin 16) (s : Src) (i : Bool) (p : Bool) (c : Bool) (n : Bool)
  /-- Producer waits for its next slot to be FREE (R195). -/
  | racq (b : Fin 16)
  /-- Producer publishes its current slot at commit (R195). -/
  | rpub (b : Fin 16)
  /-- Consumer waits for its next slot to be FULL for it (R196). -/
  | rwait (b : Fin 16)
  /-- Consumer releases its current slot at commit (R196). -/
  | rrel (b : Fin 16)
  /-- Producer waits for a FREE slot and publishes an end-of-stream slot at commit (R195). -/
  | reos (b : Fin 16)
  /-- Writes a ring register item (R198). -/
  | rstat (b : Fin 16) (d : SReg) (i : Fin 7)
  /-- Replaces a ring's consumer mask at commit (R197). -/
  | rmask (b : Fin 16) (s : Src)
  -- ENG, major opcode 21
  /-- Sends a memory copy command to an engine at commit (R262). -/
  | ecopy (a : Bool) (l : Bool) (s : Scope) (c : Src) (t : Fin 64)
  /-- Sends an indexed gather command at commit (R262). -/
  | egath (a : Bool) (l : Bool) (s : Scope) (c : Src) (t : Fin 64)
  /-- Sends an indexed scatter command at commit (R262). -/
  | escat (a : Bool) (l : Bool) (s : Scope) (c : Src) (t : Fin 64)
  /-- Sends a Gleaner stream that fills a ring's slots with tiles (R202). -/
  | esubs (a : Bool) (l : Bool) (s : Scope) (c : Src) (t : Fin 64)
  /-- Sends a Gleaner stream that writes a ring's slots to memory (R202). -/
  | ecoll (a : Bool) (l : Bool) (s : Scope) (c : Src) (t : Fin 64)
  /-- Sends a halo exchange with a peer package at commit (R397). -/
  | ehalo (a : Bool) (l : Bool) (c : Src) (t : Fin 64)
  /-- Sends a system group reduction at commit (R398). -/
  | ered (a : Bool) (l : Bool) (c : Src) (t : Fin 64)
  /-- Sends a checkpoint command over CKPT pages (R262). -/
  | eckpt (a : Bool) (l : Bool) (s : Scope) (c : Src) (t : Fin 64)
  /-- Sends a rollback command over CKPT pages (R262). -/
  | erolb (a : Bool) (l : Bool) (s : Scope) (c : Src) (t : Fin 64)
  -- TSK, major opcode 22
  /-- Privileged enqueue of a launch block into a queue of its field (R320). -/
  | enq (q : Fin 64) (a : Src)
  /-- Reads a successor list and ends the member, naming successors at commit (R319). -/
  | exit (a : Src) (n : Fin 5)
  /-- Writes the member index (R321). -/
  | tid (d : SReg)
  /-- Reads a parameter word of the launch block (R321). -/
  | tparm (d : SReg) (j : Fin 64)
  /-- Writes a snapshot of a queue's status (R329). -/
  | qstat (d : SReg) (q : Fin 64)
  -- STP, major opcode 23
  /-- Reads the core's copy of a step register (R370). -/
  | srd (d : SReg) (s : Fin 17)
  /-- Writes a step register through the SSQ and waits for every copy (R370). -/
  | swr (a : Src) (s : Fin 17)
  /-- Declares a tile's new version and drift at commit (R383). -/
  | tmark (a : Src) (b : Src)
  /-- Marks the member's LB run for recording in the Stook cache (R384). -/
  | rrec (a : Src)
  /-- Evaluates the skip rule for an LB without changing state (R385). -/
  | rprobe (d : SReg) (a : Src)
  /-- Invalidates or kills the reuse entry of an LB's key (R386). -/
  | rgate (a : Src)
  /-- Reads MAXMAG (R387). -/
  | mmrd (d : SReg)
  /-- Clears MAXMAG (R387). -/
  | mmclr
  -- GST, major opcode 24
  /-- Reads a guest packet and posts it to a guest queue at commit (R402). -/
  | gpost (q : Fin 8) (a : Src) (t : Fin 64)
  /-- Waits for a guest token and acts on its status (R402). -/
  | gwait (q : Fin 8) (t : Fin 64)
  /-- Writes a guest queue word or token status (R402). -/
  | gstat (q : Fin 8) (a : Src) (d : SReg)
  /-- Sends a pre-emption request to the guest and waits for its acknowledgement (R403). -/
  | gpre (q : Fin 8)
  -- CHK, major opcode 25
  /-- Raises DUPMIS when two scalars differ (R413). -/
  | chkeq (a : Src) (b : Src)
  /-- Raises DUPMIS when two vectors differ (R413). -/
  | chkv (v : Fin 16) (w : Fin 16)
  /-- Folds a value into SIGREG (R413). -/
  | sig (a : Src)
  /-- Reads SIGREG (R413). -/
  | sigrd (d : SReg)
  /-- Clears SIGREG (R413). -/
  | sigclr
  -- SYS, major opcode 26
  /-- Raises SYSCALL with its code (R297). -/
  | trap (c : BitVec 12)
  /-- Raises BREAK with its code (R297). -/
  | brk (c : BitVec 12)
  /-- Reads a system register (R291). -/
  | rdsys (d : SReg) (r : Fin 20)
  /-- Writes a user-writable system register at issue (R291). -/
  | wrsys (a : Src) (r : Fin 20)
  /-- Sets the context's Loft scratch request LREQ (R209). -/
  | lphase (n : Fin 15)
  -- PRV, major opcode 27
  /-- Commits the region and returns from a trap to EPC at the previous level (R296). -/
  | rfe
  /-- Requests the save of a context slot at its next quiet boundary (R300). -/
  | ctxsave (a : Src) (b : Src)
  /-- Checks a saved image and restores it into a free slot (R304). -/
  | ctxrest (a : Src) (b : Src)
  /-- Privileged write of any system register except REGENT (R292). -/
  | wrsysp (a : Src) (r : Fin 20)
  /-- Commits the region and ends the context FAULTED (R298). -/
  | halt
  /-- Waits for the matrix queue to empty and loads a microprogram routine (R179). -/
  | mpld (a : Src) (b : Src)
  /-- Drops cached translations of a KID range and waits for every holder (R250). -/
  | tlbinv (a : Src) (b : Src)
  /-- Loads keys and table roots for a KID (R253). -/
  | kidset (a : Src) (b : Src)
  /-- Invalidates everything under a KID and marks it DEAD (R255). -/
  | kidkill (a : Src)
  -- micro-operations of the matrix engine (R166)
  /-- Micro-operation: releases current slots and ends the call (R166). -/
  | uEnd
  /-- Micro-operation: releases the A slot and acquires the next published A slot (R166). -/
  | uGeta
  /-- Micro-operation: releases the B slot and acquires the next B slot (R166). -/
  | uGetb
  /-- Micro-operation: accumulates the current slot pair into the bank (R170). -/
  | uMac
  /-- Micro-operation: releases the current A slot (R166). -/
  | uRela
  /-- Micro-operation: releases the current B slot (R166). -/
  | uRelb
  /-- Micro-operation: opens a loop of KSL passes (R166). -/
  | uLoopk
  /-- Micro-operation: ends a loop pass (R166). -/
  | uEndl
  /-- Micro-operation: turns checksum forming on (R166). -/
  | uCson
  /-- Micro-operation: turns checksum forming off (R166). -/
  | uCsoff
  /-- Micro-operation: zeroes cells, RP and CP (R166). -/
  | uZero
  /-- Micro-operation: selects negation or addition of later MAC terms (R166). -/
  | uSub (s : Bool)
  /-- Micro-operation: enables K-blocks for later MACs (R166). -/
  | uKmask (k : BitVec 4)
  /-- Micro-operation: writes the bank's TAG field (R166). -/
  | uTag (t : BitVec 8)
  /-- Micro-operation: does nothing (R166). -/
  | uNop
  /-- Micro-operation: acquires the next A and B slots together (R166). -/
  | uGetab
  -- steps of the other agents, and the command-graph nodes
  /-- A context's next bundle is fetched, checked and issues once its stall and interlocks allow (R27). -/
  | bundleIssue (core : Nat)
  /-- The core selects which resident context issues next (R287). -/
  | contextSelect (core : Nat)
  /-- A STALLED context's wait is satisfied and it becomes YIELDED (R285). -/
  | contextWake (core slot : Nat)
  /-- A LOADING slot finishes dispatch or restore and becomes READY or YIELDED (R285). -/
  | contextLoadComplete (core slot : Nat)
  /-- The running-cycle count exceeds PREBOUND and the next bundle raises PREBOUND (R299). -/
  | preboundExpiry (core slot : Nat)
  /-- An interlocked load's data returns and writes its destination (R31). -/
  | loadReturn (core slot id : Nat)
  /-- A scalar divide or remainder completes and writes its destination (R88). -/
  | divideComplete (core slot id : Nat)
  /-- A vector divide or square root completes and frees the unit (R116). -/
  | vectorDivideComplete (core slot id : Nat)
  /-- A committing bundle is accepted once its conditions hold and hands off the old region (R273). -/
  | regionCommitAccept (core slot : Nat)
  /-- After the earlier groups have performed, the region's ring, engine, matrix, reuse and exit effects take effect in order (R274). -/
  | deferredEffectHandoff (core slot : Nat)
  /-- An RM quiet bundle or kernel-iteration entry passes the quiet-boundary test after queued clears complete (R183). -/
  | quietBoundaryPass (core slot : Nat)
  /-- A committed store, strl or segment performs at its scope and frees its buffer entry (R224). -/
  | storePerform (core slot : Nat)
  /-- An atomic executes indivisibly at the point its scope and address select (R241). -/
  | atomicExecute (core slot : Nat)
  /-- An atomic's old value returns and writes d, or a recorded error is kept (R240). -/
  | atomicReturn (core slot : Nat)
  /-- A translation walk completes and caches a translation or records a fault (R249). -/
  | pageWalkComplete (core kid va : Nat) (write : Bool)
  /-- The first write to a CLEAN CKPT page has copied the live frame and flipped SEL (R260). -/
  | ckptCopyComplete (core kid va : Nat)
  /-- A windrow starts fetching an element vector ahead of its cursor (R138). -/
  | windrowFetch (core slot w : Nat)
  /-- A fetched element vector, or its recorded fault, lands in the windrow buffer (R138). -/
  | windrowFetchComplete (core slot w : Nat)
  /-- A wisect or wicnt completes, writing ICNT or SKC and leaving BUSY (R151). -/
  | windrowMergeComplete (core slot w : Nat)
  /-- The array takes the oldest eligible command of the core's queue (R168). -/
  | matrixCommandStart (core : Nat)
  /-- A MAC's terms land in the bank 12 cycles after its last array cycle (R168). -/
  | macLand (core bank : Nat)
  /-- An mzero or clear completes after 8 array cycles, emptying the bank and releasing held slots (R161). -/
  | clearComplete (core bank : Nat)
  /-- An mdrain's converted data is ready and written or pushed (R175). -/
  | drainDataReady (core slot id : Nat)
  /-- A multicast publish's copies complete and the slot becomes FULL (R189). -/
  | multicastCopyComplete (sheaf rid q : Nat)
  /-- A Gleaner finds its next slot FREE and starts writing a tile (R202). -/
  | gleanerTileStart (sheaf rid : Nat)
  /-- A Gleaner tile's last copy is written and the slot becomes FULL (R201). -/
  | gleanerTileComplete (sheaf rid : Nat)
  /-- An ecoll stream finds a FULL slot, writes it to memory and releases it (R202). -/
  | gleanerCollect (sheaf rid : Nat)
  /-- After a fault, the Gleaner publishes an error EOS slot when its next slot frees (R203). -/
  | gleanerErrorEos (sheaf rid : Nat)
  /-- A Loft step finishes becoming scratchpad and SCR rises (R210). -/
  | loftStepGrowComplete (core : Nat)
  /-- A Loft step finishes returning to L1 and SCR falls (R210). -/
  | loftStepShrinkComplete (core : Nat)
  /-- An engine translates, checks and transfers one 4 KiB chunk of a command (R262). -/
  | engineChunk (field cmd : Nat)
  /-- An engine or guest command completes and sets its token DONE with a status (R238). -/
  | engineTokenComplete (field cmd : Nat)
  /-- Two packages' ehalo commands of one tag match and start moving rows (R397). -/
  | haloMatch (cmd : Nat) (peerCount peerLen : Nat) (rows : List (BitVec 8)) (delivered : Bool)
  /-- A round of ered commands from every package matches and is reduced (R398). -/
  | reductionRoundMatch (cmd : Nat) (agree : Bool) (peers : List (List (BitVec 32)))
  /-- A base die takes a 64-byte read packet (R217). -/
  | rd64 (stack addr tag : Nat)
  /-- A base die takes a 256-byte read packet (R217). -/
  | rd256 (stack addr tag : Nat)
  /-- A base die queues a masked line write and acknowledges it (R218). -/
  | wrm (stack addr kid : Nat) (mask : BitVec 64) (data : BitVec 512)
  /-- A base die takes an atomic packet once queued writes to its line have left (R217). -/
  | atm (stack addr kid tag : Nat) (op : Fin 8) (four : Bool) (operand compare : BitVec 64)
  /-- A queued base-die write leaves for the Crib or DRAM (R218). -/
  | writeQueueDrain (stack : Nat)
  /-- A packet reply with its tag returns to the field (R217). -/
  | packetReply (stack tag : Nat)
  /-- A slice's miss count reaches WINDOW and clears the filter (R220). -/
  | cribFilterWindowReset (stack slice : Nat)
  /-- The hottest layer crosses T1 and refresh interval halves (R222). -/
  | hbmTempAboveT1 (stack temp : Nat)
  /-- Temperature falls below T1 - 3 and T1 action clears (R222). -/
  | hbmTempBelowT1 (stack temp : Nat)
  /-- The hottest layer crosses T2 and stack bandwidth is throttled (R222). -/
  | hbmTempAboveT2 (stack temp : Nat)
  /-- Temperature falls below T2 - 3 and throttling clears (R222). -/
  | hbmTempBelowT2 (stack temp : Nat)
  /-- The hottest layer reaches T3 and the shutdown signal is asserted (R222). -/
  | hbmTempAboveT3 (stack temp : Nat)
  /-- An LB arrives at a queue, opening it or going to the ring tail or waiting when full (R324). -/
  | lbArrival (field : Nat)
  /-- An exit or skip names an LB, decrementing JOIN and enqueueing it at zero (R309). -/
  | lbNaming (field : Nat)
  /-- An ENQUEUED LB reaches its queue's slot set, becomes BLOCKED and raises writer counts (R309). -/
  | lbEnterSlot (field q : Nat)
  /-- The Thresher dispatches members of a READY head LB into free slots (R311). -/
  | lbDispatch (field q : Nat) (place : List (Nat × Nat))
  /-- An exiting member's namings are handed off and it becomes RETIRED, releasing its banks (R319). -/
  | memberRetire (core slot : Nat)
  /-- A PRE queue's READY head that does not fit makes the Thresher request saves of lower-ranked members (R327). -/
  | thresherSaveRequest (field core slot : Nat)
  /-- After 4,096 stuck cycles the Thresher grants pool entries, spills or posts a queue record (R328). -/
  | fieldStuckStep (field : Nat)
  /-- A HELD queue retries its ring write (R326). -/
  | queueHeldRetry (field q : Nat)
  /-- A record is written to a host ring when room allows and PIDX advances (R331). -/
  | hostRingPost (field : Nat)
  /-- The oldest pending entry's age reaches COALT and the MSI-X write is sent (R334). -/
  | hostRingCoalesceTimer (ring : Nat)
  /-- A tmark update reaches the home Thresher and advances VER and D (R373). -/
  | tmarkApply (field : Nat)
  /-- A group phase's completion reaches a waiting member (R340). -/
  | phaseComplete (core slot : Nat)
  /-- A rendezvous generation completes and releases its waiters (R346). -/
  | generationComplete (core slot b : Nat)
  /-- A write of SSQDB makes the SSQ read its control block and start or stop (R355). -/
  | ssqDoorbell
  /-- SSQ node that re-arms if asked and enqueues an LB onto the launch list (R362). -/
  | nodeLaunch (q : Fin 64) (grp : Fin 16) (re : Bool) (lb : BitVec 56) (join : BitVec 16)
  /-- SSQ node that waits for launched LBs of selected groups to finish (R363). -/
  | nodeWaitk (gmask : BitVec 16)
  /-- SSQ node that advances STEP, loads the schedule row and empties the launch list (R364). -/
  | nodeStep
  /-- SSQ node that branches when a comparison holds (R365). -/
  | nodeCond (src : Bool) (sreg : Fin 17) (op : Fin 8) (breg : Bool) (mem b : BitVec 64) (target : BitVec 56)
  /-- SSQ node that posts an entry with a payload to a host ring (R366). -/
  | nodePost (ring : Fin 16) (tag : BitVec 16) (payload : BitVec 64)
  /-- SSQ node that writes a step register (R367). -/
  | nodeSetr (sreg : Fin 17) (value : BitVec 64)
  /-- SSQ node that waits for earlier writes to perform at a scope (R367). -/
  | nodeFence (scope : Scope)
  /-- SSQ node that writes CODE and stops the SSQ (R367). -/
  | nodeStop (code : BitVec 16)
  /-- A waiting SSQ node's condition is met and its effect completes (R355). -/
  | ssqWaitSatisfied
  /-- The Granger starts the standby SSQ, which writes STATE TAKEN (R369). -/
  | ssqTakeover
  /-- The Granger starts training a link (R389). -/
  | linkTrainingStart (link : Nat)
  /-- A training attempt ends ACTIVE, DEGRADED or, after three failures, DOWN (R389). -/
  | linkTrainingResult (link : Nat) (ok full : Bool)
  /-- A link lane fails; the link spares, retrains or goes DOWN (R389). -/
  | laneFailure (link : Nat) (widthLeft : Bool)
  /-- A flit fails replay 16 times and the link goes DOWN (R389). -/
  | flitReplayLimit (link : Nat)
  /-- The Granger requests a drain and the link stops accepting packets (R389). -/
  | linkDrainRequest (link : Nat)
  /-- A draining link has nothing in flight and goes DOWN (R389). -/
  | linkDrainComplete (link : Nat)
  /-- A Jozer flit arrives; a CRC failure causes a replay (R390). -/
  | flitReceive (link : Nat) (seq acked : BitVec 12) (cls : BitVec 4) (crcOk : Bool)
  /-- On packet loss the Granger switches to the alternate route and lost packets are accounted (R392). -/
  | routeSwitch (dest cls : Nat)
  /-- A committed gpost waits for ring room, writes the packet and advances PIDX (R402). -/
  | guestPacketWrite (core slot tok : Nat)
  /-- The guest completes a packet with OK or SAVED (R401). -/
  | guestCompletion (q : Nat) (ctx : BitVec 11) (tok : Fin 64) (saved : Bool)
  /-- The guest reports a refused translation for a packet (R401). -/
  | guestFaultPacket (q : Nat) (ctx : BitVec 11) (tok : Fin 64) (cause : BitVec 8) (va : BitVec 56)
  /-- The guest acknowledges gpre and the queue becomes PAUSED (R403). -/
  | guestPreemptAck (q : Nat)
  /-- The guest acknowledges a translation invalidation (R401). -/
  | guestInvalidationAck (count : Nat)
  /-- A contract breach or late acknowledgement quarantines the Lean-to socket (R404). -/
  | guestBreach (code : BitVec 4)
  /-- A host write to a BAR0 register without its own row (R394). -/
  | hostRegisterWrite (offset : Nat) (value : BitVec 64)
  /-- Mailbox request 0x01: returns signed hashes, versions and the nonce (R421). -/
  | attest (nonce : BitVec 256)
  /-- Mailbox request 0x02: writes a flash image (R420). -/
  | writeFlashImage (which : Bool) (image : List (BitVec 8))
  /-- Mailbox request 0x03: resets TRT entries and displaces reuse entries naming them (R372). -/
  | resetTrtEntries (tiles : List (BitVec 20))
  /-- Mailbox request 0x04: unpins Crib lines of a page (R221). -/
  | unpinCribLines (pa bytes : Nat)
  /-- Mailbox request 0x05: clears LOST COH lines to zeros (R411). -/
  | clearLostLines (lines : List Nat)
  /-- Mailbox request 0x06: releases a quarantined Lean-to to DOWN (R389). -/
  | releaseLeanTo
  /-- Mailbox request 0x07: makes a ring entry UNINIT and reassesses Loft floors (R422). -/
  | quiesceRingEntry (field sheaf rid : Nat)
  /-- Mailbox request 0x08: records the hash of a kernel image header (R422). -/
  | registerKernelHeader (kid va : Nat)
  /-- The Granger runs boot stages 1 to 6 or ends in BOOTFAIL (R416). -/
  | powerOnReset
  /-- Every 10 µs the Granger measures power and adds or removes issue bubbles (R419). -/
  | powerSample (watts : Nat)
  /-- A failed package's only modified COH lines are marked LOST at their home (R411). -/
  | packageLoss (lines : List Nat)
  /-- The package enters fatal error, freezes issue, drains links and writes the dump (R423). -/
  | fatalFreeze (cause : BitVec 8)
  /-- The Thresher restores a saved member of its queue into a slot that has become free, ahead of the queue's undispatched LBs, with the effect of ctxrest (R327). -/
  | thresherRedispatch (field q core slot : Nat)
  /-- A host read or write of device HBM arrives over CXL.mem and is served, or is dropped when it writes the dump area while STATUS is FROZEN or DUMPED (R394). -/
  | cxlMemRequest (write : Bool) (pa : Nat) (data : List (BitVec 8))
  /-- The guest asks the 9624's translation agent to translate an address under a queue's KID and CTX, and the agent grants or refuses it (R401). -/
  | guestTranslationRequest (q : Nat) (ctx : BitVec 11) (va : Nat) (write : Bool)
  /-- A COH request arriving over a Jozer link, such as a line fetch or a SYS-release write-back, is served at the home directory of its line (R243). -/
  | cohRequest (line : Nat) (write : Bool) (pkg : Nat) (mask : BitVec 64) (data : BitVec 512)
  deriving DecidableEq, Repr, Inhabited

/-- A slot: the header of R20 with its instruction. `last` is E, `guard` is G. -/
structure Slot where
  last  : Bool
  guard : Fin 16
  op    : Instr
  deriving DecidableEq, Repr, Inhabited

/-- Whose move the next step makes. -/
inductive Turn where
  /-- No agent moves: one cycle passes. -/
  | tick
  /-- The running context of a core issues its next bundle. -/
  | issue (core : Nat)
  /-- The matrix engine of a core runs its next micro-operation. -/
  | engine (core : Nat)
  /-- The Step Sequencer processes its next node. -/
  | ssq
  /-- Another event of the opcode table. -/
  | event (i : Instr)
  /-- A frozen package writes its dump (R423). -/
  | dump
  /-- A line of HBM takes an uncorrectable error or holds poison (R226, R278); a cell of a bank takes an uncorrectable error (R160). -/
  | badLine (line : Nat) (poisoned : Bool)
  | badCell (core : Nat) (bank : Fin 4) (cell : Nat)
  /-- The guest writes memory through a translation it holds, or takes a packet (R401). -/
  | guestWrite (q : Fin 8) (va : Nat) (bytes : List (BitVec 8))
  | guestTake (q : Fin 8)
  /-- The host writes MBOX in its configuration space, or reads STATUS and MBOX there (R420), or writes or reads BAR0 (R394). -/
  | mbox (addr : BitVec 64)
  | capRead
  | barWrite (offset : Nat) (bytes : List (BitVec 8))
  | barRead (offset n : Nat)
  /-- The host or the guest stores to its own memory behind a link window (R393). -/
  | windowWrite (pa : Nat) (bytes : List (BitVec 8))
  /-- Another package writes a line of its memory (R243); a kernel of a SYS group faults in another package, or an arrival of it is lost on its way
  (R341, R392). -/
  | peerWrite (pkg line : Nat) (kid : BitVec 8) (mask : BitVec 64) (data : BitVec 512)
  | peerFault (field run : Nat)
  | arrivalLost (field run : Nat)
  /-- A wisect or wicnt in progress compares the elements at its cursors (R151). -/
  | mergeStep (core slot w : Nat)
  /-- The L2 carve of a field replaces a clean line (R214). -/
  | carveDrop (field line : Nat) (kid : BitVec 8)
  /-- A Jozer link puts its next flit on the wire, takes the bytes of one that arrives, or replays from one that the other side dropped (R390). -/
  | putFlit (link : Nat)
  | takeFlit (link : Nat) (flit : List (BitVec 8))
  | replayFlit (link : Nat) (seq : BitVec 12)
  /-- The shadow of a locked yoke's core computes the next bundle's signature wrongly (R407). -/
  | upset (core : Nat) (bits : BitVec 64)
  /-- The configuration blob in flash is written from outside (R416 to R418). -/
  | flashBlob (record : List (BitVec 8)) (table : List (Nat × BitVec 8)) (good : Bool)
  deriving DecidableEq, Repr, Inhabited

end Sys2Proof
end

