-- ==== Sys2Proof/Config.lean ====
section
/-! DEFINITION. What an implementation fixes and the spec leaves open. Each value is an opaque constant: nothing can be proved of it.
The ones over a number are applied to the counter `draws` of State, so that every use is a fresh one. -/

namespace Sys2Proof.Config

/-- Whose move comes next where no rule fixes it (log 1). -/
opaque schedule : Nat → Turn

/-- Whether a line that an L1 holds is still there when a load looks for it (R224: replacement by the L1). -/
opaque keepsLine : Nat → Bool

/-- Whether a write of an engine command without L is still not visible (R239). -/
opaque late : Nat → Bool

/-- Whether granules of the vector loads of a bundle are read before the others (R227). -/
opaque splitsLoad : Nat → Bool

/-- The granules of a store that perform together (R227). -/
opaque granules : Nat → BitVec 8

/-- Whether a cached translation is still there when an access looks for it (R248). -/
opaque keepsTranslation : Nat → Bool

/-- Whether fetch still sees a word of code as it was at its kernel's dispatch (R48): the cycle, the context slot and the address. -/
opaque seesOld : Nat → Nat → Nat → Bool

/-- Which of the 16 entries of a 64 KiB leaf a translation uses where they differ (R246). -/
opaque pickEntry : Nat → Fin 16

/-- The commit signature that a yoke's primary forms of a bundle (R407): what it covers is given, its function is not. -/
opaque signature : Nat → BitVec 64

/-- The cycles an interlocked result takes beyond what a rule fixes (R31, R88, R90, R116, R217). -/
opaque latency : Nat → Nat

/-- The result bits of an SFU form on an element, where R128 does not fix them (R127): the form by its minor code. -/
opaque sfu : Fin 12 → BitVec 32 → BitVec 32

/-- A line that was enciphered under one data key and tweak key, deciphered under others (R254): both pairs of keys, the line's number and what
was enciphered. -/
opaque recipher : BitVec 128 × BitVec 128 → BitVec 128 × BitVec 128 → Nat → BitVec 512 → BitVec 512

/-- The order in which the contributions of an ered are added (R82, R398): the pair that each addition takes. -/
opaque pickPair : Nat → Nat → Nat × Nat

/-- What a COH line of another package holds before any write of it is known here, as a KID reads it: by the line's key (R243). -/
opaque remoteLine : Nat → BitVec 8 → BitVec 512

/-- The reader whose line a read packet fetches: its KID, and NOCRIB and CRIBPIN of its page (R217, R221). -/
opaque packetReader : Nat → BitVec 8 × Bool × Bool

/-- The CRC-64 of a flit, whose polynomial is not given (R390). -/
opaque crc64 : List (BitVec 8) → BitVec 64

/-- The hop count that a flit carries, by destination and class (R390, R391). -/
opaque hops : Nat → Nat → Nat

/-- The other packages of a system group, by its GNUM and their place among them (R337, R391). -/
opaque groupPeer : Nat → Nat → Nat

/-- The package that an ered's contribution goes to first, by the command (R391, R398). -/
opaque peerOf : Nat → Nat

/-- The SM3 hash of bytes, the version that a firmware image carries, and the signature under the device key (R421). -/
opaque sm3 : List (BitVec 8) → BitVec 256
opaque imageVersion : List (BitVec 8) → BitVec 32
opaque signature2 : List (BitVec 8) → BitVec 512

/-- LREQ of an image whose field holds 15, which no context has (R206, R302). -/
opaque openLreq : BitVec 4

/-- A byte of the sealed part of an image, by the image's serial number and offset (R301). -/
opaque sealByte : Nat → Nat → BitVec 8

/-- A byte of a record whose layout is not published: the Granger's dump and telemetry (R423), an attestation (R421). -/
opaque grangerByte : Nat → Nat → BitVec 8

/-- The bits of a NaN's or other value's encoding that the spec leaves open. -/
opaque freeWord : Nat → BitVec 64

end Sys2Proof.Config
end

