-- ==== Sys2Proof/Machine/Operands.lean ====
section
/-! DEFINITION. What each instruction form names: the registers it reads and writes (R24, R269), the windrows it reads and pushes
with their widths (R109, R118), its slot group (R22), its datapath width and its fixed latency (R31). -/

namespace Sys2Proof

/-- A register that the rules on sources, destinations and region tracking name (R24, R269). -/
inductive Reg where
  | s (n : Fin 63)
  | p (n : Fin 16)
  | v (n : Fin 16)
  | k (n : Fin 8)
  | md (n : Fin 8)
  | mp (n : Fin 8)
  | sys (n : Fin 20)
  | mxcfg
  deriving DecidableEq, Repr, Inhabited

/-- s0 and p0 discard writes and are not tracked (R24, R269). -/
def Reg.isConst : Reg → Bool
  | .s n => n.val == 0
  | .p n => n.val == 0
  | _ => false

/-- The register a source field names; a literal names none (R23). -/
def Src.regs : Src → List Reg
  | .reg r => [.s r]
  | .lit _ => []

/-- The vector register a vector field names; a windrow is none (R36). -/
def VOp.regs : VOp → List Reg
  | .reg v => [.v v]
  | .win _ => []

/-- The windrow a vector field names, with the width at which the slot uses it (R109). -/
def VOp.wins (o : VOp) (bits : Nat) : List (Fin 16 × Nat) :=
  match o with
  | .reg _ => []
  | .win w => [(w, bits)]

/-- The width in bits that a W field gives (R36). -/
def Width.bits : Width → Nat
  | .w256 => 256
  | .w512 => 512
  | .w1k => 1024

/-- A 5-bit scalar field of ATM names s0 to s31 (R240). -/
def d32 (r : Fin 32) : Fin 63 := ⟨r.val, by omega⟩

/-- The system registers that region tracking follows (R269): TVEC, PREBOUND, SBCHK, FPMODE, FPFLAGS, RNGSEED, MAXMAG, SIGREG, KID,
DOMAIN, RANK, SLICE and INJECT. -/
def sysTracked (r : Fin 20) : List Reg :=
  if r.val = 4 ∨ (8 ≤ r.val ∧ r.val ≤ 19) then [.sys r] else []

/-- The groups of R22. -/
inductive Group where
  | bc | scalar | vector | sfu | mem | branch | other
  /-- A micro-operation, a node or an event: no slot of a bundle. -/
  | notSlot
  deriving DecidableEq, Repr, Inhabited

/-- Registers an instruction reads (R269), its guard apart. -/
def Instr.reads : Instr → List Reg
  | .add _ a b => a.regs ++ b.regs
  | .sub _ a b => a.regs ++ b.regs
  | .mul _ a b => a.regs ++ b.regs
  | .mulh _ a b => a.regs ++ b.regs
  | .mulhn _ a b => a.regs ++ b.regs
  | .and _ a b => a.regs ++ b.regs
  | .or _ a b => a.regs ++ b.regs
  | .xor _ a b => a.regs ++ b.regs
  | .andn _ a b => a.regs ++ b.regs
  | .shl _ a b => a.regs ++ b.regs
  | .shr _ a b => a.regs ++ b.regs
  | .sar _ a b => a.regs ++ b.regs
  | .min _ a b => a.regs ++ b.regs
  | .max _ a b => a.regs ++ b.regs
  | .minn _ a b => a.regs ++ b.regs
  | .maxn _ a b => a.regs ++ b.regs
  | .addi _ a _ => a.regs
  | .andi _ a _ => a.regs
  | .ori _ a _ => a.regs
  | .xori _ a _ => a.regs
  | .shli _ a _ => a.regs
  | .shri _ a _ => a.regs
  | .sari _ a _ => a.regs
  | .rsubi _ a _ => a.regs
  | .div _ a b => a.regs ++ b.regs
  | .divn _ a b => a.regs ++ b.regs
  | .rem _ a b => a.regs ++ b.regs
  | .remn _ a b => a.regs ++ b.regs
  | .clz _ a => a.regs
  | .ctz _ a => a.regs
  | .popc _ a => a.regs
  | .brev _ a => a.regs
  | .bswap _ a => a.regs
  | .sext _ a b => a.regs ++ b.regs
  | .zext _ a b => a.regs ++ b.regs
  | .bfx _ a b => a.regs ++ b.regs
  | .bfi d a b => a.regs ++ b.regs ++ [.s d]
  | .abs _ a => a.regs
  | .neg _ a => a.regs
  | .fadd _ a b => a.regs ++ b.regs
  | .fsub _ a b => a.regs ++ b.regs
  | .fmul _ a b => a.regs ++ b.regs
  | .fdiv _ a b => a.regs ++ b.regs
  | .fsqrt _ a => a.regs
  | .fmin _ a b => a.regs ++ b.regs
  | .fmax _ a b => a.regs ++ b.regs
  | .fabs _ a => a.regs
  | .fneg _ a => a.regs
  | .fitof _ a => a.regs
  | .ftoi _ a => a.regs
  | .fround _ a => a.regs
  | .ceq _ _ a b => a.regs ++ b.regs
  | .cne _ _ a b => a.regs ++ b.regs
  | .clt _ _ a b => a.regs ++ b.regs
  | .cge _ _ a b => a.regs ++ b.regs
  | .cltn _ _ a b => a.regs ++ b.regs
  | .cgen _ _ a b => a.regs ++ b.regs
  | .ctst _ _ a b => a.regs ++ b.regs
  | .fceq _ _ a b => a.regs ++ b.regs
  | .fclt _ _ a b => a.regs ++ b.regs
  | .fcle _ _ a b => a.regs ++ b.regs
  | .fcun _ _ a b => a.regs ++ b.regs
  | .pand _ _ q r => [.p q] ++ [.p r]
  | .por _ _ q r => [.p q] ++ [.p r]
  | .pxor _ _ q r => [.p q] ++ [.p r]
  | .pandn _ _ q r => [.p q] ++ [.p r]
  | .kany _ _ k => [.k k]
  | .kall _ _ k => [.k k]
  | .knone _ _ k => [.k k]
  | .bi a => a.regs
  | .calli a => a.regs
  | .ret a => a.regs
  | .bk k _ => [.k k]
  | .bkn k _ => [.k k]
  | .loop a _ => a.regs
  | .wrlp a _ _ => a.regs
  | .replay a _ => a.regs
  | .ldb _ b m i => b.regs ++ (if i = 8 then [.md m] else [])
  | .ldh _ b m i => b.regs ++ (if i = 8 then [.md m] else [])
  | .ldw _ b m i => b.regs ++ (if i = 8 then [.md m] else [])
  | .ldd _ b m i => b.regs ++ (if i = 8 then [.md m] else [])
  | .ldv256 _ b m i => b.regs ++ (if i = 8 then [.md m] else [])
  | .ldv512 _ b m i => b.regs ++ (if i = 8 then [.md m] else [])
  | .ldv1k _ b m i => b.regs ++ (if i = 8 then [.md m] else [])
  | .ldbc _ b m i => b.regs ++ (if i = 8 then [.md m] else [])
  | .stb a b m i => a.regs ++ b.regs ++ (if i = 8 then [.md m] else [])
  | .sth a b m i => a.regs ++ b.regs ++ (if i = 8 then [.md m] else [])
  | .stw a b m i => a.regs ++ b.regs ++ (if i = 8 then [.md m] else [])
  | .std a b m i => a.regs ++ b.regs ++ (if i = 8 then [.md m] else [])
  | .stv256 v b m i => b.regs ++ (if i = 8 then [.md m] else []) ++ v.regs
  | .stv512 v b m i => b.regs ++ (if i = 8 then [.md m] else []) ++ v.regs
  | .stv1k v b m i => b.regs ++ (if i = 8 then [.md m] else []) ++ v.regs
  | .stvk v b k _ => b.regs ++ [.k k] ++ v.regs
  | .aswap _ a b _ _ => [.s (d32 a)] ++ [.s (d32 b)]
  | .aadd _ a b _ _ => [.s (d32 a)] ++ [.s (d32 b)]
  | .aand _ a b _ _ => [.s (d32 a)] ++ [.s (d32 b)]
  | .aor _ a b _ _ => [.s (d32 a)] ++ [.s (d32 b)]
  | .amax _ a b _ _ => [.s (d32 a)] ++ [.s (d32 b)]
  | .amin _ a b _ _ => [.s (d32 a)] ++ [.s (d32 b)]
  | .acas d a b _ _ => [.s (d32 a)] ++ [.s (d32 b)] ++ [.s (d32 d)]
  | .afadd _ a b _ => [.s (d32 a)] ++ [.s (d32 b)]
  | .lda _ b _ _ => b.regs
  | .strl a b _ _ => a.regs ++ b.regs
  | .vaddI8 _ _ a b => a.regs ++ b.regs
  | .vaddI16 _ _ a b => a.regs ++ b.regs
  | .vaddI32 _ _ a b => a.regs ++ b.regs
  | .vsubI8 _ _ a b => a.regs ++ b.regs
  | .vsubI16 _ _ a b => a.regs ++ b.regs
  | .vsubI32 _ _ a b => a.regs ++ b.regs
  | .vmulI16 _ _ a b => a.regs ++ b.regs
  | .vmulI32 _ _ a b => a.regs ++ b.regs
  | .vmulhI32 _ _ a b => a.regs ++ b.regs
  | .vminI32 _ _ a b => a.regs ++ b.regs
  | .vmaxI32 _ _ a b => a.regs ++ b.regs
  | .vminnN32 _ _ a b => a.regs ++ b.regs
  | .vmaxnN32 _ _ a b => a.regs ++ b.regs
  | .vand _ _ a b => a.regs ++ b.regs
  | .vor _ _ a b => a.regs ++ b.regs
  | .vxor _ _ a b => a.regs ++ b.regs
  | .vandn _ _ a b => a.regs ++ b.regs
  | .vshlI32 _ _ a b => a.regs ++ b.regs
  | .vshrN32 _ _ a b => a.regs ++ b.regs
  | .vsarI32 _ _ a b => a.regs ++ b.regs
  | .vaddsI8 _ _ a b => a.regs ++ b.regs
  | .vaddsI16 _ _ a b => a.regs ++ b.regs
  | .vsubsI8 _ _ a b => a.regs ++ b.regs
  | .vsubsI16 _ _ a b => a.regs ++ b.regs
  | .vceqI32 _ _ a b => a.regs ++ b.regs
  | .vcltI32 _ _ a b => a.regs ++ b.regs
  | .vcltnN32 _ _ a b => a.regs ++ b.regs
  | .vabsI32 _ _ a => a.regs
  | .vmadI16 _ d a b => a.regs ++ b.regs ++ d.regs
  | .vdot4I8 _ d a b => a.regs ++ b.regs ++ d.regs
  | .vclzI32 _ _ a => a.regs
  | .vpopcI32 _ _ a => a.regs
  | .vfaddF32 _ _ a b => a.regs ++ b.regs
  | .vfsubF32 _ _ a b => a.regs ++ b.regs
  | .vfmulF32 _ _ a b => a.regs ++ b.regs
  | .vfmaF32 _ d a b => a.regs ++ b.regs ++ d.regs
  | .vfmsF32 _ d a b => a.regs ++ b.regs ++ d.regs
  | .vfminF32 _ _ a b => a.regs ++ b.regs
  | .vfmaxF32 _ _ a b => a.regs ++ b.regs
  | .vfabsF32 _ _ a => a.regs
  | .vfnegF32 _ _ a => a.regs
  | .vfdivF32 _ _ a b => a.regs ++ b.regs
  | .vfsqrtF32 _ _ a => a.regs
  | .vfceqF32 _ _ a b => a.regs ++ b.regs
  | .vfcltF32 _ _ a b => a.regs ++ b.regs
  | .vfcleF32 _ _ a b => a.regs ++ b.regs
  | .vfcunF32 _ _ a b => a.regs ++ b.regs
  | .vfaddBf16 _ _ a b => a.regs ++ b.regs
  | .vfmulBf16 _ _ a b => a.regs ++ b.regs
  | .vfmaBf16 _ d a b => a.regs ++ b.regs ++ d.regs
  | .vfminBf16 _ _ a b => a.regs ++ b.regs
  | .vfmaxBf16 _ _ a b => a.regs ++ b.regs
  | .vfsclF32 _ _ a b => a.regs ++ b.regs
  | .vfrndF32 _ _ a => a.regs
  | .vfamaxF32 _ _ a b => a.regs ++ b.regs
  | .cvtF32Bf16 _ _ a => a.regs
  | .cvtBf16F32 _ _ a => a.regs
  | .cvtF32I32 _ _ a => a.regs
  | .cvtI32F32 _ _ a => a.regs
  | .cvtMx8F32 _ a s => s.regs ++ a.regs
  | .cvtMx6F32 _ a s => s.regs ++ a.regs
  | .cvtMx4F32 _ a s => s.regs ++ a.regs
  | .cvtF32Mx8 _ a s => s.regs ++ a.regs
  | .cvtF32Mx6 _ a s => s.regs ++ a.regs
  | .cvtF32Mx4 _ a s => s.regs ++ a.regs
  | .cvtF8e4F32 _ _ a => a.regs
  | .cvtF32F8e4 _ _ a => a.regs
  | .cvtF8e5F32 _ _ a => a.regs
  | .cvtF32F8e5 _ _ a => a.regs
  | .bscale _ a => a.regs
  | .cvtBf16F32Sr _ _ a => a.regs
  | .vrsumF32 _ _ a => a.regs
  | .vrmaxF32 _ _ a => a.regs
  | .vrminF32 _ _ a => a.regs
  | .vrsumI32 _ _ a => a.regs
  | .vrmaxI32 _ _ a => a.regs
  | .vrminI32 _ _ a => a.regs
  | .vramaxF32 _ _ a => a.regs
  | .vdeltaF32 _ _ a b => a.regs ++ b.regs
  | .vdeltaBf16 _ _ a b => a.regs ++ b.regs
  | .vmaxmagF32 _ _ a => a.regs
  | .vmaxmagBf16 _ _ a => a.regs
  | .vscanF32 _ _ a => a.regs
  | .vscanI32 _ _ a => a.regs
  | .kcnt _ _ k => [.k k]
  | .vmov _ _ a => a.regs
  | .vbc _ _ _ s => s.regs
  | .vext _ _ a _ => a.regs
  | .vins _ d _ s => s.regs ++ d.regs
  | .vperm _ _ a b => a.regs ++ b.regs
  | .vzip _ _ a b => a.regs ++ b.regs
  | .vunzip _ _ a b => a.regs ++ b.regs
  | .vrotl _ _ a _ => a.regs
  | .vsel _ j _ a b => [.k j] ++ a.regs ++ b.regs
  | .kand _ a b => [.k a] ++ [.k b]
  | .kor _ a b => [.k a] ++ [.k b]
  | .kxor _ a b => [.k a] ++ [.k b]
  | .knot _ a => [.k a]
  | .kfroms _ _ s => s.regs
  | .ktos a _ _ => [.k a]
  | .vexp2 _ _ a => a.regs
  | .vexp _ _ a => a.regs
  | .vlog2 _ _ a => a.regs
  | .vrcp _ _ a => a.regs
  | .vrsqrt _ _ a => a.regs
  | .vlog _ _ a => a.regs
  | .vsin _ _ a => a.regs
  | .vcos _ _ a => a.regs
  | .vtanh _ _ a => a.regs
  | .vsigm _ _ a => a.regs
  | .verf _ _ a => a.regs
  | .vsilu _ _ a => a.regs
  | .wcfg _ s => s.regs
  | .wset _ s t => s.regs ++ t.regs
  | .wget _ _ t => t.regs
  | .wskip _ s => s.regs
  | .wicnt _ s => s.regs
  | .mcall _ _ m => [.mp m]
  | .mset _ a => a.regs
  | .mget m _ => [.mp m]
  | .mdrain _ _ _ _ => [.mxcfg]
  | .mcfg a _ => a.regs
  | .rcfg _ s _ _ _ _ => s.regs
  | .rmask _ s => s.regs
  | .ecopy _ _ _ c _ => c.regs
  | .egath _ _ _ c _ => c.regs
  | .escat _ _ _ c _ => c.regs
  | .esubs _ _ _ c _ => c.regs
  | .ecoll _ _ _ c _ => c.regs
  | .ehalo _ _ c _ => c.regs
  | .ered _ _ c _ => c.regs
  | .eckpt _ _ _ c _ => c.regs
  | .erolb _ _ _ c _ => c.regs
  | .enq _ a => a.regs
  | .exit a _ => a.regs
  | .swr a _ => a.regs
  | .tmark a b => a.regs ++ b.regs
  | .rrec a => a.regs
  | .rprobe _ a => a.regs
  | .rgate a => a.regs
  | .mmrd _ => [.sys 13]
  | .gpost _ a _ => a.regs
  | .gstat _ a _ => a.regs
  | .chkeq a b => a.regs ++ b.regs
  | .chkv v w => [.v v] ++ [.v w]
  | .sig a => a.regs
  | .sigrd _ => [.sys 14]
  | .rdsys _ r => (sysTracked r)
  | .wrsys a _ => a.regs
  | .ctxsave a b => a.regs ++ b.regs
  | .ctxrest a b => a.regs ++ b.regs
  | .wrsysp a _ => a.regs
  | .mpld a b => a.regs ++ b.regs
  | .tlbinv a b => a.regs ++ b.regs
  | .kidset a b => a.regs ++ b.regs
  | .kidkill a => a.regs
  | _ => []

/-- Registers an instruction writes (R24, R269). -/
def Instr.writes : Instr → List Reg
  | .add d _ _ => [.s d]
  | .sub d _ _ => [.s d]
  | .mul d _ _ => [.s d]
  | .mulh d _ _ => [.s d]
  | .mulhn d _ _ => [.s d]
  | .and d _ _ => [.s d]
  | .or d _ _ => [.s d]
  | .xor d _ _ => [.s d]
  | .andn d _ _ => [.s d]
  | .shl d _ _ => [.s d]
  | .shr d _ _ => [.s d]
  | .sar d _ _ => [.s d]
  | .min d _ _ => [.s d]
  | .max d _ _ => [.s d]
  | .minn d _ _ => [.s d]
  | .maxn d _ _ => [.s d]
  | .addi d _ _ => [.s d]
  | .andi d _ _ => [.s d]
  | .ori d _ _ => [.s d]
  | .xori d _ _ => [.s d]
  | .shli d _ _ => [.s d]
  | .shri d _ _ => [.s d]
  | .sari d _ _ => [.s d]
  | .rsubi d _ _ => [.s d]
  | .div d _ _ => [.s d]
  | .divn d _ _ => [.s d]
  | .rem d _ _ => [.s d]
  | .remn d _ _ => [.s d]
  | .clz d _ => [.s d]
  | .ctz d _ => [.s d]
  | .popc d _ => [.s d]
  | .brev d _ => [.s d]
  | .bswap d _ => [.s d]
  | .sext d _ _ => [.s d]
  | .zext d _ _ => [.s d]
  | .bfx d _ _ => [.s d]
  | .bfi d _ _ => [.s d]
  | .abs d _ => [.s d]
  | .neg d _ => [.s d]
  | .fadd d _ _ => [.s d]
  | .fsub d _ _ => [.s d]
  | .fmul d _ _ => [.s d]
  | .fdiv d _ _ => [.s d]
  | .fsqrt d _ => [.s d]
  | .fmin d _ _ => [.s d]
  | .fmax d _ _ => [.s d]
  | .fabs d _ => [.s d]
  | .fneg d _ => [.s d]
  | .fitof d _ => [.s d]
  | .ftoi d _ => [.s d]
  | .fround d _ => [.s d]
  | .ceq p cflag _ _ => (if cflag then [.p p, .p (p + 1)] else [.p p])
  | .cne p cflag _ _ => (if cflag then [.p p, .p (p + 1)] else [.p p])
  | .clt p cflag _ _ => (if cflag then [.p p, .p (p + 1)] else [.p p])
  | .cge p cflag _ _ => (if cflag then [.p p, .p (p + 1)] else [.p p])
  | .cltn p cflag _ _ => (if cflag then [.p p, .p (p + 1)] else [.p p])
  | .cgen p cflag _ _ => (if cflag then [.p p, .p (p + 1)] else [.p p])
  | .ctst p cflag _ _ => (if cflag then [.p p, .p (p + 1)] else [.p p])
  | .fceq p cflag _ _ => (if cflag then [.p p, .p (p + 1)] else [.p p])
  | .fclt p cflag _ _ => (if cflag then [.p p, .p (p + 1)] else [.p p])
  | .fcle p cflag _ _ => (if cflag then [.p p, .p (p + 1)] else [.p p])
  | .fcun p cflag _ _ => (if cflag then [.p p, .p (p + 1)] else [.p p])
  | .pand p cflag _ _ => (if cflag then [.p p, .p (p + 1)] else [.p p])
  | .por p cflag _ _ => (if cflag then [.p p, .p (p + 1)] else [.p p])
  | .pxor p cflag _ _ => (if cflag then [.p p, .p (p + 1)] else [.p p])
  | .pandn p cflag _ _ => (if cflag then [.p p, .p (p + 1)] else [.p p])
  | .pset p cflag _ => (if cflag then [.p p, .p (p + 1)] else [.p p])
  | .kany p cflag _ => (if cflag then [.p p, .p (p + 1)] else [.p p])
  | .kall p cflag _ => (if cflag then [.p p, .p (p + 1)] else [.p p])
  | .knone p cflag _ => (if cflag then [.p p, .p (p + 1)] else [.p p])
  | .call _ => [.s 62]
  | .calli _ => [.s 62]
  | .rdlp d _ _ => [.s d]
  | .ldb d b _ i => [.s d] ++ (if i = 0 then [] else b.regs)
  | .ldh d b _ i => [.s d] ++ (if i = 0 then [] else b.regs)
  | .ldw d b _ i => [.s d] ++ (if i = 0 then [] else b.regs)
  | .ldd d b _ i => [.s d] ++ (if i = 0 then [] else b.regs)
  | .ldv256 v b _ i => (if i = 0 then [] else b.regs) ++ v.regs
  | .ldv512 v b _ i => (if i = 0 then [] else b.regs) ++ v.regs
  | .ldv1k v b _ i => (if i = 0 then [] else b.regs) ++ v.regs
  | .ldbc v b _ i => (if i = 0 then [] else b.regs) ++ v.regs
  | .stb _ b _ i => (if i = 0 then [] else b.regs)
  | .sth _ b _ i => (if i = 0 then [] else b.regs)
  | .stw _ b _ i => (if i = 0 then [] else b.regs)
  | .std _ b _ i => (if i = 0 then [] else b.regs)
  | .stv256 _ b _ i => (if i = 0 then [] else b.regs)
  | .stv512 _ b _ i => (if i = 0 then [] else b.regs)
  | .stv1k _ b _ i => (if i = 0 then [] else b.regs)
  | .stvk _ b _ i => (if i = 0 then [] else b.regs)
  | .aswap d _ _ _ _ => [.s (d32 d)]
  | .aadd d _ _ _ _ => [.s (d32 d)]
  | .aand d _ _ _ _ => [.s (d32 d)]
  | .aor d _ _ _ _ => [.s (d32 d)]
  | .amax d _ _ _ _ => [.s (d32 d)]
  | .amin d _ _ _ _ => [.s (d32 d)]
  | .acas d _ _ _ _ => [.s (d32 d)]
  | .afadd d _ _ _ => [.s (d32 d)]
  | .lda d _ _ _ => [.s d]
  | .vaddI8 _ d _ _ => d.regs
  | .vaddI16 _ d _ _ => d.regs
  | .vaddI32 _ d _ _ => d.regs
  | .vsubI8 _ d _ _ => d.regs
  | .vsubI16 _ d _ _ => d.regs
  | .vsubI32 _ d _ _ => d.regs
  | .vmulI16 _ d _ _ => d.regs
  | .vmulI32 _ d _ _ => d.regs
  | .vmulhI32 _ d _ _ => d.regs
  | .vminI32 _ d _ _ => d.regs
  | .vmaxI32 _ d _ _ => d.regs
  | .vminnN32 _ d _ _ => d.regs
  | .vmaxnN32 _ d _ _ => d.regs
  | .vand _ d _ _ => d.regs
  | .vor _ d _ _ => d.regs
  | .vxor _ d _ _ => d.regs
  | .vandn _ d _ _ => d.regs
  | .vshlI32 _ d _ _ => d.regs
  | .vshrN32 _ d _ _ => d.regs
  | .vsarI32 _ d _ _ => d.regs
  | .vaddsI8 _ d _ _ => d.regs
  | .vaddsI16 _ d _ _ => d.regs
  | .vsubsI8 _ d _ _ => d.regs
  | .vsubsI16 _ d _ _ => d.regs
  | .vceqI32 _ k _ _ => [.k k]
  | .vcltI32 _ k _ _ => [.k k]
  | .vcltnN32 _ k _ _ => [.k k]
  | .vabsI32 _ d _ => d.regs
  | .vmadI16 _ d _ _ => d.regs
  | .vdot4I8 _ d _ _ => d.regs
  | .vclzI32 _ d _ => d.regs
  | .vpopcI32 _ d _ => d.regs
  | .vfaddF32 _ d _ _ => d.regs
  | .vfsubF32 _ d _ _ => d.regs
  | .vfmulF32 _ d _ _ => d.regs
  | .vfmaF32 _ d _ _ => d.regs
  | .vfmsF32 _ d _ _ => d.regs
  | .vfminF32 _ d _ _ => d.regs
  | .vfmaxF32 _ d _ _ => d.regs
  | .vfabsF32 _ d _ => d.regs
  | .vfnegF32 _ d _ => d.regs
  | .vfdivF32 _ d _ _ => d.regs
  | .vfsqrtF32 _ d _ => d.regs
  | .vfceqF32 _ k _ _ => [.k k]
  | .vfcltF32 _ k _ _ => [.k k]
  | .vfcleF32 _ k _ _ => [.k k]
  | .vfcunF32 _ k _ _ => [.k k]
  | .vfaddBf16 _ d _ _ => d.regs
  | .vfmulBf16 _ d _ _ => d.regs
  | .vfmaBf16 _ d _ _ => d.regs
  | .vfminBf16 _ d _ _ => d.regs
  | .vfmaxBf16 _ d _ _ => d.regs
  | .vfsclF32 _ d _ _ => d.regs
  | .vfrndF32 _ d _ => d.regs
  | .vfamaxF32 _ d _ _ => d.regs
  | .cvtF32Bf16 _ d _ => d.regs
  | .cvtBf16F32 _ d _ => d.regs
  | .cvtF32I32 _ d _ => d.regs
  | .cvtI32F32 _ d _ => d.regs
  | .cvtMx8F32 d _ _ => d.regs
  | .cvtMx6F32 d _ _ => d.regs
  | .cvtMx4F32 d _ _ => d.regs
  | .cvtF32Mx8 d _ _ => d.regs
  | .cvtF32Mx6 d _ _ => d.regs
  | .cvtF32Mx4 d _ _ => d.regs
  | .cvtF8e4F32 _ d _ => d.regs
  | .cvtF32F8e4 _ d _ => d.regs
  | .cvtF8e5F32 _ d _ => d.regs
  | .cvtF32F8e5 _ d _ => d.regs
  | .bscale d _ => d.regs
  | .cvtBf16F32Sr _ d _ => d.regs
  | .vrsumF32 _ d _ => d.regs
  | .vrmaxF32 _ d _ => d.regs
  | .vrminF32 _ d _ => d.regs
  | .vrsumI32 _ d _ => d.regs
  | .vrmaxI32 _ d _ => d.regs
  | .vrminI32 _ d _ => d.regs
  | .vramaxF32 _ d _ => d.regs
  | .vdeltaF32 _ d _ _ => d.regs
  | .vdeltaBf16 _ d _ _ => d.regs
  | .vmaxmagF32 _ d _ => d.regs
  | .vmaxmagBf16 _ d _ => d.regs
  | .vscanF32 _ d _ => d.regs
  | .vscanI32 _ d _ => d.regs
  | .kcnt _ d _ => d.regs
  | .vmov _ d _ => d.regs
  | .vbc _ d _ _ => d.regs
  | .vext _ d _ _ => [.s d]
  | .vins _ d _ _ => d.regs
  | .vperm _ d _ _ => d.regs
  | .vzip _ d _ _ => d.regs
  | .vunzip _ d _ _ => d.regs
  | .vrotl _ d _ _ => d.regs
  | .vsel _ _ d _ _ => d.regs
  | .kand k _ _ => [.k k]
  | .kor k _ _ => [.k k]
  | .kxor k _ _ => [.k k]
  | .knot k _ => [.k k]
  | .kfroms k _ _ => [.k k]
  | .ktos _ _ d => [.s d]
  | .viota _ d => d.regs
  | .vexp2 _ d _ => d.regs
  | .vexp _ d _ => d.regs
  | .vlog2 _ d _ => d.regs
  | .vrcp _ d _ => d.regs
  | .vrsqrt _ d _ => d.regs
  | .vlog _ d _ => d.regs
  | .vsin _ d _ => d.regs
  | .vcos _ d _ => d.regs
  | .vtanh _ d _ => d.regs
  | .vsigm _ d _ => d.regs
  | .verf _ d _ => d.regs
  | .vsilu _ d _ => d.regs
  | .wget _ s _ => [.s s]
  | .wstat _ s => [.s s]
  | .mset m _ => [.mp m]
  | .mget _ d => [.s d]
  | .mdrain _ _ v _ => v.regs
  | .mstat _ d => [.s d]
  | .mcfg _ _ => [.mxcfg]
  | .rstat _ d _ => [.s d]
  | .tid d => [.s d]
  | .tparm d _ => [.s d]
  | .qstat d _ => [.s d]
  | .srd d _ => [.s d]
  | .rprobe d _ => [.s d]
  | .mmrd d => [.s d]
  | .mmclr => [.sys 13]
  | .gstat _ _ d => [.s d]
  | .sigrd d => [.s d]
  | .sigclr => [.sys 14]
  | .rdsys d _ => [.s d]
  | .wrsys _ r => (sysTracked r)
  | .wrsysp _ r => (sysTracked r)
  | _ => []

/-- Windrows an instruction consumes from, with the width it reads (R109, R118). -/
def Instr.winReads : Instr → List (Fin 16 × Nat)
  | .stv256 v _ _ _ => v.wins 256
  | .stv512 v _ _ _ => v.wins 512
  | .stv1k v _ _ _ => v.wins 1024
  | .stvk v _ _ _ => v.wins 1024
  | .vaddI8 w _ a b => a.wins w.bits ++ b.wins w.bits
  | .vaddI16 w _ a b => a.wins w.bits ++ b.wins w.bits
  | .vaddI32 w _ a b => a.wins w.bits ++ b.wins w.bits
  | .vsubI8 w _ a b => a.wins w.bits ++ b.wins w.bits
  | .vsubI16 w _ a b => a.wins w.bits ++ b.wins w.bits
  | .vsubI32 w _ a b => a.wins w.bits ++ b.wins w.bits
  | .vmulI16 w _ a b => a.wins w.bits ++ b.wins w.bits
  | .vmulI32 w _ a b => a.wins w.bits ++ b.wins w.bits
  | .vmulhI32 w _ a b => a.wins w.bits ++ b.wins w.bits
  | .vminI32 w _ a b => a.wins w.bits ++ b.wins w.bits
  | .vmaxI32 w _ a b => a.wins w.bits ++ b.wins w.bits
  | .vminnN32 w _ a b => a.wins w.bits ++ b.wins w.bits
  | .vmaxnN32 w _ a b => a.wins w.bits ++ b.wins w.bits
  | .vand w _ a b => a.wins w.bits ++ b.wins w.bits
  | .vor w _ a b => a.wins w.bits ++ b.wins w.bits
  | .vxor w _ a b => a.wins w.bits ++ b.wins w.bits
  | .vandn w _ a b => a.wins w.bits ++ b.wins w.bits
  | .vshlI32 w _ a b => a.wins w.bits ++ b.wins w.bits
  | .vshrN32 w _ a b => a.wins w.bits ++ b.wins w.bits
  | .vsarI32 w _ a b => a.wins w.bits ++ b.wins w.bits
  | .vaddsI8 w _ a b => a.wins w.bits ++ b.wins w.bits
  | .vaddsI16 w _ a b => a.wins w.bits ++ b.wins w.bits
  | .vsubsI8 w _ a b => a.wins w.bits ++ b.wins w.bits
  | .vsubsI16 w _ a b => a.wins w.bits ++ b.wins w.bits
  | .vceqI32 w _ a b => a.wins w.bits ++ b.wins w.bits
  | .vcltI32 w _ a b => a.wins w.bits ++ b.wins w.bits
  | .vcltnN32 w _ a b => a.wins w.bits ++ b.wins w.bits
  | .vabsI32 w _ a => a.wins w.bits
  | .vmadI16 w _ a b => a.wins w.bits ++ b.wins w.bits
  | .vdot4I8 w _ a b => a.wins w.bits ++ b.wins w.bits
  | .vclzI32 w _ a => a.wins w.bits
  | .vpopcI32 w _ a => a.wins w.bits
  | .vfaddF32 w _ a b => a.wins w.bits ++ b.wins w.bits
  | .vfsubF32 w _ a b => a.wins w.bits ++ b.wins w.bits
  | .vfmulF32 w _ a b => a.wins w.bits ++ b.wins w.bits
  | .vfmaF32 w _ a b => a.wins w.bits ++ b.wins w.bits
  | .vfmsF32 w _ a b => a.wins w.bits ++ b.wins w.bits
  | .vfminF32 w _ a b => a.wins w.bits ++ b.wins w.bits
  | .vfmaxF32 w _ a b => a.wins w.bits ++ b.wins w.bits
  | .vfabsF32 w _ a => a.wins w.bits
  | .vfnegF32 w _ a => a.wins w.bits
  | .vfdivF32 w _ a b => a.wins w.bits ++ b.wins w.bits
  | .vfsqrtF32 w _ a => a.wins w.bits
  | .vfceqF32 w _ a b => a.wins w.bits ++ b.wins w.bits
  | .vfcltF32 w _ a b => a.wins w.bits ++ b.wins w.bits
  | .vfcleF32 w _ a b => a.wins w.bits ++ b.wins w.bits
  | .vfcunF32 w _ a b => a.wins w.bits ++ b.wins w.bits
  | .vfaddBf16 w _ a b => a.wins w.bits ++ b.wins w.bits
  | .vfmulBf16 w _ a b => a.wins w.bits ++ b.wins w.bits
  | .vfmaBf16 w _ a b => a.wins w.bits ++ b.wins w.bits
  | .vfminBf16 w _ a b => a.wins w.bits ++ b.wins w.bits
  | .vfmaxBf16 w _ a b => a.wins w.bits ++ b.wins w.bits
  | .vfsclF32 w _ a b => a.wins w.bits ++ b.wins w.bits
  | .vfrndF32 w _ a => a.wins w.bits
  | .vfamaxF32 w _ a b => a.wins w.bits ++ b.wins w.bits
  | .cvtF32Bf16 w _ a => a.wins (w.bits / 2)
  | .cvtBf16F32 w _ a => a.wins (w.bits)
  | .cvtF32I32 w _ a => a.wins (w.bits)
  | .cvtI32F32 w _ a => a.wins (w.bits)
  | .cvtMx8F32 _ a _ => a.wins (1024)
  | .cvtMx6F32 _ a _ => a.wins (1024)
  | .cvtMx4F32 _ a _ => a.wins (1024)
  | .cvtF32Mx8 _ a _ => a.wins (256)
  | .cvtF32Mx6 _ a _ => a.wins (256)
  | .cvtF32Mx4 _ a _ => a.wins (128)
  | .cvtF8e4F32 w _ a => a.wins (w.bits)
  | .cvtF32F8e4 w _ a => a.wins (w.bits / 4)
  | .cvtF8e5F32 w _ a => a.wins (w.bits)
  | .cvtF32F8e5 w _ a => a.wins (w.bits / 4)
  | .bscale _ a => a.wins (1024)
  | .cvtBf16F32Sr w _ a => a.wins (w.bits)
  | .vrsumF32 w _ a => a.wins w.bits
  | .vrmaxF32 w _ a => a.wins w.bits
  | .vrminF32 w _ a => a.wins w.bits
  | .vrsumI32 w _ a => a.wins w.bits
  | .vrmaxI32 w _ a => a.wins w.bits
  | .vrminI32 w _ a => a.wins w.bits
  | .vramaxF32 w _ a => a.wins w.bits
  | .vdeltaF32 w _ a b => a.wins w.bits ++ b.wins w.bits
  | .vdeltaBf16 w _ a b => a.wins w.bits ++ b.wins w.bits
  | .vmaxmagF32 w _ a => a.wins w.bits
  | .vmaxmagBf16 w _ a => a.wins w.bits
  | .vscanF32 w _ a => a.wins w.bits
  | .vscanI32 w _ a => a.wins w.bits
  | .vmov w _ a => a.wins w.bits
  | .vext w _ a _ => a.wins w.bits
  | .vperm w _ a b => a.wins w.bits ++ b.wins w.bits
  | .vzip w _ a b => a.wins w.bits ++ b.wins w.bits
  | .vunzip w _ a b => a.wins w.bits ++ b.wins w.bits
  | .vrotl w _ a _ => a.wins w.bits
  | .vsel w _ _ a b => a.wins w.bits ++ b.wins w.bits
  | .vexp2 w _ a => a.wins (if w then 512 else 256)
  | .vexp w _ a => a.wins (if w then 512 else 256)
  | .vlog2 w _ a => a.wins (if w then 512 else 256)
  | .vrcp w _ a => a.wins (if w then 512 else 256)
  | .vrsqrt w _ a => a.wins (if w then 512 else 256)
  | .vlog w _ a => a.wins (if w then 512 else 256)
  | .vsin w _ a => a.wins (if w then 512 else 256)
  | .vcos w _ a => a.wins (if w then 512 else 256)
  | .vtanh w _ a => a.wins (if w then 512 else 256)
  | .vsigm w _ a => a.wins (if w then 512 else 256)
  | .verf w _ a => a.wins (if w then 512 else 256)
  | .vsilu w _ a => a.wins (if w then 512 else 256)
  | _ => []

/-- Windrows an instruction pushes to, with the width it writes (R109, R118). -/
def Instr.winPushes : Instr → List (Fin 16 × Nat)
  | .ldv256 v _ _ _ => v.wins 256
  | .ldv512 v _ _ _ => v.wins 512
  | .ldv1k v _ _ _ => v.wins 1024
  | .ldbc v _ _ _ => v.wins 1024
  | .vaddI8 w d _ _ => d.wins w.bits
  | .vaddI16 w d _ _ => d.wins w.bits
  | .vaddI32 w d _ _ => d.wins w.bits
  | .vsubI8 w d _ _ => d.wins w.bits
  | .vsubI16 w d _ _ => d.wins w.bits
  | .vsubI32 w d _ _ => d.wins w.bits
  | .vmulI16 w d _ _ => d.wins w.bits
  | .vmulI32 w d _ _ => d.wins w.bits
  | .vmulhI32 w d _ _ => d.wins w.bits
  | .vminI32 w d _ _ => d.wins w.bits
  | .vmaxI32 w d _ _ => d.wins w.bits
  | .vminnN32 w d _ _ => d.wins w.bits
  | .vmaxnN32 w d _ _ => d.wins w.bits
  | .vand w d _ _ => d.wins w.bits
  | .vor w d _ _ => d.wins w.bits
  | .vxor w d _ _ => d.wins w.bits
  | .vandn w d _ _ => d.wins w.bits
  | .vshlI32 w d _ _ => d.wins w.bits
  | .vshrN32 w d _ _ => d.wins w.bits
  | .vsarI32 w d _ _ => d.wins w.bits
  | .vaddsI8 w d _ _ => d.wins w.bits
  | .vaddsI16 w d _ _ => d.wins w.bits
  | .vsubsI8 w d _ _ => d.wins w.bits
  | .vsubsI16 w d _ _ => d.wins w.bits
  | .vabsI32 w d _ => d.wins w.bits
  | .vmadI16 w d _ _ => d.wins w.bits
  | .vdot4I8 w d _ _ => d.wins w.bits
  | .vclzI32 w d _ => d.wins w.bits
  | .vpopcI32 w d _ => d.wins w.bits
  | .vfaddF32 w d _ _ => d.wins w.bits
  | .vfsubF32 w d _ _ => d.wins w.bits
  | .vfmulF32 w d _ _ => d.wins w.bits
  | .vfmaF32 w d _ _ => d.wins w.bits
  | .vfmsF32 w d _ _ => d.wins w.bits
  | .vfminF32 w d _ _ => d.wins w.bits
  | .vfmaxF32 w d _ _ => d.wins w.bits
  | .vfabsF32 w d _ => d.wins w.bits
  | .vfnegF32 w d _ => d.wins w.bits
  | .vfdivF32 w d _ _ => d.wins w.bits
  | .vfsqrtF32 w d _ => d.wins w.bits
  | .vfaddBf16 w d _ _ => d.wins w.bits
  | .vfmulBf16 w d _ _ => d.wins w.bits
  | .vfmaBf16 w d _ _ => d.wins w.bits
  | .vfminBf16 w d _ _ => d.wins w.bits
  | .vfmaxBf16 w d _ _ => d.wins w.bits
  | .vfsclF32 w d _ _ => d.wins w.bits
  | .vfrndF32 w d _ => d.wins w.bits
  | .vfamaxF32 w d _ _ => d.wins w.bits
  | .cvtF32Bf16 w d _ => d.wins (w.bits)
  | .cvtBf16F32 w d _ => d.wins (w.bits / 2)
  | .cvtF32I32 w d _ => d.wins (w.bits)
  | .cvtI32F32 w d _ => d.wins (w.bits)
  | .cvtMx8F32 d _ _ => d.wins (256)
  | .cvtMx6F32 d _ _ => d.wins (256)
  | .cvtMx4F32 d _ _ => d.wins (128)
  | .cvtF32Mx8 d _ _ => d.wins (1024)
  | .cvtF32Mx6 d _ _ => d.wins (1024)
  | .cvtF32Mx4 d _ _ => d.wins (1024)
  | .cvtF8e4F32 w d _ => d.wins (w.bits / 4)
  | .cvtF32F8e4 w d _ => d.wins (w.bits)
  | .cvtF8e5F32 w d _ => d.wins (w.bits / 4)
  | .cvtF32F8e5 w d _ => d.wins (w.bits)
  | .bscale d _ => d.wins (1024)
  | .cvtBf16F32Sr w d _ => d.wins (w.bits / 2)
  | .vrsumF32 w d _ => d.wins w.bits
  | .vrmaxF32 w d _ => d.wins w.bits
  | .vrminF32 w d _ => d.wins w.bits
  | .vrsumI32 w d _ => d.wins w.bits
  | .vrmaxI32 w d _ => d.wins w.bits
  | .vrminI32 w d _ => d.wins w.bits
  | .vramaxF32 w d _ => d.wins w.bits
  | .vdeltaF32 w d _ _ => d.wins w.bits
  | .vdeltaBf16 w d _ _ => d.wins w.bits
  | .vmaxmagF32 w d _ => d.wins w.bits
  | .vmaxmagBf16 w d _ => d.wins w.bits
  | .vscanF32 w d _ => d.wins w.bits
  | .vscanI32 w d _ => d.wins w.bits
  | .kcnt w d _ => d.wins w.bits
  | .vmov w d _ => d.wins w.bits
  | .vbc w d _ _ => d.wins w.bits
  | .vins w d _ _ => d.wins w.bits
  | .vperm w d _ _ => d.wins w.bits
  | .vzip w d _ _ => d.wins w.bits
  | .vunzip w d _ _ => d.wins w.bits
  | .vrotl w d _ _ => d.wins w.bits
  | .vsel w _ d _ _ => d.wins w.bits
  | .viota w d => d.wins w.bits
  | .vexp2 w d _ => d.wins (if w then 512 else 256)
  | .vexp w d _ => d.wins (if w then 512 else 256)
  | .vlog2 w d _ => d.wins (if w then 512 else 256)
  | .vrcp w d _ => d.wins (if w then 512 else 256)
  | .vrsqrt w d _ => d.wins (if w then 512 else 256)
  | .vlog w d _ => d.wins (if w then 512 else 256)
  | .vsin w d _ => d.wins (if w then 512 else 256)
  | .vcos w d _ => d.wins (if w then 512 else 256)
  | .vtanh w d _ => d.wins (if w then 512 else 256)
  | .vsigm w d _ => d.wins (if w then 512 else 256)
  | .verf w d _ => d.wins (if w then 512 else 256)
  | .vsilu w d _ => d.wins (if w then 512 else 256)
  | .mdrain _ _ v _ => v.wins 1024
  | _ => []

/-- The slot group of R22 an instruction belongs to. -/
def Instr.group : Instr → Group
  | .bc .. => .bc
  | .add .. => .scalar
  | .sub .. => .scalar
  | .mul .. => .scalar
  | .mulh .. => .scalar
  | .mulhn .. => .scalar
  | .and .. => .scalar
  | .or .. => .scalar
  | .xor .. => .scalar
  | .andn .. => .scalar
  | .shl .. => .scalar
  | .shr .. => .scalar
  | .sar .. => .scalar
  | .min .. => .scalar
  | .max .. => .scalar
  | .minn .. => .scalar
  | .maxn .. => .scalar
  | .addi .. => .scalar
  | .andi .. => .scalar
  | .ori .. => .scalar
  | .xori .. => .scalar
  | .shli .. => .scalar
  | .shri .. => .scalar
  | .sari .. => .scalar
  | .rsubi .. => .scalar
  | .div .. => .scalar
  | .divn .. => .scalar
  | .rem .. => .scalar
  | .remn .. => .scalar
  | .clz .. => .scalar
  | .ctz .. => .scalar
  | .popc .. => .scalar
  | .brev .. => .scalar
  | .bswap .. => .scalar
  | .sext .. => .scalar
  | .zext .. => .scalar
  | .bfx .. => .scalar
  | .bfi .. => .scalar
  | .abs .. => .scalar
  | .neg .. => .scalar
  | .fadd .. => .scalar
  | .fsub .. => .scalar
  | .fmul .. => .scalar
  | .fdiv .. => .scalar
  | .fsqrt .. => .scalar
  | .fmin .. => .scalar
  | .fmax .. => .scalar
  | .fabs .. => .scalar
  | .fneg .. => .scalar
  | .fitof .. => .scalar
  | .ftoi .. => .scalar
  | .fround .. => .scalar
  | .ceq .. => .scalar
  | .cne .. => .scalar
  | .clt .. => .scalar
  | .cge .. => .scalar
  | .cltn .. => .scalar
  | .cgen .. => .scalar
  | .ctst .. => .scalar
  | .fceq .. => .scalar
  | .fclt .. => .scalar
  | .fcle .. => .scalar
  | .fcun .. => .scalar
  | .pand .. => .scalar
  | .por .. => .scalar
  | .pxor .. => .scalar
  | .pandn .. => .scalar
  | .pset .. => .scalar
  | .kany .. => .scalar
  | .kall .. => .scalar
  | .knone .. => .scalar
  | .br .. => .branch
  | .call .. => .branch
  | .bi .. => .branch
  | .calli .. => .branch
  | .ret .. => .branch
  | .bk .. => .branch
  | .bkn .. => .branch
  | .loop .. => .branch
  | .loopi .. => .branch
  | .lexit .. => .branch
  | .rdlp .. => .branch
  | .wrlp .. => .branch
  | .replay .. => .branch
  | .stgset .. => .branch
  | .ldb .. => .mem
  | .ldh .. => .mem
  | .ldw .. => .mem
  | .ldd .. => .mem
  | .ldv256 .. => .mem
  | .ldv512 .. => .mem
  | .ldv1k .. => .mem
  | .ldbc .. => .mem
  | .stb .. => .mem
  | .sth .. => .mem
  | .stw .. => .mem
  | .std .. => .mem
  | .stv256 .. => .mem
  | .stv512 .. => .mem
  | .stv1k .. => .mem
  | .stvk .. => .mem
  | .aswap .. => .mem
  | .aadd .. => .mem
  | .aand .. => .mem
  | .aor .. => .mem
  | .amax .. => .mem
  | .amin .. => .mem
  | .acas .. => .mem
  | .afadd .. => .mem
  | .fence .. => .other
  | .drain .. => .other
  | .lda .. => .other
  | .strl .. => .other
  | .waiteng .. => .other
  | .arrive .. => .other
  | .waitb .. => .other
  | .rdv .. => .other
  | .gphase .. => .other
  | .vaddI8 .. => .vector
  | .vaddI16 .. => .vector
  | .vaddI32 .. => .vector
  | .vsubI8 .. => .vector
  | .vsubI16 .. => .vector
  | .vsubI32 .. => .vector
  | .vmulI16 .. => .vector
  | .vmulI32 .. => .vector
  | .vmulhI32 .. => .vector
  | .vminI32 .. => .vector
  | .vmaxI32 .. => .vector
  | .vminnN32 .. => .vector
  | .vmaxnN32 .. => .vector
  | .vand .. => .vector
  | .vor .. => .vector
  | .vxor .. => .vector
  | .vandn .. => .vector
  | .vshlI32 .. => .vector
  | .vshrN32 .. => .vector
  | .vsarI32 .. => .vector
  | .vaddsI8 .. => .vector
  | .vaddsI16 .. => .vector
  | .vsubsI8 .. => .vector
  | .vsubsI16 .. => .vector
  | .vceqI32 .. => .vector
  | .vcltI32 .. => .vector
  | .vcltnN32 .. => .vector
  | .vabsI32 .. => .vector
  | .vmadI16 .. => .vector
  | .vdot4I8 .. => .vector
  | .vclzI32 .. => .vector
  | .vpopcI32 .. => .vector
  | .vfaddF32 .. => .vector
  | .vfsubF32 .. => .vector
  | .vfmulF32 .. => .vector
  | .vfmaF32 .. => .vector
  | .vfmsF32 .. => .vector
  | .vfminF32 .. => .vector
  | .vfmaxF32 .. => .vector
  | .vfabsF32 .. => .vector
  | .vfnegF32 .. => .vector
  | .vfdivF32 .. => .vector
  | .vfsqrtF32 .. => .vector
  | .vfceqF32 .. => .vector
  | .vfcltF32 .. => .vector
  | .vfcleF32 .. => .vector
  | .vfcunF32 .. => .vector
  | .vfaddBf16 .. => .vector
  | .vfmulBf16 .. => .vector
  | .vfmaBf16 .. => .vector
  | .vfminBf16 .. => .vector
  | .vfmaxBf16 .. => .vector
  | .vfsclF32 .. => .vector
  | .vfrndF32 .. => .vector
  | .vfamaxF32 .. => .vector
  | .cvtF32Bf16 .. => .vector
  | .cvtBf16F32 .. => .vector
  | .cvtF32I32 .. => .vector
  | .cvtI32F32 .. => .vector
  | .cvtMx8F32 .. => .vector
  | .cvtMx6F32 .. => .vector
  | .cvtMx4F32 .. => .vector
  | .cvtF32Mx8 .. => .vector
  | .cvtF32Mx6 .. => .vector
  | .cvtF32Mx4 .. => .vector
  | .cvtF8e4F32 .. => .vector
  | .cvtF32F8e4 .. => .vector
  | .cvtF8e5F32 .. => .vector
  | .cvtF32F8e5 .. => .vector
  | .bscale .. => .vector
  | .cvtBf16F32Sr .. => .vector
  | .vrsumF32 .. => .vector
  | .vrmaxF32 .. => .vector
  | .vrminF32 .. => .vector
  | .vrsumI32 .. => .vector
  | .vrmaxI32 .. => .vector
  | .vrminI32 .. => .vector
  | .vramaxF32 .. => .vector
  | .vdeltaF32 .. => .vector
  | .vdeltaBf16 .. => .vector
  | .vmaxmagF32 .. => .vector
  | .vmaxmagBf16 .. => .vector
  | .vscanF32 .. => .vector
  | .vscanI32 .. => .vector
  | .kcnt .. => .vector
  | .vmov .. => .vector
  | .vbc .. => .vector
  | .vext .. => .vector
  | .vins .. => .vector
  | .vperm .. => .vector
  | .vzip .. => .vector
  | .vunzip .. => .vector
  | .vrotl .. => .vector
  | .vsel .. => .vector
  | .kand .. => .vector
  | .kor .. => .vector
  | .kxor .. => .vector
  | .knot .. => .vector
  | .kfroms .. => .vector
  | .ktos .. => .vector
  | .viota .. => .vector
  | .vexp2 .. => .sfu
  | .vexp .. => .sfu
  | .vlog2 .. => .sfu
  | .vrcp .. => .sfu
  | .vrsqrt .. => .sfu
  | .vlog .. => .sfu
  | .vsin .. => .sfu
  | .vcos .. => .sfu
  | .vtanh .. => .sfu
  | .vsigm .. => .sfu
  | .verf .. => .sfu
  | .vsilu .. => .sfu
  | .wcfg .. => .other
  | .wset .. => .other
  | .wget .. => .other
  | .wrst .. => .other
  | .wskip .. => .other
  | .wisect .. => .other
  | .wicnt .. => .other
  | .wstat .. => .other
  | .mcall .. => .other
  | .mset .. => .other
  | .mget .. => .other
  | .mzero .. => .other
  | .mdrain .. => .other
  | .mwait .. => .other
  | .mstat .. => .other
  | .mcfg .. => .other
  | .rcfg .. => .other
  | .racq .. => .other
  | .rpub .. => .other
  | .rwait .. => .other
  | .rrel .. => .other
  | .reos .. => .other
  | .rstat .. => .other
  | .rmask .. => .other
  | .ecopy .. => .other
  | .egath .. => .other
  | .escat .. => .other
  | .esubs .. => .other
  | .ecoll .. => .other
  | .ehalo .. => .other
  | .ered .. => .other
  | .eckpt .. => .other
  | .erolb .. => .other
  | .enq .. => .other
  | .exit .. => .other
  | .tid .. => .other
  | .tparm .. => .other
  | .qstat .. => .other
  | .srd .. => .other
  | .swr .. => .other
  | .tmark .. => .other
  | .rrec .. => .other
  | .rprobe .. => .other
  | .rgate .. => .other
  | .mmrd .. => .other
  | .mmclr .. => .other
  | .gpost .. => .other
  | .gwait .. => .other
  | .gstat .. => .other
  | .gpre .. => .other
  | .chkeq .. => .other
  | .chkv .. => .other
  | .sig .. => .other
  | .sigrd .. => .other
  | .sigclr .. => .other
  | .trap .. => .other
  | .brk .. => .other
  | .rdsys .. => .other
  | .wrsys .. => .other
  | .lphase .. => .other
  | .rfe .. => .other
  | .ctxsave .. => .other
  | .ctxrest .. => .other
  | .wrsysp .. => .other
  | .halt .. => .other
  | .mpld .. => .other
  | .tlbinv .. => .other
  | .kidset .. => .other
  | .kidkill .. => .other
  | _ => .notSlot

/-- The datapath width a slot counts in R22: its W field, 0 for the mask forms of VPM and outside the vector classes. -/
def Instr.vwidth : Instr → Nat
  | .vaddI8 w _ _ _ => w.bits
  | .vaddI16 w _ _ _ => w.bits
  | .vaddI32 w _ _ _ => w.bits
  | .vsubI8 w _ _ _ => w.bits
  | .vsubI16 w _ _ _ => w.bits
  | .vsubI32 w _ _ _ => w.bits
  | .vmulI16 w _ _ _ => w.bits
  | .vmulI32 w _ _ _ => w.bits
  | .vmulhI32 w _ _ _ => w.bits
  | .vminI32 w _ _ _ => w.bits
  | .vmaxI32 w _ _ _ => w.bits
  | .vminnN32 w _ _ _ => w.bits
  | .vmaxnN32 w _ _ _ => w.bits
  | .vand w _ _ _ => w.bits
  | .vor w _ _ _ => w.bits
  | .vxor w _ _ _ => w.bits
  | .vandn w _ _ _ => w.bits
  | .vshlI32 w _ _ _ => w.bits
  | .vshrN32 w _ _ _ => w.bits
  | .vsarI32 w _ _ _ => w.bits
  | .vaddsI8 w _ _ _ => w.bits
  | .vaddsI16 w _ _ _ => w.bits
  | .vsubsI8 w _ _ _ => w.bits
  | .vsubsI16 w _ _ _ => w.bits
  | .vceqI32 w _ _ _ => w.bits
  | .vcltI32 w _ _ _ => w.bits
  | .vcltnN32 w _ _ _ => w.bits
  | .vabsI32 w _ _ => w.bits
  | .vmadI16 w _ _ _ => w.bits
  | .vdot4I8 w _ _ _ => w.bits
  | .vclzI32 w _ _ => w.bits
  | .vpopcI32 w _ _ => w.bits
  | .vfaddF32 w _ _ _ => w.bits
  | .vfsubF32 w _ _ _ => w.bits
  | .vfmulF32 w _ _ _ => w.bits
  | .vfmaF32 w _ _ _ => w.bits
  | .vfmsF32 w _ _ _ => w.bits
  | .vfminF32 w _ _ _ => w.bits
  | .vfmaxF32 w _ _ _ => w.bits
  | .vfabsF32 w _ _ => w.bits
  | .vfnegF32 w _ _ => w.bits
  | .vfdivF32 w _ _ _ => w.bits
  | .vfsqrtF32 w _ _ => w.bits
  | .vfceqF32 w _ _ _ => w.bits
  | .vfcltF32 w _ _ _ => w.bits
  | .vfcleF32 w _ _ _ => w.bits
  | .vfcunF32 w _ _ _ => w.bits
  | .vfaddBf16 w _ _ _ => w.bits
  | .vfmulBf16 w _ _ _ => w.bits
  | .vfmaBf16 w _ _ _ => w.bits
  | .vfminBf16 w _ _ _ => w.bits
  | .vfmaxBf16 w _ _ _ => w.bits
  | .vfsclF32 w _ _ _ => w.bits
  | .vfrndF32 w _ _ => w.bits
  | .vfamaxF32 w _ _ _ => w.bits
  | .cvtF32Bf16 w _ _ => w.bits
  | .cvtBf16F32 w _ _ => w.bits
  | .cvtF32I32 w _ _ => w.bits
  | .cvtI32F32 w _ _ => w.bits
  | .cvtMx8F32 .. => 1024
  | .cvtMx6F32 .. => 1024
  | .cvtMx4F32 .. => 1024
  | .cvtF32Mx8 .. => 1024
  | .cvtF32Mx6 .. => 1024
  | .cvtF32Mx4 .. => 1024
  | .cvtF8e4F32 w _ _ => w.bits
  | .cvtF32F8e4 w _ _ => w.bits
  | .cvtF8e5F32 w _ _ => w.bits
  | .cvtF32F8e5 w _ _ => w.bits
  | .bscale .. => 1024
  | .cvtBf16F32Sr w _ _ => w.bits
  | .vrsumF32 w _ _ => w.bits
  | .vrmaxF32 w _ _ => w.bits
  | .vrminF32 w _ _ => w.bits
  | .vrsumI32 w _ _ => w.bits
  | .vrmaxI32 w _ _ => w.bits
  | .vrminI32 w _ _ => w.bits
  | .vramaxF32 w _ _ => w.bits
  | .vdeltaF32 w _ _ _ => w.bits
  | .vdeltaBf16 w _ _ _ => w.bits
  | .vmaxmagF32 w _ _ => w.bits
  | .vmaxmagBf16 w _ _ => w.bits
  | .vscanF32 w _ _ => w.bits
  | .vscanI32 w _ _ => w.bits
  | .kcnt w _ _ => w.bits
  | .vmov w _ _ => w.bits
  | .vbc w _ _ _ => w.bits
  | .vext w _ _ _ => w.bits
  | .vins w _ _ _ => w.bits
  | .vperm w _ _ _ => w.bits
  | .vzip w _ _ _ => w.bits
  | .vunzip w _ _ _ => w.bits
  | .vrotl w _ _ _ => w.bits
  | .vsel w _ _ _ _ => w.bits
  | .viota w _ => w.bits
  | _ => 0

/-- The fixed latency of R31; 1 where the rule gives none. -/
def Instr.latency : Instr → Nat
  | .mul .. => 3
  | .mulh .. => 3
  | .mulhn .. => 3
  | .fadd .. => 4
  | .fsub .. => 4
  | .fmul .. => 4
  | .fdiv .. => 4
  | .fsqrt .. => 4
  | .fmin .. => 4
  | .fmax .. => 4
  | .fabs .. => 4
  | .fneg .. => 4
  | .fitof .. => 4
  | .ftoi .. => 4
  | .fround .. => 4
  | .ldb .. => 5
  | .ldh .. => 5
  | .ldw .. => 5
  | .ldd .. => 5
  | .ldv256 .. => 5
  | .ldv512 .. => 5
  | .ldv1k .. => 5
  | .ldbc .. => 5
  | .vaddI8 .. => 2
  | .vaddI16 .. => 2
  | .vaddI32 .. => 2
  | .vsubI8 .. => 2
  | .vsubI16 .. => 2
  | .vsubI32 .. => 2
  | .vmulI16 .. => 4
  | .vmulI32 .. => 4
  | .vmulhI32 .. => 4
  | .vminI32 .. => 2
  | .vmaxI32 .. => 2
  | .vminnN32 .. => 2
  | .vmaxnN32 .. => 2
  | .vand .. => 2
  | .vor .. => 2
  | .vxor .. => 2
  | .vandn .. => 2
  | .vshlI32 .. => 2
  | .vshrN32 .. => 2
  | .vsarI32 .. => 2
  | .vaddsI8 .. => 2
  | .vaddsI16 .. => 2
  | .vsubsI8 .. => 2
  | .vsubsI16 .. => 2
  | .vceqI32 .. => 2
  | .vcltI32 .. => 2
  | .vcltnN32 .. => 2
  | .vabsI32 .. => 2
  | .vmadI16 .. => 2
  | .vdot4I8 .. => 4
  | .vclzI32 .. => 2
  | .vpopcI32 .. => 2
  | .vfaddF32 .. => 4
  | .vfsubF32 .. => 4
  | .vfmulF32 .. => 4
  | .vfmaF32 .. => 4
  | .vfmsF32 .. => 4
  | .vfminF32 .. => 4
  | .vfmaxF32 .. => 4
  | .vfabsF32 .. => 4
  | .vfnegF32 .. => 4
  | .vfdivF32 .. => 4
  | .vfsqrtF32 .. => 4
  | .vfceqF32 .. => 4
  | .vfcltF32 .. => 4
  | .vfcleF32 .. => 4
  | .vfcunF32 .. => 4
  | .vfaddBf16 .. => 4
  | .vfmulBf16 .. => 4
  | .vfmaBf16 .. => 4
  | .vfminBf16 .. => 4
  | .vfmaxBf16 .. => 4
  | .vfsclF32 .. => 4
  | .vfrndF32 .. => 4
  | .vfamaxF32 .. => 4
  | .cvtF32Bf16 .. => 3
  | .cvtBf16F32 .. => 3
  | .cvtF32I32 .. => 3
  | .cvtI32F32 .. => 3
  | .cvtMx8F32 .. => 3
  | .cvtMx6F32 .. => 3
  | .cvtMx4F32 .. => 3
  | .cvtF32Mx8 .. => 3
  | .cvtF32Mx6 .. => 3
  | .cvtF32Mx4 .. => 3
  | .cvtF8e4F32 .. => 3
  | .cvtF32F8e4 .. => 3
  | .cvtF8e5F32 .. => 3
  | .cvtF32F8e5 .. => 3
  | .bscale .. => 3
  | .cvtBf16F32Sr .. => 3
  | .vrsumF32 .. => 6
  | .vrmaxF32 .. => 6
  | .vrminF32 .. => 6
  | .vrsumI32 .. => 6
  | .vrmaxI32 .. => 6
  | .vrminI32 .. => 6
  | .vramaxF32 .. => 6
  | .vdeltaF32 .. => 6
  | .vdeltaBf16 .. => 6
  | .vmaxmagF32 .. => 6
  | .vmaxmagBf16 .. => 6
  | .vscanF32 .. => 8
  | .vscanI32 .. => 8
  | .kcnt .. => 6
  | .vmov .. => 2
  | .vbc .. => 2
  | .vext .. => 2
  | .vins .. => 2
  | .vperm .. => 3
  | .vzip .. => 2
  | .vunzip .. => 2
  | .vrotl .. => 2
  | .vsel .. => 2
  | .kand .. => 2
  | .kor .. => 2
  | .kxor .. => 2
  | .knot .. => 2
  | .kfroms .. => 2
  | .ktos .. => 2
  | .viota .. => 2
  | .vexp2 .. => 8
  | .vexp .. => 8
  | .vlog2 .. => 8
  | .vrcp .. => 8
  | .vrsqrt .. => 8
  | .vlog .. => 8
  | .vsin .. => 8
  | .vcos .. => 8
  | .vtanh .. => 8
  | .vsigm .. => 8
  | .verf .. => 8
  | .vsilu .. => 8
  | _ => 1

end Sys2Proof
end

