-- ==== Sys2Proof/Machine/ContextState.lean ====
section
/-! DEFINITION. The state one context slot holds (04_scalar.md to 13_context.md), as plain data. -/

namespace Sys2Proof.Machine

/-- A sparse array by number: a key that is not listed has the default its reader names. -/
abbrev Table (α : Type) := List (Nat × α)

/-- The cause codes of R293. -/
abbrev Cause := BitVec 8

/-- The states of a context slot (R285). `closing` is a RUNNING context whose exit, rfe, halt or section end waits to commit
(R264 COMMITTING). A SAVED, FAULTED or RETIRED context holds no slot: its slot is free. -/
inductive SlotState where
  | free | loading | ready | running | yielded | stalled | closing | exiting
  deriving DecidableEq, Repr, Inhabited

/-- A register with a value to be written to it. -/
inductive RegVal where
  | s (r : Fin 63) (v : Word)
  | p (r : Fin 16) (v : Bool)
  | v (r : Fin 16) (v : Vec)
  | k (r : Fin 8) (v : Mask)
  | sys (r : Fin 20) (v : Word)
  | mp (r : Fin 8) (v : Word)
  /-- Flags ORed into FPFLAGS (R76). -/
  | orFlags (f : BitVec 5)
  /-- A largest magnitude merged into MAXMAG (R77, R79). -/
  | mergeMag (nan : Bool) (mag : BitVec 31)
  deriving DecidableEq, Repr, Inhabited

/-- A fixed-latency result that becomes readable in cycle `due` (R31). -/
structure PendingWrite where
  val : RegVal
  due : Nat
  deriving DecidableEq, Repr, Inhabited

/-- A windrow descriptor (R132). -/
structure WinDesc where
  modlen : BitVec 32
  scstr  : BitVec 16
  la     : BitVec 4
  nlev   : BitVec 3
  scen   : Bool
  fmt    : BitVec 2
  dir    : Bool
  cnt    : Vector (BitVec 16) 6
  str    : Vector (BitVec 32) 6
  scbase : BitVec 56
  base   : BitVec 56
  deriving DecidableEq, Repr, Inhabited

/-- The states of R137. -/
inductive WinState where
  | idle | active | done | busy
  deriving DecidableEq, Repr, Inhabited

/-- A trap to be raised: its cause and TRAPINFO. -/
structure TrapVal where
  cause : Cause
  info  : Word
  deriving DecidableEq, Repr, Inhabited

/-- A buffered element vector: whether its fetch has completed, its value, its scale byte and a fault recorded against it (R138). -/
structure WinEntry where
  arrived : Bool
  data    : Vec
  scale   : Byte
  fault   : Option TrapVal
  /-- The bytes read so far, of which the value is made; and whether a wset since then makes every one of them too old (R139). -/
  raw     : List Byte
  stale   : Bool
  deriving DecidableEq, Repr, Inhabited

/-- A merge or count in progress (R151). -/
inductive WinMerge where
  /-- wisect of this windrow with the next, and the matches so far. -/
  | isect (seen : Nat)
  /-- The second windrow of a wisect. -/
  | partner
  /-- wicnt with its bound, and the elements below it so far. -/
  | count (lo : BitVec 32) (seen : Nat)
  deriving DecidableEq, Repr, Inhabited

/-- A windrow (R131). -/
structure Windrow where
  desc   : WinDesc
  state  : WinState
  n      : Nat
  idx    : Vector Nat 6
  ovr    : Bool
  scale  : Byte
  icnt   : BitVec 32
  skc    : BitVec 32
  /-- The fetch width in bytes; none after a cursor set of a RAW windrow (R138). -/
  width  : Option Nat
  /-- Element vectors from the cursor on. -/
  buf    : List WinEntry
  merge  : Option WinMerge
  /-- A fault a wisect or wicnt met (R151). -/
  mergeFault : Option TrapVal
  deriving DecidableEq, Repr, Inhabited

/-- A ring descriptor (R186). -/
structure RingDesc where
  cmask  : BitVec 32
  slotsz : BitVec 8
  nslot  : BitVec 8
  mcast  : Bool
  prod   : Bool
  cons   : Bool
  rid    : Fin 64
  base   : BitVec 56
  deriving DecidableEq, Repr, Inhabited

/-- The states of a ring register (R191). -/
inductive RingState where
  | unbound | bound | stale
  deriving DecidableEq, Repr, Inhabited

/-- A ring register rb0-rb15 (R191). -/
structure RingReg where
  desc  : RingDesc
  state : RingState
  p     : Bool
  c     : Bool
  e     : Bool
  epoch : BitVec 8
  core  : Nat
  pq    : BitVec 32
  cq    : BitVec 32
  eq    : BitVec 32
  pcur  : Bool
  ccur  : Bool
  deriving DecidableEq, Repr, Inhabited

/-- The statuses with which a command completes (R203, R263, R399, R402). -/
inductive Status where
  | ok | bad | fault | stale | reset | lost | saved | quar
  deriving DecidableEq, Repr, Inhabited

/-- The kinds of engine command (R36, class ENG), and a guest packet with its queue (R402). -/
inductive CmdKind where
  | copy | gath | scat | subs | coll | halo | red | ckpt | rolb
  | guest (q : Fin 8)
  deriving DecidableEq, Repr, Inhabited

/-- An engine token (R238). -/
inductive TokenState where
  | idle
  | pending
  /-- Complete, with the trap that waiteng or gwait raises unless the status is OK. -/
  | done (st : Status) (trap : TrapVal)
  deriving DecidableEq, Repr, Inhabited

/-- An engine token with the kind and flags of the command that last set it (R238, R239). -/
structure Token where
  state : TokenState
  kind  : CmdKind
  a     : Bool
  scope : Scope
  deriving DecidableEq, Repr, Inhabited

/-- A delta table bound to a loop level (R154): register and six deltas; body length. -/
structure Replay where
  entries : List (Fin 63 × List (BitVec 32))
  len     : BitVec 6
  deriving DecidableEq, Repr, Inhabited

/-- A loop level (R98), with the bindings it holds (R153, R156). -/
structure LoopLevel where
  start  : Word
  exit   : Word
  li     : BitVec 32
  lc     : BitVec 32
  replay : Option Replay
  stage  : Option (Fin 16 × BitVec 3)
  deriving DecidableEq, Repr, Inhabited

/-- The loop stack, innermost level first, with the armed bindings (R98, R153). -/
structure LoopStack where
  levels      : List LoopLevel
  armedReplay : Option Replay
  armedStage  : Option (Fin 16 × BitVec 3)
  deriving DecidableEq, Repr, Inhabited

/-- Where a translated access goes. -/
inductive Place where
  /-- A byte offset in the scratchpad of a core (R206). -/
  | loft (core : Nat)
  /-- A physical address. -/
  | phys
  deriving DecidableEq, Repr, Inhabited

/-- A translated address (R246): the place, the address there, the KID of the leaf and its attributes. -/
structure Trans where
  place   : Place
  addr    : Nat
  kid     : BitVec 8
  coh     : Bool
  gran    : Bool
  nocrib  : Bool
  cribpin : Bool
  pkg     : Nat
  deriving DecidableEq, Repr, Inhabited

/-- An entry of the region store buffer: one line with a byte mask (R271). -/
structure StoreEntry where
  /-- The translation of the line's first byte. -/
  target  : Trans
  /-- The virtual page the translation came from, with its KID (R251). -/
  vpage   : Nat
  vkid    : BitVec 8
  mask    : BitVec 64
  data    : Line
  /-- A release fence or strl issued since the entry was last written: it takes no more merges. -/
  sealed  : Bool
  /-- Releases that stand before the entry in its region: the entry performs after them (R234, R237). -/
  before  : List Scope
  /-- The entry of a strl: it performs alone. -/
  strl    : Option Scope
  /-- The privilege level of the store (R422). -/
  super   : Bool
  /-- Pushes by results with a lower number were issued before the store (R140). -/
  after   : Nat
  /-- Other virtual pages, with their KIDs, by which later stores have merged into the entry (R251). -/
  also    : List (Nat × BitVec 8)
  deriving DecidableEq, Repr, Inhabited

/-- An atomic of a region (R240). -/
structure AtomicReq where
  op      : Fin 8
  four    : Bool
  scope   : Scope
  target  : Trans
  vpage   : Nat
  vkid    : BitVec 8
  d       : Fin 32
  operand : Word
  compare : Word
  deriving DecidableEq, Repr, Inhabited

/-- An engine command with its block as read at issue (R202, R261, R397, R398). -/
structure EngineCmd where
  kind  : CmdKind
  tok   : Fin 64
  a     : Bool
  l     : Bool
  scope : Scope
  kid   : BitVec 8
  /-- The privilege level of the issuer (R247). -/
  super : Bool
  /-- The run that a DUP member belongs to (R259), with its field. -/
  dup   : Option (Nat × Nat)
  /-- The eight words of the command block. -/
  block : List Word
  /-- Its place in the order of commits, once its region is accepted (R397, R398). -/
  order : Nat
  deriving DecidableEq, Repr, Inhabited

/-- A guest packet as gpost read it (R402). -/
structure GuestPacket where
  q     : Fin 8
  tok   : Fin 64
  kid   : BitVec 8
  words : List Word
  deriving DecidableEq, Repr, Inhabited

/-- Effects that a region defers to commit, after its stores (R274). -/
inductive Effect where
  | publish (rb : Fin 16) (q : BitVec 32) (epoch : BitVec 8) (rid : Fin 64) (eos : Bool)
  | release (rb : Fin 16) (q : BitVec 32) (epoch : BitVec 8) (rid : Fin 64)
  | mask (rb : Fin 16) (epoch : BitVec 8) (rid : Fin 64) (cmask : BitVec 32)
  | init (rb : Fin 16) (desc : RingDesc) (prod : Bool)
  | engine (c : EngineCmd)
  | guest (g : GuestPacket)
  | mcall (bank : Fin 4) (routine : BitVec 8) (param : Word)
  | mzero (bank : Fin 4)
  | clear (bank : Fin 4)
  | tmark (tile : BitVec 20) (drift : BitVec 32) (nan : Bool)
  | rrec (lb : Nat) (kid : BitVec 8)
  deriving DecidableEq, Repr, Inhabited

/-- Work an accepted region has handed off (R274): items leave from the front. -/
inductive Handed where
  | store (e : StoreEntry)
  | release (s : Scope)
  | atomic (a : AtomicReq)
  | effect (e : Effect)
  deriving DecidableEq, Repr, Inhabited

/-- The state a discard restores (R277), replay-named registers and stage predicates included. -/
structure Checkpoint where
  windrows : Vector Windrow 16
  loop     : LoopStack
  named    : List (Fin 63 × Word)
  stages   : List (Fin 16 × Bool)
  seed     : Word
  sig      : Word
  domain   : Word
  pos      : Vector (BitVec 16) 16
  rings    : Vector RingReg 16
  /-- DCUR and CCUR of the four banks. -/
  cursors  : Vector (BitVec 13 × BitVec 3) 4
  deriving DecidableEq, Repr

/-- How a closing bundle ends its region (R275, R296, R298, R314). -/
inductive Closing where
  | exit (names : List Nat)
  | rfe
  | halt
  | sectionEnd
  /-- The context ends FAULTED once what its accepted regions handed off has performed (R303). -/
  | faulted
  deriving DecidableEq, Repr, Inhabited

/-- The open region (R264, R268, R271). -/
structure Region where
  rd       : List Reg
  wr       : List Reg
  buffer   : List StoreEntry
  /-- Releases issued since the last buffered store. -/
  fences   : List Scope
  atomic   : Option AtomicReq
  deferred : List Effect
  /-- tmark and rrec slots of the region (R383). -/
  marks    : Nat
  /-- Interlocked results with this number or a later one belong to the region. -/
  firstId  : Nat
  check    : Checkpoint
  deriving DecidableEq, Repr

/-- The section of a member's launch block that runs (R314). -/
inductive Section where
  | prologue | kernel | epilogue
  deriving DecidableEq, Repr, Inhabited

/-- The reduction span since the last quiet boundary (R282). -/
structure Span where
  check      : Checkpoint
  addr       : Word
  rd         : List Reg
  wr         : List Reg
  rewindable : Bool
  /-- The section and iteration that ran at the boundary (R282, R314). -/
  sect       : Section
  iter       : BitVec 32
  deriving DecidableEq, Repr

/-- What kind of interlocked result is in flight (R31). -/
inductive FlightKind where
  | load | divide | vdivide | drain | other
  /-- A push of data that no interlocked result brings: a discard does not abandon it (R140, R276). -/
  | fixed
  deriving DecidableEq, Repr, Inhabited

/-- A push with bytes still to perform (R140, R175): the windrow, and its bytes with their places and virtual addresses. -/
structure HeldPush where
  win    : Fin 16
  places : List Trans
  bytes  : List Byte
  vas    : List Nat
  deriving DecidableEq, Repr, Inhabited

/-- An interlocked result in flight: the registers it writes when it returns, and a push it performs (R31, R33). -/
structure Flight where
  id   : Nat
  kind : FlightKind
  /-- No earlier than this cycle. -/
  ready : Nat
  vals : List RegVal
  push : Option HeldPush
  deriving DecidableEq, Repr, Inhabited

/-- What a context knows of its launch block (R313, R460). -/
structure Member where
  /-- The virtual address of the launch block under its KID, and its physical address. -/
  lb      : Nat
  kid     : BitVec 8
  field   : Nat
  queue   : Fin 64
  index   : BitVec 16
  width   : BitVec 16
  parm    : BitVec 56
  trip    : BitVec 32
  ker     : BitVec 56
  epi     : BitVec 56
  sect    : Section
  iter    : BitVec 32
  /-- The launch block is DUP, and this is the copy on field QF XOR 1 (R317). -/
  dup     : Bool
  twin    : Bool
  /-- DOMAIN.LEVEL of the launch (R336), and the run of the launch block the member belongs to. -/
  level   : BitVec 3
  run     : Nat
  /-- The reuse key of a REUSE launch block (R380, R384). -/
  key     : Option (BitVec 32)
  /-- Parameter word 0 as read at dispatch in a SYS group: NPKG and GNUM (R337); zero otherwise. -/
  sysw    : Word
  /-- The launch block is YOKE (R406). -/
  yoke    : Bool
  /-- The exit list of an accepted exit: namings still to be made. -/
  names   : List Nat
  /-- GroupPhase and the generations whose completion has reached the member (R340, R346). -/
  seen    : BitVec 12
  seenGen : Vector (BitVec 16) 16
  deriving DecidableEq, Repr, Inhabited

/-- A request to save a context (R300, R327). -/
structure SaveRequest where
  /-- The physical addresses of the two 4 KiB pages of the image, with the KID they are written under. -/
  page0 : Trans
  page1 : Trans
  /-- The field and queue whose Thresher asked, with the image's virtual address; none for ctxsave. -/
  home  : Option (Nat × Fin 64 × Nat)
  /-- The context whose ctxsave asked, by its number, and the image's virtual address. -/
  asker : Nat
  va    : Nat
  deriving DecidableEq, Repr, Inhabited

/-- The registers that software names (R83, R84, R105, R146, R162, R178, R288). -/
structure Regs where
  s      : Vector Word 63
  p      : Vector Bool 16
  v      : Vector Vec 16
  k      : Vector Mask 8
  mb     : Vector Word 8
  mlen   : Vector Word 8
  mstep  : Vector Word 8
  mp     : Vector Word 8
  drm    : BitVec 3
  dsat   : Bool
  sys    : Vector Word 20
  deriving DecidableEq, Repr

/-- A request that a slot of the waiting bundle has made once: the slot's index, the request's number, and whether it has been answered. -/
structure Ask where
  index    : Nat
  id       : Nat
  answered : Bool
  deriving DecidableEq, Repr, Inhabited

/-- The two commit signatures of a bundle of a locked yoke until the shadow issues it (R407). -/
structure Signature where
  /-- The cycle in which the shadow issues the bundle. -/
  due     : Nat
  addr    : Word
  primary : BitVec 64
  shadow  : BitVec 64
  deriving DecidableEq, Repr, Inhabited

/-- A context slot. -/
structure Context where
  state    : SlotState
  /-- The context, by a number no other context has: its engine commands name it (R238); 0 in a FREE slot. -/
  ident    : Nat
  pc       : Word
  regs     : Regs
  pend     : List PendingWrite
  flights  : List Flight
  nextId   : Nat
  loop     : LoopStack
  windrows : Vector Windrow 16
  rings    : Vector RingReg 16
  tokens   : Vector Token 64
  cnt      : Vector (BitVec 16) 16
  pos      : Vector (BitVec 16) 16
  arr      : BitVec 12
  region   : Region
  span     : Span
  outbox   : List Handed
  closing  : Option Closing
  /-- An error an atomic met, raised by the next reader of d or commit (R242); with d = 0, which none reads, KEYDEAD of a store that was dropped
  under a DEAD KID (R255). -/
  atomicErr : Option (Fin 32 × TrapVal)
  /-- The atomics of accepted regions whose old values are still to be written: the register, and the value once it has executed. -/
  atomics  : List (Fin 32 × Option Word)
  /-- The issue cycle of the previous bundle, and the earliest next issue (R27, R97). -/
  lastIssue : Option Nat
  notBefore : Nat
  /-- Set on re-entry and rfe: the next bundle issues without applying its RM (R265). -/
  skipRm   : Bool
  /-- A quiet-boundary test is due before the next bundle's slots issue (R183, R281). -/
  quiet    : Bool
  /-- Set when the context was switched in: its Y makes no selection (R286). -/
  resumed  : Bool
  running  : Nat
  preHit   : Bool
  passed   : Nat
  lreq     : BitVec 4
  save     : Option SaveRequest
  member   : Option Member
  /-- The cycle in which a LOADING slot is ready at the earliest, and whether it restores an image. -/
  loadAt   : Nat
  restore  : Bool
  /-- A drain has issued: the next bundle waits for the accesses that have left the context (R235). -/
  draining : Bool
  /-- The requests that slots of the waiting bundle have made. -/
  asks     : List Ask
  /-- The translations that a waiting tlbinv or kidset has dropped (R250). -/
  drops    : List (Nat × Nat)
  /-- The bundle of a tlbinv or kidset, with its KID, first page and count, whose drop has had the context's own region entered again (R250). -/
  redrop   : Option (Word × BitVec 8 × Nat × Nat)
  /-- Signatures that the yoke has still to compare, oldest first (R407). -/
  sigs     : List Signature
  /-- In a locked yoke the primary has issued the bundle at pc, which commits: the cycle in which the shadow issues it, and its region is
  accepted and its slots act (R408). -/
  signed   : Option Nat
  /-- Lines that the vector loads of the waiting bundle have read before the others of their granules (R227). -/
  early    : List (Trans × Line)
  deriving DecidableEq, Repr

/-- The context's span can no longer be rewound (R282). -/
def Context.spent (c : Context) : Context := { c with span := { c.span with rewindable := false } }

end Sys2Proof.Machine
end

