-- ==== Sys2Proof/Machine/CoreState.lean ====
section
/-! DEFINITION. The state of a core and of a sheaf outside the context slots (07_tile.md, 08_ring.md, 09_storage.md, 10_line.md,
11_page.md), as plain data. -/

namespace Sys2Proof.Machine

/-- The states of an accumulator bank (R161). -/
inductive BankState where
  | empty | live | busy | fault
  deriving DecidableEq, Repr, Inhabited

/-- A ring slot that the engine holds: ring register, ring-table entry and sequence. -/
structure HeldSlot where
  rb    : Fin 16
  rid   : Fin 64
  q     : BitVec 32
  epoch : BitVec 8
  deriving DecidableEq, Repr, Inhabited

/-- An accumulator bank (R160, R177). -/
structure Bank where
  /-- The context slot that owns it. -/
  owner : Option (Fin 4)
  state : BankState
  cells : Table Acc
  rp    : Table (BitVec 32)
  cp    : Table (BitVec 32)
  dcur  : BitVec 13
  ccur  : BitVec 3
  calln : BitVec 16
  lrtn  : BitVec 8
  tag   : BitVec 8
  uce   : Bool
  ck    : Bool
  dr    : Bool
  nan   : Bool
  inf   : Bool
  rerr  : Bool
  mis   : Bool
  /-- A recorded error not yet raised (R171). -/
  error : Option TrapVal
  poisoned : List Nat
  /-- Slots held under DR, oldest first (R167). -/
  held  : List HeldSlot
  /-- A dual-row compare is still due, and when it ends (R175). -/
  compare : Bool
  deriving DecidableEq, Repr

/-- The terms of a MAC on their way to a bank (R168): the cycle they land, and what they add (R170). -/
structure MacTerms where
  land  : Nat
  slotA : List Byte
  slotB : List Byte
  km    : BitVec 4
  neg   : Bool
  cs    : Bool
  deriving DecidableEq, Repr, Inhabited

/-- A command in the matrix queue (R168). -/
inductive MatrixOp where
  | call (routine : BitVec 8) (param : Word)
  | zero
  | clear
  deriving DecidableEq, Repr, Inhabited

/-- A queued command with its bank, the owner's slot and the cycle of its commit. -/
structure MatrixCmd where
  bank  : Fin 4
  slot  : Fin 4
  op    : MatrixOp
  since : Nat
  deriving DecidableEq, Repr, Inhabited

/-- A call that has started (R169). -/
structure MatrixCall where
  cmd   : MatrixCmd
  pc    : Nat
  cs    : Bool
  neg   : Bool
  km    : BitVec 4
  curA  : Option HeldSlot
  curB  : Option HeldSlot
  top   : Nat
  left  : Nat
  /-- Waits in GETA, GETB or GETAB. -/
  waits : Bool
  /-- END has run, in this cycle; terms may still be landing. -/
  ended : Option Nat
  macs  : List MacTerms
  deriving DecidableEq, Repr, Inhabited

/-- A cached L1 line (R224): address and KID, bytes, and the bytes not yet written back. -/
structure CacheLine where
  line  : Nat
  kid   : BitVec 8
  data  : Line
  dirty : BitVec 64
  attr  : Trans
  /-- Cores of the sheaf whose releases write the line back: they have stored to its dirty bytes or acquired such stores (R230, R233). -/
  owed  : List Nat
  deriving DecidableEq, Repr, Inhabited

/-- A cached translation (R248): the page base, its size and the leaf. -/
structure TlbEntry where
  kid   : BitVec 8
  base  : Nat
  size  : Nat
  leaf  : Word
  /-- The physical address of the leaf's entry (R258). -/
  entry : Nat
  deriving DecidableEq, Repr, Inhabited

/-- The Loft step in motion (R210): up for a grow, the step, and the cycle the move ends. -/
structure LoftMove where
  grow : Bool
  step : Nat
  ends : Nat
  deriving DecidableEq, Repr, Inhabited

/-- A ctxsave or ctxrest as the core remembers it (R300, R304). -/
structure LastImage where
  slot : Fin 4
  addr : BitVec 56
  deriving DecidableEq, Repr, Inhabited

/-- A write of an engine command that is not yet visible (R239): the place, and the masked bytes of its line. -/
structure LateWrite where
  attr   : Trans
  mask   : BitVec 64
  data   : Line
  /-- The issuing context, its token, and the virtual address of the piece. -/
  ident  : Nat
  tok    : Fin 64
  va     : Nat
  /-- The context has waited on the token: its releases stand behind the write (R230). -/
  waited : Bool
  /-- The bytes are at their home; copies in the L1s of the core's sheaf may stand before them still. -/
  home   : Bool
  deriving DecidableEq, Repr, Inhabited

/-- A core. -/
structure Core where
  ctx      : Vector Context 4
  running  : Option (Fin 4)
  /-- The context that was RUNNING last, by its number; 0 before the first (R285). -/
  ran      : Nat
  last     : Fin 4
  rem      : Nat
  /-- A switch has chosen the running context: its bundle issues no earlier than this cycle and without a further selection. -/
  bubble   : Nat
  /-- The cycle in which the running context last tried to issue. -/
  tried    : Option Nat
  scr      : Nat
  move     : Option LoftMove
  loft     : List (Nat × Byte)
  l1       : List CacheLine
  tlb      : List TlbEntry
  /-- Every leaf that an access of the core has used since it was last dropped: what a drop reaches (R250, R251). -/
  used     : List TlbEntry
  /-- Writes of engine commands that are not yet visible (R239), oldest first. -/
  late     : List LateWrite
  /-- CLEAN CKPT pages whose copy a write waits for (R260): KID and page. -/
  copies   : List (BitVec 8 × Nat)
  banks    : Vector Bank 4
  mq       : List MatrixCmd
  /-- The slots whose matrix commands have been committed and not yet queued, in commit order (R168). -/
  order    : List (Fin 4)
  calls    : List MatrixCall
  /-- The call that has the array, by its bank, and the cycle the array is free. -/
  array    : Option (Fin 4)
  arrayAt  : Nat
  /-- An mzero or clear that runs: its bank and the cycle it ends (R161). -/
  clearing : Option (Fin 4 × Bool × Nat)
  store    : Table (List (BitVec 16))
  step     : Vector Word 17
  lastSave : Option LastImage
  lastRest : Option LastImage
  /-- The cycle of the core's last issue (R328). -/
  issued   : Nat
  /-- The yoke this core belongs to runs locked (R406). -/
  locked   : Bool
  /-- A datapath error in the signature that the shadow forms for the core's next bundle (R407). -/
  upset    : BitVec 64
  deriving DecidableEq, Repr

/-- The states of a ring slot (R189). -/
inductive RingSlotState where
  | free | filling | full
  deriving DecidableEq, Repr, Inhabited

/-- A slot of a ring-table entry (R185), with the cycle from which its state is visible (R201). -/
structure RingSlot where
  state   : RingSlotState
  tag     : BitVec 32
  pending : BitVec 32
  /-- The Gleaner's pending bit, for a ring a Gleaner consumes. -/
  gpend   : Bool
  eos     : Bool
  err     : Bool
  visible : Nat
  deriving DecidableEq, Repr, Inhabited

/-- A ring-table entry (R185). -/
structure RingEntry where
  ready    : Bool
  desc     : RingDesc
  cmask    : BitVec 32
  /-- The producing context: core and slot. -/
  producer : Option (Nat × Fin 4)
  epoch    : BitVec 8
  next     : BitVec 32
  slots    : Table RingSlot
  deriving DecidableEq, Repr, Inhabited

/-- An active esubs or ecoll stream on a ring (R202, R203). -/
structure Stream where
  rid   : Fin 64
  cmd   : EngineCmd
  /-- The issuing context. -/
  ident : Nat
  /-- The next tile, and whether its slot is being filled. -/
  tile  : Nat
  filling : Bool
  /-- The stream met a fault: the error EOS slot is still due. -/
  errEos : Bool
  deriving DecidableEq, Repr, Inhabited

/-- A sheaf: its ring table, the multicast copies in motion and its Gleaner streams. -/
structure Sheaf where
  rings   : Table RingEntry
  streams : List Stream
  deriving DecidableEq, Repr

end Sys2Proof.Machine
end

