-- ==== Sys2Proof/Machine/FieldState.lean ====
section
/-! DEFINITION. The state of a field, of its Thresher and of a memory stack (09_storage.md, 14_kernel.md to 19_reuse.md), as plain data. -/

namespace Sys2Proof.Machine

/-- The states of a launch block on chip (R309). -/
inductive LbState where
  | enqueued | blocked | ready | dispatched | running
  deriving DecidableEq, Repr, Inhabited

/-- One copy of a group: its phase, arrivals, rendezvous slots and fault flag (R339, R344, R341). -/
structure Group where
  phase    : BitVec 12
  /-- Member indices that have arrived at the open phase. -/
  arrived  : List Nat
  /-- GEN of each rendezvous slot. -/
  gen      : Vector (BitVec 16) 16
  /-- Arrivals in the open generation of each slot. -/
  met      : Vector (List Nat) 16
  /-- Members RETIRED. -/
  retired  : List Nat
  /-- SIGREG of members that have exited (R317). -/
  sigs     : List (Nat × Word)
  deriving DecidableEq, Repr, Inhabited

/-- A queued base-die write (R218). -/
structure QueuedWrite where
  line : Nat
  kid  : BitVec 8
  mask : BitVec 64
  data : Line
  nocrib  : Bool
  cribpin : Bool
  deriving DecidableEq, Repr, Inhabited

/-- The KID that a line was last written under, and the keys that enciphered it (R254). -/
structure LineKeys where
  kid  : BitVec 8
  keys : BitVec 128 × BitVec 128
  deriving DecidableEq, Repr, Inhabited

/-- What memory holds at its homes at one moment: DRAM with its KIDs, the L2 carves and Granary windows by field, the queued writes by stack. A
kernel keeps the one of its first dispatch, since fetch may still see code as it was then (R48). -/
structure CodeView where
  mem     : List (Nat × Byte)
  keys    : Table LineKeys
  l2      : Table (List CacheLine)
  gran    : Table (List (Nat × Byte))
  granKid : Table (Table (BitVec 8))
  writes  : Table (List QueuedWrite)
  deriving DecidableEq, Repr, Inhabited

/-- A launch block held on chip (R308): its address, key, words as read, and live state. -/
structure HeldLb where
  /-- The run, by a number no other run has. -/
  run      : Nat
  addr     : Nat
  kid      : BitVec 8
  queue    : Fin 64
  words    : List Word
  state    : LbState
  /-- Writer counts of its outputs are raised (R310). -/
  raised   : Bool
  /-- The run or skip decision at READY has been made to run (R378). -/
  decided  : Bool
  /-- Members dispatched, in ascending index; under DUP each stands for two. -/
  started  : Nat
  /-- The kernel of its SYS group has faulted in another package (R341). -/
  faulted  : Bool
  /-- The Stook way (set, way) of a tracked run (R376). -/
  entry    : Option (Nat × Fin 4)
  group    : Group
  dupGroup : Group
  /-- SHADOW pages that DUP members wrote: page and PTE address (R259). -/
  writeSet : List (Nat × Nat)
  /-- The writers that its inputs wait for: tile and run (R310). -/
  waits    : List (BitVec 20 × Nat)
  /-- It holds an entry of its queue's grant (R325). -/
  granted  : Bool
  /-- The core of the first member, and of the first copy on the other field (R311). -/
  home     : Option Nat
  home2    : Option Nat
  /-- Successors that a DUP launch names once every pair has compared equal (R317). -/
  names    : List Nat
  /-- Parameter word 0 of a SYS group (R337). -/
  sysw     : Word
  /-- The loft plan's SCR (R208). -/
  lreq     : BitVec 4
  /-- The group spans packages (R337). -/
  remote   : Bool
  /-- Memory at the kernel's first dispatch (R48). -/
  code     : CodeView
  deriving DecidableEq, Repr, Inhabited

/-- Who waits until an arrival is taken (R325). -/
inductive Sender where
  | exit (core : Nat) (slot : Fin 4)
  | enq (core : Nat) (slot : Fin 4) (id : Nat)
  | skip (field : Nat)
  | ssq
  /-- The Thresher itself, for the exits of a DUP launch. -/
  | dup
  deriving DecidableEq, Repr, Inhabited

/-- A launch block that has become ENQUEUED and has not been taken into its queue (R324, R325). -/
structure Arrival where
  addr   : Nat
  /-- The launch block as it was read. -/
  words  : List Word
  kid    : BitVec 8
  queue  : Fin 64
  sender : Sender
  deriving DecidableEq, Repr, Inhabited

/-- A naming still to be made: the launch block named, the queue and launch block on whose behalf (R319, R315, R459). -/
structure Naming where
  addr    : Nat
  kid     : BitVec 8
  byQueue : Fin 64
  byLb    : Nat
  sender  : Sender
  /-- FRING of that queue (R459). -/
  fring   : Fin 16
  deriving DecidableEq, Repr, Inhabited

/-- A member the Thresher has saved, by the virtual address of its image and the KID that maps it (R327). -/
structure SavedMember where
  image  : Nat
  kid    : BitVec 8
  deriving DecidableEq, Repr, Inhabited

/-- The states of a queue (R326). -/
inductive QueueState where
  | off | open_ | spill | held
  deriving DecidableEq, Repr, Inhabited

/-- A queue of a Thresher (R322, R324, R325). -/
structure Queue where
  state   : QueueState
  /-- The descriptor as read: its eight words. -/
  desc    : List Word
  grant   : Nat
  /-- Records ever written to and refilled from the overflow ring. -/
  ringIn  : Nat
  ringOut : Nat
  /-- The addresses of the launch blocks whose records the ring holds, in order. -/
  spilled : List Nat
  saved   : List SavedMember
  /-- Cycle of the next retry of a HELD queue, and the cause last reported for it (R326). -/
  retryAt : Nat
  cause   : Option Cause
  deriving DecidableEq, Repr, Inhabited

/-- A Tile Readiness Table entry (R372). -/
structure TileEntry where
  /-- The runs whose raises of WCNT stand, in the order in which they entered BLOCKED (R310). -/
  writers : List Nat
  rv   : Bool
  rkey : BitVec 32
  d    : BitVec 32
  ver  : BitVec 32
  deriving DecidableEq, Repr, Inhabited

/-- The states of a reuse entry (R375). -/
inductive ReuseState where
  | invalid | pending | valid
  deriving DecidableEq, Repr, Inhabited

/-- A reuse entry (R374). -/
structure ReuseEntry where
  state : ReuseState
  kill  : Bool
  rr    : Bool
  key   : BitVec 32
  step  : BitVec 32
  ins   : List (BitVec 20)
  snaps : List (BitVec 32)
  outs  : List (BitVec 20)
  age   : BitVec 2
  deriving DecidableEq, Repr, Inhabited

/-- A tmark on its way to the home Thresher (R373, R380). -/
structure TileMark where
  tile  : BitVec 20
  drift : BitVec 32
  nan   : Bool
  /-- The key of the LB whose member sent it, where that LB is REUSE. -/
  key   : Option (BitVec 32)
  /-- The context that sent it, by its number. -/
  ident : Nat
  deriving DecidableEq, Repr, Inhabited

/-- A record for a host ring (R332, R333, R459). -/
structure HostRecord where
  ring  : Fin 16
  words : List Word
  deriving DecidableEq, Repr, Inhabited

/-- A chunk of a copy, gather or scatter in motion, translated as it started (R262): the pieces of the source still to be read, by the offset in
the chunk, the place, the length and the virtual address; the bytes read; and the writes that they become. -/
structure EngineChunk where
  left   : List (Nat × Trans × Nat × Nat)
  bytes  : List Byte
  writes : List LateWrite
  /-- Virtual pages of the chunk, and the KID they are translated under (R250). -/
  pages  : List Nat
  kid    : BitVec 8
  deriving DecidableEq, Repr, Inhabited

/-- An engine command in progress (R262, R397, R398): the next chunk. -/
structure EngineRun where
  id     : Nat
  cmd    : EngineCmd
  /-- The core it was issued on, and the issuing context. -/
  core   : Nat
  ident  : Nat
  /-- GNUM and NPKG of the issuing member's system group (R337). -/
  gnum   : Nat
  npkg   : Nat
  /-- Bytes of the command moved so far. -/
  done   : Nat
  /-- The chunk in motion. -/
  part   : Option EngineChunk
  /-- A completion status once it stops. -/
  status : Option (Status × TrapVal)
  /-- Its peers have matched (R397, R398). -/
  matched : Bool
  /-- Its first packet has left on its route, and the cycle it left (R391, R399). -/
  posted : Bool
  sent   : Nat
  deriving DecidableEq, Repr, Inhabited

/-- A field. -/
structure Field where
  gran     : List (Nat × Byte)
  granKid  : Table (BitVec 8)
  l2       : List CacheLine
  engines  : List EngineRun
  lbs      : List HeldLb
  queues   : Table Queue
  arrivals : List Arrival
  namings  : List Naming
  tiles    : Table TileEntry
  marks    : List TileMark
  reuse    : Table ReuseEntry
  records  : List HostRecord
  served   : Table Nat
  /-- By rank, the queue whose GANG head holds the Thresher (R327). -/
  gang     : Table Nat
  stuck    : Nat
  step     : Vector Word 17
  deriving DecidableEq, Repr

/-- An outstanding packet's reply (R217): its first line, the bytes it returns, and the queued writes that must leave before it (R218). -/
structure Reply where
  tag   : Nat
  line  : Nat
  bytes : List Byte
  left  : Nat
  /-- The reader's KID and the attributes of its page (R221). -/
  kid     : BitVec 8
  nocrib  : Bool
  cribpin : Bool
  deriving DecidableEq, Repr, Inhabited

/-- A Crib line (R219): set position in LRU order is its place in the slice's list, most recent first. -/
structure CribLine where
  line   : Nat
  kid    : BitVec 8
  pinned : Bool
  deriving DecidableEq, Repr, Inhabited

/-- A Crib slice: its lines in LRU order, filter bits set and miss count (R219, R220). -/
structure CribSlice where
  lines  : List CribLine
  bloom  : List Nat
  misses : Nat
  deriving DecidableEq, Repr, Inhabited

/-- A stack. -/
structure Stack where
  writes  : List QueuedWrite
  replies : List Reply
  slices  : Table CribSlice
  t1      : Bool
  t2      : Bool
  t3      : Bool
  deriving DecidableEq, Repr, Inhabited

end Sys2Proof.Machine
end

