-- ==== Sys2Proof/Machine/Crib.lean ====
section
/-! DEFINITION. The stacks of HBM by physical address and the Crib of a base die (09_storage.md R216, R219 to R221). -/

namespace Sys2Proof.Machine

/-- The stack that holds an HBM address (R216). -/
def stackOfPa (pa : Nat) : Nat := 6 * (pa / 0x10000000000) + (pa % 0x10000000000 / 4096) % 6

/-- The offset of an HBM address in its stack (R216). -/
def stackOffset (pa : Nat) : Nat := (pa % 0x10000000000 / 4096) / 6 * 4096 + pa % 4096

/-! ## The Crib (R219 to R221) -/

/-- L of R219 for a physical line. -/
def cribIndex (line : Nat) : Nat := stackOffset (64 * line) / 64

/-- The slice of a line. -/
def cribSlice (line : Nat) : Nat := (cribIndex line % 16) ^^^ (cribIndex line / 16 % 16) ^^^ (cribIndex line / 256 % 16)

/-- The set of a line. -/
def cribSet (line : Nat) : Nat := cribIndex line / 16 % 2 ^ 13

/-- h1 of R220. -/
def cribHash1 (line : Nat) : Nat := (cribIndex line % 2 ^ 16) ^^^ (cribIndex line / 2 ^ 16 % 2 ^ 15)

/-- h2 of R220. -/
def cribHash2 (line : Nat) : Nat :=
  let low := cribIndex line % 2 ^ 16
  (cribIndex line / 2 ^ 16 % 2 ^ 15) ^^^ (low * 2 ^ 7 % 2 ^ 16 + low / 2 ^ 9)

/-- Lines of a slice in a line's set, most recent first. -/
def CribSlice.ways (x : CribSlice) (line : Nat) : List CribLine := x.lines.filter fun l => cribSet l.line == cribSet line

/-- Pinned ways of a line's set. -/
def CribSlice.pins (x : CribSlice) (line : Nat) : Nat := ((x.ways line).filter fun l => l.pinned).length

/-- Removes the last unpinned line of a set: the least recently used one. -/
def dropLru (set : Nat) (ls : List CribLine) : List CribLine :=
  match ls.reverse.find? fun l => cribSet l.line == set && !l.pinned with
  | some v => ls.filter fun l => l != v
  | none => ls

/-- A line is allocated as the most recent of its set (R219, R221). -/
def CribSlice.allocate (x : CribSlice) (line : Nat) (kid : BitVec 8) (pin : Bool) : CribSlice :=
  let ls := if (x.ways line).length < 12 then x.lines else dropLru (cribSet line) x.lines
  { x with lines := ⟨line, kid, pin && decide (x.pins line < 8)⟩ :: ls }

/-- The filter is cleared once the count has reached WINDOW (R220). -/
def CribSlice.window (x : CribSlice) (winlg : Nat) : CribSlice := if 2 ^ winlg ≤ x.misses then { x with bloom := [], misses := 0 } else x

/-- A miss of a page without attributes (R220). -/
def CribSlice.miss (x : CribSlice) (line : Nat) (kid : BitVec 8) : CribSlice :=
  let h1 := cribHash1 line
  let h2 := cribHash2 line
  let y := if x.bloom.contains h1 && x.bloom.contains h2 then x.allocate line kid false
    else { x with bloom := (h2 :: h1 :: x.bloom).eraseDups }
  { y with misses := x.misses + 1 }

/-- An access of a line meets the Crib (R219 to R221): the line's place, the filter and the count. -/
def CribSlice.access (x : CribSlice) (line : Nat) (kid : BitVec 8) (nocrib cribpin : Bool) (winlg : Nat) : CribSlice :=
  match x.lines.find? fun l => l.line == line && l.kid == kid with
  | some l =>
    let pin := l.pinned || (cribpin && !nocrib && decide (x.pins line < 8))
    { x with lines := { l with pinned := pin } :: x.lines.filter fun m => m != l }
  | none =>
    if nocrib then x
    else if cribpin then x.allocate line kid true
    else (x.window winlg).miss line kid

end Sys2Proof.Machine
end

