-- ==== Sys2Proof/Machine/PackageState.lean ====
section
/-! DEFINITION. The state of the package outside its fields (11_page.md, 15_queue.md, 18_step.md, 20_link.md, 22_platform.md), as plain data. -/

namespace Sys2Proof.Machine

/-- The states of a KID (R252). -/
inductive KidState where
  | free | live | dead
  deriving DecidableEq, Repr, Inhabited

/-- A KID (R252, R253). -/
structure KidEntry where
  state : KidState
  key1  : BitVec 128
  key2  : BitVec 128
  root  : Word
  htab  : Word
  hcnt  : BitVec 20
  deriving DecidableEq, Repr, Inhabited

/-- A home directory entry of a COH line (R243, R411). -/
structure CohLine where
  line   : Nat
  /-- Packages that hold a copy, and the one that holds a modified copy. -/
  owner  : Option Nat
  lost   : Bool
  deriving DecidableEq, Repr, Inhabited

/-- A line of another package's memory as its home holds it (R243): what it was written under, and its bytes. -/
structure RemoteLine where
  under : LineKeys
  data : Line
  deriving DecidableEq, Repr, Inhabited

/-- The states of the SSQ (R355). -/
inductive SsqState where
  | idle | running | waiting | stopped | faulted | taken
  deriving DecidableEq, Repr, Inhabited

/-- What a WAITING node waits for, with its fields (R362, R363, R366). -/
inductive SsqWait where
  | launch (q : Fin 64) (grp : Fin 16) (re : Bool) (lb : BitVec 56) (join : BitVec 16)
  /-- A LAUNCH whose arrival waits at a full queue (R325), with the word of JOIN and STATE as the LAUNCH found it (R355). -/
  | arrival (grp : Fin 16) (lb : BitVec 56) (word : Word)
  | waitk (mask : BitVec 16)
  | post (ring : Fin 16) (tag : BitVec 16) (payload : BitVec 64)
  deriving DecidableEq, Repr, Inhabited

/-- A swr that the SSQ has received (R370): who waits for it, register and value. -/
structure StepAsk where
  core  : Nat
  slot  : Fin 4
  /-- The number of the request. -/
  id    : Nat
  reg   : Fin 17
  value : Word
  deriving DecidableEq, Repr, Inhabited

/-- The Step Sequencer (R353 to R369). -/
structure Ssq where
  state   : SsqState
  /-- The address of the next node, and of the last node whose effect completed. -/
  cur     : BitVec 56
  last    : BitVec 56
  kid     : BitVec 8
  sched   : BitVec 56
  launch  : List (BitVec 56 × Fin 16)
  step    : Vector Word 17
  /-- Writes of step registers not yet in every copy (R358): register, value. -/
  writes  : List (Fin 17 × Word)
  /-- Cores and fields whose copies are still to change. -/
  oldCores  : List Nat
  oldFields : List Nat
  /-- The node that ends, and the swr that is answered, once every copy has changed. -/
  ending  : Option (BitVec 56)
  asker   : Option StepAsk
  /-- swr writes received and not begun. -/
  asks    : List StepAsk
  waiting : Option SsqWait
  /-- The standby SSQ has taken over (R369). -/
  second  : Bool
  deriving DecidableEq, Repr

/-- A host ring's interrupt state (R334). -/
structure HostRing where
  pending : Nat
  oldest  : Nat
  deriving DecidableEq, Repr, Inhabited

/-- The states of a link (R389). -/
inductive LinkState where
  | down | training | active | degraded | draining | quarantined
  deriving DecidableEq, Repr, Inhabited

/-- A flit that a Jozer link has still to see acknowledged (R390): its destination, what it carries, and the engine command whose data that is. -/
structure Flit where
  seq     : BitVec 12
  cls     : BitVec 4
  hops    : BitVec 8
  payload : List Byte
  dest    : Nat
  owner   : Option Nat
  deriving DecidableEq, Repr, Inhabited

/-- A link (R388 to R390). -/
structure Link where
  state    : LinkState
  attempts : Nat
  full     : Bool
  /-- Lanes lost since training, as spares taken and then widths given up (R388). -/
  worn     : Nat
  /-- The next sequence number to send, the one acknowledged to us, and the next one expected (R390). -/
  txSeq    : BitVec 12
  txAcked  : BitVec 12
  rxSeq    : BitVec 12
  /-- The next flit to put on the wire, flits not yet acknowledged, oldest first, and those lost with the link (R390, R392). -/
  wire     : BitVec 12
  flits    : List Flit
  lost     : List Flit
  /-- Flits that wait for a sequence number: while the link takes no packets, or too many are not yet acknowledged (R389, R390). -/
  queue    : List Flit
  deriving DecidableEq, Repr, Inhabited

/-- A pre-emption request (R403): when it was sent, the packets posted before it and not completed, and the context that waits for it. -/
structure GuestPre where
  sent : Nat
  owed : List (BitVec 11 × Fin 64)
  core : Nat
  slot : Fin 4
  id   : Nat
  deriving DecidableEq, Repr, Inhabited

/-- A refused translation (R401): queue, CTX tag, virtual page, cause, and when. -/
structure Refused where
  queue : Fin 8
  ctx   : BitVec 11
  page  : Nat
  cause : Cause
  at_   : Nat
  deriving DecidableEq, Repr, Inhabited

/-- A guest queue (R400, R403). -/
structure GuestQueue where
  paused  : Bool
  /-- Packets posted and not completed: CTX and TOK. -/
  posted  : List (BitVec 11 × Fin 64)
  /-- Pre-emption requests not yet acknowledged, oldest first. -/
  gpre    : List GuestPre
  deriving DecidableEq, Repr, Inhabited

/-- The Lean-to socket (R400 to R405). -/
structure Guest where
  queues  : Table GuestQueue
  breach  : Option (BitVec 4)
  /-- The cycles in which the translation invalidations not yet acknowledged were sent, oldest first (R401). -/
  invs    : List Nat
  /-- Translations granted to the guest: queue, virtual page. -/
  held    : List (Fin 8 × Nat)
  /-- Translations refused to the guest whose fault packet is still to come (R401). -/
  refused : List Refused
  /-- Bytes of guest memory the guest reported at training (R393). -/
  size    : Nat
  deriving DecidableEq, Repr, Inhabited

/-- The Granger's status (R420). -/
inductive GrangerState where
  | booting | ready | bootfail | frozen | dumped
  deriving DecidableEq, Repr, Inhabited

/-- The configuration record (R417). -/
structure ConfigRecord where
  rtoff    : Word
  cxllen   : Nat
  cxlbase  : Nat
  dump     : Nat
  psave    : Nat
  gqtab    : Nat
  sqblk    : Nat
  hrtab    : Nat
  qtab     : Nat
  hostoff  : Nat
  dmbxpn   : Nat
  t2       : Nat
  t1       : Nat
  winlg    : Nat
  gcarve   : Nat
  plim     : Nat
  form     : Bool
  ver      : BitVec 8
  magic    : BitVec 32
  rsv      : Nat
  deriving DecidableEq, Repr, Inhabited

/-- The Granger (R416 to R423). -/
structure Granger where
  state   : GrangerState
  code    : BitVec 8
  /-- Firmware images A and B and the configuration blob pass their checks (R416). -/
  imageA  : Bool
  imageB  : Bool
  blob    : Bool
  flashA  : List Byte
  flashB  : List Byte
  /-- The firmware image and the configuration blob that the last boot read and found right (R416, R421). -/
  booted   : List Byte
  bootBlob : List Byte
  /-- The configuration blob in flash: its record, and the bytes of the route table by their offsets in flash, those not listed zero (R417,
  R418). -/
  record  : ConfigRecord
  table   : List (Nat × Byte)
  mbox    : Word
  headers : List (List Byte)
  log     : List (BitVec 8 × Word)
  causes  : List (BitVec 8)
  samples : List Nat
  throttled : Bool
  attested  : List (BitVec 256)
  /-- The host has rung the mailbox and the request has not been served (R420). -/
  rung      : Bool
  /-- The request of the device mailbox in service: its request word and the requester's KID; and the SEQ of a later doorbell (R422). -/
  device    : Option (Word × BitVec 8)
  late      : Option (BitVec 32)
  deriving DecidableEq, Repr, Inhabited

/-- A route (R418): primary link, alternate link where valid, and whether the alternate is in use (R392). -/
structure Route where
  primary : BitVec 4
  alt     : Option (BitVec 4)
  onAlt   : Bool
  deriving DecidableEq, Repr, Inhabited

/-- The sealed part of a saved context, by serial number (R301). -/
structure Sealed where
  serial   : Nat
  ident    : Nat
  slot     : Fin 4
  loop     : LoopStack
  mb       : Vector Word 8
  mlen     : Vector Word 8
  mstep    : Vector Word 8
  mp       : Vector Word 8
  tokens   : Vector Token 64
  windrows : Vector Windrow 16
  rings    : Vector RingReg 16
  arr      : BitVec 12
  cnt      : Vector (BitVec 16) 16
  pos      : Vector (BitVec 16) 16
  member   : Option Member
  atomicErr : Option (Fin 32 × TrapVal)
  deriving DecidableEq, Repr, Inhabited

end Sys2Proof.Machine

namespace Sys2Proof

/-- What sealed bytes that the 9624 did not write stand for: their layout is not published (R301; log 18). -/
opaque Config.unsealed : List Byte → Machine.Sealed

end Sys2Proof
end

