-- ==== Sys2Proof/Machine/State.lean ====
section
/-! DEFINITION. The state of the machine as plain data, the reasons it can stop, and the state right after reset: power applied, the
Granger's boot ROM about to run (R416). -/

namespace Sys2Proof.Machine

/-- The machine never stops with a fault of its own: every error the spec describes is a trap, a status, a record or a state of the
Granger, and execution goes on (safe: nothing raises one). -/
inductive Fault where
  deriving DecidableEq, Repr

/-- Why the model refuses to run an instruction. -/
inductive Refusal where
  /-- The instruction has no meaning yet; raised by exec alone (safe: no run goes past it). -/
  | notModelled (mnemonic : String)
  deriving DecidableEq, Repr, Inhabited

/-- What the slot of a bundle that ran last found (R33, R46, R294). -/
inductive SlotOutcome where
  /-- It took effect. -/
  | run
  /-- It waits under R33. -/
  | wait
  /-- It raised a trap, which has been taken. -/
  | trap
  deriving DecidableEq, Repr, Inhabited

/-- What fetch found in a bundle before any slot takes effect (R46): a trap, or the slots. -/
structure Fetched where
  trap  : Option TrapVal
  slots : List Slot
  words : Nat
  /-- A slot of the bundle would wait (R33, R285). -/
  waits : Bool
  /-- A slot would wait that has nothing to ask first: no arrival, request or drop of its own stands before its wait. -/
  idle  : Bool
  deriving DecidableEq, Repr, Inhabited

/-- The model's own field: the bundle that issues in this step. -/
structure Issue where
  /-- What fetch prepared for the next BUNDLE_ISSUE. -/
  fetched : Option Fetched
  core    : Nat
  slot    : Fin 4
  addr    : Word
  words   : Nat
  /-- The control fields of the bundle, zero without a BC (R26): STALL, Y, LEND, RM, BRK and RUN. -/
  stall   : BitVec 4
  y       : Bool
  lend    : Nat
  rm      : BitVec 2
  brk     : Bool
  run     : BitVec 11
  /-- Whether BUNDLE_ISSUE let the slots run. -/
  go      : Bool
  /-- Whether the checks before its slots are still due: a slot was seen to wait (R33, R299). -/
  due     : Bool
  /-- The index of the slot that runs (R47). -/
  index   : Nat
  outcome : SlotOutcome
  /-- The trap it raised. -/
  trapped : Option TrapVal
  /-- Floating-point flags its slots have raised (R76). -/
  flags   : BitVec 5
  /-- A BR slot was taken (R101). -/
  taken   : Bool
  /-- The target of a taken transfer, and the cycles to the next issue (R97). -/
  target  : Option (Word × Nat)
  /-- Windrow element vectors this bundle has consumed (R24). -/
  elems   : List (Fin 16 × Vec)
  /-- The store buffer as the bundle found it: its loads read under that (R25). -/
  loads   : List StoreEntry
  /-- Interlocked results from this number on are the bundle's own. -/
  firstId : Nat
  deriving DecidableEq, Repr, Inhabited

/-- The machine. -/
structure State where
  /-- The cycle (R4). -/
  now     : Nat
  /-- The model's own: a counter applied to the free values of Config. -/
  draws   : Nat
  /-- The model's own: the move the next step makes, where it is fixed. -/
  turn    : Option Turn
  /-- The model's own: the bundle in issue. -/
  issue   : Issue
  /-- Physical memory: HBM of the four fields, and the guest and host windows (R216, R393). -/
  mem     : List (Nat × Byte)
  /-- What each HBM line was last written under: its bytes in `mem` are the ones that were enciphered (R254). -/
  keys    : Table LineKeys
  /-- Lines that hold an uncorrectable error, and lines that hold poison (R226, R278). -/
  badLines : List Nat
  poison  : List Nat
  cores   : Table Core
  sheaves : Table Sheaf
  fields  : Table Field
  stackTab : Table Stack
  coh     : List CohLine
  /-- Lines of other packages that have been written, at their homes (R243): package p's line n under the key p·2^37 + n. -/
  remote  : Table RemoteLine
  kids    : Table KidEntry
  ssq     : Ssq
  rings   : Table HostRing
  links   : Table Link
  routes  : Table Route
  guest   : Guest
  granger : Granger
  config  : ConfigRecord
  /-- The growth pool (R328). -/
  pool    : Nat
  /-- MSI-X vectors sent, latest first, and the host's table words (R394). -/
  msix    : List Nat
  msixTable : Table Word
  /-- Pending bits of masked vectors, and what the host's last read of BAR0, of the Granger's capability or of HBM returned (R394, R420). -/
  pba     : List Nat
  bar     : List Byte
  /-- The latest row of its state table that an object has taken in this cycle: links by their numbers, the SSQ 24, then KIDs, queues, banks and ring
  slots (R8, R161, R189, R252, R326, R355, R389). -/
  rows    : Table Nat
  /-- Sealed parts of saved images (R301). -/
  sealed  : List Sealed
  serial  : Nat
  deriving DecidableEq, Repr

/-! ## Reset values -/

/-- The descriptor of an IDLE windrow. -/
def WinDesc.reset : WinDesc := ⟨0, 0, 0, 0, false, 0, false, Vector.replicate 6 0, Vector.replicate 6 0, 0, 0⟩

/-- A windrow after reset and at member start: IDLE (R131). -/
def Windrow.reset : Windrow := ⟨WinDesc.reset, .idle, 0, Vector.replicate 6 0, false, 0, 0, 0, none, [], none, none⟩

/-- A ring register at member start: UNBOUND (R191). -/
def RingReg.reset : RingReg := ⟨⟨0, 0, 0, false, false, false, 0, 0⟩, .unbound, false, false, false, 0, 0, 0, 0, 0, false, false⟩

/-- A token at member start: IDLE (R238). -/
def Token.reset : Token := ⟨.idle, .copy, false, .ctx⟩

/-- The loop stack at member start: empty (R313). -/
def LoopStack.reset : LoopStack := ⟨[], none, none⟩

/-- The system registers of a slot before a member starts (R75, R266, R289, R290): STATUS.SLOT the slot, REGLIM 3, PREBOUND 65,536,
FPMODE.SAT8 1, SLICE 64; RNGSEED 1. -/
def sysReset (slot : Nat) : Vector Word 20 :=
  #v[BitVec.ofNat 64 (slot * 64), 0, 0, 0, 0, 0, 0, 3, 65536, 0, 8, 0, 1, 0, 0, 0, 0, 0, 64, 0]

/-- The registers of a slot before a member starts. -/
def Regs.reset (slot : Nat) : Regs where
  s := Vector.replicate 63 0
  p := Vector.replicate 16 false
  v := Vector.replicate 16 0
  k := Vector.replicate 8 0
  mb := Vector.replicate 8 0
  mlen := Vector.replicate 8 0
  mstep := Vector.replicate 8 0
  mp := Vector.replicate 8 0
  drm := 0
  dsat := false
  sys := sysReset slot

/-- An empty checkpoint. -/
def Checkpoint.reset : Checkpoint :=
  ⟨Vector.replicate 16 Windrow.reset, LoopStack.reset, [], [], 1, 0, 0, Vector.replicate 16 0, Vector.replicate 16 RingReg.reset,
    Vector.replicate 4 (0, 0)⟩

/-- A region that holds nothing. -/
def Region.reset : Region := ⟨[], [], [], [], none, [], 0, 0, Checkpoint.reset⟩

/-- A span that cannot be rewound. -/
def Span.reset : Span := ⟨Checkpoint.reset, 0, [], [], false, .prologue, 0⟩

/-- A FREE context slot. -/
def Context.reset (slot : Nat) : Context where
  state := .free
  ident := 0
  pc := 0
  regs := Regs.reset slot
  pend := []
  flights := []
  nextId := 0
  loop := LoopStack.reset
  windrows := Vector.replicate 16 Windrow.reset
  rings := Vector.replicate 16 RingReg.reset
  tokens := Vector.replicate 64 Token.reset
  cnt := Vector.replicate 16 0
  pos := Vector.replicate 16 0
  arr := 0
  region := Region.reset
  span := Span.reset
  outbox := []
  closing := none
  atomicErr := none
  atomics := []
  lastIssue := none
  notBefore := 0
  skipRm := false
  quiet := false
  resumed := false
  running := 0
  preHit := false
  passed := 0
  lreq := 0
  save := none
  member := none
  loadAt := 0
  restore := false
  draining := false
  asks := []
  drops := []
  redrop := none
  sigs := []
  signed := none
  early := []

/-- An EMPTY bank that no context owns. -/
def Bank.reset : Bank :=
  ⟨none, .empty, [], [], [], 0, 0, 0, 0, 0, false, false, false, false, false, false, false, none, [], [], false⟩

/-- The cores of the yokes that R13 makes control yokes run LOCKED; every other core starts split (R406). -/
def Core.reset (locked : Bool) : Core where
  ctx := #v[Context.reset 0, Context.reset 1, Context.reset 2, Context.reset 3]
  running := none
  ran := 0
  last := 0
  rem := 0
  bubble := 0
  tried := none
  scr := 0
  move := none
  loft := []
  l1 := []
  tlb := []
  used := []
  late := []
  copies := []
  banks := Vector.replicate 4 Bank.reset
  mq := []
  order := []
  calls := []
  array := none
  arrayAt := 0
  clearing := none
  store := []
  step := Vector.replicate 17 0
  lastSave := none
  lastRest := none
  issued := 0
  locked := locked
  upset := 0

/-- A sheaf with every ring-table entry UNINIT (R185). -/
def Sheaf.reset : Sheaf := ⟨[], []⟩

/-- An UNINIT ring-table entry. -/
def RingEntry.reset : RingEntry := ⟨false, ⟨0, 0, 0, false, false, false, 0, 0⟩, 0, none, 0, 0, []⟩

/-- A FREE ring slot. -/
def RingSlot.reset : RingSlot := ⟨.free, 0, 0, false, false, false, 0⟩

/-- A TRT entry at reset: all zero (R372). -/
def TileEntry.reset : TileEntry := ⟨[], false, 0, 0, 0⟩

/-- An INVALID reuse entry. -/
def ReuseEntry.reset : ReuseEntry := ⟨.invalid, false, false, 0, 0, [], [], [], 0⟩

/-- A queue that is OFF (R326). -/
def Queue.reset : Queue := ⟨.off, [], 0, 0, 0, [], [], 0, none⟩

/-- A field at reset. -/
def Field.reset : Field where
  gran := []
  granKid := []
  l2 := []
  engines := []
  lbs := []
  queues := []
  arrivals := []
  namings := []
  tiles := []
  marks := []
  reuse := []
  records := []
  served := []
  gang := []
  stuck := 0
  step := Vector.replicate 17 0

/-- A stack with a cleared Crib (R416). -/
def Stack.reset : Stack := ⟨[], [], [], false, false, false⟩

/-- A FREE KID (R252). -/
def KidEntry.reset : KidEntry := ⟨.free, 0, 0, 0, 0, 0⟩

/-- The active SSQ at reset: IDLE, step registers 0 (R355, R357). -/
def Ssq.reset : Ssq where
  state := .idle
  cur := 0
  last := 0
  kid := 0
  sched := 0
  launch := []
  step := Vector.replicate 17 0
  writes := []
  oldCores := []
  oldFields := []
  ending := none
  asker := none
  asks := []
  waiting := none
  second := false

/-- A link that is DOWN. -/
def Link.reset : Link := ⟨.down, 0, false, 0, 0, 0, 0, 0, [], [], []⟩

/-- The guest before training. -/
def Guest.reset : Guest := ⟨[], none, [], [], [], 0⟩

/-- The configuration record in flash (log 4): valid under R417. -/
def ConfigRecord.reset : ConfigRecord where
  rtoff := 0x1000
  cxllen := 0x100000000
  cxlbase := 0x180000000
  dump := 0x40000000
  psave := 0x01000000
  gqtab := 0x00206000
  sqblk := 0x00205000
  hrtab := 0x00204000
  qtab := 0x00200000
  hostoff := 0
  dmbxpn := 0x00207
  t2 := 95
  t1 := 85
  winlg := 20
  gcarve := 4
  plim := 2000
  form := false
  ver := 1
  magic := 0x47464E43
  rsv := 0

/-- The Granger at power-on: BOOTING, its flash images good (log 4). -/
def Granger.reset : Granger where
  state := .booting
  code := 0
  imageA := true
  imageB := true
  blob := true
  flashA := []
  flashB := []
  booted := []
  bootBlob := []
  record := ConfigRecord.reset
  table := []
  mbox := 0
  headers := []
  log := []
  causes := []
  samples := []
  throttled := false
  attested := []
  rung := false
  device := none
  late := none

/-- A bundle frame at rest. -/
def Issue.reset : Issue := ⟨none, 0, 0, 0, 0, 0, false, 0, 0, false, 0, false, false, 0, .run, none, 0, false, none, [], [], 0⟩

/-- The machine at power-on reset (R416): every field, Thresher and Step Sequencer is held, and the Granger has yet to run its boot
ROM. -/
def State.reset : State where
  now := 0
  draws := 0
  turn := none
  issue := Issue.reset
  mem := []
  keys := []
  badLines := []
  poison := []
  cores := []
  sheaves := []
  fields := []
  stackTab := []
  coh := []
  remote := []
  kids := []
  ssq := Ssq.reset
  rings := []
  links := []
  routes := []
  guest := Guest.reset
  granger := Granger.reset
  config := ConfigRecord.reset
  pool := 2048
  msix := []
  msixTable := []
  pba := []
  bar := []
  rows := []
  sealed := []
  serial := 0

end Sys2Proof.Machine
end

