-- ==== Sys2Proof/Machine/Table.lean ====
section
/-! DEFINITION. Sparse tables by number and the canonical form of sparse bytes. -/

namespace Sys2Proof.Machine

/-- Applies a function to every element of a vector. -/
def vecMap {α β : Type} {n : Nat} (f : α → β) (v : Vector α n) : Vector β n := Vector.ofFn fun i => f v[i]

/-- Reads a table; a key that is not listed has the default. -/
def tget {α : Type} (d : α) : Table α → Nat → α
  | [], _ => d
  | (j, x) :: t, k => if j = k then x else tget d t k

/-- Writes a table, which stays in rising order of its keys. -/
def tput {α : Type} : Table α → Nat → α → Table α
  | [], k, x => [(k, x)]
  | (j, y) :: t, k, x => if k < j then (k, x) :: (j, y) :: t else if k = j then (k, x) :: t else (j, y) :: tput t k x

/-- Removes a key. -/
def tdel {α : Type} : Table α → Nat → Table α
  | [], _ => []
  | (j, y) :: t, k => if j = k then tdel t k else (j, y) :: tdel t k

/-- The keys of a table. -/
def tkeys {α : Type} (t : Table α) : List Nat := t.map Prod.fst

/-- Sparse bytes: an address that is not listed reads as zero. -/
abbrev Bytes := List (Nat × Byte)

/-- One byte. -/
def bget : Bytes → Nat → Byte
  | [], _ => 0
  | (j, x) :: t, k => if j = k then x else bget t k

/-- Writes one byte: addresses stay rising, and a zero byte is not listed. -/
def bset : Bytes → Nat → Byte → Bytes
  | [], k, x => if x = 0 then [] else [(k, x)]
  | (j, y) :: t, k, x =>
    if k < j then (if x = 0 then (j, y) :: t else (k, x) :: (j, y) :: t)
    else if k = j then (if x = 0 then t else (k, x) :: t)
    else (j, y) :: bset t k x

/-- Every address of the list is at least a. -/
def Bytes.above (a : Nat) : Bytes → Bool
  | [] => true
  | (j, _) :: t => decide (a ≤ j) && Bytes.above a t

/-- The canonical form: addresses strictly rising, no zero byte listed. -/
def Memory.wf : Bytes → Bool
  | [] => true
  | (j, x) :: t => decide (x ≠ 0) && Bytes.above (j + 1) t && Memory.wf t

/-- n bytes from address a up. -/
def bgetN (m : Bytes) (a : Nat) : Nat → List Byte
  | 0 => []
  | n + 1 => bget m a :: bgetN m (a + 1) n

/-- Writes bytes from address a up. -/
def bsetN (m : Bytes) (a : Nat) : List Byte → Bytes
  | [] => m
  | b :: bs => bsetN (bset m a b) (a + 1) bs

/-- Little-endian value of bytes (R2). -/
def leNat : List Byte → Nat
  | [] => 0
  | b :: bs => b.toNat + 256 * leNat bs

/-- The n bytes of a value, least significant first (R2). -/
def leBytes : Nat → Nat → List Byte
  | 0, _ => []
  | n + 1, v => BitVec.ofNat 8 v :: leBytes n (v / 256)

end Sys2Proof.Machine
end

