-- ==== Sys2Proof/Machine/Mem.lean ====
section
/-! DEFINITION. Access to the parts of the state, the physical map, the memory hierarchy and translation (01_device.md R12, R13,
09_storage.md, 10_line.md R224, 11_page.md). -/

namespace Sys2Proof.Machine

/-- Cause codes (R293). -/
def cILLOP : Cause := 0x01
def cPRIV : Cause := 0x02
def cNONUNI : Cause := 0x03
def cSTALLCNT : Cause := 0x04
def cALIGN : Cause := 0x05
def cPFAULT : Cause := 0x10
def cPPROT : Cause := 0x11
def cHANDLE : Cause := 0x12
def cKEYDEAD : Cause := 0x13
def cREGOVF : Cause := 0x20
def cREGLIM : Cause := 0x21
def cREGILL : Cause := 0x22
def cPREBOUND : Cause := 0x23
def cUCE : Cause := 0x30
def cYOKEMIS : Cause := 0x31
def cMXMIS : Cause := 0x32
def cDUPMIS : Cause := 0x33
def cPOISON : Cause := 0x34
def cRINGERR : Cause := 0x40
def cQFULL : Cause := 0x41
def cGUEST : Cause := 0x42
def cBREAK : Cause := 0x50
def cSYSCALL : Cause := 0x51
def cFPX : Cause := 0x60

/-- TRAPINFO of a translation fault (R249): windrow number, kind and address. -/
def info249 (win kind : Nat) (va : Nat) : Word := BitVec.ofNat 64 (win * 2 ^ 59 + kind * 2 ^ 56 + va % 2 ^ 56)

/-! ## Parts of the package (R12, R13) -/

/-- Finds a key in a table. -/
def tfind {α : Type} : Table α → Nat → Option α
  | [], _ => none
  | (j, x) :: t, k => if j = k then some x else tfind t k

/-- Cores in the package. -/
def numCores : Nat := 320

/-- The field of a core. -/
def fieldOf (core : Nat) : Nat := core / 80

/-- The sheaf of a core, numbered through the package. -/
def sheafOf (core : Nat) : Nat := core / 8

/-- The cores of the yokes that R13 takes for control. -/
def isControl (core : Nat) : Bool :=
  let y := core % 8 / 2
  core % 80 / 8 == 9 && (y == 3 || (y == 2 && (core / 80 == 0 || core / 80 == 2)))

/-- A core. -/
def State.core (s : State) (k : Nat) : Core := tget (Core.reset (isControl k)) s.cores k

/-- Replaces a core. -/
def State.setCore (s : State) (k : Nat) (c : Core) : State := { s with cores := tput s.cores k c }

/-- Changes a core. -/
def State.modCore (s : State) (k : Nat) (f : Core → Core) : State := s.setCore k (f (s.core k))

/-- A context slot. -/
def State.ctxAt (s : State) (k : Nat) (j : Fin 4) : Context := (s.core k).ctx[j]

/-- Replaces a context slot of a core. -/
def Core.setCtx (c : Core) (j : Fin 4) (x : Context) : Core := { c with ctx := c.ctx.set j x }

/-- Changes a context slot. -/
def State.modCtx (s : State) (k : Nat) (j : Fin 4) (f : Context → Context) : State :=
  s.setCore k ((s.core k).setCtx j (f (s.ctxAt k j)))

/-- A sheaf. -/
def State.sheaf (s : State) (k : Nat) : Sheaf := tget Sheaf.reset s.sheaves k

/-- Changes a sheaf. -/
def State.modSheaf (s : State) (k : Nat) (f : Sheaf → Sheaf) : State := { s with sheaves := tput s.sheaves k (f (s.sheaf k)) }

/-- A field. -/
def State.field (s : State) (k : Nat) : Field := tget Field.reset s.fields k

/-- Changes a field. -/
def State.modField (s : State) (k : Nat) (f : Field → Field) : State := { s with fields := tput s.fields k (f (s.field k)) }

/-- A stack. -/
def State.stack (s : State) (k : Nat) : Stack := tget Stack.reset s.stackTab k

/-- Changes a stack. -/
def State.modStack (s : State) (k : Nat) (f : Stack → Stack) : State := { s with stackTab := tput s.stackTab k (f (s.stack k)) }

/-- A KID. -/
def State.kidEntry (s : State) (k : BitVec 8) : KidEntry := tget KidEntry.reset s.kids k.toNat

/-- An entry of the Granger's log (R389, R405, R409, R411): a kind and a word; the layout is not published (log 25). Kinds: 1 a link that
loses packets, 2 a breach, 3 an HBM threshold, 4 a LOST line, 5 a route, 6 a yoke's signatures, 7 a link that did not train, 8 a skip's list or
naming that failed (R315). -/
def State.grangerLog (s : State) (kind : BitVec 8) (w : Word) : State :=
  { s with granger := { s.granger with log := s.granger.log ++ [(kind, w)] } }

/-- The number of the Lean-to's link, and of the host link: 0 to 5 are the field links and 6 to 21 the Jozer links (log 24). -/
def leanTo : Nat := 23
def hostLink : Nat := 22

/-- A link. -/
def State.linkAt (s : State) (n : Nat) : Link := tget Link.reset s.links n

/-- Changes a link. -/
def State.modLink (s : State) (n : Nat) (f : Link → Link) : State := { s with links := tput s.links n (f (s.linkAt n)) }

/-- A route (R391, R418); one that is not listed takes Jozer link 0 and has no alternate. -/
def State.route (s : State) (dest cls : Nat) : Route := tget ⟨0, none, false⟩ s.routes (5 * dest + cls)

/-- The link that a route uses. -/
def State.routeLink (s : State) (dest cls : Nat) : Nat :=
  let r := s.route dest cls
  6 + (match r.onAlt, r.alt with
    | true, some a => a
    | _, _ => r.primary).toNat

/-- A link that carries packets. -/
def Link.up (l : Link) : Bool := l.state == .active || l.state == .degraded

/-- The link of a route accepts packets (R389, R391). -/
def State.routeUp (s : State) (dest cls : Nat) : Bool := (s.linkAt (s.routeLink dest cls)).up

/-- Flits get the next sequence numbers and go into flight: on a link that accepts packets, and while fewer than 4,095 are not acknowledged, so that
12 bits tell them apart (R389, R390; log 27). -/
def Link.intake (l : Link) : Link :=
  if l.up then
    let n := min l.queue.length (4095 - l.flits.length)
    { l with txSeq := l.txSeq + BitVec.ofNat 12 n,
             flits := l.flits ++ ((List.range n).zip l.queue).map fun x => { x.2 with seq := l.txSeq + BitVec.ofNat 12 x.1 },
             queue := l.queue.drop n }
  else l

/-- The flits of a packet: one for every 240 bytes, and one at least. -/
def packetFlits (dest cls : Nat) (owner : Option Nat) (bytes : List Byte) : List Flit :=
  (List.range (max ((bytes.length + 239) / 240) 1)).map fun i =>
    ⟨0, BitVec.ofNat 4 cls, BitVec.ofNat 8 (Config.hops dest cls % 17), (bytes.drop (240 * i)).take 240, dest, owner⟩

/-- A packet of a class, for an engine command, a SYS group's run or none, is put before its route's link, which takes it as it can (R389 to R391). -/
def State.sendPacket (s : State) (dest cls : Nat) (owner : Option Nat) (bytes : List Byte) : State :=
  s.modLink (s.routeLink dest cls) fun l => ({ l with queue := l.queue ++ packetFlits dest cls owner bytes } : Link).intake

/-- Whether agents of the fields move: not before boot ends, and not in fatal error (R416, R423). -/
def State.awake (s : State) : Bool := s.granger.state == .ready

/-- An object takes the events of one cycle in row order: a row before one that the cycle has taken comes too late for it (R8; log 90). -/
def State.tooLate (s : State) (x : Nat × Nat) : Bool := decide (x.2 < tget 0 s.rows x.1)

/-- An object has taken a row of its state table in this cycle. -/
def State.tookRow (s : State) (x : Nat × Nat) : State := { s with rows := tput s.rows x.1 (max x.2 (tget 0 s.rows x.1)) }

/-- The numbers of KIDs, queues, banks and ring slots among the objects whose rows a cycle remembers, behind the links' and the SSQ's. -/
def kidObject (kid : BitVec 8) : Nat := 100 + kid.toNat
def queueObject (f q : Nat) : Nat := 1000 + 64 * f + q
def bankObject (k a : Nat) : Nat := 2000 + 4 * k + a
def slotObject (h rid i : Nat) : Nat := 10000 + 64 * (64 * h + rid) + i

/-- Counts a use of a free value. -/
def State.drawn (s : State) : State := { s with draws := s.draws + 1 }

/-! ## The physical map (R216, R393) -/

/-- What a physical address is. -/
inductive PaKind where
  | hbm (f : Nat)
  | gran (f : Nat) (off : Nat)
  | guest
  | host
  | nothing
  deriving DecidableEq, Repr, Inhabited

/-- The map of R216 and R393; the Granary window ends where its carve begins (R215), guest memory where the guest's size ends. -/
def State.paKind (s : State) (pa : Nat) : PaKind :=
  if pa < 0x40000000000 then if pa % 0x10000000000 < 0x9000000000 then .hbm (pa / 0x10000000000) else .nothing
  else if pa < 0x40200000000 then
    let off := (pa - 0x40000000000) % 0x80000000
    if off < (32 - s.config.gcarve) * 0x4000000 then .gran ((pa - 0x40000000000) / 0x80000000) off else .nothing
  else if 0x50000000000 ≤ pa ∧ pa < 0x60000000000 then if pa - 0x50000000000 < s.guest.size then .guest else .nothing
  else if 0x60000000000 ≤ pa ∧ pa < 0x80000000000 then .host
  else .nothing

/-- The package's own number is 0 in the model of one package. -/
def ownPackage : Nat := 0

/-! ## Lines -/

/-- A line from its bytes. -/
def lineOf (bs : List Byte) : Line := BitVec.ofNat 512 (leNat bs)

/-- Byte i of a line. -/
def lineByte (x : Line) (i : Nat) : Byte := x.extractLsb' (8 * i) 8

/-- The bytes of a line. -/
def lineBytes (x : Line) : List Byte := (List.range 64).map (lineByte x)

/-- The bytes of `new` where the mask has a one, those of `old` elsewhere. -/
def mergeLine (old new : Line) (mask : BitVec 64) : Line :=
  lineOf ((List.range 64).map fun i => if mask.getLsbD i then lineByte new i else lineByte old i)

/-- A KID with the keys it has now. -/
def State.keysOf (s : State) (kid : BitVec 8) : LineKeys := ⟨kid, (s.kidEntry kid).key1, (s.kidEntry kid).key2⟩

/-- A line with what it was written under, where anything has written it, as a reader's keys give it: its bytes under the same keys, whatever the
KID, and else their decryption (R254). -/
def readUnder (k : LineKeys) (line : Nat) (x : Option LineKeys × Line) : Line :=
  match x.1 with
  | none => x.2
  | some w => if w.keys = k.keys then x.2 else Config.recipher w.keys k.keys line x.2

/-- A line of DRAM with what it was last written under. -/
def State.dramRaw (s : State) (line : Nat) : Option LineKeys × Line := (tfind s.keys line, lineOf (bgetN s.mem (64 * line) 64))

/-- A line of DRAM as a KID reads it. -/
def State.dramLine (s : State) (kid : BitVec 8) (line : Nat) : Line := readUnder (s.keysOf kid) line (s.dramRaw line)

/-- Writes masked bytes of a line to DRAM under a KID: the whole line is then under that KID (R254). -/
def State.dramWrite (s : State) (kid : BitVec 8) (line : Nat) (mask : BitVec 64) (data : Line) : State :=
  { s with mem := bsetN s.mem (64 * line) (lineBytes (mergeLine (s.dramLine kid line) data mask)), keys := tput s.keys line (s.keysOf kid) }

/-- The writes of a queue to a line, oldest first, whatever their KIDs (R218). -/
def overlayQueue (keysOf : BitVec 8 → LineKeys) (line : Nat) : List QueuedWrite → Option LineKeys × Line → Option LineKeys × Line
  | [], x => x
  | w :: ws, x =>
    overlayQueue keysOf line ws (if w.line = line then (some (keysOf w.kid), mergeLine (readUnder (keysOf w.kid) line x) w.data w.mask) else x)

/-- A line at its base die: DRAM under the queued writes (R217, R218). -/
def State.dieLine (s : State) (kid : BitVec 8) (line : Nat) : Line :=
  readUnder (s.keysOf kid) line (overlayQueue s.keysOf line (s.stack (stackOfPa (64 * line))).writes (s.dramRaw line))

/-- The key of a translated address's line: the package's lines are numbered by their addresses, and those of package p from p·2^37 on. -/
def Trans.line (t : Trans) : Nat := t.pkg * 2 ^ 37 + t.addr / 64

/-- A line of another package at its home, as a KID reads it (R243, R254). -/
def State.remoteLine (s : State) (kid : BitVec 8) (line : Nat) : Line :=
  match tfind s.remote line with
  | none => Config.remoteLine line kid
  | some x => readUnder (s.keysOf kid) line (some x.under, x.data)

/-- Writes masked bytes of a line of another package at its home: the write-back is a packet of class 3 (R243, R391). -/
def State.remoteWrite (s : State) (kid : BitVec 8) (line : Nat) (mask : BitVec 64) (data : Line) : State :=
  { s.sendPacket (line / 2 ^ 37) 3 none (lineBytes data) with remote := tput s.remote line ⟨s.keysOf kid, mergeLine (s.remoteLine kid line) data mask⟩ }

/-- Finds a cached line by address and KID (R254). -/
def findLine (line : Nat) (kid : BitVec 8) : List CacheLine → Option CacheLine
  | [] => none
  | x :: xs => if x.line = line ∧ x.kid = kid then some x else findLine line kid xs

/-- Removes a cached line. -/
def dropLine (line : Nat) (kid : BitVec 8) (xs : List CacheLine) : List CacheLine :=
  xs.filter fun x => !(x.line == line && x.kid == kid)

/-- Removes the clean copies of a line, whatever their KIDs. -/
def dropClean (line : Nat) (xs : List CacheLine) : List CacheLine := xs.filter fun x => !(x.line == line && x.dirty == 0)

/-- A line of the package whose only modified copy was lost with a failed package (R411). -/
def State.lostLine (s : State) (line : Nat) : Bool := s.coh.any fun x => x.line == line && x.lost

/-- A line of HBM at its home: the L2 carve of its field, then the base die; another package's; a LOST line's zeros (R214, R224, R243, R411). -/
def State.homeLine (s : State) (kid : BitVec 8) (line : Nat) : Line :=
  if 2 ^ 37 ≤ line then s.remoteLine kid line
  else if s.lostLine line then 0
  else
    match findLine line kid (s.field (64 * line / 0x10000000000)).l2 with
    | some x => x.data
    | none => s.dieLine kid line

/-- The Crib of a line's stack meets an access. -/
def State.cribAccess (s : State) (line : Nat) (kid : BitVec 8) (nocrib cribpin : Bool) : State :=
  s.modStack (stackOfPa (64 * line)) fun t =>
    { t with slices := tput t.slices (cribSlice line) ((tget ⟨[], [], 0⟩ t.slices (cribSlice line)).access line kid nocrib cribpin s.config.winlg) }

/-- The oldest queued write of a stack leaves for the Crib or DRAM; replies that wait for it wait for one less (R218). -/
def State.drainWrite (s : State) (stack : Nat) : State :=
  match (s.stack stack).writes with
  | [] => s
  | w :: rest =>
    let s := s.modStack stack fun t => { t with writes := rest, replies := t.replies.map fun r => { r with left := r.left - 1 } }
    (s.dramWrite w.kid w.line w.mask w.data).cribAccess w.line w.kid w.nocrib w.cribpin

/-- The reply that returns where a tag is needed: one that waits for no queued write, else the oldest, whose bytes are those of its place in the
order all the same (R217, R218). -/
def Stack.nextReply (t : Stack) : Option Reply := (t.replies.find? fun r => r.left == 0).or t.replies.head?

/-- A packet of the field goes to a stack and is answered within the move. With all 4,096 tags outstanding one of the replies returns first (R217). -/
def State.passTag (s : State) (stack : Nat) : State :=
  if (s.stack stack).replies.length < 4096 then s
  else
    s.modStack stack fun t => match t.nextReply with
      | some r => { t with replies := t.replies.filter fun x => x.tag != r.tag }
      | none => t

/-- A read of a line at its home: where the carve does not hold it, RD64 asks the base die for it, its Crib meets the read, and the carve takes the
line (R14, R214, R217, R219); a request to another package is a packet of class 3 (R391). -/
def State.meetLine (s : State) (attr : Trans) (line : Nat) : State :=
  if 2 ^ 37 ≤ line then s.sendPacket (line / 2 ^ 37) 3 none []
  else
    let f := 64 * line / 0x10000000000
    if (findLine line attr.kid (s.field f).l2).isSome then s
    else
      ((s.passTag (stackOfPa (64 * line))).cribAccess line attr.kid attr.nocrib attr.cribpin).modField f fun fd =>
        { fd with l2 := ⟨line, attr.kid, s.dieLine attr.kid line, 0, attr, []⟩ :: fd.l2 }

/-- Writes masked bytes of a line at its home: the line, fetched where the carve lacks it, is then dirty in the L2 carve (R214), or written at its
package's directory (R243). A LOST line takes no write (R411). -/
def State.homeWrite (s : State) (attr : Trans) (line : Nat) (mask : BitVec 64) (data : Line) : State :=
  if 2 ^ 37 ≤ line then s.remoteWrite attr.kid line mask data
  else if s.lostLine line then s
  else
    let s := s.meetLine attr line
    let f := 64 * line / 0x10000000000
    let old := findLine line attr.kid (s.field f).l2
    let dirty := match old with
      | some x => x.dirty
      | none => 0
    let x : CacheLine := ⟨line, attr.kid, mergeLine (s.homeLine attr.kid line) data mask, dirty ||| mask, attr, []⟩
    s.modField f fun fd => { fd with l2 := x :: dropClean line (dropLine line attr.kid fd.l2) }

/-- The carve replaces a clean line (R214). -/
def State.carveDrop (s : State) (f line : Nat) (kid : BitVec 8) : State :=
  s.modField f fun fd => { fd with l2 := fd.l2.filter fun x => !(x.line == line && x.kid == kid && x.dirty == 0) }

/-- A read at the home of a translated address meets the Crib where it is one of HBM. -/
def State.meet (s : State) (t : Trans) : State :=
  match t.place, s.paKind t.addr with
  | .phys, .hbm _ => s.meetLine t t.line
  | _, _ => s

/-! ## The Granary window (R215, R254) -/

/-- One byte of a Granary window as a KID reads it. -/
def Field.granByte (f : Field) (kid : BitVec 8) (off : Nat) : Byte :=
  if tget 0 f.granKid (off / 64) = kid then bget f.gran off else 0

/-- Writes masked bytes of a window line: under another KID the line is zeroed first. -/
def Field.granWrite (f : Field) (kid : BitVec 8) (line : Nat) (mask : BitVec 64) (data : Line) : Field :=
  let old := lineOf ((List.range 64).map fun i => f.granByte kid (64 * line + i))
  { f with gran := bsetN f.gran (64 * line) (lineBytes (mergeLine old data mask)), granKid := tput f.granKid line kid }

/-! ## The L1 and the sheaf directory (R224) -/

/-- Cores of a sheaf. -/
def coresOfSheaf (h : Nat) : List Nat := (List.range 8).map fun c => 8 * h + c

/-- A line as a miss of a core's L1 finds it: the home's, under the dirty bytes of the L1s of its sheaf (R224, R231). -/
def State.sheafLine (s : State) (k : Nat) (kid : BitVec 8) (line : Nat) : Line :=
  (coresOfSheaf (sheafOf k)).foldl
    (fun d j => match findLine line kid (s.core j).l1 with
      | some x => if x.dirty = 0 then d else mergeLine d x.data x.dirty
      | none => d) (s.homeLine kid line)

/-- The translation that a cached line is written back under: its page's attributes and its own KID (R254). -/
def CacheLine.trans (x : CacheLine) : Trans := { x.attr with kid := x.kid }

/-- Writes back and drops a line of one L1. -/
def State.evict (s : State) (k : Nat) (x : CacheLine) : State :=
  let s := s.modCore k fun c => { c with l1 := dropLine x.line x.kid c.l1 }
  if x.dirty = 0 then s else s.homeWrite x.trans x.line x.dirty x.data

/-- The L1 may replace a line of its choice (R224). -/
def State.replaceLine (s : State) (k : Nat) : State :=
  match (s.core k).l1[Config.latency s.draws % (s.core k).l1.length]? with
  | none => s
  | some x => if Config.keepsLine s.draws then s.drawn else s.drawn.evict k x

/-- The bytes of the granules of a mask's ones (R226). -/
def granuleMask (g : BitVec 8) : BitVec 64 := BitVec.ofNat 64 (((List.range 8).map fun i => if g.getLsbD i then 255 * 2 ^ (8 * i) else 0).sum)

/-- A line of core j's L1 that core k's releases write back: a dirty line of its own, or one with stores that it has made, read or acquired (R226,
R230, R233). -/
def CacheLine.owes (x : CacheLine) (j k : Nat) : Bool := x.dirty != 0 && (j == k || x.owed.contains k)

/-- Stores that the sheaf's L1s hold dirty become part of what a core's releases write back: those that a test selects (R226, R230, R233;
log 51). -/
def State.oweIf (s : State) (k : Nat) (test : CacheLine → Bool) : State :=
  (coresOfSheaf (sheafOf k)).foldl (fun s j =>
    let new := fun (x : CacheLine) => x.dirty != 0 && !x.owes j k && test x
    if (s.core j).l1.any new then s.modCore j fun c => { c with l1 := c.l1.map fun x => if new x then { x with owed := k :: x.owed } else x }
    else s) s

/-- A line as a core's load sees it, and the machine with that line in its L1: a held line may have left by replacement, before the load or between
two granules of it; what it reads of another L1's dirty bytes, its releases write back (R224, R226, R227). -/
def State.l1Line (s : State) (k : Nat) (attr : Trans) (line : Nat) : Line × State :=
  let s := s.replaceLine k
  let fill := fun (s : State) =>
    let s := s.meetLine attr line
    let d := s.sheafLine k attr.kid line
    (d, (s.oweIf k fun x => x.line == line && x.kid == attr.kid).modCore k fun c => { c with l1 := ⟨line, attr.kid, d, 0, attr, []⟩ :: c.l1 })
  match findLine line attr.kid (s.core k).l1 with
  | none => fill s
  | some x =>
    if Config.keepsLine s.draws then (x.data, s.drawn)
    else
      let (d, t) := fill (s.drawn.evict k x)
      (mergeLine d x.data (granuleMask (Config.granules t.draws)), t.drawn)

/-- A store into a core's L1: the sheaf directory takes the line from every other L1 of the sheaf, with the cores whose releases stand behind its
dirty bytes (R224, R230). -/
def State.l1Write (s : State) (k : Nat) (attr : Trans) (line : Nat) (mask : BitVec 64) (data : Line) : State :=
  let s := s.replaceLine k
  let copies := (coresOfSheaf (sheafOf k)).filterMap fun j => (findLine line attr.kid (s.core j).l1).map fun x => (j, x)
  let dirty := copies.foldl (fun d x => d ||| x.2.dirty) 0
  let owed := (copies.flatMap fun x => if x.2.dirty = 0 then [] else x.1 :: x.2.owed).eraseDups
  let (old, s) := match findLine line attr.kid (s.core k).l1 with
    | some x => (x.data, s)
    | none => (s.sheafLine k attr.kid line, if copies.isEmpty then s.meetLine attr line else s)
  let s := copies.foldl (fun s x => s.modCore x.1 fun c => { c with l1 := dropLine line attr.kid c.l1 }) s
  s.modCore k fun c => { c with l1 := ⟨line, attr.kid, mergeLine old data mask, dirty ||| mask, attr, owed⟩ :: c.l1 }

/-- Writes back every dirty line that a core's release covers, in its own L1 and in those of its sheaf (R230). -/
def State.writeBack (s : State) (k : Nat) : State :=
  (coresOfSheaf (sheafOf k)).foldl (fun s j =>
    let xs := (s.core j).l1
    if xs.any fun x => x.owes j k then
      (xs.foldl (fun s x => if x.owes j k then s.homeWrite x.trans x.line x.dirty x.data else s) s).modCore j fun c =>
        { c with l1 := c.l1.map fun x => if x.owes j k then { x with dirty := 0, owed := [] } else x }
    else s) s

/-- An acquire makes the stores that the sheaf's L1s hold dirty part of what the core's releases write back (R230, R233; log 51). -/
def State.oweLines (s : State) (k : Nat) : State := s.oweIf k fun _ => true

/-- Writes back and drops every line of a core's L1 (R231). -/
def State.dropL1 (s : State) (k : Nat) : State :=
  if (s.core k).l1.isEmpty then s
  else ((s.core k).l1.foldl (fun s x => if x.dirty = 0 then s else s.homeWrite x.trans x.line x.dirty x.data) s).modCore k fun c => { c with l1 := [] }

/-- Every copy of a line of another package that the package's L1s hold is written back and dropped (R243). -/
def State.dropRemote (s : State) : State :=
  (tkeys s.cores).foldl (fun s k => ((s.core k).l1.filter fun x => 2 ^ 37 ≤ x.line).foldl (fun s x => s.evict k x) s) s

/-- The L1s of a sheaf give up a line: written back and dropped. -/
def State.evictLines (s : State) (h : Nat) (kid : BitVec 8) (line : Nat) : State :=
  (coresOfSheaf h).foldl (fun s k => match findLine line kid (s.core k).l1 with
    | some x => s.evict k x
    | none => s) s

/-! ## Bytes at a translated address -/

/-- A line of the Loft, Granary, link windows or HBM as a core reads it, by a translation of one of its bytes. -/
def State.readLine (s : State) (k : Nat) (t : Trans) : Line × State :=
  let line := t.addr / 64
  match t.place with
  | .loft c => (lineOf (bgetN (s.core c).loft (64 * line) 64), s)
  | .phys =>
    match s.paKind t.addr with
    | .hbm _ => s.l1Line k t t.line
    | .gran f off =>
      if t.pkg ≠ ownPackage then (s.homeLine t.kid t.line, s)
      else (lineOf ((List.range 64).map fun i => (s.field f).granByte t.kid (64 * (off / 64) + i)), s)
    | _ => (if t.pkg ≠ ownPackage then s.homeLine t.kid t.line else lineOf (bgetN s.mem (64 * line) 64), s)

/-- A line as an agent without an L1 reads it, at its home. -/
def State.readHome (s : State) (t : Trans) : Line :=
  let line := t.addr / 64
  match t.place with
  | .loft c => lineOf (bgetN (s.core c).loft (64 * line) 64)
  | .phys =>
    if t.pkg ≠ ownPackage then s.homeLine t.kid t.line
    else
    match s.paKind t.addr with
    | .hbm _ => s.homeLine t.kid line
    | .gran f off => lineOf ((List.range 64).map fun i => (s.field f).granByte t.kid (64 * (off / 64) + i))
    | _ => lineOf (bgetN s.mem (64 * line) 64)

/-- What memory holds at its homes now (R48). -/
def State.codeView (s : State) : CodeView :=
  ⟨s.mem, s.keys, s.fields.map fun x => (x.1, x.2.l2), s.fields.map fun x => (x.1, x.2.gran), s.fields.map fun x => (x.1, x.2.granKid),
    s.stackTab.map fun x => (x.1, x.2.writes)⟩

/-- The machine with memory at its homes as a view has it. -/
def State.withView (s : State) (v : CodeView) : State :=
  { s with mem := v.mem, keys := v.keys,
           fields := s.fields.map fun x => (x.1, { x.2 with l2 := tget [] v.l2 x.1, gran := tget [] v.gran x.1, granKid := tget [] v.granKid x.1 }),
           stackTab := s.stackTab.map fun x => (x.1, { x.2 with writes := tget [] v.writes x.1 }) }

/-- Writes masked bytes of plain bytes that no cache stands before. -/
def mergeBytes (m : Bytes) (line : Nat) (mask : BitVec 64) (data : Line) : Bytes :=
  bsetN m (64 * line) (lineBytes (mergeLine (lineOf (bgetN m (64 * line) 64)) data mask))

/-- A translated address lies in a LOST line (R411). -/
def State.isLost (s : State) (t : Trans) : Bool := t.place == .phys && t.pkg == ownPackage && s.lostLine (t.addr / 64)

/-- Whether a line holds an uncorrectable error, poison, or is LOST (R226, R411): the cause a read of it raises. -/
def State.lineError (s : State) (t : Trans) : Option Cause :=
  match t.place with
  | .loft _ => none
  | .phys =>
    if t.pkg ≠ ownPackage then none
    else if s.isLost t then some cPOISON
    else if s.poison.contains (t.addr / 64) then some cPOISON
    else if s.badLines.contains (t.addr / 64) then some cUCE
    else none

/-- A place in the guest window while the socket is in quarantine (R405). -/
def State.breached (s : State) (t : Trans) : Bool := t.place == .phys && t.pkg == ownPackage && s.paKind t.addr == .guest && s.guest.breach.isSome

/-- What drops a write where it arrives: a DEAD KID (R255), the guest's quarantine (R405) or a LOST line (R411). -/
def State.writeDropped (s : State) (t : Trans) : Option Cause :=
  if t.place ≠ .phys then none
  else if (s.kidEntry t.kid).state = .dead then some cKEYDEAD
  else if s.breached t then some cGUEST
  else if s.isLost t then some cPOISON
  else none

/-- A write of masked line bytes at the home. -/
def State.writeHome (s : State) (t : Trans) (mask : BitVec 64) (data : Line) : State :=
  let line := t.addr / 64
  match t.place with
  | .loft c => s.modCore c fun x => { x with loft := mergeBytes x.loft line mask data }
  | .phys =>
    if (s.writeDropped t).isSome then s
    else if t.pkg ≠ ownPackage then s.homeWrite t t.line mask data
    else
      match s.paKind t.addr with
      | .hbm _ => s.homeWrite t line mask data
      | .gran f off => s.modField f fun x => x.granWrite t.kid (off / 64) mask data
      | .nothing => s
      | _ => { s with mem := mergeBytes s.mem line mask data }

/-- A store of masked line bytes by a core (R224): writes under a DEAD KID are dropped (R255), and so are writes to a LOST line (R411). -/
def State.writeLine (s : State) (k : Nat) (t : Trans) (mask : BitVec 64) (data : Line) : State :=
  match t.place with
  | .loft _ => s.writeHome t mask data
  | .phys =>
    if (s.writeDropped t).isSome then s
    else
      match s.paKind t.addr with
      | .hbm _ => s.l1Write k t t.line mask data
      | .nothing => s
      | _ => s.writeHome t mask data

/-! ## Writes of engine commands that are not yet visible (R239) -/

/-- Cores that hold something other than their reset state. -/
def State.liveCores (s : State) : List Nat := tkeys s.cores

/-- An error of a write that has left a context reaches the context, in a slot or saved: it is raised at its next commit (R242, R255, R411). -/
def State.tell (s : State) (ident : Nat) (v : TrapVal) : State :=
  let s := s.liveCores.foldl (fun s k => (List.finRange 4).foldl (fun s j =>
    if (s.ctxAt k j).ident = ident ∧ (s.ctxAt k j).state ≠ .free then s.modCtx k j fun c => { c with atomicErr := c.atomicErr.or (some (0, v)) }
    else s) s) s
  { s with sealed := s.sealed.map fun x => if x.ident = ident then { x with atomicErr := x.atomicErr.or (some (0, v)) } else x }

/-- TRAPINFO of an error that a write of a context meets where it arrives, by the windrow of a push: KEYDEAD (R249, R255), GUEST (R405), or POISON
of a LOST line (R411). -/
def State.droppedTrap (s : State) (c : Cause) (win kind va : Nat) : TrapVal :=
  ⟨c, if c = cPOISON then BitVec.ofNat 64 (va % 2 ^ 56) else if c = cGUEST then (s.guest.breach.getD 0).setWidth 64 else info249 win kind va⟩

/-- A late write becomes visible: at its home, then past the copies in the sheaf of its core (R223, R239). One that is dropped there is reported
to its context. -/
def State.landWrite (s : State) (k : Nat) (x : LateWrite) : State :=
  match s.writeDropped x.attr with
  | some c => if x.home ∨ x.mask = 0 then s else s.tell x.ident (s.droppedTrap c 0 5 x.va)
  | none =>
    let s := if x.home then s else s.writeHome x.attr x.mask x.data
    match x.attr.place with
    | .phys => s.evictLines (sheafOf k) x.attr.kid x.attr.line
    | .loft _ => s

/-- The late writes of a core that a test selects become visible (R230, R239). -/
def State.landLateIf (s : State) (k : Nat) (p : LateWrite → Bool) : State :=
  if (s.core k).late.any p then
    (((s.core k).late.filter p).foldl (fun s x => s.landWrite k x) s).modCore k fun c => { c with late := c.late.filter fun x => !p x }
  else s

/-- Late writes of the commands that their context has waited on become visible: a release stands behind them (R230). -/
def State.landWaited (s : State) (k : Nat) : State := s.landLateIf k LateWrite.waited

/-- The writes of one command become visible (R239). -/
def State.landCommand (s : State) (ident : Nat) (tok : Fin 64) : State :=
  s.liveCores.foldl (fun s k => s.landLateIf k fun x => x.ident == ident && x.tok == tok) s

/-- A context has waited on a token: the writes of the command count among its own (R230). -/
def Core.waitedOn (c : Core) (ident : Nat) (tok : Fin 64) : Core :=
  { c with late := c.late.map fun x => if x.ident = ident ∧ x.tok = tok then { x with waited := true } else x }

/-- A context of a core has waited on a token: writes of the command that another core holds, where the context ran before, come with it (R230). -/
def State.waitOn (s : State) (k ident : Nat) (tok : Fin 64) : State :=
  let mine := fun (x : LateWrite) => x.ident == ident && x.tok == tok
  let away := s.liveCores.flatMap fun i => if i = k then [] else (s.core i).late.filter mine
  let s := if away.isEmpty then s
    else (s.liveCores.foldl (fun s i => if i = k then s else s.modCore i fun c => { c with late := c.late.filter fun x => !mine x }) s).modCore k
      fun c => { c with late := c.late ++ away }
  s.modCore k fun c => c.waitedOn ident tok

/-- Every late write of a core's engine commands becomes visible. -/
def State.landLate (s : State) (k : Nat) : State := s.landLateIf k fun _ => true

/-- Two translations name the same line. -/
def sameLine (a b : Trans) : Bool := a.place == b.place && a.line == b.line && a.kid == b.kid

/-- Late writes with no earlier one to their line that is not at its home. -/
def firstLate (before : List LateWrite) : List LateWrite → List LateWrite
  | [] => []
  | x :: xs =>
    if before.any fun y => sameLine y.attr x.attr then firstLate before xs
    else x :: firstLate (if x.home then before else x :: before) xs

/-- Replaces the first late write equal to one. -/
def replaceLate (x : LateWrite) (ys : List LateWrite) : List LateWrite → List LateWrite
  | [] => []
  | z :: zs => if z = x then ys ++ zs else z :: replaceLate x ys zs

/-- A late write's next share: granules of it at their home, or the copies before them gone. What is left of it stays late. -/
def LateWrite.share (x : LateWrite) (g : BitVec 8) : LateWrite × List LateWrite :=
  let m := if x.mask &&& granuleMask g = 0 then x.mask else x.mask &&& granuleMask g
  if x.home then (x, []) else ({ x with mask := m }, if x.mask &&& ~~~ m = 0 then [] else [{ x with mask := x.mask &&& ~~~ m }])

/-- Granules of one late write of a core become visible where a run picks them; the copies in the core's sheaf may stay before them longer
(R227, R239). -/
def State.landOne (s : State) (k : Nat) : State :=
  let xs := firstLate [] (s.core k).late
  match xs[Config.latency s.draws % xs.length]? with
  | none => s
  | some x =>
    if Config.late s.draws then s.drawn
    else
      let (y, rest) := x.share (Config.granules s.draws)
      if x.home ∨ Config.keepsLine s.draws then (s.drawn.landWrite k y).modCore k fun c => { c with late := replaceLate x rest c.late }
      else
        match s.writeDropped x.attr with
        | some _ => (s.drawn.landWrite k x).modCore k fun c => { c with late := replaceLate x [] c.late }
        | none => (s.drawn.writeHome y.attr y.mask y.data).modCore k fun c => { c with late := replaceLate x ({ y with home := true } :: rest) c.late }

/-- A physical address under KID 0 (R458). -/
def physTrans (pa : Nat) : Trans := ⟨.phys, pa, 0, false, false, false, false, 0⟩

/-- Splits n bytes from an address at line boundaries: address and length of each piece. -/
def pieces : Nat → Nat → Nat → List (Nat × Nat)
  | 0, _, _ => []
  | fuel + 1, a, n =>
    if n = 0 then []
    else
      let m := min n (64 - a % 64)
      (a, m) :: pieces fuel (a + m) (n - m)

/-- The mask of n bytes from byte i of a line. -/
def byteMask (i n : Nat) : BitVec 64 := BitVec.ofNat 64 ((2 ^ n - 1) * 2 ^ i)

/-- Bytes of a line placed at byte i. -/
def placeBytes (i : Nat) (bs : List Byte) : Line := BitVec.ofNat 512 (leNat bs * 2 ^ (8 * i))

/-- n bytes read by physical address under KID 0, at home (R458). -/
def State.physRead (s : State) (pa n : Nat) : List Byte :=
  (pieces n pa n).flatMap fun (a, m) => ((lineBytes (s.readHome (physTrans a))).drop (a % 64)).take m

/-- Bytes written by physical address under KID 0, at home (R458). -/
def State.physWrite (s : State) (pa : Nat) (bs : List Byte) : State :=
  ((pieces bs.length pa bs.length).foldl
    (fun (acc : State × List Byte) (am : Nat × Nat) =>
      (acc.1.writeHome (physTrans am.1) (byteMask (am.1 % 64) am.2) (placeBytes (am.1 % 64) (acc.2.take am.2)), acc.2.drop am.2))
    (s, bs)).1

/-- The Cribs meet the reads of n bytes of HBM by physical address under KID 0 (R219, R458). -/
def State.meetPhys (s : State) (pa n : Nat) : State := (pieces n pa n).foldl (fun s x => s.meet (physTrans x.1)) s

/-- An 8-byte word by physical address. -/
def State.physWord (s : State) (pa : Nat) : Word := BitVec.ofNat 64 (leNat (s.physRead pa 8))

/-! ## Translation (R244 to R249) -/

/-- The start of the Loft window (R206). -/
def loftBase : Nat := 0xFFFFFFFFC00000

/-- Bits of a page-table entry (R245). -/
def pteT (e : Word) : Nat := (e.extractLsb' 0 2).toNat
def pteU (e : Word) : Bool := e.getLsbD 2
def pteW (e : Word) : Bool := e.getLsbD 3
def pteX (e : Word) : Bool := e.getLsbD 4
def pteSel (e : Word) : Bool := e.getLsbD 5
def pteGran (e : Word) : Bool := e.getLsbD 6
def ptePr (e : Word) : Nat := (e.extractLsb' 7 2).toNat
def pteCoh (e : Word) : Bool := e.getLsbD 9
def pteNocrib (e : Word) : Bool := e.getLsbD 10
def pteCribpin (e : Word) : Bool := e.getLsbD 11
def ptePfn (e : Word) : Nat := (e.extractLsb' 12 31).toNat
def pteKid (e : Word) : BitVec 8 := e.extractLsb' 43 8
def ptePkg (e : Word) : Nat := (e.extractLsb' 51 13).toNat

/-- The page size of a leaf at a level: 16 GiB, 8 MiB, 64 KiB or 4 KiB (R246). -/
def leafSize (level t : Nat) : Option Nat :=
  if level = 2 ∧ t = 2 then some 0x400000000
  else if level = 1 ∧ t = 2 then some 0x800000
  else if level = 0 ∧ t = 2 then some 0x1000
  else if level = 0 ∧ t = 3 then some 0x10000
  else none

/-- The walk from a table at one level down (R246): a leaf with its page, or the cause. -/
def State.walkFrom (s : State) (kid : BitVec 8) (va : Nat) : Nat → Nat → Nat → Except Cause TlbEntry
  | 0, _, _ => .error cPFAULT
  | fuel + 1, level, table =>
    let i := va / 2 ^ (12 + 11 * level) % 2048
    let near := fun j => s.physWord (table + 8 * (i / 16 * 16 + j))
    let i := if level = 0 ∧ (List.range 16).any (fun j => pteT (near j) = 3) ∧ (List.range 16).any (fun j => near j != near 0)
      then i / 16 * 16 + (Config.pickEntry s.draws).val else i
    let e := s.physWord (table + 8 * i)
    match s.paKind (table + 8 * i), s.lineError (physTrans (table + 8 * i)) with
    | .hbm _, some c => .error c
    | .hbm _, none =>
      if pteT e = 0 then .error cPFAULT
      else if pteT e = 1 then
        if level = 0 ∨ e.toNat / 2 ^ 43 ≠ 0 ∨ e.toNat % 2 ^ 12 ≠ 1 ∨ ptePfn e % 4 ≠ 0 then .error cPFAULT
        else s.walkFrom kid va fuel (level - 1) (ptePfn e * 4096)
      else
        match leafSize level (pteT e) with
        | none => .error cPFAULT
        | some size =>
          if ptePfn e * 4096 % size ≠ 0 ∨ (ptePr e ≠ 0 ∧ (size ≠ 0x1000 ∨ ptePfn e % 2 = 1)) then .error cPFAULT
          else .ok ⟨kid, va / size * size, size, e, table + 8 * i⟩
    | _, _ => .error cPPROT

/-- The walk from the root of a KID (R246). -/
def State.walk (s : State) (kid : BitVec 8) (va : Nat) : Except Cause TlbEntry :=
  s.walkFrom kid va 4 3 (s.kidEntry kid).root.toNat

/-- What an access does (R247, R249). -/
inductive Access where
  | read | write | fetch
  deriving DecidableEq, Repr, Inhabited

/-- Who translates: KID, privilege, and whether a DUP member (R259). -/
structure Who where
  kid   : BitVec 8
  super : Bool
  dup   : Bool
  deriving DecidableEq, Repr, Inhabited

/-- How a translation ends. -/
inductive Translated where
  | ok (t : Trans) (e : TlbEntry)
  | fault (c : Cause)
  /-- The first write to a CLEAN CKPT page waits for its copy (R260). -/
  | copy (e : TlbEntry)
  deriving DecidableEq, Repr

/-- The frame a leaf gives (R258, R259): the live one, or the other one to a DUP member on a SHADOW page. -/
def leafFrame (e : Word) (dup : Bool) : Nat :=
  if ptePr e = 0 then ptePfn e
  else if ptePr e = 1 ∧ dup then ptePfn e + 1 - (if pteSel e then 1 else 0)
  else ptePfn e + (if pteSel e then 1 else 0)

/-- The addresses of the entries that a walk reads, from a table at one level down (R246). -/
def State.walkPath (s : State) (va : Nat) : Nat → Nat → Nat → List Nat
  | 0, _, _ => []
  | fuel + 1, level, table =>
    let a := table + 8 * (va / 2 ^ (12 + 11 * level) % 2048)
    a :: (if pteT (s.physWord a) = 1 then s.walkPath va fuel (level - 1) (ptePfn (s.physWord a) * 4096) else [])

/-- The Cribs meet the reads of a walk (R219). -/
def State.meetWalk (s : State) (kid : BitVec 8) (va : Nat) : State :=
  (s.walkPath va 4 3 (s.kidEntry kid).root.toNat).foldl (fun s a => s.meet (physTrans a)) s

/-- Checks a leaf for an access and forms the physical address (R246, R247, R260, R405). -/
def State.useLeaf (s : State) (w : Who) (acc : Access) (va : Nat) (e : TlbEntry) : Translated :=
  let l := e.leaf
  let pa := leafFrame l w.dup * 4096 + va % e.size
  if (acc = .write ∧ !pteW l) ∨ (acc = .fetch ∧ !pteX l) ∨ (!w.super ∧ !pteU l) ∨ (ptePkg l ≠ ownPackage ∧ !pteCoh l) then .fault cPPROT
  else
    match s.paKind pa with
    | .nothing => .fault cPPROT
    | k =>
      let isGran := match k with
        | .gran _ _ => true
        | _ => false
      if pteGran l ≠ isGran then .fault cPPROT
      else if k = .guest ∧ s.guest.breach.isSome then .fault cGUEST
      else if (s.kidEntry (pteKid l)).state = .dead then .fault cKEYDEAD
      else if acc = .write ∧ ptePr l = 3 then .copy e
      else .ok ⟨.phys, pa, pteKid l, pteCoh l, pteGran l, pteNocrib l, pteCribpin l, ptePkg l⟩ e

/-- A translation without a cache: every agent but a core's data side. -/
def State.translate (s : State) (w : Who) (acc : Access) (va : Nat) : Translated :=
  if 2 ^ 56 ≤ va then .fault cPFAULT
  else if loftBase ≤ va then .fault cPPROT
  else if (s.kidEntry w.kid).state ≠ .live then .fault cKEYDEAD
  else
    match s.walk w.kid va with
    | .error c => .fault c
    | .ok e => s.useLeaf w acc va e

/-- Finds a cached translation. -/
def findTlb (kid : BitVec 8) (va : Nat) : List TlbEntry → Option TlbEntry
  | [] => none
  | e :: es => if e.kid = kid ∧ e.base ≤ va ∧ va < e.base + e.size then some e else findTlb kid va es

/-- An access of a core uses a leaf: a later drop of it reaches the access (R250, R251). -/
def Core.use (c : Core) (e : TlbEntry) : Core := if c.used.contains e then c else { c with used := e :: c.used }

/-- A core's translation for data: a cached one may have left; a walk that succeeds is cached (R248). -/
def State.translateData (s : State) (k : Nat) (w : Who) (acc : Access) (va : Nat) : Translated × State :=
  if 2 ^ 56 ≤ va then (.fault cPFAULT, s)
  else if (s.kidEntry w.kid).state ≠ .live then (.fault cKEYDEAD, s)
  else
    let miss := fun (s : State) =>
      let s := s.meetWalk w.kid va
      match s.walk w.kid va with
      | .error c => (Translated.fault c, s)
      | .ok e =>
        match s.useLeaf w acc va e with
        | .fault c => (.fault c, s)
        | r => (r, s.drawn.modCore k fun c => { c.use e with tlb := e :: c.tlb })
    match findTlb w.kid va (s.core k).tlb with
    | none => miss s
    | some e =>
      if Config.keepsTranslation s.draws then (s.useLeaf w acc va e, s.drawn.modCore k fun c => c.use e)
      else miss (s.drawn.modCore k fun c => { c with tlb := c.tlb.filter fun x => x != e })

end Sys2Proof.Machine
end

