-- ==== Sys2Proof/Machine/Regs.lean ====
section
/-! DEFINITION. The registers of the context that issues: reads, pending writes and their landing (02_bundle.md R24, R31 to R33,
04_scalar.md R83, R84, 13_context.md R288 to R292). -/

namespace Sys2Proof.Machine

/-- The context whose bundle issues. -/
def State.cur (s : State) : Context := s.ctxAt s.issue.core s.issue.slot

/-- Changes the context whose bundle issues. -/
def State.modCur (s : State) (f : Context → Context) : State := s.modCtx s.issue.core s.issue.slot f

/-- The core of the context that issues. -/
def State.myCore (s : State) : Core := s.core s.issue.core

/-- Numbers of the system registers (R288). -/
def rSTATUS : Fin 20 := 0
def rCAUSE : Fin 20 := 1
def rEPC : Fin 20 := 2
def rTRAPINFO : Fin 20 := 3
def rTVEC : Fin 20 := 4
def rREGENT : Fin 20 := 5
def rREGCNT : Fin 20 := 6
def rREGLIM : Fin 20 := 7
def rPREBOUND : Fin 20 := 8
def rSBCHK : Fin 20 := 9
def rFPMODE : Fin 20 := 10
def rFPFLAGS : Fin 20 := 11
def rRNGSEED : Fin 20 := 12
def rMAXMAG : Fin 20 := 13
def rSIGREG : Fin 20 := 14
def rKID : Fin 20 := 15
def rDOMAIN : Fin 20 := 16
def rRANK : Fin 20 := 17
def rSLICE : Fin 20 := 18
def rINJECT : Fin 20 := 19

/-- A system register's stored value. -/
def Context.sysv (c : Context) (r : Fin 20) : Word := c.regs.sys[r]

/-- Stores a system register. -/
def Context.setSys (c : Context) (r : Fin 20) (v : Word) : Context := { c with regs := { c.regs with sys := c.regs.sys.set r v } }

/-- STATUS.PL: supervisor level (R289). -/
def Context.super (c : Context) : Bool := (c.sysv rSTATUS).getLsbD 0

/-- STATUS.PPL. -/
def Context.ppl (c : Context) : Bool := (c.sysv rSTATUS).getLsbD 1

/-- STATUS.EXL. -/
def Context.exl (c : Context) : Bool := (c.sysv rSTATUS).getLsbD 2

/-- STATUS.BSUP. -/
def Context.bsup (c : Context) : Bool := (c.sysv rSTATUS).getLsbD 4

/-- A STATUS word from its fields (R289). -/
def statusWord (slot : Fin 4) (bsup exl ppl pl : Bool) : Word :=
  BitVec.ofNat 64 (slot.val * 64 + (if bsup then 16 else 0) + (if exl then 4 else 0) + (if ppl then 2 else 0) + (if pl then 1 else 0))

/-- The KID of a context's translations (R290). -/
def Context.kid (c : Context) : BitVec 8 := (c.sysv rKID).setWidth 8

/-- Who a context is to translation (R247, R259). -/
def Context.who (c : Context) : Who :=
  ⟨c.kid, c.super, match c.member with
    | some m => m.dup
    | none => false⟩

/-- The register a value goes to. -/
def RegVal.reg : RegVal → Option Reg
  | .s r _ => some (.s r)
  | .p r _ => some (.p r)
  | .v r _ => some (.v r)
  | .k r _ => some (.k r)
  | .sys r _ => some (.sys r)
  | .mp r _ => some (.mp r)
  | .orFlags _ => none
  | .mergeMag _ _ => none

/-- Merges a magnitude into MAXMAG (R78): a larger one replaces, a NaN sets N. -/
def mergeMaxmag (old : Word) (nan : Bool) (mag : BitVec 31) : Word :=
  let m : BitVec 31 := old.setWidth 31
  let best := if m < mag then mag else m
  (best.setWidth 64) ||| (if nan ∨ old.getLsbD 32 then 0x100000000 else 0)

/-- The read-only fields of DOMAIN: FLT, W and GPH (R336). -/
def domainRo : Word := 0x000007FF80007FF8#64

/-- A value lands in the registers; s0 and p0 keep their constants (R83, R84), DOMAIN its read-only fields (R336). -/
def Regs.land (r : Regs) : RegVal → Regs
  | .s n v => if n.val = 0 then r else { r with s := r.s.set n v }
  | .p n v => if n.val = 0 then r else { r with p := r.p.set n v }
  | .v n v => { r with v := r.v.set n v }
  | .k n v => { r with k := r.k.set n v }
  | .sys n v => { r with sys := r.sys.set n (if n = rDOMAIN then (r.sys[rDOMAIN] &&& domainRo) ||| (v &&& ~~~domainRo) else v) }
  | .mp n v => { r with mp := r.mp.set n v }
  | .orFlags f => { r with sys := r.sys.set rFPFLAGS (r.sys[rFPFLAGS] ||| f.setWidth 64) }
  | .mergeMag nan m => { r with sys := r.sys.set rMAXMAG (mergeMaxmag r.sys[rMAXMAG] nan m) }

/-- Results whose cycle has come land, in the order in which they are due (R31). -/
def Context.settle (c : Context) (now : Nat) : Context :=
  { c with regs := (c.pend.filter fun w => w.due ≤ now).foldl (fun r w => r.land w.val) c.regs,
           pend := c.pend.filter fun w => !(w.due ≤ now) }

/-- Every result still to come lands: nothing of the context issues any more, or an image is to hold the values. -/
def Context.settleAll (c : Context) : Context := { c with regs := c.pend.foldl (fun r w => r.land w.val) c.regs, pend := [] }

/-- Places a result after the last of those due no later than it. -/
def insertDue (w : PendingWrite) : List PendingWrite → List PendingWrite
  | [] => [w]
  | x :: xs => if x.due ≤ w.due ∨ xs.any fun y => decide (y.due ≤ w.due) then x :: insertDue w xs else w :: x :: xs

/-- Adds a fixed-latency result; an older one to the same register that would land no earlier is dropped (R32). DEDUCED: an update of MAXMAG or
FPFLAGS on its way is no write that R32 drops, since R78 lands it on the value then held (log 79). -/
def addPend (ps : List PendingWrite) (v : RegVal) (due : Nat) : List PendingWrite :=
  insertDue ⟨v, due⟩ (ps.filter fun w => !(w.val.reg.isSome && w.val.reg == v.reg && due ≤ w.due))

/-- Values that land now, in the place of any older fixed-latency result still to come to one of their registers (R32). -/
def Context.landVals (c : Context) (vs : List RegVal) : Context :=
  { c with regs := vs.foldl (fun r v => r.land v) c.regs,
           pend := c.pend.filter fun w => !(vs.any fun v => w.val.reg.isSome && w.val.reg == v.reg) }

/-- INJECT KIND 3 inverts a bit of the next value written to its register (R415). DEDUCED: an injection that happens clears all of INJECT, as
R435 has it (log 80). -/
def injectScalar (c : Context) (r : Fin 63) (v : Word) : Word × Context :=
  let j := c.sysv rINJECT
  if j.getLsbD 63 ∧ (j.extractLsb' 60 3) = 3 ∧ (j.extractLsb' 0 6).toNat = r.val ∧ r.val ≠ 0 then
    let b := (j.extractLsb' 27 7).toNat
    (if b ≤ 63 then v ^^^ (1#64 <<< b) else v, c.setSys rINJECT 0)
  else (v, c)

/-- Interlocked values land, a scalar one under INJECT (R415). -/
def Context.landInjected (c : Context) (vs : List RegVal) : Context :=
  vs.foldl (fun c v => match v with
    | .s r x => let y := injectScalar c r x; y.2.landVals [.s r y.1]
    | v => c.landVals [v]) c

/-- The latest value on its way to a system register, or the one it holds. -/
def Context.latestSys (c : Context) (r : Fin 20) : Word :=
  c.pend.foldl (fun v w => match w.val with
    | .sys n x => if n = r then x else v
    | _ => v) (c.sysv r)

/-- A scalar register as a slot reads it: s0 is zero (R83). -/
def State.getS (s : State) (r : Fin 63) : Word := if r.val = 0 then 0 else s.cur.regs.s[r]

/-- A source field: a register or the sign-extended literal (R23). -/
def State.src (s : State) : Src → Word
  | .reg r => s.getS r
  | .lit w => w.signExtend 64

/-- A predicate: p0 is true (R84). -/
def State.getP (s : State) (r : Fin 16) : Bool := if r.val = 0 then true else s.cur.regs.p[r]

/-- A vector register. -/
def State.getV (s : State) (r : Fin 16) : Vec := s.cur.regs.v[r]

/-- A mask register. -/
def State.getK (s : State) (r : Fin 8) : Mask := s.cur.regs.k[r]

/-- A system register. -/
def State.getSys (s : State) (r : Fin 20) : Word := s.cur.sysv r

/-- A fixed-latency result of the slot that runs (R31). -/
def State.put (s : State) (v : RegVal) (latency : Nat) : State :=
  s.modCur fun c => { c with pend := addPend c.pend v (s.now + latency) }

/-- A scalar result: s0 discards it (R83). -/
def State.putS (s : State) (r : Fin 63) (v : Word) (latency : Nat) : State :=
  if r.val = 0 then s
  else
    s.modCur fun c =>
      let (v, c) := injectScalar c r v
      { c with pend := addPend c.pend (.s r v) (s.now + latency) }

/-- A predicate result: p0 discards it (R84). -/
def State.putP (s : State) (r : Fin 16) (v : Bool) (latency : Nat) : State :=
  if r.val = 0 then s else s.put (.p r v) latency

/-- An interlocked result of the slot that runs (R31, R33): the registers it writes, and the first cycle it can return. -/
def State.fly (s : State) (kind : FlightKind) (vals : List RegVal) (push : Option HeldPush) (delay : Nat) : State :=
  s.modCur fun c => { c with flights := c.flights ++ [⟨c.nextId, kind, s.now + delay, vals, push⟩], nextId := c.nextId + 1 }

/-- The slot takes effect. -/
def State.done (s : State) : Host.Outcome State Fault Refusal := .next s

/-- The slot waits under R33: nothing of it takes effect. -/
def State.wait (s : State) : State := { s with issue := { s.issue with outcome := .wait } }

/-- Whether the slot that runs has made its request, and whether that has been answered (R33). -/
def State.asked (s : State) : Option Bool := (s.cur.asks.find? fun x => x.index == s.issue.index).map Ask.answered

/-- The slot that runs makes its request, by a number of its own. -/
def State.ask (s : State) : State :=
  { s.modCur fun c => { c with asks := c.asks ++ [⟨s.issue.index, s.serial, false⟩] } with serial := s.serial + 1 }

/-- A request of a context is answered. -/
def Context.answer (c : Context) (id : Nat) : Context :=
  { c with asks := c.asks.map fun x => if x.id = id then { x with answered := true } else x }

/-- The TRAPINFO of R47 with an address. -/
def info47 (index : Nat) (addr : Word) : Word := BitVec.ofNat 64 (index % 8 * 2 ^ 61) ||| (addr &&& 0x00FFFFFFFFFFFFFF#64)

/-- The TRAPINFO of R47 for the slot that runs. -/
def State.slotInfo (s : State) : Word := info47 s.issue.index s.issue.addr

/-- The value a write of a system register stores (R75 to R77, R266, R289, R290, R336, R415): reserved bits stay zero, read-only fields
keep the old value. `launch` is the LEVEL of the launch, `owns` tells whether the context owns a bank. -/
def sysStore (r : Fin 20) (old v : Word) (launch : BitVec 3) (owns : Fin 4 → Bool) : Word :=
  match r.val with
  | 0 => (old &&& 0xC1#64) ||| (v &&& 0x16#64)
  | 1 => v &&& 0xFF#64
  | 2 => v &&& 0x00FFFFFFFFFFFFFC#64
  | 3 => v
  | 4 => v &&& 0x00FFFFFFFFFFFFFC#64
  | 5 => old
  | 6 => v &&& 0xFF#64
  | 7 => v &&& 0xFF#64
  | 8 =>
    if v &&& 0x1FFFFFF#64 = 0 ∨ 0x1000000#64 < v &&& 0x1FFFFFF#64 then 0x1000000#64 else v &&& 0x1FFFFFF#64
  | 9 => v &&& 1#64
  | 10 => (v &&& 0x1F8#64) ||| (if 5#64 < v &&& 7#64 then 0 else v &&& 7#64)
  | 11 => v &&& 0x1F#64
  | 12 => v
  | 13 => if 0x7F800000#64 < v &&& 0x7FFFFFFF#64 then 0x17F800000#64 else v &&& 0x17FFFFFFF#64
  | 14 => v
  | 15 => v &&& 0xFF#64
  | 16 => (old &&& 0x000007FF80007FF8#64) ||| (if 4#64 < v &&& 7#64 then launch.setWidth 64 else v &&& 7#64)
  | 17 => v &&& 7#64
  | 18 => v &&& 0x7FF#64
  | _ =>
    let kind := v.extractLsb' 60 3
    let kind : BitVec 3 := if 4#3 ≤ kind then 0#3 else kind
    let bank : Fin 4 := ⟨(v.extractLsb' 47 2).toNat, (v.extractLsb' 47 2).isLt⟩
    let reg := (v.extractLsb' 0 6).toNat
    let bit := (v.extractLsb' 27 7).toNat
    let arm := v.getLsbD 63 && !(kind == 1#3 && (!owns bank || decide (79 < bit))) && !(kind == 3#3 && (reg == 0 || reg == 63)) &&
      !((kind == 2#3 || kind == 3#3) && decide (63 < bit))
    (v &&& 0x0001FFFFF800003F#64) ||| ((kind.setWidth 64) <<< 60) ||| (if arm then 0x8000000000000000#64 else 0#64)

end Sys2Proof.Machine
end

