-- ==== Sys2Proof/Machine/WinAddr.lean ====
section
/-! DEFINITION. The addresses of a windrow's element vectors and the movement of its cursor (06_windrow.md R134 to R137). -/

namespace Sys2Proof.Machine

/-- Levels in use of a descriptor. -/
def WinDesc.levels (d : WinDesc) : List (Fin 6) := (List.finRange 6).filter fun i => i.val < d.nlev.toNat

/-- T: the element vectors a windrow delivers or accepts before it is DONE (R134). -/
def WinDesc.total (d : WinDesc) : Nat := d.levels.foldl (fun t i => t * (d.cnt[i]).toNat) 1

/-- The offset of the cursor, exact and signed (R134). -/
def WinDesc.offset (d : WinDesc) (idx : Vector Nat 6) : Int := d.levels.foldl (fun o i => o + Int.ofNat idx[i] * (d.str[i]).toInt) 0

/-- The address of byte j of the element vector at an offset (R134). -/
def WinDesc.byteAddr (d : WinDesc) (off : Int) (j : Nat) : Nat :=
  let m := d.modlen.toNat
  let a : Int := if m = 0 then (d.base.toNat : Int) + off + j else (d.base.toNat : Int) + (off + j) % (m : Int)
  (a % (2 ^ 64 : Int)).toNat

/-- Advances level indices from a level up; true when every level has wrapped (R134). -/
def stepLevels (d : WinDesc) : List (Fin 6) → Vector Nat 6 → Vector Nat 6
  | [], idx => idx
  | i :: is, idx =>
    if idx[i] + 1 < (d.cnt[i]).toNat then idx.set i (idx[i] + 1) else stepLevels d is (idx.set i 0)

/-- The cursor moves on by one element vector (R134, R137). -/
def Windrow.advance (w : Windrow) : Windrow :=
  { w with n := w.n + 1, idx := stepLevels w.desc w.desc.levels w.idx,
           state := if w.n + 1 = w.desc.total then .done else w.state }

/-- The mixed-radix digits of an ordinal under a descriptor's counts. -/
def digitsOf (d : WinDesc) : List (Fin 6) → Nat → Vector Nat 6 → Vector Nat 6
  | [], _, idx => idx
  | i :: is, n, idx => digitsOf d is (n / (d.cnt[i]).toNat) (idx.set i (n % (d.cnt[i]).toNat))

/-- The cursor set to an ordinal (R149): below T it is ACTIVE, from T on it is DONE with all indices zero. -/
def Windrow.seek (w : Windrow) (n : Nat) : Windrow :=
  let t := w.desc.total
  if n < t then { w with n := n, idx := digitsOf w.desc w.desc.levels n (Vector.replicate 6 0), state := .active, buf := [] }
  else { w with n := t, idx := Vector.replicate 6 0, state := .done, buf := [] }

/-- The addresses of the bytes at the cursor. -/
def Windrow.addrs (w : Windrow) (bytes : Nat) : List Nat :=
  let o := w.desc.offset w.idx
  (List.range bytes).map (w.desc.byteAddr o)

/-- The address of the scale byte of element vector n (R136). -/
def WinDesc.scaleAddr (d : WinDesc) (n : Nat) : Nat := (((d.scbase.toNat : Int) + (n : Int) * d.scstr.toInt) % (2 ^ 64 : Int)).toNat

/-- The windrow with its cursor i element vectors ahead. -/
def Windrow.ahead (w : Windrow) : Nat → Windrow
  | 0 => w
  | i + 1 => w.advance.ahead i

/-- Fetch width in bytes that FMT fixes; none for RAW (R138). -/
def WinDesc.fixedWidth (d : WinDesc) : Option Nat :=
  match d.fmt.toNat with
  | 1 => some 24
  | 2 => some 4
  | _ => none

/-- Whether a buffered element vector has a byte in a range of addresses that a test selects. -/
def Windrow.buffers (w : Windrow) (hit : Nat → Bool) : Bool :=
  match w.width with
  | none => false
  | some n => (List.range w.buf.length).any fun i => ((w.ahead i).addrs n).any hit || (w.desc.scen && hit (w.desc.scaleAddr (w.n + i)))

/-- Consecutive addresses as runs: start and length. -/
def runsOf : List Nat → List (Nat × Nat)
  | [] => []
  | a :: as =>
    match runsOf as with
    | (b, n) :: rest => if b = a + 1 then (a, n + 1) :: rest else (a, 1) :: (b, n) :: rest
    | [] => [(a, 1)]

end Sys2Proof.Machine
end

