-- ==== Sys2Proof/Machine/Page.lean ====
section
/-! DEFINITION. Accesses by virtual address of the agents other than a core's data side, hardware updates of page-table entries, and the
rules on dropped translations (11_page.md R248 to R263). -/

namespace Sys2Proof.Machine

/-- A supervisor-level agent under a KID: Threshers, engines of a supervisor, the Step Sequencer. -/
def superWho (kid : BitVec 8) : Who := ⟨kid, true, false⟩

/-- Rewrites the entry of a leaf at its home, by KID 0 (R258, R458). -/
def State.putLeaf (s : State) (e : TlbEntry) (leaf : Word) : State := s.physWrite e.entry (leBytes 8 leaf.toNat)

/-- Cores that are not taken for control, and all others: every core of the package. -/
def allCores : List Nat := List.range numCores

/-- Drops cached translations that a test selects, in every core (R250). -/
def State.dropTlb (s : State) (hit : TlbEntry → Bool) : State :=
  s.liveCores.foldl (fun s k =>
    if (s.core k).tlb.any hit || (s.core k).used.any hit then
      s.modCore k fun c => { c with tlb := c.tlb.filter fun e => !hit e, used := c.used.filter fun e => !hit e }
    else s) s

/-- A translation of one page under one KID. -/
def onPage (kid : BitVec 8) (va : Nat) (e : TlbEntry) : Bool := e.kid == kid && decide (e.base ≤ va ∧ va < e.base + e.size)

/-- Empties the read windrows that hold data fetched through a dropped translation (R251). -/
def Context.emptyPages (c : Context) (hit : BitVec 8 → Nat → Bool) : Context :=
  { c with windrows := vecMap (fun w =>
      if !w.desc.dir ∧ w.buf ≠ [] ∧ w.buffers (fun a => hit c.kid (a / 4096)) then { w with buf := [] } else w) c.windrows }

/-- Empties them in every context of the package. -/
def State.emptyWindrows (s : State) (hit : BitVec 8 → Nat → Bool) : State :=
  s.liveCores.foldl (fun s k => (List.finRange 4).foldl (fun s j =>
    if (s.ctxAt k j).state = .free then s else s.modCtx k j fun c => c.emptyPages hit) s) s

/-- The KID of a guest queue, by its descriptor (R400). -/
def State.guestKid (s : State) (q : Fin 8) : BitVec 8 := BitVec.ofNat 8 (leNat (s.physRead (s.config.gqtab + 64 * q.val + 40) 1))

/-- The guest holds a translation that a drop takes back. -/
def State.guestHolds (s : State) (hit : BitVec 8 → Nat → Bool) : Bool := s.guest.held.any fun x => hit (s.guestKid x.1) x.2

/-- Translations that the guest holds are taken back; the guest is to acknowledge it (R401). -/
def State.dropGuest (s : State) (hit : BitVec 8 → Nat → Bool) : State :=
  if s.guestHolds hit then
    { s with guest := { s.guest with held := s.guest.held.filter fun x => !hit (s.guestKid x.1) x.2, invs := s.guest.invs ++ [s.now] } }
  else s

/-- The virtual pages of a translation. -/
def TlbEntry.covers (e : TlbEntry) (kid : BitVec 8) (p : Nat) : Bool := kid == e.kid && decide (e.base ≤ p * 4096 ∧ p * 4096 < e.base + e.size)

/-- A hardware update of a page's entry drops its translations, the guest's among them, and the windrow data fetched through them (R251, R258). -/
def State.forgetPage (s : State) (e : TlbEntry) : State :=
  ((s.dropTlb (onPage e.kid e.base)).emptyWindrows e.covers).dropGuest e.covers

/-- The frame of a pair that is not live, as an address. -/
def TlbEntry.otherFrame (e : TlbEntry) : Nat := (ptePfn e.leaf * 2 + 1 - leafFrame e.leaf false) * 4096

/-- The error that a copy of a pair's live frame would read, or a LOST line that it would write (R226, R260, R411). -/
def State.frameError (s : State) (e : TlbEntry) : Option Cause :=
  (List.range 64).findSome? fun i =>
    (s.lineError { physTrans (leafFrame e.leaf false * 4096 + 64 * i) with pkg := ptePkg e.leaf }).or
      (if s.isLost { physTrans (e.otherFrame + 64 * i) with pkg := ptePkg e.leaf } then some cPOISON else none)

/-- Copies the live frame of a pair to the other (R260). -/
def State.copyFrame (s : State) (e : TlbEntry) : State :=
  let live := leafFrame e.leaf false * 4096
  let other := e.otherFrame
  let t := fun a => (⟨.phys, a, pteKid e.leaf, pteCoh e.leaf, pteGran e.leaf, false, false, ptePkg e.leaf⟩ : Trans)
  (List.range 64).foldl (fun s i => (s.meet (t (live + 64 * i))).writeHome (t (other + 64 * i)) (BitVec.allOnes 64) (s.readHome (t (live + 64 * i)))) s

/-- The first write to a CLEAN CKPT page: the copy, SEL flipped, PR DIRTY, and the page's translations dropped (R258, R260). -/
def State.ckptCopy (s : State) (e : TlbEntry) : State :=
  let leaf := (e.leaf ^^^ 0x20#64) &&& ~~~ 0x180#64 ||| 0x100#64
  ((s.copyFrame e).putLeaf e leaf).forgetPage e

/-- eckpt of a page: DIRTY becomes CLEAN (R260). -/
def State.ckptClean (s : State) (e : TlbEntry) : State :=
  if ptePr e.leaf = 2 then (s.putLeaf e (e.leaf ||| 0x180#64)).forgetPage e else s

/-- erolb of a page: DIRTY becomes CLEAN with the checkpoint live again (R260). -/
def State.ckptBack (s : State) (e : TlbEntry) : State :=
  if ptePr e.leaf = 2 then (s.putLeaf e ((e.leaf ^^^ 0x20#64) ||| 0x180#64)).forgetPage e else s

/-- Flips SEL of a SHADOW page (R259). -/
def State.flipShadow (s : State) (kid : BitVec 8) (va : Nat) : State :=
  match s.walk kid va with
  | .ok e => if ptePr e.leaf = 1 then (s.putLeaf e (e.leaf ^^^ 0x20#64)).forgetPage e else s
  | .error _ => s

/-- Reads n bytes by virtual address at their home; the cause of the first piece that cannot be read. -/
def State.vaRead (s : State) (w : Who) (va n : Nat) : Except (Cause × Nat) (List Byte) :=
  (pieces n va n).foldlM (init := ([] : List Byte)) fun (acc : List Byte) (am : Nat × Nat) =>
    match s.translate w .read am.1 with
    | .ok t _ =>
      match s.lineError t with
      | some c => Except.error (c, am.1)
      | none => Except.ok (acc ++ ((lineBytes (s.readHome t)).drop (am.1 % 64)).take am.2)
    | .fault c => Except.error (c, am.1)
    | .copy _ => Except.error (cPPROT, am.1)

/-- The Cribs meet the reads of n bytes by virtual address, walks among them (R219). -/
def State.meetVa (s : State) (w : Who) (va n : Nat) : State :=
  (pieces n va n).foldl (fun s x => match s.translate w .read x.1 with
    | .ok t _ => (s.meetWalk w.kid x.1).meet t
    | _ => s) s

/-- The places of bytes to be written by virtual address, or the cause of the first piece that cannot be. A first write to a CLEAN CKPT page
makes its copy (R260). -/
def State.vaPlaces (s : State) (w : Who) (va : Nat) (bs : List Byte) : Except (Cause × Nat) (State × List LateWrite) :=
  ((pieces bs.length va bs.length).foldlM (init := (s, bs, [])) fun (acc : State × List Byte × List LateWrite) (am : Nat × Nat) =>
    let s := acc.1.meetWalk w.kid am.1
    let (s, bad) : State × Option Cause := match s.translate w .write am.1 with
      | .copy e => (match s.frameError e with
        | some c => (s, some c)
        | none => (s.ckptCopy e, none))
      | _ => (s, none)
    match s.translate w .write am.1 with
    | .ok t _ =>
      match s.lineError t with
      | some c => Except.error (c, am.1)
      | none =>
        let x : LateWrite := ⟨t, byteMask (am.1 % 64) am.2, placeBytes (am.1 % 64) (acc.2.1.take am.2), 0, 0, am.1, false, false⟩
        Except.ok (s, acc.2.1.drop am.2, acc.2.2 ++ [x])
    | .fault c => Except.error (c, am.1)
    | .copy _ => Except.error (bad.getD cPPROT, am.1)).map fun (x : State × List Byte × List LateWrite) => (x.1, x.2.2)

/-- Writes are made at their homes. -/
def State.makeWrites (s : State) (ws : List LateWrite) : State := ws.foldl (fun s x => s.writeHome x.attr x.mask x.data) s

/-- Writes bytes by virtual address at their home; nothing is written unless every piece can be. -/
def State.vaWrite (s : State) (w : Who) (va : Nat) (bs : List Byte) : Except (Cause × Nat) State :=
  (s.vaPlaces w va bs).map fun (x : State × List LateWrite) => x.1.makeWrites x.2

/-- An 8-byte word by virtual address. -/
def State.vaWord (s : State) (w : Who) (va : Nat) : Except (Cause × Nat) Word :=
  (s.vaRead w va 8).map fun bs => BitVec.ofNat 64 (leNat bs)

/-- n 8-byte words by virtual address. -/
def State.vaWords (s : State) (w : Who) (va n : Nat) : Except (Cause × Nat) (List Word) :=
  (s.vaRead w va (8 * n)).map fun bs => (List.range n).map fun i => BitVec.ofNat 64 (leNat ((bs.drop (8 * i)).take 8))

/-- n 8-byte words by physical address (R458). -/
def State.physWords (s : State) (pa n : Nat) : List Word :=
  let bs := s.physRead pa (8 * n)
  (List.range n).map fun i => BitVec.ofNat 64 (leNat ((bs.drop (8 * i)).take 8))

/-- Word i of a list of words, zero beyond its end. -/
def wordAt (ws : List Word) (i : Nat) : Word := ws.getD i 0

/-- The bits hi..lo of a record held as 8-byte words (R6). -/
def recBits (ws : List Word) (hi lo : Nat) : Nat :=
  (leNat (ws.flatMap fun w => leBytes 8 w.toNat)) / 2 ^ lo % 2 ^ (hi + 1 - lo)

end Sys2Proof.Machine
end

