-- ==== Sys2Proof/Machine/Image.lean ====
section
/-! DEFINITION. The image of a saved context (13_context.md R300 to R303): its bytes, the sealed part and the reports. -/

namespace Sys2Proof.Machine

/-- One bit of CRC-32 (R302). -/
def crcBit (c : BitVec 32) : BitVec 32 := if c.getLsbD 0 then (c >>> 1) ^^^ 0xEDB88320#32 else c >>> 1

/-- One byte of CRC-32. -/
def crcByte (c : BitVec 32) (b : Byte) : BitVec 32 :=
  crcBit (crcBit (crcBit (crcBit (crcBit (crcBit (crcBit (crcBit (c ^^^ b.setWidth 32))))))))

/-- CRC-32 of bytes, with the IEEE 802.3 polynomial (R302; log 6). -/
def crc32 (bs : List Byte) : BitVec 32 := ~~~ (bs.foldl crcByte 0xFFFFFFFF#32)

/-- The sealed part of an image: its serial number, then bytes the 9624 does not publish (R301). -/
def sealedBytes (serial : Nat) : List Byte :=
  leBytes 8 serial ++ (List.range 5112).map fun i => Config.sealByte serial i

/-- The header's first eight bytes (R302): MAGIC, report, level, slot, core and LREQ. -/
def imageHead (rpt : Nat) (pl : Bool) (slot : Fin 4) (core : Nat) (lreq : BitVec 4) : Word :=
  BitVec.ofNat 64 (0x43585447 + rpt * 2 ^ 32 + (if pl then 2 ^ 40 else 0) + slot.val * 2 ^ 45 + core % 512 * 2 ^ 47 + lreq.toNat * 2 ^ 56)

/-- The system registers as an image holds them: REGENT equals EPC (R301). -/
def imageSys (r : Regs) (i : Nat) : Word :=
  if h : i < 20 then r.sys[if i = 5 then (2 : Fin 20) else ⟨i, h⟩] else 0

/-- MXCFG as one word: DRM in bits 2..0, DSAT in bit 3 (log 6). -/
def mxcfgWord (r : Regs) : Word := (r.drm.setWidth 64) ||| (if r.dsat then 8#64 else 0#64)

/-- The bank words of an image (R301): OWN, CCUR and DCUR of each bank. -/
def imageBank (c : Core) (j b : Fin 4) : Nat :=
  let x := c.banks[b]
  if x.owner = some j then 2 ^ 31 + x.ccur.toNat * 2 ^ 16 + x.dcur.toNat else 0

/-- The bytes of an image from offset 8 on (R301, R302). -/
def imageTail (c : Core) (j : Fin 4) (r : Regs) (serial : Nat) : List Byte :=
  let sealed := sealedBytes serial
  List.replicate 52 (0 : Byte) ++ leBytes 4 (crc32 sealed).toNat ++
  (List.finRange 63).flatMap (fun i => leBytes 8 (if i.val = 0 then 0 else r.s[i].toNat)) ++ List.replicate 8 (0 : Byte) ++
  (List.range 32).flatMap (fun i => leBytes 8 (imageSys r i).toNat) ++
  (List.finRange 8).flatMap (fun i => leBytes 16 r.k[i].toNat) ++
  leBytes 8 ((List.finRange 16).foldl (fun n i => n + (if i.val == 0 || r.p[i] then 2 ^ i.val else 0)) 0) ++
  leBytes 8 (mxcfgWord r).toNat ++
  (List.finRange 4).flatMap (fun b => leBytes 4 (imageBank c j b)) ++ List.replicate 32 (0 : Byte) ++
  (List.finRange 16).flatMap (fun i => leBytes 128 r.v[i].toNat) ++ sealed

/-- What the sealed part of a context's image holds (R301, R336, R345). -/
def Context.sealed (c : Context) (j : Fin 4) (serial : Nat) : Sealed where
  serial := serial
  ident := c.ident
  slot := j
  loop := c.loop
  mb := c.regs.mb
  mlen := c.regs.mlen
  mstep := c.regs.mstep
  mp := c.regs.mp
  tokens := c.tokens
  windrows := vecMap (fun w => { w with buf := [] }) c.windrows
  rings := c.rings
  arr := c.arr
  cnt := c.cnt
  pos := c.pos
  member := c.member
  atomicErr := c.atomicErr

/-- Writes bytes of an image, whose two pages are translated already; what is dropped there reaches the context whose ctxsave asked (R255, R405,
R411). -/
def State.imageWrite (s : State) (q : SaveRequest) (off : Nat) (bs : List Byte) : State :=
  ((pieces bs.length off bs.length).foldl
    (fun (acc : State × List Byte) (am : Nat × Nat) =>
      let p := if am.1 < 4096 then q.page0 else q.page1
      let t : Trans := { p with addr := p.addr + am.1 % 4096 }
      let s := match acc.1.writeDropped t with
        | some c => acc.1.tell q.asker (acc.1.droppedTrap c 0 1 (q.va + am.1))
        | none => acc.1.writeHome t (byteMask (am.1 % 64) am.2) (placeBytes (am.1 % 64) (acc.2.take am.2))
      (s, acc.2.drop am.2))
    (s, bs)).1

/-- A bank released from its owner, EMPTY (R183, R285, R303). -/
def State.releaseBanks (s : State) (k : Nat) (j : Fin 4) : State :=
  s.modCore k fun c =>
    { c with banks := vecMap (fun b => if b.owner = some j then Bank.reset else b) c.banks,
             mq := c.mq.filter fun m => !(m.slot == j),
             order := c.order.filter fun i => !(i == j),
             calls := c.calls.filter fun m => !(m.cmd.slot == j),
             array := match c.array with
               | some b => if c.banks[b].owner = some j then none else some b
               | none => none,
             clearing := match c.clearing with
               | some x => if c.banks[x.1].owner = some j then none else some x
               | none => none }

/-- Writes the image of a context: all but bytes 0 to 7, then the report with SYS-scope release semantics (R230, R303). -/
def State.saveImage (s : State) (k : Nat) (j : Fin 4) (q : SaveRequest) (rpt : Nat) : State :=
  let c := (s.ctxAt k j).settleAll
  let n := s.serial
  let tail := imageTail (s.core k) j c.regs n
  let s := s.releaseBanks k j
  let s := { s with sealed := c.sealed j n :: s.sealed, serial := n + 1 }
  let s := ((s.landLate k).writeBack k).imageWrite q 8 tail
  s.imageWrite q 0 (leBytes 8 (imageHead rpt c.super j k c.lreq).toNat)

/-- A request that ends without a save: the report CANCELLED (R300). -/
def State.cancelSave (s : State) (k : Nat) (j : Fin 4) : State :=
  match (s.ctxAt k j).save with
  | none => s
  | some q =>
    let s := ((s.landLate k).writeBack k).imageWrite q 0 (leBytes 8 (0x43585447 + 3 * 2 ^ 32))
    let s := if q.home.isNone then s.modCore k fun c => { c with lastSave := match c.lastSave with
      | some l => if l.slot = j then none else some l
      | none => none } else s
    s.modCtx k j fun c => { c with save := none }

/-- The fault area of a slot (R295): PSAVE + 8,192 × (4 × core + slot), by physical address under KID 0. -/
def State.faultArea (s : State) (k : Nat) (j : Fin 4) : SaveRequest :=
  let a := s.config.psave + 8192 * (4 * k + j.val)
  ⟨physTrans a, physTrans (a + 4096), some (0, 0, 0), 0, a⟩

/-- A context is a YOKE member (R406). -/
def Context.onYoke (c : Context) : Bool :=
  match c.member with
  | some m => m.yoke
  | none => false

/-- A slot is freed, its registers as they were (R285); a general yoke whose slots hold no YOKE member any more runs split again (R406). -/
def State.freeSlot (s : State) (k : Nat) (j : Fin 4) : State :=
  let s := s.releaseBanks k j
  let s := s.modCtx k j fun c => { Context.reset j.val with regs := c.regs }
  s.modCore k fun c =>
    { c with running := if c.running = some j then none else c.running,
             locked := c.locked && (isControl k || c.ctx.toList.any fun x => x.state != .free && x.onYoke) }

end Sys2Proof.Machine
end

