-- ==== Sys2Proof/Machine/Thresher.lean ====
section
/-! DEFINITION. What a Thresher does to launch blocks, records and reuse entries (14_kernel.md R305 to R317, 15_queue.md R322 to R333,
19_reuse.md R372 to R380). -/

namespace Sys2Proof.Machine

/-! ## Launch blocks held on chip -/

/-- Finds a held launch block of a field by its run. -/
def findRunIn (run : Nat) : List HeldLb → Option HeldLb
  | [] => none
  | x :: xs => if x.run = run then some x else findRunIn run xs

/-- Finds the launch block of a run. -/
def State.findRun (s : State) (f run : Nat) : Option HeldLb := findRunIn run (s.field f).lbs

/-- Changes the launch block of a run. -/
def State.modRun (s : State) (f run : Nat) (g : HeldLb → HeldLb) : State :=
  s.modField f fun fd => { fd with lbs := fd.lbs.map fun x => if x.run = run then g x else x }

/-- Frees the on-chip slot of a run (R324). -/
def State.dropRun (s : State) (f run : Nat) : State :=
  s.modField f fun fd => { fd with lbs := fd.lbs.filter fun x => !(x.run == run) }

/-- A queue of a field. -/
def State.queue (s : State) (f : Nat) (q : Fin 64) : Queue := tget Queue.reset (s.field f).queues q.val

/-- Changes a queue of a field. -/
def State.modQueue (s : State) (f : Nat) (q : Fin 64) (g : Queue → Queue) : State :=
  s.modField f fun fd => { fd with queues := tput fd.queues q.val (g (tget Queue.reset fd.queues q.val)) }

/-- Fields of a launch block (R305). -/
def lbPro (w : List Word) : Nat := recBits w 55 0
def lbKer (w : List Word) : Nat := recBits w 119 64
def lbEpi (w : List Word) : Nat := recBits w 183 128
def lbParm (w : List Word) : Nat := recBits w 247 192
def lbLplan (w : List Word) : Nat := recBits w 311 256
def lbTrip (w : List Word) : Nat := recBits w 351 320
def lbWidth (w : List Word) : Nat := recBits w 362 352
def lbDomain (w : List Word) : Nat := recBits w 366 364
def lbRank (w : List Word) : Nat := recBits w 370 368
def lbBlend (w : List Word) : Nat := recBits w 375 372
def lbReuse (w : List Word) : Bool := recBits w 376 376 == 1
def lbDup (w : List Word) : Bool := recBits w 377 377 == 1
def lbYoke (w : List Word) : Bool := recBits w 378 378 == 1
def lbGang (w : List Word) : Bool := recBits w 379 379 == 1
def lbNin (w : List Word) : Nat := recBits w 446 444
def lbNout (w : List Word) : Nat := recBits w 509 508
def lbDthsel (w : List Word) : Nat := recBits w 554 552
def lbBlock (w : List Word) : Nat := recBits w 595 576
def lbLayer (w : List Word) : Nat := recBits w 607 596
def lbJoin (w : List Word) : Nat := recBits w 655 640
def lbStateCode (w : List Word) : Nat := recBits w 659 656
def lbQue (w : List Word) : Nat := recBits w 677 672
def lbQf (w : List Word) : Nat := recBits w 679 678
def lbSucc (w : List Word) : Nat := recBits w 759 704
def lbNsuc (w : List Word) : Nat := recBits w 762 760

/-- Input tiles in order (R305). -/
def lbIns (w : List Word) : List (BitVec 20) :=
  ((List.range 6).map fun i => BitVec.ofNat 20 (if i < 3 then recBits w (384 + 20 * i + 19) (384 + 20 * i)
    else recBits w (448 + 20 * (i - 3) + 19) (448 + 20 * (i - 3)))).take (lbNin w)

/-- Output tiles in order (R305). -/
def lbOuts (w : List Word) : List (BitVec 20) :=
  ((List.range 2).map fun i => BitVec.ofNat 20 (recBits w (512 + 20 * i + 19) (512 + 20 * i))).take (lbNout w)

/-- The reuse key, LAYER above BLOCK (R372, R374). -/
def lbKey (w : List Word) : BitVec 32 := BitVec.ofNat 32 (lbLayer w * 2 ^ 20 + lbBlock w)

/-- The reserved bit ranges of a launch block (R305). -/
def lbReserved : List (Nat × Nat) :=
  [(1023, 768), (767, 763), (703, 680), (663, 660), (639, 608), (575, 555), (511, 510), (447, 447), (383, 380), (371, 371), (367, 367),
   (363, 363), (319, 312), (255, 248), (191, 184), (127, 120), (63, 56)]

/-- The largest WIDTH of a DOMAIN, with YOKE or without, over every sheaf of a field (R307, R311). -/
def widthLimit (field domain : Nat) (yoke : Bool) : Nat :=
  match domain with
  | 0 => 4
  | 1 => if yoke then 16 else 32
  | 2 => if field % 2 = 0 then (if yoke then 152 else 304) else if yoke then 156 else 312
  | _ => if yoke then 616 else 1232

/-- A launch block that R307 finds invalid. -/
def lbInvalid (w : List Word) : Bool :=
  lbReserved.any (fun r => recBits w r.1 r.2 != 0) || lbKer w == 0 || lbPro w % 4 != 0 || lbKer w % 4 != 0 || lbEpi w % 4 != 0 ||
  lbParm w % 8 != 0 || lbSucc w % 8 != 0 || lbLplan w % 16 != 0 || lbWidth w == 0 || 4 < lbDomain w ||
  widthLimit (lbQf w) (lbDomain w) (lbYoke w) < lbWidth w || (lbDup w && 2 < lbDomain w) || 4 < lbNsuc w

/-! ## Records -/

/-- The address of a host ring's descriptor (R330). -/
def State.ringDesc (s : State) (h : Nat) : Nat := s.config.hrtab + 64 * h

/-- LOST of a host ring rises by 1 (R332). -/
def State.ringLost (s : State) (h : Nat) : State :=
  let a := s.ringDesc h + 44
  s.physWrite a (leBytes 4 (leNat (s.physRead a 4) + 1))

/-- A record for a host ring waits in the field's buffer of 64; a full buffer drops it (R332). -/
def State.addRecord (s : State) (f : Nat) (ring : Fin 16) (words : List Word) : State :=
  if 64 ≤ (s.field f).records.length then s.ringLost ring.val
  else s.modField f fun fd => { fd with records := fd.records ++ [⟨ring, words⟩] }

/-- FRING of a queue's descriptor (R322). -/
def Queue.fring (q : Queue) : Fin 16 := ⟨recBits q.desc 151 148 % 16, Nat.mod_lt _ (by decide)⟩

/-- Word 0 of a Thresher's record without its phase bit (R331, R333, R459). -/
def recordHead (kind : Nat) (cause : Cause) (f : Nat) (q : Fin 64) (low : Nat) : Word :=
  BitVec.ofNat 64 (kind * 2 ^ 48 + cause.toNat * 2 ^ 40 + f % 4 * 2 ^ 38 + q.val * 2 ^ 32 + low)

/-- A fault record (R333). -/
def faultRecord (cause : Cause) (f : Nat) (q : Fin 64) (addr : Nat) (info : Word) (kid : BitVec 8) : List Word :=
  [recordHead 2 cause f q 0, BitVec.ofNat 64 addr, info, kid.setWidth 64, 0, 0, 0, 0]

/-- A queue record (R333). -/
def queueRecord (cause : Cause) (f : Nat) (q : Fin 64) (ring first : Nat) (kid : BitVec 8) : List Word :=
  [recordHead 3 cause f q 0, BitVec.ofNat 64 ring, BitVec.ofNat 64 first, kid.setWidth 64, 0, 0, 0, 0]

/-- An access record (R459). -/
def accessRecord (cause : Cause) (f : Nat) (q : Fin 64) (access addr lb : Nat) (kid : BitVec 8) : List Word :=
  [recordHead 4 cause f q access, BitVec.ofNat 64 addr, BitVec.ofNat 64 lb, kid.setWidth 64, 0, 0, 0, 0]

/-- The Thresher reports one of its own accesses that failed (R459). -/
def State.reportAccess (s : State) (f : Nat) (q : Fin 64) (cause : Cause) (access addr lb : Nat) (kid : BitVec 8) : State :=
  s.addRecord f (s.queue f q).fring (accessRecord cause f q access addr lb kid)

/-- A write of STATE, and of FCAUSE where one is given, of a launch block; a write that cannot be made is lost and reported (R308). -/
def State.writeLbState (s : State) (f : Nat) (q : Fin 64) (kid : BitVec 8) (addr code : Nat) (fcause : Option Cause) : State :=
  let bs := BitVec.ofNat 8 code :: (match fcause with
    | some c => [c]
    | none => [])
  match s.vaWrite (superWho kid) (addr + 82) bs with
  | .ok s' => s'
  | .error (c, a) => s.reportAccess f q c 3 a addr kid

/-- An OPEN queue with nothing left goes OFF and returns its grant to the growth pool (R326). -/
def State.closeQueue (s : State) (f : Nat) (q : Fin 64) : State :=
  let x := s.queue f q
  let fd := s.field f
  if x.state = .open_ ∧ x.saved = [] ∧ x.ringIn = x.ringOut ∧ fd.lbs.all (fun l => !(l.queue == q)) ∧ fd.arrivals.all (fun a => !(a.queue == q))
  then { s.modQueue f q (fun _ => Queue.reset) with pool := s.pool + x.grant }
  else s

/-! ## Tiles and reuse entries -/

/-- The field that is home to a tile (R372). -/
def tileField (t : BitVec 20) : Nat := t.toNat / 2 ^ 18

/-- WCNT of an entry (R372). -/
def TileEntry.wcnt (e : TileEntry) : BitVec 16 := BitVec.ofNat 16 e.writers.length

/-- A tile's entry. -/
def State.tile (s : State) (t : BitVec 20) : TileEntry := tget TileEntry.reset (s.field (tileField t)).tiles (t.toNat % 2 ^ 18)

/-- Changes a tile's entry; an entry of reset values is not listed. -/
def State.modTile (s : State) (t : BitVec 20) (g : TileEntry → TileEntry) : State :=
  let e := g (s.tile t)
  s.modField (tileField t) fun fd =>
    { fd with tiles := if e = TileEntry.reset then tdel fd.tiles (t.toNat % 2 ^ 18) else tput fd.tiles (t.toNat % 2 ^ 18) e }

/-- The set of a key (R374). -/
def reuseSet (key : BitVec 32) : Nat :=
  ((key.extractLsb' 20 12) ^^^ (key.extractLsb' 0 12) ^^^ ((key.extractLsb' 12 8).setWidth 12)).toNat

/-- A way before its first use: INVALID, its AGE its own number (log 2). -/
def reuseFresh (way : Fin 4) : ReuseEntry := { ReuseEntry.reset with age := BitVec.ofNat 2 way.val }

/-- A way of a set of a field's Stook cache. -/
def State.reuseAt (s : State) (f set : Nat) (way : Fin 4) : ReuseEntry := tget (reuseFresh way) (s.field f).reuse (4 * set + way.val)

/-- Changes a way. -/
def State.modReuse (s : State) (f set : Nat) (way : Fin 4) (g : ReuseEntry → ReuseEntry) : State :=
  s.modField f fun fd => { fd with reuse := tput fd.reuse (4 * set + way.val) (g (s.reuseAt f set way)) }

/-- An entry leaves VALID or PENDING: RV of its outputs is cleared (R375). -/
def State.reuseInvalid (s : State) (f set : Nat) (way : Fin 4) : State :=
  let e := s.reuseAt f set way
  let s := e.outs.foldl (fun s t => s.modTile t fun x => { x with rv := false }) s
  s.modReuse f set way fun _ => { ReuseEntry.reset with age := e.age }

/-- An entry is made the youngest of its set; AGE counts from 0, the youngest (R375). -/
def State.reuseYoungest (s : State) (f set : Nat) (way : Fin 4) : State :=
  let a := (s.reuseAt f set way).age
  let s := (List.finRange 4).foldl (fun s w => if (s.reuseAt f set w).age < a then s.modReuse f set w fun e => { e with age := e.age + 1 } else s) s
  s.modReuse f set way fun e => { e with age := 0 }

/-- A displacement or rgate (R375). -/
def State.reuseDisplace (s : State) (f set : Nat) (way : Fin 4) : State :=
  match (s.reuseAt f set way).state with
  | .valid => s.reuseInvalid f set way
  | .pending => s.modReuse f set way fun e => { e with kill := true }
  | .invalid => s

/-- Ways of every Stook cache that a test selects. -/
def State.reuseWays (s : State) (p : ReuseEntry → Bool) : List (Nat × Nat × Fin 4) :=
  (List.range 4).flatMap fun f =>
    ((s.field f).reuse.filter fun x => p x.2).map fun x => (f, x.1 / 4, ⟨x.1 % 4, Nat.mod_lt _ (by decide)⟩)

/-- Displaces every entry that names a tile as an output and has not the given key (R380). -/
def State.displaceTile (s : State) (t : BitVec 20) (key : Option (BitVec 32)) : State :=
  (s.reuseWays fun e => e.state != .invalid && e.outs.contains t && key != some e.key).foldl
    (fun s x => s.reuseDisplace x.1 x.2.1 x.2.2) s

/-! ## Kernel faults -/

/-- FLT is set in every resident member of a run (R341). -/
def State.setFlt (s : State) (run : Nat) : State :=
  (tkeys s.cores).foldl (fun s k => (List.finRange 4).foldl (fun s j =>
    match (s.ctxAt k j).member with
    | some m => if m.run = run then s.modCtx k j fun c => c.setSys rDOMAIN (c.sysv rDOMAIN ||| 0x40000000000#64) else s
    | none => s) s) s

/-- A kernel fault (R316): members run on with FLT set, the launch block's slot is freed with its outputs' writer counts left raised, its
reuse entry becomes INVALID, FCAUSE and STATE are written and a fault record is posted. -/
def State.kernelFault (s : State) (f run : Nat) (cause : Cause) (info : Word) : State :=
  match s.findRun f run with
  | none => s
  | some lb =>
    let s := (s.dropRun f run).setFlt run
    let s := match lb.entry with
      | some (set, way) => s.reuseInvalid f set way
      | none => s
    let s := s.writeLbState f lb.queue lb.kid lb.addr 9 (some cause)
    (s.addRecord f (s.queue f lb.queue).fring (faultRecord cause f lb.queue lb.addr info lb.kid)).closeQueue f lb.queue

end Sys2Proof.Machine
end

