-- ==== Sys2Proof/Machine/Ops.lean ====
section
/-! DEFINITION. Regions, traps and returns (12_region.md, 13_context.md R289 to R298, 07_tile.md R181), and ordering (10_line.md R230 to
R232), as operations on one context. -/

namespace Sys2Proof.Machine

/-! ## Checkpoints -/

/-- Scalar registers that the bound replay tables name (R155). -/
def LoopStack.namedRegs (l : LoopStack) : List (Fin 63) :=
  l.levels.flatMap fun x => match x.replay with
    | some r => r.entries.map Prod.fst
    | none => []

/-- Predicates of a stage binding: p(pb) to p(pb + n − 1) (R156). -/
def stageRegs (b : Fin 16 × BitVec 3) : List (Fin 16) := (List.finRange 16).filter fun i => b.1.val ≤ i.val && i.val < b.1.val + b.2.toNat

/-- Predicates that the bound stage bindings name. -/
def LoopStack.stagePreds (l : LoopStack) : List (Fin 16) :=
  l.levels.flatMap fun x => match x.stage with
    | some b => stageRegs b
    | none => []

/-- The latest value of a scalar register, on its way or landed. -/
def Context.latestS (c : Context) (r : Fin 63) : Word :=
  c.pend.foldl (fun v w => match w.val with
    | .s n x => if n = r then x else v
    | _ => v) c.regs.s[r]

/-- The latest value of a predicate. -/
def Context.latestP (c : Context) (r : Fin 16) : Bool :=
  c.pend.foldl (fun v w => match w.val with
    | .p n x => if n = r then x else v
    | _ => v) c.regs.p[r]

/-- The checkpoint of R277. -/
def State.checkpoint (s : State) (k : Nat) (j : Fin 4) : Checkpoint :=
  let c := s.ctxAt k j
  { windrows := c.windrows, loop := c.loop,
    named := c.loop.namedRegs.map fun r => (r, c.latestS r),
    stages := c.loop.stagePreds.map fun r => (r, c.latestP r),
    seed := c.latestSys rRNGSEED, sig := c.latestSys rSIGREG, domain := c.latestSys rDOMAIN,
    pos := c.pos, rings := c.rings,
    cursors := vecMap (fun b => (b.dcur, b.ccur)) (s.core k).banks }

/-- A region opens at an address: checkpoint, tracking cleared, REGENT written (R264). -/
def State.openRegion (s : State) (k : Nat) (j : Fin 4) (entry : Word) : State :=
  let ck := s.checkpoint k j
  s.modCtx k j fun c => { c.setSys rREGENT entry with region := { Region.reset with firstId := c.nextId, check := ck } }

/-- Whether a pending write goes to a register that a restore writes. -/
def restores (ck : Checkpoint) (w : PendingWrite) : Bool :=
  match w.val with
  | .sys r _ => r == rRNGSEED || r == rSIGREG || r == rDOMAIN
  | .s r _ => ck.named.any fun x => x.1 == r
  | .p r _ => ck.stages.any fun x => x.1 == r
  | _ => false

/-- Restores the registers that a checkpoint holds; FLT stays as the Thresher set it (R277, R336). DEDUCED: a RAW windrow's fetch width, a merge in
progress and a fault that a merge has recorded are part of its state, and re-entry restores them (R138, R142, R151; log 84). -/
def Checkpoint.apply (ck : Checkpoint) (c : Context) : Context :=
  let r := ck.named.foldl (fun (r : Regs) x => r.land (.s x.1 x.2)) c.regs
  let r := ck.stages.foldl (fun (r : Regs) x => r.land (.p x.1 x.2)) r
  let flt := c.sysv rDOMAIN &&& 0x40000000000#64
  let c := { c with regs := r, pend := c.pend.filter fun w => !restores ck w }
  let c := ((c.setSys rRNGSEED ck.seed).setSys rSIGREG ck.sig).setSys rDOMAIN (ck.domain ||| flt)
  { c with windrows := vecMap (fun w => { w with buf := [] }) ck.windrows,
           loop := ck.loop, pos := ck.pos,
           rings := Vector.ofFn fun i => { ck.rings[i] with eq := c.rings[i].eq } }

/-- Restores a checkpoint (R277). -/
def State.restore (s : State) (k : Nat) (j : Fin 4) (ck : Checkpoint) : State :=
  (s.modCtx k j ck.apply).modCore k fun c =>
    { c with banks := Vector.ofFn fun b =>
        let x := c.banks[b]
        if x.owner = some j then { x with dcur := (ck.cursors[b]).1, ccur := (ck.cursors[b]).2 } else x }

/-- The open region is dropped: its stores, atomic and deferred effects, and every interlocked result of it still to come (R276). A push of a
scratchpad load's data is none, and performs (R140; log 83). -/
def Context.dropRegion (c : Context) : Context :=
  { c with region := { Region.reset with firstId := c.region.firstId, check := c.region.check },
           flights := c.flights.filter fun f => decide (f.id < c.region.firstId) || f.kind == .fixed,
           closing := none, quiet := false, resumed := false, asks := [], signed := none, early := [],
           state := match c.state with
             | .closing => if c.closing = some .faulted then .yielded else .running
             | .stalled => .yielded
             | x => x }

/-- A discard (R276): drop, restore, EPC ← REGENT; a user-level region counts it unless the cause is SYSCALL or BREAK. -/
def State.discard (s : State) (k : Nat) (j : Fin 4) (counts : Bool) : State :=
  let ck := (s.ctxAt k j).region.check
  ((s.modCtx k j Context.dropRegion).restore k j ck).modCtx k j fun c =>
    let c := c.setSys rEPC (c.sysv rREGENT)
    if counts ∧ !c.super then c.setSys rREGCNT (if c.sysv rREGCNT < 255#64 then c.sysv rREGCNT + 1 else 255) else c

/-! ## Ends and traps -/

/-- Everything that accepted regions handed off has left the context, its atomic has returned, and a locked yoke has compared its bundles: an
image waits for it (R303, R407). -/
def Context.handedOff (c : Context) : Bool := c.outbox.isEmpty && c.atomics.isEmpty && c.flights.isEmpty && c.sigs.isEmpty

/-- A context ends FAULTED (R285, R295): a pending save is cancelled, the image is written to the fault area, the kernel faults and the
slot is freed. -/
def State.finishFaulted (s : State) (k : Nat) (j : Fin 4) : State :=
  let c := s.ctxAt k j
  let s := (s.cancelSave k j).saveImage k j (s.faultArea k j) 2
  let s := match c.member with
    | some m => s.kernelFault m.field m.run ((c.sysv rCAUSE).setWidth 8) (c.sysv rTRAPINFO)
    | none => s
  s.freeSlot k j

/-- A context ends FAULTED, at once or when what it handed off has performed. -/
def State.endFaulted (s : State) (k : Nat) (j : Fin 4) : State :=
  if (s.ctxAt k j).handedOff then s.finishFaulted k j
  else (s.modCtx k j fun c => { c with state := .closing, closing := some .faulted }).modCore k fun c =>
    { c with running := if c.running = some j then none else c.running }

/-- The region is entered again at REGENT, without its RM (R265, R279). -/
def State.reenter (s : State) (k : Nat) (j : Fin 4) : State :=
  s.modCtx k j fun c => { c with pc := c.sysv rREGENT, skipRm := true, notBefore := s.now + 1 }

/-- Delivery of a trap to the supervisor, or the end of the context on a double fault (R295). -/
def State.deliver (s : State) (k : Nat) (j : Fin 4) (cause : Cause) (info : Word) : State :=
  let s := s.modCtx k j fun c => (c.setSys rCAUSE (cause.setWidth 64)).setSys rTRAPINFO info
  let c := s.ctxAt k j
  if c.exl ∨ c.sysv rTVEC = 0 then s.endFaulted k j
  else
    (s.modCtx k j fun c =>
      { c.setSys rSTATUS (statusWord j c.bsup true c.super true) with
        pc := c.sysv rTVEC, skipRm := false, running := 0, preHit := false, notBefore := s.now + 1 }).openRegion k j (c.sysv rTVEC)

/-- A trap of a context (R279, R295): the discard, which the Granger's telemetry counts for a yoke (R409), then escalation to REGLIM, re-entry in hardware, or delivery. -/
def State.trapAt (s : State) (k : Nat) (j : Fin 4) (cause : Cause) (info : Word) (hardware : Bool) : State :=
  let counts := cause ≠ cSYSCALL ∧ cause ≠ cBREAK
  let s := if cause = cYOKEMIS then s.grangerLog 6 (BitVec.ofNat 64 (k / 2)) else s
  let s := s.modCtx k j fun c => c.settle (s.now + 1)
  let user := !(s.ctxAt k j).super
  let s := s.discard k j counts
  let c := s.ctxAt k j
  if user ∧ counts ∧ c.sysv rREGLIM < c.sysv rREGCNT then
    s.deliver k j cREGLIM ((cause.setWidth 64 <<< 56) ||| (info &&& 0x00FFFFFFFFFFFFFF#64))
  else if hardware then s.reenter k j
  else s.deliver k j cause info

/-- Whether a deferred effect is a command for the matrix queue. -/
def Effect.isMatrix : Effect → Bool
  | .mcall _ _ _ => true
  | .mzero _ => true
  | .clear _ => true
  | _ => false

/-- Whether an item handed off is a command for the matrix queue. -/
def Handed.isMatrix : Handed → Bool
  | .effect e => e.isMatrix
  | _ => false

/-- MXMIS (R181, R278, R282): the open region is discarded, and a rewindable span goes back to the last quiet boundary, REGCNT unchanged, with the
calls that it has committed dropped and in the section that ran there; any other span ends the context. -/
def State.mxmis (s : State) (k : Nat) (j : Fin 4) (info : Word) : State :=
  let s := s.modCtx k j fun c => c.settle (s.now + 1)
  let c := s.ctxAt k j
  if c.span.rewindable then
    let held := ((List.finRange 4).flatMap fun b => if (s.core k).banks[b].owner = some j then (s.core k).banks[b].held else []) ++
      ((s.core k).calls.flatMap fun m => if m.cmd.slot = j then m.curA.toList ++ m.curB.toList else [])
    let s := s.discard k j false
    let s := s.modCore k fun x =>
      { x with banks := vecMap (fun b => if b.owner = some j then { Bank.reset with owner := some j } else b) x.banks,
               mq := x.mq.filter fun m => !(m.slot == j), calls := x.calls.filter fun m => !(m.cmd.slot == j),
               order := x.order.filter fun i => !(i == j),
               array := match x.array with
                 | some b => if x.banks[b].owner = some j then none else some b
                 | none => none }
    let s := s.modCtx k j fun c => { c with outbox := c.outbox.filter fun h => !h.isMatrix }
    let s := s.restore k j c.span.check
    let back := fun (c : Context) (h : HeldSlot) =>
      let e := (s.ctxAt k j).rings[h.rb].eq
      if e - c.rings[h.rb].eq < e - h.q then { c with rings := c.rings.set h.rb { c.rings[h.rb] with eq := h.q } } else c
    (s.modCtx k j fun c =>
      let c := held.foldl back c
      { c.setSys rREGENT c.span.addr with
        pc := c.span.addr, skipRm := true, notBefore := s.now + 1,
        member := c.member.map fun m => { m with sect := c.span.sect, iter := c.span.iter },
        span := { c.span with rewindable := false, rd := [], wr := [] } }).openRegion k j c.span.addr
  else
    ((s.discard k j true).modCtx k j fun c => (c.setSys rCAUSE (cMXMIS.setWidth 64)).setSys rTRAPINFO info).endFaulted k j

/-- The slot that runs raises a trap (R276, R294, R295); UCE by the region's own access and YOKEMIS are handled in hardware (R278). -/
def State.takeTrap (s : State) (cause : Cause) (info : Word) : State :=
  if cause = cMXMIS then s.mxmis s.issue.core s.issue.slot info
  else s.trapAt s.issue.core s.issue.slot cause info (cause = cUCE ∨ cause = cYOKEMIS)

/-- The outcome of a slot that raises a trap. -/
def State.raise (s : State) (cause : Cause) (info : Word) : State :=
  let t := s.takeTrap cause info
  { t with issue := { t.issue with outcome := .trap, trapped := some ⟨cause, info⟩ } }

/-- A trap whose TRAPINFO has the layout of R47. -/
def State.raise47 (s : State) (cause : Cause) : State := s.raise cause s.slotInfo

/-- ILLOP of a slot at issue. -/
def State.illop (s : State) : State := s.raise47 cILLOP

/-- The return of rfe, after its region's commit (R296). -/
def State.trapReturn (s : State) (k : Nat) (j : Fin 4) : State :=
  let s := s.modCtx k j fun c => c.settle (s.now + 1)
  let c := s.ctxAt k j
  (s.modCtx k j fun c =>
    { c.setSys rSTATUS (statusWord j c.bsup false c.ppl c.ppl) with
      pc := c.sysv rEPC, skipRm := true, state := .running, closing := none, notBefore := s.now + 3 }).openRegion k j (c.sysv rEPC)

/-! ## Ordering -/

/-- The rank of a scope: each contains the narrower ones (R223). -/
def scopeRank : Scope → Nat
  | .ctx => 0
  | .core => 1
  | .sheaf => 2
  | .field => 3
  | .pkg => 4
  | .host => 5
  | .sys => 6

/-- The scope that DOMAIN.LEVEL selects (R336). -/
def levelScope (level : BitVec 3) : Scope :=
  match level.toNat with
  | 0 => .core
  | 1 => .sheaf
  | 2 => .field
  | 3 => .pkg
  | _ => .sys

/-- Read windrows lose their buffers (R139, R231). -/
def Context.emptyBuffers (c : Context) : Context :=
  { c with windrows := vecMap (fun w => if w.desc.dir then w else { w with buf := [] }) c.windrows }

/-- An acquire (R231): windrow buffers are emptied; from SHEAF scope on, what the sheaf's L1s hold dirty counts among the core's own stores; at FIELD
scope and wider what the core has stored or read goes to its home, so that two readers agree (R229), the L1 is written back and dropped, and at SYS
the package's copies of other packages' lines are (R243). -/
def State.acquire (s : State) (k : Nat) (j : Fin 4) (scope : Scope) : State :=
  let s := s.modCtx k j Context.emptyBuffers
  let s := if scopeRank scope < 3 then s else s.writeBack k
  let s := if scopeRank scope < 2 then s else s.oweLines k
  let s := if scope = .sys then s.dropRemote else s
  if scopeRank scope < 3 then s else s.dropL1 k

/-- A release (R230): writes of the engine commands waited on land, and at FIELD scope and wider dirty lines are written back. -/
def State.release (s : State) (k : Nat) (scope : Scope) : State := if scopeRank scope < 3 then s.landWaited k else (s.landWaited k).writeBack k

/-- Memory accesses of a context that have left it and have not performed: stores, releases and an atomic of accepted regions, and pushes
whose data is to come (R230). -/
def Context.unperformed (c : Context) : Bool :=
  (c.outbox.any fun x => match x with
    | .store _ => true
    | .release _ => true
    | .atomic _ => true
    | .effect _ => false) ||
  c.flights.any fun f => f.push.isSome

/-- Every access that has left a context has completed (R235). -/
def Context.drained (c : Context) : Bool :=
  !c.unperformed && c.atomics.isEmpty && (c.flights.all fun f => f.kind != .load) && c.outbox.all fun x => match x with
    | .effect (.engine _) => false
    | _ => true

/-! ## Commit (R273, R274) -/

/-- The token a deferred effect names. -/
def Effect.token : Effect → Option (Fin 64)
  | .engine c => some c.tok
  | .guest g => some g.tok
  | _ => none

/-- The step of R274 in which a deferred effect takes effect. -/
def Effect.step : Effect → Nat
  | .publish _ _ _ _ _ => 3
  | .release _ _ _ _ => 3
  | .mask _ _ _ _ => 4
  | .init _ _ _ => 4
  | .engine _ => 5
  | .guest _ => 5
  | .mcall _ _ _ => 5
  | .mzero _ => 5
  | .clear _ => 5
  | .tmark _ _ _ => 6
  | .rrec _ _ => 6

/-- The bank a command is for. -/
def Effect.bank : Effect → Option (Fin 4)
  | .mcall b _ _ => some b
  | .mzero b => some b
  | .clear b => some b
  | _ => none

/-- The deferred effect of an item handed off. -/
def Handed.effect? : Handed → Option Effect
  | .effect e => some e
  | _ => none

/-- Matrix commands of a core that have been accepted and are not yet in its queue. -/
def Core.comingCommands (c : Core) : Nat :=
  (c.ctx.toList.map fun x => (x.outbox.filter Handed.isMatrix).length).sum

/-- The conditions of R273 for a committing bundle, its interlocks and STALL apart. -/
def State.acceptReady (s : State) (k : Nat) (j : Fin 4) : Bool :=
  let c := s.ctxAt k j
  let core := s.core k
  c.windrows.toList.all (fun w => w.state != .busy) &&
  (c.region.deferred.all fun e => match e.token with
    | some t => c.tokens[t].state != .pending
    | none => true) &&
  core.mq.length + core.comingCommands + (c.region.deferred.filter Effect.isMatrix).length ≤ 16 &&
  (c.flights.all fun f => decide (f.id < c.region.firstId) || f.kind == .fixed)

/-- A token becomes PENDING as its command commits (R238). -/
def Context.setPending (c : Context) (e : Effect) : Context :=
  match e with
  | .engine x => { c with tokens := c.tokens.set x.tok ⟨.pending, x.kind, x.a, x.scope⟩ }
  | .guest g => { c with tokens := c.tokens.set g.tok ⟨.pending, .guest g.q, false, .ctx⟩ }
  | _ => c

/-- What a region hands off, in the order of R274. -/
def Region.handed (r : Region) : List Handed :=
  (r.buffer.flatMap fun e => e.before.map Handed.release ++ [Handed.store e]) ++ r.fences.map Handed.release ++
  (match r.atomic with
   | some a => [Handed.atomic a]
   | none => []) ++
  ([3, 4, 5, 6].flatMap fun n => (r.deferred.filter fun e => e.step == n).map Handed.effect)

/-- An engine command takes its place in the order of commits (R397, R398). -/
def Effect.number (e : Effect) (n : Nat) : Effect :=
  match e with
  | .engine c => .engine { c with order := n }
  | e => e

/-- Effects numbered one after another. -/
def numberFrom : Nat → List Effect → List Effect
  | _, [] => []
  | n, e :: es => e.number n :: numberFrom (n + 1) es

/-- Acceptance (R264, R273, R274): the region is handed off. The next region is opened by the caller. -/
def State.accept (s : State) (k : Nat) (j : Fin 4) : State :=
  let n := ((s.ctxAt k j).region.deferred.filter Effect.isMatrix).length
  let s := if n = 0 then s else s.modCore k fun x => { x with order := x.order ++ List.replicate n j }
  let m := (s.ctxAt k j).region.deferred.length
  State.modCtx { s with serial := s.serial + m } k j fun c =>
    let r := { c.region with deferred := numberFrom s.serial c.region.deferred }
    let c := r.deferred.foldl Context.setPending c
    let quietEffects := r.deferred.all fun e => match e with
      | .mcall _ _ _ => true
      | _ => false
    let c := if c.super then c else c.setSys rREGCNT 0
    { c with outbox := c.outbox ++ r.handed,
             atomics := match r.atomic with
               | some a => c.atomics ++ [(a.d, none)]
               | none => c.atomics,
             span := { c.span with rewindable := c.span.rewindable && quietEffects },
             redrop := none,
             region := { Region.reset with firstId := c.nextId, check := r.check } }

/-! ## Dropped translations (R251) -/

/-- Whether a store of an entry was made under a dropped entry. -/
def StoreEntry.under (e : StoreEntry) (hit : BitVec 8 → Nat → Bool) : Bool := hit e.vkid e.vpage || e.also.any fun x => hit x.2 x.1

/-- Whether a context's open region holds a store or atomic under a dropped entry. -/
def Context.holdsPage (c : Context) (hit : BitVec 8 → Nat → Bool) : Bool :=
  c.region.buffer.any (fun e => e.under hit) ||
  (match c.region.atomic with
   | some a => hit a.vkid a.vpage
   | none => false)

/-- Discards and re-enters every region that holds a store or atomic under a dropped translation, a page of a KID, and empties the read
windrows that hold such data (R251). -/
def State.dropRegions (s : State) (hit : BitVec 8 → Nat → Bool) : State :=
  (tkeys s.cores).foldl (fun s k => (List.finRange 4).foldl (fun s j =>
    let c := s.ctxAt k j
    if c.state = .free then s
    else
      let s := s.modCtx k j fun c => c.emptyPages hit
      if c.holdsPage hit then s.trapAt k j 0 0 true else s) s) s

/-- A chunk of an engine command under a dropped entry is in motion (R250, R262). -/
def State.chunkUnder (s : State) (hit : BitVec 8 → Nat → Bool) : Bool :=
  s.fields.any fun f => f.2.engines.any fun r => match r.part with
    | some x => x.pages.any (hit x.kid)
    | none => false

/-- A store or atomic under a dropped entry that has left its context, or a push under its KID, has not performed. -/
def Context.comingUnder (c : Context) (kid : BitVec 8) (hit : BitVec 8 → Nat → Bool) : Bool :=
  (c.outbox.any fun x => match x with
    | .store e => e.under hit
    | .atomic a => hit a.vkid a.vpage
    | _ => false) ||
  (c.kid == kid && c.flights.any fun f => f.push.isSome)

/-- Accesses under a dropped entry are still to perform: the drop waits for them (R250). -/
def State.comingUnder (s : State) (kid : BitVec 8) (hit : BitVec 8 → Nat → Bool) : Bool :=
  (tkeys s.cores).any fun k => (s.core k).ctx.toList.any fun c => c.comingUnder kid hit

/-- The guest has acknowledged every translation taken back from it, or is in quarantine (R250, R401, R405). -/
def State.guestAcked (s : State) : Bool := s.guest.invs.isEmpty || s.guest.breach.isSome

/-- All that a drop waits for has happened: accesses under it, chunks in motion, and the guest's acknowledgement (R250). -/
def State.dropDone (s : State) (kid : BitVec 8) (hit : BitVec 8 → Nat → Bool) : Bool :=
  !s.comingUnder kid hit && !s.chunkUnder hit && s.guestAcked

/-- What the cores and their engine commands have written performs at PKG scope (R250). -/
def State.performAll (s : State) : State := (tkeys s.cores).foldl (fun s k => (s.landLate k).writeBack k) s

/-- A hardware update drops a page's translations: regions first (R251, R258). -/
def State.dropPage (s : State) (e : TlbEntry) : State := (s.dropRegions e.covers).dropGuest e.covers

end Sys2Proof.Machine
end

