-- ==== Sys2Proof/Machine/Access.lean ====
section
/-! DEFINITION. A context's own accesses to memory: translation, reads under the store buffer, buffered stores and pushes (06_windrow.md
R139, R140, R143, R144, 09_storage.md R206 to R210, 12_region.md R271, R272). -/

namespace Sys2Proof.Machine

/-- The step that a target asks for: the largest LREQ of the resident contexts (R207). -/
def Core.target (c : Core) : Nat := min 14 (c.ctx.toList.foldl (fun n x => if x.state = .free then n else max n x.lreq.toNat) 0)

/-- How an access to window bytes of a step is decided (R210). -/
inductive StepAccess where
  | go | wait | refuse
  deriving DecidableEq, Repr, Inhabited

/-- R210. -/
def Core.stepAccess (c : Core) (step : Nat) : StepAccess :=
  let moving := match c.move with
    | some m => m.step == step
    | none => false
  if moving then .wait
  else if step < c.scr then .go
  else if step < c.target then .wait
  else .refuse

/-- Where one byte of an access lies, a trap, or a wait (R33). -/
inductive Located where
  | ok (t : Trans)
  | trap (v : TrapVal)
  | wait
  deriving DecidableEq, Repr

/-- TRAPINFO of a cause met on a context's own access: R249; GUEST gives the breach code (R405); POISON of a lost line gives the address
(R411). -/
def State.accessInfo (s : State) (c : Cause) (win kind va : Nat) (lost : Bool) : Word :=
  if c = cGUEST then (match s.guest.breach with
    | some b => b.setWidth 64
    | none => 0)
  else if c = cPOISON ∧ lost then BitVec.ofNat 64 (va % 2 ^ 56)
  else info249 win kind va

/-- Adds a page to the write set of a DUP launch (R259): page and entry; none when the set is full. -/
def State.noteShadow (s : State) (m : Member) (page entry : Nat) : Option State :=
  match s.findRun m.field m.run with
  | none => some s
  | some lb =>
    if lb.writeSet.any fun x => x.1 == page then some s
    else if 4096 ≤ lb.writeSet.length then none
    else some (s.modRun m.field m.run fun l => { l with writeSet := l.writeSet ++ [(page, entry)] })

/-- Translates an address for a data access of a context of a core (R206, R210, R244 to R249, R259, R260). -/
def State.locateFor (s : State) (k : Nat) (j : Fin 4) (acc : Access) (va win kind : Nat) : Located × State :=
  if loftBase ≤ va ∧ va < 2 ^ 56 then
    match (s.core k).stepAccess ((va - loftBase) / 0x40000) with
    | .go => (.ok ⟨.loft k, va - loftBase, 0, false, false, false, false, 0⟩, s)
    | .wait => (.wait, s)
    | .refuse => (.trap ⟨cPPROT, info249 win kind va⟩, s)
  else
    let c := s.ctxAt k j
    match s.translateData k c.who acc va with
    | (.fault x, s) => (.trap ⟨x, s.accessInfo x win kind va false⟩, s)
    | (.copy e, s) =>
      match s.frameError e with
      | some x => (.trap ⟨x, s.accessInfo x win kind va false⟩, s)
      | none =>
      let q := (e.kid, e.base / 4096)
      (.wait, s.modCore k fun x => if x.copies.contains q then x else { x with copies := x.copies ++ [q] })
    | (.ok t e, s) =>
      match c.member with
      | some m =>
        if m.dup ∧ acc = .write ∧ ptePr e.leaf = 1 then
          match s.noteShadow m (e.base / 4096) e.entry with
          | some s => (.ok t, s)
          | none => (.trap ⟨cDUPMIS, BitVec.ofNat 64 e.base⟩, s)
        else (.ok t, s)
      | none => (.ok t, s)

/-- Translates an address for the context that issues. -/
def State.locate (s : State) (acc : Access) (va win kind : Nat) : Located × State := s.locateFor s.issue.core s.issue.slot acc va win kind

/-- The bytes of store entries over a line, latest last (R271). -/
def overlayStores (es : List StoreEntry) (t : Trans) (x : Line) : Line :=
  es.foldl (fun x e => if sameLine e.target t then mergeLine x e.data e.mask else x) x

/-- Stores of accepted regions that have not performed. -/
def Context.outStores (c : Context) : List StoreEntry :=
  c.outbox.filterMap fun h => match h with
    | .store e => some e
    | _ => none

/-- Two places name the same byte. -/
def samePlace (a b : Trans) : Bool := a.place == b.place && a.addr == b.addr && a.kid == b.kid

/-- Whether a push whose data is to come, by a result with a lower number, writes one of m bytes from a place (R140). -/
def Context.pushCovers (c : Context) (before : Nat) (t : Trans) (m : Nat) : Bool :=
  c.flights.any fun f => decide (f.id < before) && match f.push with
    | some p => p.places.any fun q => q.place == t.place && q.kid == t.kid && decide (t.addr ≤ q.addr ∧ q.addr < t.addr + m)
    | none => false

/-- Whether an atomic of an accepted region has not returned: no later access performs before it has (R240). -/
def Context.atomicOut (c : Context) : Bool := !c.atomics.isEmpty

/-- A read of another package's line that the core's L1 does not hold waits while the route accepts no packet (R389, R391). -/
def State.linkWaits (s : State) (k : Nat) (t : Trans) : Bool :=
  t.pkg != ownPackage && !s.routeUp t.pkg 3 && (findLine t.line t.kid (s.core k).l1).isNone

/-- An access that is not cached arrives after the stores of its core to the same line that have left their contexts: it waits until they have
performed (R228). -/
def State.behindStore (s : State) (k : Nat) (t : Trans) : Bool :=
  t.place == .phys && (match s.paKind t.addr with
    | .hbm _ => false
    | _ => true) && (s.core k).ctx.toList.any fun c => c.outStores.any fun e => sameLine e.target t

/-- The granules that a run picks of each line. -/
def State.pickGranules (s : State) (line : Nat) : BitVec 8 := Config.granules (s.draws + line)

/-- A line as the loads of a bundle see it, of which some granules were read early (R227). -/
def State.mixEarly (s : State) (t : Trans) (x : Line) : Line :=
  match s.cur.early.find? fun y => sameLine y.1 t with
  | some y => mergeLine x y.2 (granuleMask (s.pickGranules t.line))
  | none => x

/-- What a read gives. -/
inductive ReadResult where
  | ok (bs : List Byte) (loft : Bool)
  | trap (v : TrapVal)
  | wait
  deriving DecidableEq, Repr

/-- Reads runs of addresses for a context, under stores that it overlays; `loft` tells whether every byte lies in the scratchpad. -/
def State.readRunsFor (k : Nat) (j : Fin 4) (win kind : Nat) (own : Bool) : List (Nat × Nat) → List Byte → Bool → State → ReadResult × State
  | [], acc, loft, s => (.ok acc loft, s)
  | (a, m) :: rest, acc, loft, s =>
    match s.locateFor k j .read a win kind with
    | (.trap v, s) => (.trap v, s)
    | (.wait, s) => (.wait, s)
    | (.ok t, s) =>
      let c := s.ctxAt k j
      if c.pushCovers (if own then s.issue.firstId else c.nextId) t m ∨ (own ∧ c.atomicOut) ∨ s.linkWaits k t ∨ s.behindStore k t then (.wait, s)
      else
        match s.lineError t with
        | some x => (.trap ⟨x, s.accessInfo x win kind a (s.isLost t)⟩, s)
        | none =>
          let (x, s) := s.readLine k t
          let x := overlayStores c.outStores t (if own then s.mixEarly t x else x)
          let x := if own then overlayStores s.issue.loads t x else x
          let isLoft := match t.place with
            | .loft _ => true
            | .phys => false
          State.readRunsFor k j win kind own rest (acc ++ ((lineBytes x).drop (a % 64)).take m) (loft && isLoft) s

/-- Reads n bytes from an address for the context that issues, under the stores that its region buffered before this bundle (R25, R271). -/
def State.readVa (s : State) (va n kind : Nat) : ReadResult × State :=
  State.readRunsFor s.issue.core s.issue.slot 0 kind true (pieces n va n) [] true s

/-- The 8-byte words of bytes. -/
def wordsOf (bs : List Byte) : List Word := (List.range (bs.length / 8)).map fun i => BitVec.ofNat 64 (leNat ((bs.drop (8 * i)).take 8))

/-! ## Stores -/

/-- The line-sized parts of a store: address, mask and bytes of each line touched. -/
def lineParts (va : Nat) (bs : List Byte) (keep : Nat → Bool) : List (Nat × BitVec 64 × Line) :=
  (pieces bs.length va bs.length).map fun (a, m) =>
    let i := a - va
    let mask := (List.range m).foldl (fun (x : BitVec 64) b => if keep (i + b) then x ||| (1#64 <<< (a % 64 + b)) else x) 0
    (a, mask, placeBytes (a % 64) ((bs.drop i).take m))

/-- A later store's bytes merge into an entry, which remembers its virtual page and the pushes before it (R140, R251, R271). -/
def StoreEntry.merge (e : StoreEntry) (mask : BitVec 64) (data : Line) (page : Nat × BitVec 8) (after : Nat) : StoreEntry :=
  { e with mask := e.mask ||| mask, data := mergeLine e.data data mask, after := max e.after after,
           also := if page = (e.vpage, e.vkid) ∨ e.also.contains page then e.also else e.also ++ [page] }

/-- Merges bytes into the latest entry of a region for a line, unless that entry takes no more (R271). -/
def mergeStore (t : Trans) (mask : BitVec 64) (data : Line) (page : Nat × BitVec 8) (after : Nat) : List StoreEntry → Option (List StoreEntry)
  | [] => none
  | e :: es =>
    if es.any fun x => sameLine x.target t then (mergeStore t mask data page after es).map fun es => e :: es
    else if sameLine e.target t && !e.sealed then some (e.merge mask data page after :: es)
    else none

/-- How a store ends at issue. -/
inductive StoreResult where
  | ok
  | trap (v : TrapVal)
  | wait
  deriving DecidableEq, Repr

/-- Stores line parts into the region's buffer; `strl` gives a store-release its own entry (R237, R271, R272). -/
def State.storeParts (strl : Option Scope) : List (Nat × BitVec 64 × Line) → State → StoreResult × State
  | [], s => (.ok, s)
  | (a, mask, data) :: rest, s =>
    match s.locate .write a 0 1 with
    | (.trap v, s) => (.trap v, s)
    | (.wait, s) => (.wait, s)
    | (.ok t, s) =>
      if s.isLost t then (.trap ⟨cPOISON, s.accessInfo cPOISON 0 1 a true⟩, s)
      else
        let c := s.cur
        let merged := if strl.isSome then none else mergeStore t mask data (a / 4096, c.kid) c.nextId c.region.buffer
        match merged with
        | some es => State.storeParts strl rest (s.modCur fun c => { c with region := { c.region with buffer := es } })
        | none =>
          if 32 ≤ c.region.buffer.length then (.trap ⟨cREGOVF, info47 0 s.issue.addr⟩, s)
          else if 32 ≤ c.region.buffer.length + c.outStores.length then (.wait, s)
          else
            let e : StoreEntry := ⟨{ t with addr := t.addr / 64 * 64 }, a / 4096, c.kid, mask, data, strl.isSome, c.region.fences, strl, c.super, c.nextId, []⟩
            let old := if strl.isSome then c.region.buffer.map fun x => { x with sealed := true } else c.region.buffer
            State.storeParts strl rest (s.modCur fun c => { c with region := { c.region with buffer := old ++ [e], fences := [] } })

/-- A store of bytes at an address, a mask choosing the bytes that are written (R143, R271). A store that does not complete leaves the
buffer as it was. -/
def State.storeVa (s : State) (va : Nat) (bs : List Byte) (keep : Nat → Bool) (strl : Option Scope) : StoreResult × State :=
  match State.storeParts strl (lineParts va bs keep) s with
  | (.ok, s') => (.ok, s')
  | (r, s') => (r, s'.modCur fun c => { c with region := s.cur.region })

/-- A release fence of the region divides its store buffer (R234). -/
def Region.fence (r : Region) (scope : Scope) : Region :=
  { r with buffer := r.buffer.map (fun e => { e with sealed := true }), fences := r.fences ++ [scope] }

/-! ## Pushes -/

/-- Checks and translates the runs of a push (R140): one place for each byte. -/
def State.pushPlaces (win : Nat) : List (Nat × Nat) → List Trans → State → StoreResult × List Trans × State
  | [], acc, s => (.ok, acc, s)
  | (a, m) :: rest, acc, s =>
    match s.locate .write a win 4 with
    | (.trap v, s) => (.trap v, [], s)
    | (.wait, s) => (.wait, [], s)
    | (.ok t, s) =>
      let loftOut : Bool := match t.place with
        | .loft _ => s.cur.outStores.any fun e => match e.target.place with
          | .loft _ => true
          | .phys => false
        | .phys => false
      if s.isLost t then (.trap ⟨cPOISON, s.accessInfo cPOISON win 4 a true⟩, [], s)
      else if loftOut ∨ s.cur.pushCovers s.issue.firstId t m ∨ s.cur.atomicOut ∨ s.behindStore s.issue.core t then (.wait, [], s)
      else State.pushPlaces win rest (acc ++ (List.range m).map fun i => { t with addr := t.addr + i }) s

/-- Splits a list of addresses at line boundaries as runs. -/
def lineRuns (as : List Nat) : List (Nat × Nat) := (runsOf as).flatMap fun (a, n) => pieces n a n

/-- The virtual address of a store's first byte. -/
def StoreEntry.va (e : StoreEntry) : Nat :=
  e.vpage * 4096 + e.target.addr % 4096 / 64 * 64 + ((List.range 64).find? fun i => e.mask.getLsbD i).getD 0

/-- A store waits for the pushes issued before it to one of its bytes, or, in the Loft, to any (R25, R140). -/
def StoreEntry.behindPush (e : StoreEntry) (c : Context) : Bool :=
  c.flights.any fun f => decide (f.id < e.after) && match f.push with
    | some p => p.places.any fun q => q.place == e.target.place && (q.place != .phys || sameLine q e.target && e.mask.getLsbD (q.addr % 64))
    | none => false

/-- The trap of a store that is dropped where it arrives (R249, R255, R411). -/
def State.storeTrap (s : State) (e : StoreEntry) (c : Cause) : TrapVal := s.droppedTrap c 0 1 e.va

/-- A push's bytes for which a test of the place holds. -/
def HeldPush.part (p : HeldPush) (test : Trans → Bool) : HeldPush :=
  let xs := (p.places.zip (p.bytes.zip p.vas)).filter fun x => test x.1
  { p with places := xs.map Prod.fst, bytes := xs.map fun x => x.2.1, vas := xs.map fun x => x.2.2 }

/-- Whether a byte of a push is of a granule that performs now: the granules picked of its line; bytes of the scratchpad perform at once (R227). -/
def takesNow (pick : Nat → BitVec 8) (t : Trans) : Bool := t.place != .phys || (pick t.line).getLsbD (t.addr % 64 / 8)

/-- What performs of a push, and what is left of it: all of it where no granule is picked (R140, R227). -/
def HeldPush.split (p : HeldPush) (pick : Nat → BitVec 8) : HeldPush × HeldPush :=
  if p.places.any (takesNow pick) then (p.part (takesNow pick), p.part fun t => !takesNow pick t) else (p, p.part fun _ => false)

/-- Writes bytes at their places. -/
def State.writePlaces (s : State) (k : Nat) (ps : List Trans) (bs : List Byte) : State :=
  (ps.zip bs).foldl (fun s x => s.writeLine k x.1 (byteMask (x.1.addr % 64) 1) (placeBytes (x.1.addr % 64) [x.2])) s

/-- A push's bytes perform (R140); its context is told of one that is dropped where it arrives (R255, R411). -/
def State.performPush (s : State) (k ident : Nat) (p : HeldPush) : State :=
  let s := match (p.places.zip p.vas).findSome? fun x => (s.writeDropped x.1).map fun c => (c, x.2) with
    | some (c, va) => s.tell ident (s.droppedTrap c p.win.val 4 va)
    | none => s
  s.writePlaces k p.places p.bytes

end Sys2Proof.Machine
end

