-- ==== Sys2Proof/Machine/Float.lean ====
section
/-! DEFINITION. Exact arithmetic on the floating-point formats and its rounding (03_numbers.md R57 to R82). -/

namespace Sys2Proof.Machine

/-- A binary format (R57, R61): fraction bits, exponent bits; E4M3 has no infinities. -/
structure Fmt where
  fbits : Nat
  ebits : Nat
  e4m3  : Bool
  deriving DecidableEq, Repr, Inhabited

def fp32 : Fmt := ⟨23, 8, false⟩
def bf16 : Fmt := ⟨7, 8, false⟩
def e5m2 : Fmt := ⟨2, 5, false⟩
def e4m3 : Fmt := ⟨3, 4, true⟩
def acc80 : Fmt := ⟨64, 15, false⟩

/-- The bias. -/
def Fmt.bias (f : Fmt) : Nat := 2 ^ (f.ebits - 1) - 1

/-- The exponent of the unit of a subnormal. -/
def Fmt.unit (f : Fmt) : Int := 1 - Int.ofNat f.bias - Int.ofNat f.fbits

/-- The encoding of +infinity. -/
def Fmt.inf (f : Fmt) : Nat := (2 ^ f.ebits - 1) * 2 ^ f.fbits

/-- The encoding of the largest finite magnitude (R57). -/
def Fmt.maxFinite (f : Fmt) : Nat := if f.e4m3 then 0x7E else f.inf - 1

/-- The sign bit. -/
def Fmt.sign (f : Fmt) : Nat := 2 ^ (f.ebits + f.fbits)

/-- The canonical NaN, with sign 0 (R57, R58, R61). -/
def Fmt.nan (f : Fmt) : Nat := if f.e4m3 then 0x7F else f.inf + 2 ^ (f.fbits - 1)

/-- A value: a NaN (signalling or not), an infinity, or (−1)^neg × m × 2^e. -/
inductive FVal where
  | nan (signalling : Bool)
  | inf (neg : Bool)
  | fin (neg : Bool) (m : Nat) (e : Int)
  deriving DecidableEq, Repr, Inhabited

/-- The value of an encoding (R57, R60). -/
def Fmt.unpack (f : Fmt) (x : Nat) : FVal :=
  let neg := x / f.sign % 2 == 1
  let ex := x / 2 ^ f.fbits % 2 ^ f.ebits
  let fr := x % 2 ^ f.fbits
  if f.e4m3 ∧ ex = 15 ∧ fr = 7 then .nan false
  else if !f.e4m3 ∧ ex = 2 ^ f.ebits - 1 then
    if fr = 0 then .inf neg else .nan (fr < 2 ^ (f.fbits - 1))
  else if ex = 0 then .fin neg fr f.unit
  else .fin neg (fr + 2 ^ f.fbits) (f.unit + Int.ofNat (ex - 1))

/-- Rounding modes (R69). -/
inductive RMode where
  | rne | rtz | rup | rdn | rna
  /-- Stochastic, with its 16-bit word (R73). -/
  | sr (rnd : BitVec 16)
  deriving DecidableEq, Repr, Inhabited

/-- The mode of an RM code where SR counts as RNE (R69, R70). -/
def rmode (rm : Nat) : RMode :=
  match rm with
  | 1 => .rtz
  | 2 => .rup
  | 3 => .rdn
  | 4 => .rna
  | _ => .rne

/-- Flags (R76). -/
def fNX : BitVec 5 := 1
def fUF : BitVec 5 := 2
def fOF : BitVec 5 := 4
def fDZ : BitVec 5 := 8
def fNV : BitVec 5 := 16

/-- A result with the flags it raises. -/
structure FRes where
  bits  : Nat
  flags : BitVec 5
  deriving DecidableEq, Repr, Inhabited

/-- Whether the magnitude with quotient q and remainder r in units of 2^shift rounds away from zero (R69, R73). -/
def roundsAway (mode : RMode) (neg : Bool) (q r shift : Nat) : Bool :=
  match mode with
  | .rne => 2 ^ shift < 2 * r || (2 * r == 2 ^ shift && q % 2 == 1)
  | .rtz => false
  | .rup => !neg && r != 0
  | .rdn => neg && r != 0
  | .rna => 2 ^ shift ≤ 2 * r && r != 0
  | .sr w => 2 ^ 16 ≤ r * 2 ^ 16 / 2 ^ shift + w.toNat

/-- A magnitude m × 2^e in units of 2^u, rounded: the multiple, and whether it is inexact. A shift beyond every bit of m is cut short. -/
def roundUnits (mode : RMode) (neg : Bool) (m : Nat) (e u : Int) : Nat × Bool :=
  if u ≤ e then (m * 2 ^ (e - u).toNat, false)
  else
    let shift := min (u - e).toNat (Nat.log2 m + 20)
    let q := m / 2 ^ shift
    let r := m % 2 ^ shift
    (if roundsAway mode neg q r shift then q + 1 else q, r != 0)

/-- The result of an overflow (R71). -/
def overflowBits (f : Fmt) (mode : RMode) (neg : Bool) : Nat :=
  let big := f.maxFinite
  match mode with
  | .rtz => big
  | .rup => if neg then big else f.inf
  | .rdn => if neg then f.inf else big
  | _ => f.inf

/-- Rounds a nonzero magnitude m × 2^e into a format: the magnitude's encoding before overflow is looked at, whether it is inexact and
whether it is tiny after rounding (R71). -/
def roundMag (f : Fmt) (mode : RMode) (neg : Bool) (m : Nat) (e : Int) : Nat × Bool × Bool :=
  let top := e + Int.ofNat (Nat.log2 m)
  let u := max (top - Int.ofNat f.fbits) f.unit
  let (q, inexact) := roundUnits mode neg m e u
  let free := roundUnits mode neg m e (top - Int.ofNat f.fbits)
  let tiny := top < f.unit + Int.ofNat f.fbits ∧ !(top + 1 = f.unit + Int.ofNat f.fbits ∧ free.1 = 2 ^ (f.fbits + 1))
  ((u - f.unit).toNat * 2 ^ f.fbits + q, inexact, tiny)

/-- Puts the sign on a magnitude's encoding. -/
def Fmt.signed (f : Fmt) (neg : Bool) (mag : Nat) : Nat := if neg then mag + f.sign else mag

/-- Rounds an exact value into a format other than FP8 (R71). -/
def roundPack (f : Fmt) (mode : RMode) (neg : Bool) (m : Nat) (e : Int) : FRes :=
  if m = 0 then ⟨f.signed neg 0, 0⟩
  else
    let (mag, inexact, tiny) := roundMag f mode neg m e
    if f.maxFinite < mag then ⟨f.signed neg (overflowBits f mode neg), fOF ||| fNX⟩
    else ⟨f.signed neg mag, if inexact then (if tiny then fNX ||| fUF else fNX) else 0⟩

/-- The canonical NaN with flags. -/
def nanRes (f : Fmt) (flags : BitVec 5) : FRes := ⟨f.nan, flags⟩

/-- An infinity. -/
def infRes (f : Fmt) (neg : Bool) : FRes := ⟨f.signed neg f.inf, 0⟩

/-- NV of signalling inputs (R58). -/
def snan : FVal → BitVec 5
  | .nan true => fNV
  | _ => 0

/-- Whether a value is a NaN. -/
def FVal.isNan : FVal → Bool
  | .nan _ => true
  | _ => false

/-- Negation of a value. -/
def FVal.neg : FVal → FVal
  | .nan s => .nan s
  | .inf n => .inf !n
  | .fin n m e => .fin (!n) m e

/-- The exact sum of two finite values. DESIGN CHOICE: no rule gives the sign of a scalar or vector result that is exactly zero; the model takes
IEEE 754's, −0 for two negative addends, and for addends of unlike signs under RDN only (R90; log 95). -/
def addFin (down : Bool) (n1 : Bool) (m1 : Nat) (e1 : Int) (n2 : Bool) (m2 : Nat) (e2 : Int) : Bool × Nat × Int :=
  let e := min e1 e2
  let a : Int := Int.ofNat (m1 * 2 ^ (e1 - e).toNat) * (if n1 then -1 else 1)
  let b : Int := Int.ofNat (m2 * 2 ^ (e2 - e).toNat) * (if n2 then -1 else 1)
  let s := a + b
  if s = 0 then ((n1 && n2) || (down && (n1 != n2)), 0, e) else (s < 0, s.natAbs, e)

/-- A sum of values (R58, R90). -/
def fAdd (f : Fmt) (mode : RMode) (a b : FVal) : FRes :=
  let fl := snan a ||| snan b
  match a, b with
  | .nan _, _ => nanRes f fl
  | _, .nan _ => nanRes f fl
  | .inf n, .inf n' => if n = n' then infRes f n else nanRes f fNV
  | .inf n, .fin _ _ _ => infRes f n
  | .fin _ _ _, .inf n => infRes f n
  | .fin n1 m1 e1, .fin n2 m2 e2 =>
    if m1 = 0 ∧ m2 ≠ 0 then roundPack f mode n2 m2 e2
    else if m2 = 0 ∧ m1 ≠ 0 then roundPack f mode n1 m1 e1
    else
      let (n, m, e) := addFin (mode == .rdn) n1 m1 e1 n2 m2 e2
      roundPack f mode n m e

/-- The exact product of values; 0 × ∞ is a NaN that raises NV. -/
def fProd (a b : FVal) : FVal × BitVec 5 :=
  let fl := snan a ||| snan b
  match a, b with
  | .nan _, _ => (.nan false, fl)
  | _, .nan _ => (.nan false, fl)
  | .inf n, .inf n' => (.inf (n != n'), fl)
  | .inf n, .fin n' m _ => if m = 0 then (.nan false, fNV) else (.inf (n != n'), fl)
  | .fin n m _, .inf n' => if m = 0 then (.nan false, fNV) else (.inf (n != n'), fl)
  | .fin n m e, .fin n' m' e' => (.fin (n != n') (m * m') (e + e'), fl)

/-- A product. -/
def fMul (f : Fmt) (mode : RMode) (a b : FVal) : FRes :=
  match fProd a b with
  | (.nan _, fl) => nanRes f fl
  | (.inf n, _) => infRes f n
  | (.fin n m e, _) => roundPack f mode n m e

/-- d + a × b with one rounding (R114). -/
def fFma (f : Fmt) (mode : RMode) (d a b : FVal) : FRes :=
  let (p, fl) := fProd a b
  let r := fAdd f mode d p
  { r with flags := r.flags ||| fl }

/-- A quotient (R90). -/
def fDiv (f : Fmt) (mode : RMode) (a b : FVal) : FRes :=
  let fl := snan a ||| snan b
  match a, b with
  | .nan _, _ => nanRes f fl
  | _, .nan _ => nanRes f fl
  | .inf _, .inf _ => nanRes f fNV
  | .inf n, .fin n' _ _ => infRes f (n != n')
  | .fin n _ _, .inf n' => ⟨f.signed (n != n') 0, 0⟩
  | .fin n m e, .fin n' m' e' =>
    if m' = 0 then if m = 0 then nanRes f fNV else { infRes f (n != n') with flags := fDZ }
    else if m = 0 then ⟨f.signed (n != n') 0, 0⟩
    else
      let k := f.fbits + 4 + Nat.log2 m'
      let q := m * 2 ^ k / m'
      let r := m * 2 ^ k % m'
      roundPack f mode (n != n') (2 * q + (if r = 0 then 0 else 1)) (e - e' - Int.ofNat k - 1)

/-- The integer square root, bit by bit from bit fuel − 1 down. -/
def isqrt (x : Nat) : Nat → Nat → Nat
  | 0, r => r
  | i + 1, r => if (r + 2 ^ i) * (r + 2 ^ i) ≤ x then isqrt x i (r + 2 ^ i) else isqrt x i r

/-- A square root (R90). -/
def fSqrt (f : Fmt) (mode : RMode) (a : FVal) : FRes :=
  match a with
  | .nan s => nanRes f (if s then fNV else 0)
  | .inf n => if n then nanRes f fNV else infRes f false
  | .fin n m e =>
    if m = 0 then ⟨f.signed n 0, 0⟩
    else if n then nanRes f fNV
    else
      let odd := e % 2 != 0
      let m := if odd then 2 * m else m
      let e := if odd then e - 1 else e
      let k := f.fbits + 4
      let x := m * 2 ^ (2 * k)
      let r := isqrt x (Nat.log2 x / 2 + 1) 0
      roundPack f mode false (2 * r + (if r * r = x then 0 else 1)) (e / 2 - Int.ofNat k - 1)

/-- Order of two values that are no NaN: a < b, a = b as numbers. -/
def fLess (a b : FVal) : Bool :=
  match a, b with
  | .nan _, _ => false
  | _, .nan _ => false
  | .inf n, .inf n' => n && !n'
  | .inf n, .fin _ _ _ => n
  | .fin _ _ _, .inf n => !n
  | .fin n m e, .fin n' m' e' =>
    let u := min e e'
    let x : Int := Int.ofNat (m * 2 ^ (e - u).toNat) * (if n then -1 else 1)
    let y : Int := Int.ofNat (m' * 2 ^ (e' - u).toNat) * (if n' then -1 else 1)
    x < y

/-- Equal as numbers: +0 = −0; no NaN equals anything. -/
def fSame (a b : FVal) : Bool := !a.isNan && !b.isNan && !fLess a b && !fLess b a

/-- The sign of a value. -/
def FVal.isNeg : FVal → Bool
  | .nan _ => false
  | .inf n => n
  | .fin n _ _ => n

/-- An exact value of a format as an encoding: no rounding happens. -/
def Fmt.pack (f : Fmt) (v : FVal) : Nat :=
  match v with
  | .nan _ => f.nan
  | .inf n => f.signed n f.inf
  | .fin n m e => (roundPack f .rne n m e).bits

/-- The smaller (or larger) operand; −0 is below +0; one NaN gives the other operand (R90). -/
def fMinMax (f : Fmt) (larger : Bool) (a b : FVal) : FRes :=
  let fl := snan a ||| snan b
  match a.isNan, b.isNan with
  | true, true => nanRes f fl
  | true, false => ⟨f.pack b, fl⟩
  | false, true => ⟨f.pack a, fl⟩
  | false, false =>
    let aLess := fLess a b || (fSame a b && a.isNeg && !b.isNeg)
    ⟨f.pack (if aLess != larger then a else b), fl⟩

/-- Sign cleared or inverted; a NaN gives the canonical NaN (R90). -/
def fAbsNeg (f : Fmt) (negate : Bool) (a : FVal) : FRes :=
  match a with
  | .nan s => nanRes f (if s then fNV else 0)
  | .inf n => infRes f (if negate then !n else false)
  | .fin n m e => ⟨f.pack (.fin (if negate then !n else false) m e), 0⟩

/-- A finite value rounded to an integer, and whether it was inexact (R72). -/
def roundInt (mode : RMode) (neg : Bool) (m : Nat) (e : Int) : Int × Bool :=
  let (q, inexact) := if m = 0 then (0, false) else roundUnits mode neg m e 0
  (if neg then -Int.ofNat q else Int.ofNat q, inexact)

/-- Whether a magnitude is beyond 2^70: conversion saturates without forming it. -/
def hugeFin (m : Nat) (e : Int) : Bool := m != 0 && decide (70 < e + Int.ofNat (Nat.log2 m))

/-- A conversion to INTn (R72). -/
def fToInt (n : Nat) (mode : RMode) (a : FVal) : FRes :=
  let lo : Int := -(2 ^ (n - 1) : Nat)
  let hi : Int := (2 ^ (n - 1) : Nat) - 1
  let enc := fun (x : Int) => (x % (2 ^ n : Nat)).toNat
  match a with
  | .nan _ => ⟨0, fNV⟩
  | .inf neg => ⟨enc (if neg then lo else hi), fNV⟩
  | .fin neg m e =>
    if hugeFin m e then ⟨enc (if neg then lo else hi), fNV⟩
    else
      let (x, inexact) := roundInt mode neg m e
      if x < lo then ⟨enc lo, fNV⟩ else if hi < x then ⟨enc hi, fNV⟩ else ⟨enc x, if inexact then fNX else 0⟩

/-- A conversion from an integer (R72). -/
def fOfInt (f : Fmt) (mode : RMode) (x : Int) : FRes := roundPack f mode (x < 0) x.natAbs 0

/-- Rounding to an integral value of the format (R90, R114). DESIGN CHOICE: a zero result keeps the operand's sign (log 95). -/
def fRound (f : Fmt) (mode : RMode) (a : FVal) : FRes :=
  match a with
  | .nan s => nanRes f (if s then fNV else 0)
  | .inf n => infRes f n
  | .fin n m e =>
    if 0 ≤ e then ⟨f.pack a, 0⟩
    else
      let (x, inexact) := roundInt mode n m e
      ⟨f.pack (.fin n x.natAbs 0), if inexact then fNX else 0⟩

/-- a × 2^n (R114). -/
def fScale (f : Fmt) (mode : RMode) (a : FVal) (n : Int) : FRes :=
  match a with
  | .nan s => nanRes f (if s then fNV else 0)
  | .inf s => infRes f s
  | .fin s m e => roundPack f mode s m (e + n)

/-- A conversion between formats other than FP8 (R118). -/
def fConvert (f : Fmt) (mode : RMode) (a : FVal) : FRes :=
  match a with
  | .nan s => nanRes f (if s then fNV else 0)
  | .inf n => infRes f n
  | .fin n m e => roundPack f mode n m e

/-- A conversion to FP8 under SAT8 (R60). -/
def fConvert8 (f : Fmt) (sat8 : Bool) (mode : RMode) (a : FVal) : FRes :=
  match a with
  | .nan s => nanRes f (if s then fNV else 0)
  | .inf n => if f.e4m3 then (if sat8 then ⟨f.signed n f.maxFinite, 0⟩ else nanRes f fNV) else infRes f n
  | .fin n m e =>
    if m = 0 then ⟨f.signed n 0, 0⟩
    else
      let (mag, inexact, tiny) := roundMag f mode n m e
      if f.maxFinite < mag then
        if sat8 then ⟨f.signed n f.maxFinite, fOF ||| fNX⟩
        else if f.e4m3 then nanRes f (fOF ||| fNX)
        else ⟨f.signed n (overflowBits f mode n), fOF ||| fNX⟩
      else ⟨f.signed n mag, if inexact then (if tiny then fNX ||| fUF else fNX) else 0⟩

/-- Compares (R92): the result and NV. -/
def fEq (a b : FVal) : Bool × BitVec 5 := (fSame a b, snan a ||| snan b)

def fLt (a b : FVal) : Bool × BitVec 5 := (fLess a b, if a.isNan ∨ b.isNan then fNV else 0)

def fLe (a b : FVal) : Bool × BitVec 5 := (fLess a b || fSame a b, if a.isNan ∨ b.isNan then fNV else 0)

def fUn (a b : FVal) : Bool × BitVec 5 := (a.isNan || b.isNan, snan a ||| snan b)

/-! ## Block-scaled formats (R63 to R68) -/

/-- Dequant (R66): an element with implicit factor 2^−f under a scale. -/
def dequant (q : Int) (x : Byte) (f : Nat) : FRes :=
  if x = 0xFF#8 then nanRes fp32 0
  else roundPack fp32 .rne (q < 0) q.natAbs (Int.ofNat x.toNat - 127 - Int.ofNat f)

/-- Quantise (R68): the element as an integer in −M … M. DESIGN CHOICE: with scale 0xFF a signalling NaN raises nothing, as R68 has it, though R118
says that one raises NV in every form (log 88). -/
def quantise (a : FVal) (x : Byte) (f m : Nat) (mode : RMode) : Int × BitVec 5 :=
  if x = 0xFF#8 then (0, 0)
  else
    match a with
    | .nan _ => (0, fNV)
    | .inf n => (if n then -Int.ofNat m else Int.ofNat m, fNV)
    | .fin n y e =>
      let e := e + 127 - Int.ofNat x.toNat + Int.ofNat f
      if hugeFin y e then (if n then -Int.ofNat m else Int.ofNat m, 0)
      else
        let (q, inexact) := roundInt mode n y e
        (max (-Int.ofNat m) (min (Int.ofNat m) q), if inexact then fNX else 0)

/-- Floor of the binary logarithm of a finite magnitude. -/
def FVal.log2 : FVal → Int
  | .fin _ m e => e + Int.ofNat (Nat.log2 m)
  | _ => 0

/-- BlockScale (R67) of FP32 encodings. -/
def blockScale (xs : List Nat) : Byte :=
  let vs := xs.map fp32.unpack
  if vs.any fun v => match v with
    | .fin _ _ _ => false
    | _ => true
  then 0xFF#8
  else
    let amax := xs.foldl (fun m x => max m (x % 2 ^ 31)) 0
    if amax = 0 then 0 else BitVec.ofInt 8 (max 0 (min 254 ((fp32.unpack amax).log2 + 127)))

end Sys2Proof.Machine
end

