-- ==== Sys2Proof/Machine/Flags.lean ====
section
/-! DEFINITION. Rounding mode, floating-point flags, stochastic rounding and the running maximum of the context that issues
(03_numbers.md R69 to R79). -/

namespace Sys2Proof.Machine

/-- FPMODE.RM. -/
def State.rmCode (s : State) : Nat := (s.getSys rFPMODE).toNat % 8

/-- FPMODE.SAT8. -/
def State.sat8 (s : State) : Bool := (s.getSys rFPMODE).getLsbD 3

/-- FPMODE.XE. -/
def State.xe (s : State) : BitVec 5 := (s.getSys rFPMODE).extractLsb' 4 5

/-- The mode of arithmetic: SR rounds with RNE (R70). -/
def State.rmArith (s : State) : RMode := rmode s.rmCode

/-- A step of the generator (R74). -/
def xorshift (x : Word) : Word :=
  let x := x ^^^ (x <<< 13)
  let x := x ^^^ (x >>> 7)
  x ^^^ (x <<< 17)

/-- The next word of the generator (R74). DEDUCED: a draw changes RNGSEED at once, after the bundle's rdsys slots have read it (R24; log 8). -/
def State.nextRnd (s : State) : BitVec 16 × State :=
  let x := xorshift (s.getSys rRNGSEED)
  (x.extractLsb' 48 16, s.modCur fun c => c.setSys rRNGSEED x)

/-- The modes of n elements of an operation under an RM code: under SR each draws a word, in ascending order (R74). -/
def State.drawModes (rm : Nat) : Nat → State → List RMode × State
  | 0, s => ([], s)
  | n + 1, s =>
    if rm = 5 then
      let (w, s) := s.nextRnd
      let (ms, s) := State.drawModes rm n s
      (.sr w :: ms, s)
    else (List.replicate (n + 1) (rmode rm), s)

/-- The slot raises flags: FPX when one is enabled, with the flags in FPFLAGS, else they join the bundle's (R76). -/
def State.flagged (s : State) (before : State) (f : BitVec 5) : State :=
  if f &&& s.xe = 0 then { s with issue := { s.issue with flags := s.issue.flags ||| f } }
  else
    let t := (before.put (.orFlags f) 1).raise47 cFPX
    { t with issue := { t.issue with flags := s.issue.flags ||| f } }

/-- The largest magnitude among FP32 encodings, and whether a NaN is among them (R78). -/
def magnitudes (xs : List Nat) : Bool × BitVec 31 :=
  (xs.any fun x => 0x7F800000 < x % 2 ^ 31,
   BitVec.ofNat 31 (xs.foldl (fun m x => if 0x7F800000 < x % 2 ^ 31 then m else max m (x % 2 ^ 31)) 0))

/-- A MAXMAG update that lands with the slot's latency (R78, R111); a slot that waits or has trapped makes none. -/
def State.putMag (s : State) (xs : List Nat) (latency : Nat) : State :=
  let (nan, m) := magnitudes xs
  if s.issue.outcome = .run then s.put (.mergeMag nan m) latency else s

end Sys2Proof.Machine
end

