-- ==== Sys2Proof/Machine/Bits.lean ====
section
/-! DEFINITION. Bit and lane helpers: bit strings by their bits, counts of bits, and vectors as lists of lanes (R55, R106). -/

namespace Sys2Proof.Machine

/-- The n-bit string whose bit i is f i. -/
def bitsOf (n : Nat) (f : Nat → Bool) : BitVec n :=
  BitVec.ofNat n ((List.range n).foldl (fun x i => if f i then x + 2 ^ i else x) 0)

/-- Leading zero bits of an n-bit string. -/
def leadingZeros {n : Nat} (x : BitVec n) : Nat := if x = 0 then n else n - 1 - Nat.log2 x.toNat

/-- Trailing zero bits of an n-bit string. -/
def trailingZeros {n : Nat} (x : BitVec n) : Nat := ((List.range n).find? fun i => x.getLsbD i).getD n

/-- One bits of an n-bit string. -/
def popCount {n : Nat} (x : BitVec n) : Nat := ((List.range n).filter fun i => x.getLsbD i).length

/-- The first n lanes of w bits of a vector. -/
def lanes (w n : Nat) (x : Vec) : List (BitVec w) := (List.range n).map fun i => x.extractLsb' (w * i) w

/-- The value of lanes, lane 0 lowest. -/
def lanesNat (w : Nat) : List (BitVec w) → Nat
  | [] => 0
  | x :: xs => x.toNat + 2 ^ w * lanesNat w xs

/-- A vector from its lanes, zero above them (R107). -/
def ofLanes (w : Nat) (xs : List (BitVec w)) : Vec := BitVec.ofNat 1024 (lanesNat w xs)

end Sys2Proof.Machine
end

