-- ==== Sys2Proof/Machine/Winport.lean ====
section
/-! DEFINITION. The data ports of a windrow: how a slot consumes an element vector and pushes one, and how a slot reads and writes a vector
field (05_vector.md R107, R109, 06_windrow.md R134 to R141). -/

namespace Sys2Proof.Machine

/-! ## Element vectors and memory (R65, R135) -/

/-- Bytes of one element vector in memory at a slot width. -/
def WinDesc.bytes (d : WinDesc) (bits : Nat) : Nat := (d.fixedWidth).getD (bits / 8)

/-- The 32 six-bit elements of an MXINT6 block in memory. -/
def mx6Elems (x : Nat) : List Nat := (List.range 32).map fun j => x / 2 ^ (6 * j) % 64

/-- An MXINT6 block in register layout. -/
def mx6Unpack (x : Nat) : Nat := (List.range 32).foldl (fun y j => y + x / 2 ^ (6 * j) % 64 * 2 ^ (32 * (j / 4) + 6 * (j % 4))) 0

/-- An MXINT6 block in memory layout. -/
def mx6Pack (x : Nat) : Nat := (List.range 32).foldl (fun y j => y + x / 2 ^ (32 * (j / 4) + 6 * (j % 4)) % 64 * 2 ^ (6 * j)) 0

/-- The register side of fetched bytes. -/
def WinDesc.load (d : WinDesc) (bs : List Byte) : Vec :=
  BitVec.ofNat 1024 (if d.fmt = 1 then mx6Unpack (leNat bs) else leNat bs)

/-- The bytes of a pushed element vector of a slot width. -/
def WinDesc.store (d : WinDesc) (bits : Nat) (x : Vec) : List Byte :=
  if d.fmt = 1 then leBytes 24 (mx6Pack x.toNat) else leBytes (bits / 8) x.toNat

/-- Alignment of the element vector at the cursor (R135). -/
def WinDesc.align (d : WinDesc) : Nat := if d.fmt = 2 then 4 else 8

/-- Whether a vector slot may not use a windrow this way (R141). -/
def Windrow.misused (w : Windrow) (push : Bool) (bits : Nat) : Bool :=
  w.state == .idle || w.desc.dir != push || w.desc.fmt == 2 || (w.desc.fmt == 1 && bits != 256)

/-- Replaces a windrow of the context that issues. -/
def State.setWin (s : State) (w : Fin 16) (x : Windrow) : State := s.modCur fun c => { c with windrows := c.windrows.set w x }

/-- A windrow of the context that issues. -/
def State.win (s : State) (w : Fin 16) : Windrow := s.cur.windrows[w]

/-! ## Reads -/

/-- What a source gives: a value and the machine after it, or the machine in which the slot waits or has trapped. -/
inductive Got (α : Type) where
  | ok (v : α) (s : State)
  | stop (s : State)

/-- A slot's read of a windrow (R138): consumes the element vector at the cursor, once a bundle; an atomic that is out is an acquire that it
waits for (R231, R240). -/
def State.readWin (s : State) (w : Fin 16) (bits : Nat) : Got Vec :=
  match s.issue.elems.find? fun x => x.1 == w with
  | some x => .ok x.2 s
  | none =>
    let x := s.win w
    let take := fun (s : State) (v : Vec) => Got.ok v { s with issue := { s.issue with elems := (w, v) :: s.issue.elems } }
    if x.misused false bits then .stop s.illop
    else if s.cur.atomicOut then .stop s.wait
    else
      match x.state with
      | .busy => .stop s.wait
      | .done => take (s.setWin w { x with ovr := true }) 0
      | _ =>
        let n := x.desc.bytes bits
        if x.width ≠ some n then .stop (s.setWin w { x with width := some n, buf := [] }).wait
        else
          match x.buf with
          | [] => .stop s.wait
          | e :: rest =>
            if !e.arrived then .stop s.wait
            else
              match e.fault with
              | some v => .stop (s.raise v.cause v.info)
              | none =>
                let x := { x with buf := rest, scale := if x.desc.scen then e.scale else x.scale }
                take (s.setWin w x.advance) e.data

/-- The low bits of a vector, the rest zero (R107). -/
def lowBits (bits : Nat) (x : Vec) : Vec := BitVec.ofNat 1024 (x.toNat % 2 ^ bits)

/-- A vector source field at a width. -/
def State.readV (s : State) (o : VOp) (bits : Nat) : Got Vec :=
  match o with
  | .reg r => .ok (lowBits bits (s.getV r)) s
  | .win w =>
    match s.readWin w bits with
    | .ok v s => .ok (lowBits bits v) s
    | .stop s => .stop s

/-! ## Pushes -/

/-- A push takes its cursor position and is checked (R140): the places of its bytes, none on a DONE windrow. -/
def State.startPush (s : State) (w : Fin 16) (bits : Nat) : Got (Option (List Trans)) :=
  let x := s.win w
  if x.misused true bits then .stop s.illop
  else
    match x.state with
    | .busy => .stop s.wait
    | .done => .ok none (s.setWin w { x with ovr := true })
    | _ =>
      let as := x.addrs (x.desc.bytes bits)
      if as.headD 0 % x.desc.align ≠ 0 then .stop (s.raise47 cALIGN)
      else
        match State.pushPlaces w.val (lineRuns as) [] s with
        | (.ok, ps, s) => .ok (some ps) (s.setWin w x.advance)
        | (.trap v, _, s) => .stop (s.raise v.cause v.info)
        | (.wait, _, s) => .stop s.wait

/-- Whether a push of the bundle in issue that has still to perform is to the windrow of another, or to one of its bytes. -/
def State.ownPushBefore (s : State) (x : HeldPush) : Bool :=
  s.cur.flights.any fun f => decide (s.issue.firstId ≤ f.id) && match f.push with
    | some p => p.win == x.win || p.places.any fun q => x.places.any (samePlace q)
    | none => false

/-- The virtual addresses of a push's bytes. -/
def Windrow.pushAddrs (x : Windrow) (bits : Nat) : List Nat := x.addrs (x.desc.bytes bits)

/-- A push performs as it issues, granule by granule: what a run leaves of it follows (R140, R227). Behind a push of the same bundle to its
windrow or to one of its bytes it takes its turn (R25). -/
def State.sendPush (s : State) (p : HeldPush) : State :=
  if s.ownPushBefore p then s.fly .fixed [] (some p) 0
  else
    let (now, rest) := p.split s.pickGranules
    let t := (s.drawn.performPush s.issue.core s.cur.ident now).modCur Context.spent
    if rest.places.isEmpty then t else t.fly .fixed [] (some rest) 0

/-- A push of data at hand performs at issue, after the pushes to its windrow that wait for data; behind a push of the same bundle to one of its
bytes it takes its turn (R25, R140). -/
def State.pushNow (s : State) (w : Fin 16) (bits : Nat) (x : Vec) : State :=
  if s.cur.flights.any fun f => decide (f.id < s.issue.firstId) && match f.push with
      | some p => p.win == w
      | none => false
  then s.wait
  else
    match s.startPush w bits with
    | .stop s => s
    | .ok none s => s
    | .ok (some ps) s' =>
      s'.sendPush ⟨w, ps, (s.win w).desc.store bits x, (s.win w).pushAddrs bits⟩

/-- Writes a vector destination of fixed latency, zero above its width (R107). -/
def State.writeV (s : State) (o : VOp) (bits : Nat) (x : Vec) (latency : Nat) : State :=
  match o with
  | .reg r => s.put (.v r (lowBits bits x)) latency
  | .win w => s.pushNow w bits x

end Sys2Proof.Machine
end

