-- ==== Sys2Proof/Machine/VecInt.lean ====
section
/-! DEFINITION. The vector integer forms VIA (05_vector.md R106, R107, R112, R113). -/

namespace Sys2Proof.Machine

/-! ## Shapes of vector slots -/

/-- Writes a function of two vector sources (R107, R109). -/
def State.vec2 (s : State) (w : Width) (d a b : VOp) (f : Vec → Vec → Vec) (latency : Nat) : Host.Outcome State Fault Refusal :=
  match s.readV a w.bits with
  | .stop s => s.done
  | .ok x s =>
    match s.readV b w.bits with
    | .stop s => s.done
    | .ok y s => (s.writeV d w.bits (f x y) latency).done

/-- Writes a function of one vector source. -/
def State.vec1 (s : State) (w : Width) (d a : VOp) (f : Vec → Vec) (latency : Nat) : Host.Outcome State Fault Refusal :=
  match s.readV a w.bits with
  | .stop s => s.done
  | .ok x s => (s.writeV d w.bits (f x) latency).done

/-- Writes a function of the old destination and two vector sources; a windrow as destination is illegal (R109). -/
def State.vec3 (s : State) (w : Width) (d a b : VOp) (f : Vec → Vec → Vec → Vec) (latency : Nat) : Host.Outcome State Fault Refusal :=
  match d with
  | .win _ => s.illop.done
  | .reg r => s.vec2 w d a b (f (lowBits w.bits (s.getV r))) latency

/-- The mask of a compare of e-bit elements (R106, R107). -/
def laneMask (e : Nat) (bs : List Bool) : Mask := bitsOf 128 fun i => bs.getD (i / (e / 8)) false

/-- A compare of e-bit elements into a mask (R113). -/
def State.vecCmp (s : State) (w : Width) (k : Fin 8) (a b : VOp) (e : Nat) (f : BitVec e → BitVec e → Bool) (latency : Nat) :
    Host.Outcome State Fault Refusal :=
  match s.readV a w.bits with
  | .stop s => s.done
  | .ok x s =>
    match s.readV b w.bits with
    | .stop s => s.done
    | .ok y s => (s.put (.k k (laneMask e (List.zipWith f (lanes e (w.bits / e) x) (lanes e (w.bits / e) y)))) latency).done

/-- A function of two elements over every element of e bits. -/
def onLanes (e : Nat) (f : BitVec e → BitVec e → BitVec e) (bits : Nat) (x y : Vec) : Vec :=
  ofLanes e (List.zipWith f (lanes e (bits / e) x) (lanes e (bits / e) y))

/-- A function of one element over every element of e bits. -/
def onLane (e : Nat) (f : BitVec e → BitVec e) (bits : Nat) (x : Vec) : Vec := ofLanes e ((lanes e (bits / e) x).map f)

/-- A function of three elements over every element of e bits. -/
def onLanes3 (e : Nat) (f : BitVec e → BitVec e → BitVec e → BitVec e) (bits : Nat) (x y z : Vec) : Vec :=
  ofLanes e (List.zipWith (fun g c => g c) (List.zipWith f (lanes e (bits / e) x) (lanes e (bits / e) y)) (lanes e (bits / e) z))

/-! ## Elements (R112) -/

/-- SatS to n bits. -/
def satS (n : Nat) (x : Int) : BitVec n := BitVec.ofInt n (max (-(2 ^ (n - 1) : Nat)) (min ((2 ^ (n - 1) : Nat) - 1) x))

/-- The count in bits [4:0] of an element. -/
def count5 (b : BitVec 32) : Nat := b.toNat % 32

/-- The dot product of four bytes. -/
def dot4 (a b : BitVec 32) : BitVec 32 :=
  (List.range 4).foldl (fun x j => x + (a.extractLsb' (8 * j) 8).signExtend 32 * (b.extractLsb' (8 * j) 8).signExtend 32) 0

def execVaddI8 (w : Width) (d a b : VOp) (s : State) : Host.Outcome State Fault Refusal := s.vec2 w d a b (onLanes 8 (· + ·) w.bits) 2
def execVaddI16 (w : Width) (d a b : VOp) (s : State) : Host.Outcome State Fault Refusal := s.vec2 w d a b (onLanes 16 (· + ·) w.bits) 2
def execVaddI32 (w : Width) (d a b : VOp) (s : State) : Host.Outcome State Fault Refusal := s.vec2 w d a b (onLanes 32 (· + ·) w.bits) 2
def execVsubI8 (w : Width) (d a b : VOp) (s : State) : Host.Outcome State Fault Refusal := s.vec2 w d a b (onLanes 8 (· - ·) w.bits) 2
def execVsubI16 (w : Width) (d a b : VOp) (s : State) : Host.Outcome State Fault Refusal := s.vec2 w d a b (onLanes 16 (· - ·) w.bits) 2
def execVsubI32 (w : Width) (d a b : VOp) (s : State) : Host.Outcome State Fault Refusal := s.vec2 w d a b (onLanes 32 (· - ·) w.bits) 2
def execVmulI16 (w : Width) (d a b : VOp) (s : State) : Host.Outcome State Fault Refusal := s.vec2 w d a b (onLanes 16 (· * ·) w.bits) 4
def execVmulI32 (w : Width) (d a b : VOp) (s : State) : Host.Outcome State Fault Refusal := s.vec2 w d a b (onLanes 32 (· * ·) w.bits) 4
def execVmulhI32 (w : Width) (d a b : VOp) (s : State) : Host.Outcome State Fault Refusal := s.vec2 w d a b (onLanes 32 (fun x y => BitVec.ofInt 32 (x.toInt * y.toInt / 2 ^ 32)) w.bits) 4
def execVminI32 (w : Width) (d a b : VOp) (s : State) : Host.Outcome State Fault Refusal := s.vec2 w d a b (onLanes 32 (fun x y => if x.slt y then x else y) w.bits) 2
def execVmaxI32 (w : Width) (d a b : VOp) (s : State) : Host.Outcome State Fault Refusal := s.vec2 w d a b (onLanes 32 (fun x y => if x.slt y then y else x) w.bits) 2
def execVminnN32 (w : Width) (d a b : VOp) (s : State) : Host.Outcome State Fault Refusal := s.vec2 w d a b (onLanes 32 (fun x y => if x.ult y then x else y) w.bits) 2
def execVmaxnN32 (w : Width) (d a b : VOp) (s : State) : Host.Outcome State Fault Refusal := s.vec2 w d a b (onLanes 32 (fun x y => if x.ult y then y else x) w.bits) 2
def execVand (w : Width) (d a b : VOp) (s : State) : Host.Outcome State Fault Refusal := s.vec2 w d a b (· &&& ·) 2
def execVor (w : Width) (d a b : VOp) (s : State) : Host.Outcome State Fault Refusal := s.vec2 w d a b (· ||| ·) 2
def execVxor (w : Width) (d a b : VOp) (s : State) : Host.Outcome State Fault Refusal := s.vec2 w d a b (· ^^^ ·) 2
def execVandn (w : Width) (d a b : VOp) (s : State) : Host.Outcome State Fault Refusal := s.vec2 w d a b (fun x y => x &&& ~~~ y) 2
def execVshlI32 (w : Width) (d a b : VOp) (s : State) : Host.Outcome State Fault Refusal := s.vec2 w d a b (onLanes 32 (fun x y => x <<< count5 y) w.bits) 2
def execVshrN32 (w : Width) (d a b : VOp) (s : State) : Host.Outcome State Fault Refusal := s.vec2 w d a b (onLanes 32 (fun x y => x >>> count5 y) w.bits) 2
def execVsarI32 (w : Width) (d a b : VOp) (s : State) : Host.Outcome State Fault Refusal := s.vec2 w d a b (onLanes 32 (fun x y => x.sshiftRight (count5 y)) w.bits) 2
def execVaddsI8 (w : Width) (d a b : VOp) (s : State) : Host.Outcome State Fault Refusal := s.vec2 w d a b (onLanes 8 (fun x y => satS 8 (x.toInt + y.toInt)) w.bits) 2
def execVaddsI16 (w : Width) (d a b : VOp) (s : State) : Host.Outcome State Fault Refusal := s.vec2 w d a b (onLanes 16 (fun x y => satS 16 (x.toInt + y.toInt)) w.bits) 2
def execVsubsI8 (w : Width) (d a b : VOp) (s : State) : Host.Outcome State Fault Refusal := s.vec2 w d a b (onLanes 8 (fun x y => satS 8 (x.toInt - y.toInt)) w.bits) 2
def execVsubsI16 (w : Width) (d a b : VOp) (s : State) : Host.Outcome State Fault Refusal := s.vec2 w d a b (onLanes 16 (fun x y => satS 16 (x.toInt - y.toInt)) w.bits) 2
def execVceqI32 (w : Width) (k : Fin 8) (a b : VOp) (s : State) : Host.Outcome State Fault Refusal := s.vecCmp w k a b 32 (· == ·) 2
def execVcltI32 (w : Width) (k : Fin 8) (a b : VOp) (s : State) : Host.Outcome State Fault Refusal := s.vecCmp w k a b 32 BitVec.slt 2
def execVcltnN32 (w : Width) (k : Fin 8) (a b : VOp) (s : State) : Host.Outcome State Fault Refusal := s.vecCmp w k a b 32 BitVec.ult 2
def execVabsI32 (w : Width) (d a : VOp) (s : State) : Host.Outcome State Fault Refusal := s.vec1 w d a (onLane 32 (fun x => if x.slt 0 then -x else x) w.bits) 2
def execVmadI16 (w : Width) (d a b : VOp) (s : State) : Host.Outcome State Fault Refusal := s.vec3 w d a b (onLanes3 16 (fun d x y => d + x * y) w.bits) 2
def execVdot4I8 (w : Width) (d a b : VOp) (s : State) : Host.Outcome State Fault Refusal := s.vec3 w d a b (onLanes3 32 (fun d x y => d + dot4 x y) w.bits) 4
def execVclzI32 (w : Width) (d a : VOp) (s : State) : Host.Outcome State Fault Refusal := s.vec1 w d a (onLane 32 (fun x => BitVec.ofNat 32 (leadingZeros x)) w.bits) 2
def execVpopcI32 (w : Width) (d a : VOp) (s : State) : Host.Outcome State Fault Refusal := s.vec1 w d a (onLane 32 (fun x => BitVec.ofNat 32 (popCount x)) w.bits) 2

end Sys2Proof.Machine
end

