-- ==== Sys2Proof/Machine/VecFloat.lean ====
section
/-! DEFINITION. The vector floating-point forms VFA (05_vector.md R110, R114 to R116). -/

namespace Sys2Proof.Machine

/-- Bits of an encoding. -/
def Fmt.bits (f : Fmt) : Nat := f.ebits + f.fbits + 1

/-- The elements of a vector as values. -/
def Fmt.elems (f : Fmt) (bits : Nat) (x : Vec) : List FVal := (lanes f.bits (bits / f.bits) x).map fun e => f.unpack e.toNat

/-- A vector of encodings. -/
def Fmt.vec (f : Fmt) (xs : List FRes) : Vec := ofLanes f.bits (xs.map fun r => BitVec.ofNat f.bits r.bits)

/-- The flags that any element raises (R110). -/
def flagsOf (xs : List FRes) : BitVec 5 := xs.foldl (fun f r => f ||| r.flags) 0

/-- A slot whose write takes effect raises its flags; one that waits or traps does not (R76, R110). -/
def State.withFlags (t before : State) (f : BitVec 5) : State := if t.issue.outcome = before.issue.outcome then t.flagged before f else t

/-- A vector slot over one source, of FP elements of format f and destination format g. -/
def State.vecF1 (s : State) (f : Fmt) (w : Width) (d a : VOp) (op : FVal → FRes) (latency : Nat) : Host.Outcome State Fault Refusal :=
  match s.readV a w.bits with
  | .stop t => t.done
  | .ok x t =>
    let rs := (f.elems w.bits x).map op
    ((t.writeV d w.bits (f.vec rs) latency).withFlags s (flagsOf rs)).done

/-- Reads two vector sources. -/
def State.readV2 (s : State) (a b : VOp) (bits : Nat) : Got (Vec × Vec) :=
  match s.readV a bits with
  | .stop t => .stop t
  | .ok x t =>
    match t.readV b bits with
    | .stop t => .stop t
    | .ok y t => .ok (x, y) t

/-- A vector slot over two sources. -/
def State.vecF2 (s : State) (f : Fmt) (w : Width) (d a b : VOp) (op : FVal → FVal → FRes) (latency : Nat) : Host.Outcome State Fault Refusal :=
  match s.readV2 a b w.bits with
  | .stop t => t.done
  | .ok (x, y) t =>
    let rs := List.zipWith op (f.elems w.bits x) (f.elems w.bits y)
    ((t.writeV d w.bits (f.vec rs) latency).withFlags s (flagsOf rs)).done

/-- A vector slot that reads its destination (R109, R111). -/
def State.vecF3 (s : State) (f : Fmt) (w : Width) (d a b : VOp) (op : FVal → FVal → FVal → FRes) (latency : Nat) :
    Host.Outcome State Fault Refusal :=
  match d with
  | .win _ => s.illop.done
  | .reg r =>
    match s.readV2 a b w.bits with
    | .stop t => t.done
    | .ok (x, y) t =>
      let rs := List.zipWith (fun g z => g z) (List.zipWith op (f.elems w.bits (s.getV r)) (f.elems w.bits x)) (f.elems w.bits y)
      ((t.writeV d w.bits (f.vec rs) latency).withFlags s (flagsOf rs)).done

/-- A floating-point compare into a mask (R92, R113). -/
def State.vecFcmp (s : State) (w : Width) (k : Fin 8) (a b : VOp) (op : FVal → FVal → Bool × BitVec 5) : Host.Outcome State Fault Refusal :=
  match s.readV2 a b w.bits with
  | .stop t => t.done
  | .ok (x, y) t =>
    let rs := List.zipWith op (fp32.elems w.bits x) (fp32.elems w.bits y)
    ((t.put (.k k (laneMask 32 (rs.map Prod.fst))) 4).withFlags s (rs.foldl (fun f r => f ||| r.2) 0)).done

/-- Writes a vector destination of an interlocked form: a register when the result returns, a windrow through a push that takes its place
now (R31, R140). -/
def State.flyV (s : State) (kind : FlightKind) (o : VOp) (bits : Nat) (x : Vec) (delay : Nat) : State :=
  match o with
  | .reg r => s.fly kind [.v r (lowBits bits x)] none delay
  | .win w =>
    let desc := (s.win w).desc
    let vas := (s.win w).pushAddrs bits
    match s.startPush w bits with
    | .stop t => t
    | .ok none t => t.fly kind [] none delay
    | .ok (some ps) t => t.fly kind [] (some ⟨w, ps, desc.store bits x, vas⟩) delay

/-- The larger magnitude; a NaN gives the other operand's (R114). -/
def fAmax (a b : FVal) : FRes :=
  let r := fMinMax fp32 true ((fp32.unpack ((fAbsNeg fp32 false a).bits))) (fp32.unpack ((fAbsNeg fp32 false b).bits))
  { r with flags := snan a ||| snan b }

def execVfaddF32 (w : Width) (d a b : VOp) (s : State) : Host.Outcome State Fault Refusal := s.vecF2 fp32 w d a b (fAdd fp32 s.rmArith) 4
def execVfsubF32 (w : Width) (d a b : VOp) (s : State) : Host.Outcome State Fault Refusal := s.vecF2 fp32 w d a b (fun x y => fAdd fp32 s.rmArith x y.neg) 4
def execVfmulF32 (w : Width) (d a b : VOp) (s : State) : Host.Outcome State Fault Refusal := s.vecF2 fp32 w d a b (fMul fp32 s.rmArith) 4
def execVfmaF32 (w : Width) (d a b : VOp) (s : State) : Host.Outcome State Fault Refusal := s.vecF3 fp32 w d a b (fFma fp32 s.rmArith) 4
def execVfmsF32 (w : Width) (d a b : VOp) (s : State) : Host.Outcome State Fault Refusal := s.vecF3 fp32 w d a b (fun z x y => fFma fp32 s.rmArith z x.neg y) 4
def execVfminF32 (w : Width) (d a b : VOp) (s : State) : Host.Outcome State Fault Refusal := s.vecF2 fp32 w d a b (fMinMax fp32 false) 4
def execVfmaxF32 (w : Width) (d a b : VOp) (s : State) : Host.Outcome State Fault Refusal := s.vecF2 fp32 w d a b (fMinMax fp32 true) 4
def execVfabsF32 (w : Width) (d a : VOp) (s : State) : Host.Outcome State Fault Refusal := s.vecF1 fp32 w d a (fAbsNeg fp32 false) 4
def execVfnegF32 (w : Width) (d a : VOp) (s : State) : Host.Outcome State Fault Refusal := s.vecF1 fp32 w d a (fAbsNeg fp32 true) 4

def execVfdivF32 (w : Width) (d a b : VOp) (s : State) : Host.Outcome State Fault Refusal :=
  match s.readV2 a b w.bits with
  | .stop t => t.done
  | .ok (x, y) t =>
    let rs := List.zipWith (fDiv fp32 s.rmArith) (fp32.elems w.bits x) (fp32.elems w.bits y)
    ((t.flyV .vdivide d w.bits (fp32.vec rs) 1).withFlags s (flagsOf rs)).done

def execVfsqrtF32 (w : Width) (d a : VOp) (s : State) : Host.Outcome State Fault Refusal :=
  match s.readV a w.bits with
  | .stop t => t.done
  | .ok x t =>
    let rs := (fp32.elems w.bits x).map (fSqrt fp32 s.rmArith)
    ((t.flyV .vdivide d w.bits (fp32.vec rs) 1).withFlags s (flagsOf rs)).done

def execVfceqF32 (w : Width) (k : Fin 8) (a b : VOp) (s : State) : Host.Outcome State Fault Refusal := s.vecFcmp w k a b fEq
def execVfcltF32 (w : Width) (k : Fin 8) (a b : VOp) (s : State) : Host.Outcome State Fault Refusal := s.vecFcmp w k a b fLt
def execVfcleF32 (w : Width) (k : Fin 8) (a b : VOp) (s : State) : Host.Outcome State Fault Refusal := s.vecFcmp w k a b fLe
def execVfcunF32 (w : Width) (k : Fin 8) (a b : VOp) (s : State) : Host.Outcome State Fault Refusal := s.vecFcmp w k a b fUn
def execVfaddBf16 (w : Width) (d a b : VOp) (s : State) : Host.Outcome State Fault Refusal := s.vecF2 bf16 w d a b (fAdd bf16 s.rmArith) 4
def execVfmulBf16 (w : Width) (d a b : VOp) (s : State) : Host.Outcome State Fault Refusal := s.vecF2 bf16 w d a b (fMul bf16 s.rmArith) 4
def execVfmaBf16 (w : Width) (d a b : VOp) (s : State) : Host.Outcome State Fault Refusal := s.vecF3 bf16 w d a b (fFma bf16 s.rmArith) 4
def execVfminBf16 (w : Width) (d a b : VOp) (s : State) : Host.Outcome State Fault Refusal := s.vecF2 bf16 w d a b (fMinMax bf16 false) 4
def execVfmaxBf16 (w : Width) (d a b : VOp) (s : State) : Host.Outcome State Fault Refusal := s.vecF2 bf16 w d a b (fMinMax bf16 true) 4

/-- The second source of vfscl holds INT32 exponents (R114). -/
def execVfsclF32 (w : Width) (d a b : VOp) (s : State) : Host.Outcome State Fault Refusal :=
  match s.readV2 a b w.bits with
  | .stop t => t.done
  | .ok (x, y) t =>
    let rs := List.zipWith (fun v (n : BitVec 32) => fScale fp32 s.rmArith v n.toInt) (fp32.elems w.bits x) (lanes 32 (w.bits / 32) y)
    ((t.writeV d w.bits (fp32.vec rs) 4).withFlags s (flagsOf rs)).done

def execVfrndF32 (w : Width) (d a : VOp) (s : State) : Host.Outcome State Fault Refusal := s.vecF1 fp32 w d a (fRound fp32 s.rmArith) 4
def execVfamaxF32 (w : Width) (d a b : VOp) (s : State) : Host.Outcome State Fault Refusal := s.vecF2 fp32 w d a b fAmax 4

end Sys2Proof.Machine
end

