-- ==== Sys2Proof/Machine/Convert.lean ====
section
/-! DEFINITION. The vector conversions VCV (05_vector.md R117 to R120, 03_numbers.md R60, R63 to R68, R73, R74, R78). -/

namespace Sys2Proof.Machine

/-- A conversion that rounds nothing stochastically: reads rbits, writes wbits (R118). -/
def State.convert (s : State) (d a : VOp) (rbits wbits : Nat) (f : Vec → Vec × BitVec 5) : Host.Outcome State Fault Refusal :=
  match s.readV a rbits with
  | .stop t => t.done
  | .ok x t => ((t.writeV d wbits (f x).1 3).withFlags s (f x).2).done

/-- A narrowing conversion of n FP32 elements under an RM code: draws under SR, updates MAXMAG (R74, R119). -/
def State.narrow (s : State) (d a : VOp) (n wbits rm : Nat) (f : List FVal → List RMode → Vec × BitVec 5) : Host.Outcome State Fault Refusal :=
  match s.readV a (32 * n) with
  | .stop t => t.done
  | .ok x t =>
    let (modes, t) := State.drawModes rm n t
    let (y, flags) := f (fp32.elems (32 * n) x) modes
    (((t.writeV d wbits y 3).putMag ((lanes 32 n x).map BitVec.toNat) 3).withFlags s flags).done

/-- Elements of one format as elements of another, each exact (R118). -/
def widen (f g : Fmt) (n : Nat) (x : Vec) : Vec × BitVec 5 :=
  let rs := (f.elems (f.bits * n) x).map (fConvert g .rne)
  (g.vec rs, flagsOf rs)

/-- Elements rounded to a format. -/
def packAll (g : Fmt) (op : RMode → FVal → FRes) (xs : List FVal) (modes : List RMode) : Vec × BitVec 5 :=
  let rs := List.zipWith (fun v m => op m v) xs modes
  (g.vec rs, flagsOf rs)

/-! ## MX blocks (R64, R65) -/

/-- The place of element j of a block in a register: its lowest bit. -/
def mxPlace (bits j : Nat) : Nat := if bits = 6 then 32 * (j / 4) + 6 * (j % 4) else bits * j

/-- A block of 32 elements in register layout. -/
def mxBlock (bits : Nat) (qs : List Int) : Vec :=
  BitVec.ofNat 1024 (((List.range 32).zip qs).foldl (fun y (x : Nat × Int) => y + (BitVec.ofInt bits x.2).toNat * 2 ^ mxPlace bits x.1) 0)

/-- The elements of a block in register layout, as signed integers. -/
def mxElems (bits : Nat) (x : Vec) : List Int := (List.range 32).map fun j => (BitVec.ofNat bits (x.toNat / 2 ^ mxPlace bits j)).toInt

/-- Quantises a block (R68). -/
def quantiseAll (x : Byte) (bits f m : Nat) (xs : List FVal) (modes : List RMode) : Vec × BitVec 5 :=
  let rs := List.zipWith (fun v mode => quantise v x f m mode) xs modes
  (mxBlock bits (rs.map Prod.fst), rs.foldl (fun g r => g ||| r.2) 0)

/-- Dequantises a block (R66). -/
def dequantAll (x : Byte) (bits f : Nat) (v : Vec) : Vec × BitVec 5 :=
  let rs := (mxElems bits v).map fun q => dequant q x f
  (fp32.vec rs, flagsOf rs)

/-- The scale operand sc[7:0]. -/
def State.scaleOf (s : State) (sc : Src) : Byte := (s.src sc).setWidth 8

/-! ## The forms (R118) -/

def execCvtF32Bf16 (w : Width) (d a : VOp) (s : State) : Host.Outcome State Fault Refusal :=
  s.convert d a (w.bits / 2) w.bits (widen bf16 fp32 (w.bits / 32))

def execCvtBf16F32 (w : Width) (d a : VOp) (s : State) : Host.Outcome State Fault Refusal :=
  s.narrow d a (w.bits / 32) (w.bits / 2) s.rmCode (packAll bf16 (fConvert bf16))

def execCvtF32I32 (w : Width) (d a : VOp) (s : State) : Host.Outcome State Fault Refusal :=
  s.convert d a w.bits w.bits fun x =>
    let rs := (lanes 32 (w.bits / 32) x).map fun v => fOfInt fp32 s.rmArith v.toInt
    (fp32.vec rs, flagsOf rs)

def execCvtI32F32 (w : Width) (d a : VOp) (s : State) : Host.Outcome State Fault Refusal :=
  s.convert d a w.bits w.bits fun x =>
    let rs := (fp32.elems w.bits x).map (fToInt 32 s.rmArith)
    (fp32.vec rs, flagsOf rs)

def execCvtMx8F32 (d a : VOp) (sc : Src) (s : State) : Host.Outcome State Fault Refusal :=
  s.narrow d a 32 256 s.rmCode (quantiseAll (s.scaleOf sc) 8 6 127)

def execCvtMx6F32 (d a : VOp) (sc : Src) (s : State) : Host.Outcome State Fault Refusal :=
  s.narrow d a 32 256 s.rmCode (quantiseAll (s.scaleOf sc) 6 4 31)

def execCvtMx4F32 (d a : VOp) (sc : Src) (s : State) : Host.Outcome State Fault Refusal :=
  s.narrow d a 32 128 s.rmCode (quantiseAll (s.scaleOf sc) 4 2 7)

def execCvtF32Mx8 (d a : VOp) (sc : Src) (s : State) : Host.Outcome State Fault Refusal :=
  s.convert d a 256 1024 (dequantAll (s.scaleOf sc) 8 6)

def execCvtF32Mx6 (d a : VOp) (sc : Src) (s : State) : Host.Outcome State Fault Refusal :=
  s.convert d a 256 1024 (dequantAll (s.scaleOf sc) 6 4)

def execCvtF32Mx4 (d a : VOp) (sc : Src) (s : State) : Host.Outcome State Fault Refusal :=
  s.convert d a 128 1024 (dequantAll (s.scaleOf sc) 4 2)

def execCvtF8e4F32 (w : Width) (d a : VOp) (s : State) : Host.Outcome State Fault Refusal :=
  s.narrow d a (w.bits / 32) (w.bits / 4) s.rmCode (packAll e4m3 (fConvert8 e4m3 s.sat8))

def execCvtF32F8e4 (w : Width) (d a : VOp) (s : State) : Host.Outcome State Fault Refusal :=
  s.convert d a (w.bits / 4) w.bits (widen e4m3 fp32 (w.bits / 32))

def execCvtF8e5F32 (w : Width) (d a : VOp) (s : State) : Host.Outcome State Fault Refusal :=
  s.narrow d a (w.bits / 32) (w.bits / 4) s.rmCode (packAll e5m2 (fConvert8 e5m2 s.sat8))

def execCvtF32F8e5 (w : Width) (d a : VOp) (s : State) : Host.Outcome State Fault Refusal :=
  s.convert d a (w.bits / 4) w.bits (widen e5m2 fp32 (w.bits / 32))

/-- BlockScale in every 64-bit lane, without a flag (R120). -/
def execBscale (d a : VOp) (s : State) : Host.Outcome State Fault Refusal :=
  s.convert d a 1024 1024 fun x => (ofLanes 64 (List.replicate 16 ((blockScale ((lanes 32 32 x).map BitVec.toNat)).setWidth 64)), 0)

def execCvtBf16F32Sr (w : Width) (d a : VOp) (s : State) : Host.Outcome State Fault Refusal :=
  s.narrow d a (w.bits / 32) (w.bits / 2) 5 (packAll bf16 (fConvert bf16))

end Sys2Proof.Machine
end

