-- ==== Sys2Proof/WellFormed.lean ====
section
/-! DEFINITION. The limits on an instruction's operands that its field widths do not already give (R23, R37 to R43, R45, R129, R455). -/

namespace Sys2Proof

/-- The scalar source fields of an instruction, the fields marked with an asterisk in R36. -/
def Instr.srcs : Instr → List Src
  | .add _ a b => [a, b]
  | .sub _ a b => [a, b]
  | .mul _ a b => [a, b]
  | .mulh _ a b => [a, b]
  | .mulhn _ a b => [a, b]
  | .and _ a b => [a, b]
  | .or _ a b => [a, b]
  | .xor _ a b => [a, b]
  | .andn _ a b => [a, b]
  | .shl _ a b => [a, b]
  | .shr _ a b => [a, b]
  | .sar _ a b => [a, b]
  | .min _ a b => [a, b]
  | .max _ a b => [a, b]
  | .minn _ a b => [a, b]
  | .maxn _ a b => [a, b]
  | .addi _ a _ => [a]
  | .andi _ a _ => [a]
  | .ori _ a _ => [a]
  | .xori _ a _ => [a]
  | .shli _ a _ => [a]
  | .shri _ a _ => [a]
  | .sari _ a _ => [a]
  | .rsubi _ a _ => [a]
  | .div _ a b => [a, b]
  | .divn _ a b => [a, b]
  | .rem _ a b => [a, b]
  | .remn _ a b => [a, b]
  | .clz _ a => [a]
  | .ctz _ a => [a]
  | .popc _ a => [a]
  | .brev _ a => [a]
  | .bswap _ a => [a]
  | .sext _ a b => [a, b]
  | .zext _ a b => [a, b]
  | .bfx _ a b => [a, b]
  | .bfi _ a b => [a, b]
  | .abs _ a => [a]
  | .neg _ a => [a]
  | .fadd _ a b => [a, b]
  | .fsub _ a b => [a, b]
  | .fmul _ a b => [a, b]
  | .fdiv _ a b => [a, b]
  | .fsqrt _ a => [a]
  | .fmin _ a b => [a, b]
  | .fmax _ a b => [a, b]
  | .fabs _ a => [a]
  | .fneg _ a => [a]
  | .fitof _ a => [a]
  | .ftoi _ a => [a]
  | .fround _ a => [a]
  | .ceq _ _ a b => [a, b]
  | .cne _ _ a b => [a, b]
  | .clt _ _ a b => [a, b]
  | .cge _ _ a b => [a, b]
  | .cltn _ _ a b => [a, b]
  | .cgen _ _ a b => [a, b]
  | .ctst _ _ a b => [a, b]
  | .fceq _ _ a b => [a, b]
  | .fclt _ _ a b => [a, b]
  | .fcle _ _ a b => [a, b]
  | .fcun _ _ a b => [a, b]
  | .bi a => [a]
  | .calli a => [a]
  | .ret a => [a]
  | .loop a _ => [a]
  | .wrlp a _ _ => [a]
  | .replay a _ => [a]
  | .ldb _ b _ _ => [b]
  | .ldh _ b _ _ => [b]
  | .ldw _ b _ _ => [b]
  | .ldd _ b _ _ => [b]
  | .ldv256 _ b _ _ => [b]
  | .ldv512 _ b _ _ => [b]
  | .ldv1k _ b _ _ => [b]
  | .ldbc _ b _ _ => [b]
  | .stb a b _ _ => [a, b]
  | .sth a b _ _ => [a, b]
  | .stw a b _ _ => [a, b]
  | .std a b _ _ => [a, b]
  | .stv256 _ b _ _ => [b]
  | .stv512 _ b _ _ => [b]
  | .stv1k _ b _ _ => [b]
  | .stvk _ b _ _ => [b]
  | .lda _ b _ _ => [b]
  | .strl a b _ _ => [a, b]
  | .cvtMx8F32 _ _ s => [s]
  | .cvtMx6F32 _ _ s => [s]
  | .cvtMx4F32 _ _ s => [s]
  | .cvtF32Mx8 _ _ s => [s]
  | .cvtF32Mx6 _ _ s => [s]
  | .cvtF32Mx4 _ _ s => [s]
  | .vbc _ _ _ s => [s]
  | .vins _ _ _ s => [s]
  | .kfroms _ _ s => [s]
  | .wcfg _ s => [s]
  | .wset _ s t => [s, t]
  | .wget _ _ t => [t]
  | .wskip _ s => [s]
  | .wicnt _ s => [s]
  | .mset _ a => [a]
  | .mcfg a _ => [a]
  | .rcfg _ s _ _ _ _ => [s]
  | .rmask _ s => [s]
  | .ecopy _ _ _ c _ => [c]
  | .egath _ _ _ c _ => [c]
  | .escat _ _ _ c _ => [c]
  | .esubs _ _ _ c _ => [c]
  | .ecoll _ _ _ c _ => [c]
  | .ehalo _ _ c _ => [c]
  | .ered _ _ c _ => [c]
  | .eckpt _ _ _ c _ => [c]
  | .erolb _ _ _ c _ => [c]
  | .enq _ a => [a]
  | .exit a _ => [a]
  | .swr a _ => [a]
  | .tmark a b => [a, b]
  | .rrec a => [a]
  | .rprobe _ a => [a]
  | .rgate a => [a]
  | .gpost _ a _ => [a]
  | .gstat _ a _ => [a]
  | .chkeq a b => [a, b]
  | .sig a => [a]
  | .wrsys a _ => [a]
  | .ctxsave a b => [a, b]
  | .ctxrest a b => [a, b]
  | .wrsysp a _ => [a]
  | .mpld a b => [a, b]
  | .tlbinv a b => [a, b]
  | .kidset a b => [a, b]
  | .kidkill a => [a]
  | _ => []

/-- The literal words an instruction's source fields hold (R23). -/
def Instr.lits (i : Instr) : List (BitVec 32) :=
  i.srcs.filterMap fun | .reg _ => none | .lit w => some w

/-- A slot has at most one literal word: two marked fields that name it read the same one (R23). -/
def Instr.oneLit (i : Instr) : Bool :=
  match i.lits with
  | [a, b] => a == b
  | _ => true

/-- A vector field that names a register and no windrow. -/
def VOp.isReg : VOp → Bool
  | .reg _ => true
  | .win _ => false

/-- A source field that names the literal word. -/
def Src.isLit : Src → Bool
  | .reg _ => false
  | .lit _ => true

/-- A compare with C = 1 needs an even predicate other than p0 (R37). -/
def compareOk (p : Fin 16) (c : Bool) : Bool := !c || (p.val % 2 == 0 && p.val != 0)

/-- The base, md and inc fields of LD and ST (R39). -/
def addrOk (b : Src) (m : Fin 8) (i : BitVec 4) : Bool :=
  (i == 8 || m.val == 0) && (i == 0 || !b.isLit)

/-- The field limits of one instruction (R37 to R43, R109, R129, R193, R358, R151, R455). -/
def Instr.fieldsOk : Instr → Bool
  | .ceq p c _ _ => compareOk p c
  | .cne p c _ _ => compareOk p c
  | .clt p c _ _ => compareOk p c
  | .cge p c _ _ => compareOk p c
  | .cltn p c _ _ => compareOk p c
  | .cgen p c _ _ => compareOk p c
  | .ctst p c _ _ => compareOk p c
  | .fceq p c _ _ => compareOk p c
  | .fclt p c _ _ => compareOk p c
  | .fcle p c _ _ => compareOk p c
  | .fcun p c _ _ => compareOk p c
  | .pand p c _ _ => compareOk p c
  | .por p c _ _ => compareOk p c
  | .pxor p c _ _ => compareOk p c
  | .pandn p c _ _ => compareOk p c
  | .pset p c _ => compareOk p c
  | .kany p c _ => compareOk p c
  | .kall p c _ => compareOk p c
  | .knone p c _ => compareOk p c
  | .ldb _ b m i => addrOk b m i
  | .ldh _ b m i => addrOk b m i
  | .ldw _ b m i => addrOk b m i
  | .ldd _ b m i => addrOk b m i
  | .ldv256 _ b m i => addrOk b m i
  | .ldv512 _ b m i => addrOk b m i
  | .ldv1k _ b m i => addrOk b m i
  | .ldbc _ b m i => addrOk b m i
  | .stb _ b m i => addrOk b m i
  | .sth _ b m i => addrOk b m i
  | .stw _ b m i => addrOk b m i
  | .std _ b m i => addrOk b m i
  | .stv256 _ b m i => addrOk b m i
  | .stv512 _ b m i => addrOk b m i
  | .stv1k _ b m i => addrOk b m i
  | .stvk _ b _ i => i != 8 && (i == 0 || !b.isLit)
  | .vmadI16 _ d _ _ => d.isReg
  | .vdot4I8 _ d _ _ => d.isReg
  | .vfmaF32 _ d _ _ => d.isReg
  | .vfmsF32 _ d _ _ => d.isReg
  | .vfmaBf16 _ d _ _ => d.isReg
  | .vins w d i _ => d.isReg && i.toNat < w.bits / 64
  | .vext w _ _ i => i.toNat < w.bits / 64
  | .vbc _ _ i _ => i.toNat < 4
  | .stgset p n => p.val != 0 && n.toNat != 0 && p.val + n.toNat - 1 ≤ 15
  | .replay _ n => n.toNat != 0
  | .wrsysp _ r => r.val != 5
  | .swr _ r => 4 ≤ r.val
  | .wisect w => w.val % 2 == 0
  | .rcfg _ _ _ _ cons eng => !(cons && eng)
  | .uKmask k => k.toNat != 0
  | .nodeLaunch _ _ re lb join => lb.toNat % 128 == 0 && (re || join.toNat == 0)
  | .nodeCond src sreg _ breg mem b target => (if src then mem.toNat % 8 == 0 && sreg.val == 0 else mem.toNat == 0) && (!breg || b.toNat < 17) && target.toNat % 32 == 0
  | .nodePost _ _ payload => payload.toNat % 8 == 0
  | .nodeFence s => s == .pkg || s == .host || s == .sys
  | _ => true

/-- A well-formed instruction: every field within its stated limits, and at most one literal. -/
def Instr.wf (i : Instr) : Bool := i.fieldsOk && i.oneLit

end Sys2Proof
end

