-- ==== Sys2Proof/Decode.lean ====
section
/-! DEFINITION. The decoder, total on any words, that rejects by name, and after it the encoder, both from the encoding tables of
02_bundle.md (R20 to R45), 07_tile.md (R166) and 18_step.md (R361).
The definitions that build an instruction are marked noncomputable: Lean's run-time format has no room for so many constructors with
arguments. The kernel evaluates all of them. -/

namespace Sys2Proof

/-- Why a word is no instruction (R45). -/
inductive DecodeError where
  | reservedMajor
  | reservedMinor
  | reservedBits
  | guardedBc
  | badDestination
  | badWidth
  | badScope
  | badOrder
  | badSize
  | badHalf
  | badSelector
  | overLimit
  | illFormed
  | badNode
  deriving DecidableEq, Repr, Inhabited

/-- The n bits of w from bit lo up. -/
def fld (w lo n : Nat) : Nat := w / 2 ^ lo % 2 ^ n

/-- A scalar destination field; 63 is refused (R23). -/
def decDst (w lo : Nat) : Except DecodeError SReg :=
  if h : fld w lo 6 < 63 then .ok ⟨fld w lo 6, h⟩ else .error .badDestination

/-- A scalar source field; 63 names the literal word (R23). -/
def decSrc (w lo : Nat) (lit : BitVec 32) : Src :=
  if h : fld w lo 6 < 63 then .reg ⟨fld w lo 6, h⟩ else .lit lit

/-- One bit. -/
def decBit (w lo : Nat) : Bool := fld w lo 1 == 1

/-- A vector field: values 16 to 31 name windrows (R36). -/
def decVOp (w lo : Nat) : VOp :=
  if fld w lo 5 < 16 then .reg ⟨fld w lo 5 % 16, Nat.mod_lt _ (by decide)⟩
  else .win ⟨fld w lo 5 % 16, Nat.mod_lt _ (by decide)⟩

/-- The W field (R36). -/
def decWidth (w lo : Nat) : Except DecodeError Width :=
  match fld w lo 2 with
  | 0 => .ok .w256
  | 1 => .ok .w512
  | 2 => .ok .w1k
  | _ => .error .badWidth

/-- A scope field; 7 is refused (R40). -/
def decScope (w lo : Nat) : Except DecodeError Scope :=
  match fld w lo 3 with
  | 0 => .ok .ctx
  | 1 => .ok .core
  | 2 => .ok .sheaf
  | 3 => .ok .field
  | 4 => .ok .pkg
  | 5 => .ok .host
  | 6 => .ok .sys
  | _ => .error .badScope

/-- The ord field of a fence (R40). -/
def decOrder (w lo : Nat) : Except DecodeError Order :=
  match fld w lo 2 with
  | 1 => .ok .acq
  | 2 => .ok .rel
  | 3 => .ok .ar
  | _ => .error .badOrder

/-- The sz field of lda and strl: false for 4 bytes, true for 8 (R40). -/
def decSz (w lo : Nat) : Except DecodeError Bool :=
  match fld w lo 2 with
  | 0 => .ok false
  | 1 => .ok true
  | _ => .error .badSize

/-- The kb field of kfroms and ktos: which half of the mask (R41). -/
def decHalf (w lo : Nat) : Except DecodeError Bool :=
  match fld w lo 3 with
  | 0 => .ok false
  | 1 => .ok true
  | _ => .error .badHalf

/-- The sel field of mcfg: 0 or 1 (R172). -/
def decSel (w lo : Nat) : Except DecodeError Bool :=
  match fld w lo 4 with
  | 0 => .ok false
  | 1 => .ok true
  | _ => .error .badSelector

/-- A field every value of which is legal. -/
def decFull (w lo n : Nat) : Fin (2 ^ n) := ⟨fld w lo n, Nat.mod_lt _ (Nat.two_pow_pos n)⟩

/-- A field with a stated limit. -/
def decBounded (w lo n limit : Nat) : Except DecodeError (Fin limit) :=
  if h : fld w lo n < limit then .ok ⟨fld w lo n, h⟩ else .error .overLimit

/-- An immediate field. -/
def decBits (w lo n : Nat) : BitVec n := BitVec.ofNat n (w / 2 ^ lo)

/-- Major opcode 0, class BC (R36 to R44). -/
noncomputable def decodeBc (w : Nat) : Except DecodeError Instr :=
  if fld w 22 4 = 0 then (decBounded w 14 3 7).bind fun lend' => .ok (.bc (decBits w 18 4) (decBit w 17) lend' (decBits w 12 2) (decBit w 11) (decBits w 0 11)) else .error .guardedBc

/-- Major opcode 1, class SAR (R36 to R44). -/
noncomputable def decodeSar (w : Nat) (lit : BitVec 32) : Except DecodeError Instr :=
  match fld w 0 4 with
  | 0 => (decDst w 16).bind fun d' => .ok (.add d' (decSrc w 10 lit) (decSrc w 4 lit))
  | 1 => (decDst w 16).bind fun d' => .ok (.sub d' (decSrc w 10 lit) (decSrc w 4 lit))
  | 2 => (decDst w 16).bind fun d' => .ok (.mul d' (decSrc w 10 lit) (decSrc w 4 lit))
  | 3 => (decDst w 16).bind fun d' => .ok (.mulh d' (decSrc w 10 lit) (decSrc w 4 lit))
  | 4 => (decDst w 16).bind fun d' => .ok (.mulhn d' (decSrc w 10 lit) (decSrc w 4 lit))
  | 5 => (decDst w 16).bind fun d' => .ok (.and d' (decSrc w 10 lit) (decSrc w 4 lit))
  | 6 => (decDst w 16).bind fun d' => .ok (.or d' (decSrc w 10 lit) (decSrc w 4 lit))
  | 7 => (decDst w 16).bind fun d' => .ok (.xor d' (decSrc w 10 lit) (decSrc w 4 lit))
  | 8 => (decDst w 16).bind fun d' => .ok (.andn d' (decSrc w 10 lit) (decSrc w 4 lit))
  | 9 => (decDst w 16).bind fun d' => .ok (.shl d' (decSrc w 10 lit) (decSrc w 4 lit))
  | 10 => (decDst w 16).bind fun d' => .ok (.shr d' (decSrc w 10 lit) (decSrc w 4 lit))
  | 11 => (decDst w 16).bind fun d' => .ok (.sar d' (decSrc w 10 lit) (decSrc w 4 lit))
  | 12 => (decDst w 16).bind fun d' => .ok (.min d' (decSrc w 10 lit) (decSrc w 4 lit))
  | 13 => (decDst w 16).bind fun d' => .ok (.max d' (decSrc w 10 lit) (decSrc w 4 lit))
  | 14 => (decDst w 16).bind fun d' => .ok (.minn d' (decSrc w 10 lit) (decSrc w 4 lit))
  | 15 => (decDst w 16).bind fun d' => .ok (.maxn d' (decSrc w 10 lit) (decSrc w 4 lit))
  | _ => .error .reservedMinor

/-- Major opcode 2, class SAI (R36 to R44). -/
noncomputable def decodeSai (w : Nat) (lit : BitVec 32) : Except DecodeError Instr :=
  match fld w 7 3 with
  | 0 => (decDst w 16).bind fun d' => .ok (.addi d' (decSrc w 10 lit) (decBits w 0 7))
  | 1 => (decDst w 16).bind fun d' => .ok (.andi d' (decSrc w 10 lit) (decBits w 0 7))
  | 2 => (decDst w 16).bind fun d' => .ok (.ori d' (decSrc w 10 lit) (decBits w 0 7))
  | 3 => (decDst w 16).bind fun d' => .ok (.xori d' (decSrc w 10 lit) (decBits w 0 7))
  | 4 => if fld w 6 1 = 0 then (decDst w 16).bind fun d' => .ok (.shli d' (decSrc w 10 lit) (decBits w 0 6)) else .error .reservedBits
  | 5 => if fld w 6 1 = 0 then (decDst w 16).bind fun d' => .ok (.shri d' (decSrc w 10 lit) (decBits w 0 6)) else .error .reservedBits
  | 6 => if fld w 6 1 = 0 then (decDst w 16).bind fun d' => .ok (.sari d' (decSrc w 10 lit) (decBits w 0 6)) else .error .reservedBits
  | 7 => (decDst w 16).bind fun d' => .ok (.rsubi d' (decSrc w 10 lit) (decBits w 0 7))
  | _ => .error .reservedMinor

/-- Major opcode 3, class SMX (R36 to R44). -/
noncomputable def decodeSmx (w : Nat) (lit : BitVec 32) : Except DecodeError Instr :=
  match fld w 0 4 with
  | 0 => (decDst w 16).bind fun d' => .ok (.div d' (decSrc w 10 lit) (decSrc w 4 lit))
  | 1 => (decDst w 16).bind fun d' => .ok (.divn d' (decSrc w 10 lit) (decSrc w 4 lit))
  | 2 => (decDst w 16).bind fun d' => .ok (.rem d' (decSrc w 10 lit) (decSrc w 4 lit))
  | 3 => (decDst w 16).bind fun d' => .ok (.remn d' (decSrc w 10 lit) (decSrc w 4 lit))
  | 4 => if fld w 4 6 = 0 then (decDst w 16).bind fun d' => .ok (.clz d' (decSrc w 10 lit)) else .error .reservedBits
  | 5 => if fld w 4 6 = 0 then (decDst w 16).bind fun d' => .ok (.ctz d' (decSrc w 10 lit)) else .error .reservedBits
  | 6 => if fld w 4 6 = 0 then (decDst w 16).bind fun d' => .ok (.popc d' (decSrc w 10 lit)) else .error .reservedBits
  | 7 => if fld w 4 6 = 0 then (decDst w 16).bind fun d' => .ok (.brev d' (decSrc w 10 lit)) else .error .reservedBits
  | 8 => if fld w 4 6 = 0 then (decDst w 16).bind fun d' => .ok (.bswap d' (decSrc w 10 lit)) else .error .reservedBits
  | 9 => (decDst w 16).bind fun d' => .ok (.sext d' (decSrc w 10 lit) (decSrc w 4 lit))
  | 10 => (decDst w 16).bind fun d' => .ok (.zext d' (decSrc w 10 lit) (decSrc w 4 lit))
  | 11 => (decDst w 16).bind fun d' => .ok (.bfx d' (decSrc w 10 lit) (decSrc w 4 lit))
  | 12 => (decDst w 16).bind fun d' => .ok (.bfi d' (decSrc w 10 lit) (decSrc w 4 lit))
  | 13 => if fld w 4 6 = 0 then (decDst w 16).bind fun d' => .ok (.abs d' (decSrc w 10 lit)) else .error .reservedBits
  | 14 => if fld w 4 6 = 0 then (decDst w 16).bind fun d' => .ok (.neg d' (decSrc w 10 lit)) else .error .reservedBits
  | _ => .error .reservedMinor

/-- Major opcode 4, class SFP (R36 to R44). -/
noncomputable def decodeSfp (w : Nat) (lit : BitVec 32) : Except DecodeError Instr :=
  match fld w 0 4 with
  | 0 => (decDst w 16).bind fun d' => .ok (.fadd d' (decSrc w 10 lit) (decSrc w 4 lit))
  | 1 => (decDst w 16).bind fun d' => .ok (.fsub d' (decSrc w 10 lit) (decSrc w 4 lit))
  | 2 => (decDst w 16).bind fun d' => .ok (.fmul d' (decSrc w 10 lit) (decSrc w 4 lit))
  | 3 => (decDst w 16).bind fun d' => .ok (.fdiv d' (decSrc w 10 lit) (decSrc w 4 lit))
  | 4 => if fld w 4 6 = 0 then (decDst w 16).bind fun d' => .ok (.fsqrt d' (decSrc w 10 lit)) else .error .reservedBits
  | 5 => (decDst w 16).bind fun d' => .ok (.fmin d' (decSrc w 10 lit) (decSrc w 4 lit))
  | 6 => (decDst w 16).bind fun d' => .ok (.fmax d' (decSrc w 10 lit) (decSrc w 4 lit))
  | 7 => if fld w 4 6 = 0 then (decDst w 16).bind fun d' => .ok (.fabs d' (decSrc w 10 lit)) else .error .reservedBits
  | 8 => if fld w 4 6 = 0 then (decDst w 16).bind fun d' => .ok (.fneg d' (decSrc w 10 lit)) else .error .reservedBits
  | 9 => if fld w 4 6 = 0 then (decDst w 16).bind fun d' => .ok (.fitof d' (decSrc w 10 lit)) else .error .reservedBits
  | 10 => if fld w 4 6 = 0 then (decDst w 16).bind fun d' => .ok (.ftoi d' (decSrc w 10 lit)) else .error .reservedBits
  | 11 => if fld w 4 6 = 0 then (decDst w 16).bind fun d' => .ok (.fround d' (decSrc w 10 lit)) else .error .reservedBits
  | _ => .error .reservedMinor

/-- Major opcode 5, class SCP (R36 to R44). -/
noncomputable def decodeScp (w : Nat) (lit : BitVec 32) : Except DecodeError Instr :=
  match fld w 0 5 with
  | 0 => .ok (.ceq (decFull w 18 4) (decBit w 17) (decSrc w 11 lit) (decSrc w 5 lit))
  | 1 => .ok (.cne (decFull w 18 4) (decBit w 17) (decSrc w 11 lit) (decSrc w 5 lit))
  | 2 => .ok (.clt (decFull w 18 4) (decBit w 17) (decSrc w 11 lit) (decSrc w 5 lit))
  | 3 => .ok (.cge (decFull w 18 4) (decBit w 17) (decSrc w 11 lit) (decSrc w 5 lit))
  | 4 => .ok (.cltn (decFull w 18 4) (decBit w 17) (decSrc w 11 lit) (decSrc w 5 lit))
  | 5 => .ok (.cgen (decFull w 18 4) (decBit w 17) (decSrc w 11 lit) (decSrc w 5 lit))
  | 6 => .ok (.ctst (decFull w 18 4) (decBit w 17) (decSrc w 11 lit) (decSrc w 5 lit))
  | 7 => .ok (.fceq (decFull w 18 4) (decBit w 17) (decSrc w 11 lit) (decSrc w 5 lit))
  | 8 => .ok (.fclt (decFull w 18 4) (decBit w 17) (decSrc w 11 lit) (decSrc w 5 lit))
  | 9 => .ok (.fcle (decFull w 18 4) (decBit w 17) (decSrc w 11 lit) (decSrc w 5 lit))
  | 10 => .ok (.fcun (decFull w 18 4) (decBit w 17) (decSrc w 11 lit) (decSrc w 5 lit))
  | 11 => if fld w 9 2 = 0 ∧ fld w 15 2 = 0 then .ok (.pand (decFull w 18 4) (decBit w 17) (decFull w 11 4) (decFull w 5 4)) else .error .reservedBits
  | 12 => if fld w 9 2 = 0 ∧ fld w 15 2 = 0 then .ok (.por (decFull w 18 4) (decBit w 17) (decFull w 11 4) (decFull w 5 4)) else .error .reservedBits
  | 13 => if fld w 9 2 = 0 ∧ fld w 15 2 = 0 then .ok (.pxor (decFull w 18 4) (decBit w 17) (decFull w 11 4) (decFull w 5 4)) else .error .reservedBits
  | 14 => if fld w 9 2 = 0 ∧ fld w 15 2 = 0 then .ok (.pandn (decFull w 18 4) (decBit w 17) (decFull w 11 4) (decFull w 5 4)) else .error .reservedBits
  | 15 => if fld w 5 6 = 0 ∧ fld w 12 5 = 0 then .ok (.pset (decFull w 18 4) (decBit w 17) (decBit w 11)) else .error .reservedBits
  | 16 => if fld w 5 6 = 0 ∧ fld w 14 3 = 0 then .ok (.kany (decFull w 18 4) (decBit w 17) (decFull w 11 3)) else .error .reservedBits
  | 17 => if fld w 5 6 = 0 ∧ fld w 14 3 = 0 then .ok (.kall (decFull w 18 4) (decBit w 17) (decFull w 11 3)) else .error .reservedBits
  | 18 => if fld w 5 6 = 0 ∧ fld w 14 3 = 0 then .ok (.knone (decFull w 18 4) (decBit w 17) (decFull w 11 3)) else .error .reservedBits
  | _ => .error .reservedMinor

/-- Major opcode 6, class BR (R36 to R44). -/
noncomputable def decodeBr (w : Nat) (lit : BitVec 32) : Except DecodeError Instr :=
  match fld w 19 3 with
  | 0 => .ok (.br (decBits w 0 19))
  | 1 => .ok (.call (decBits w 0 19))
  | 2 => if fld w 0 13 = 0 then .ok (.bi (decSrc w 13 lit)) else .error .reservedBits
  | 3 => if fld w 0 13 = 0 then .ok (.calli (decSrc w 13 lit)) else .error .reservedBits
  | 4 => if fld w 0 13 = 0 then .ok (.ret (decSrc w 13 lit)) else .error .reservedBits
  | 5 => .ok (.bk (decFull w 16 3) (decBits w 0 16))
  | 6 => .ok (.bkn (decFull w 16 3) (decBits w 0 16))
  | _ => .error .reservedMinor

/-- Major opcode 7, class LOOP (R36 to R44). -/
noncomputable def decodeLoop (w : Nat) (lit : BitVec 32) : Except DecodeError Instr :=
  match fld w 19 3 with
  | 0 => .ok (.loop (decSrc w 13 lit) (decBits w 0 13))
  | 1 => .ok (.loopi (decBits w 10 9) (decBits w 0 10))
  | 2 => if fld w 0 16 = 0 then (decBounded w 16 3 6).bind fun l' => .ok (.lexit l') else .error .reservedBits
  | 3 => if fld w 0 9 = 0 then (decDst w 13).bind fun d' => (decBounded w 9 3 6).bind fun l' => .ok (.rdlp d' (decBit w 12) l') else .error .reservedBits
  | 4 => if fld w 0 9 = 0 then (decBounded w 9 3 6).bind fun l' => .ok (.wrlp (decSrc w 13 lit) (decBit w 12) l') else .error .reservedBits
  | 5 => if fld w 0 7 = 0 then .ok (.replay (decSrc w 13 lit) (decBits w 7 6)) else .error .reservedBits
  | 6 => if fld w 0 12 = 0 then .ok (.stgset (decFull w 15 4) (decBits w 12 3)) else .error .reservedBits
  | _ => .error .reservedMinor

/-- Major opcode 8, class LD (R36 to R44). -/
noncomputable def decodeLd (w : Nat) (lit : BitVec 32) : Except DecodeError Instr :=
  match fld w 19 3 with
  | 0 => (decDst w 13).bind fun d' => .ok (.ldb d' (decSrc w 7 lit) (decFull w 4 3) (decBits w 0 4))
  | 1 => (decDst w 13).bind fun d' => .ok (.ldh d' (decSrc w 7 lit) (decFull w 4 3) (decBits w 0 4))
  | 2 => (decDst w 13).bind fun d' => .ok (.ldw d' (decSrc w 7 lit) (decFull w 4 3) (decBits w 0 4))
  | 3 => (decDst w 13).bind fun d' => .ok (.ldd d' (decSrc w 7 lit) (decFull w 4 3) (decBits w 0 4))
  | 4 => if fld w 18 1 = 0 then .ok (.ldv256 (decVOp w 13) (decSrc w 7 lit) (decFull w 4 3) (decBits w 0 4)) else .error .reservedBits
  | 5 => if fld w 18 1 = 0 then .ok (.ldv512 (decVOp w 13) (decSrc w 7 lit) (decFull w 4 3) (decBits w 0 4)) else .error .reservedBits
  | 6 => if fld w 18 1 = 0 then .ok (.ldv1k (decVOp w 13) (decSrc w 7 lit) (decFull w 4 3) (decBits w 0 4)) else .error .reservedBits
  | 7 => if fld w 18 1 = 0 then .ok (.ldbc (decVOp w 13) (decSrc w 7 lit) (decFull w 4 3) (decBits w 0 4)) else .error .reservedBits
  | _ => .error .reservedMinor

/-- Major opcode 9, class ST (R36 to R44). -/
noncomputable def decodeSt (w : Nat) (lit : BitVec 32) : Except DecodeError Instr :=
  match fld w 19 3 with
  | 0 => .ok (.stb (decSrc w 13 lit) (decSrc w 7 lit) (decFull w 4 3) (decBits w 0 4))
  | 1 => .ok (.sth (decSrc w 13 lit) (decSrc w 7 lit) (decFull w 4 3) (decBits w 0 4))
  | 2 => .ok (.stw (decSrc w 13 lit) (decSrc w 7 lit) (decFull w 4 3) (decBits w 0 4))
  | 3 => .ok (.std (decSrc w 13 lit) (decSrc w 7 lit) (decFull w 4 3) (decBits w 0 4))
  | 4 => if fld w 18 1 = 0 then .ok (.stv256 (decVOp w 13) (decSrc w 7 lit) (decFull w 4 3) (decBits w 0 4)) else .error .reservedBits
  | 5 => if fld w 18 1 = 0 then .ok (.stv512 (decVOp w 13) (decSrc w 7 lit) (decFull w 4 3) (decBits w 0 4)) else .error .reservedBits
  | 6 => if fld w 18 1 = 0 then .ok (.stv1k (decVOp w 13) (decSrc w 7 lit) (decFull w 4 3) (decBits w 0 4)) else .error .reservedBits
  | 7 => if fld w 18 1 = 0 then .ok (.stvk (decVOp w 13) (decSrc w 7 lit) (decFull w 4 3) (decBits w 0 4)) else .error .reservedBits
  | _ => .error .reservedMinor

/-- Major opcode 10, class ATM (R36 to R44). -/
noncomputable def decodeAtm (w : Nat) : Except DecodeError Instr :=
  match fld w 4 3 with
  | 0 => (decScope w 1).bind fun s' => .ok (.aswap (decFull w 17 5) (decFull w 12 5) (decFull w 7 5) s' (decBit w 0))
  | 1 => (decScope w 1).bind fun s' => .ok (.aadd (decFull w 17 5) (decFull w 12 5) (decFull w 7 5) s' (decBit w 0))
  | 2 => (decScope w 1).bind fun s' => .ok (.aand (decFull w 17 5) (decFull w 12 5) (decFull w 7 5) s' (decBit w 0))
  | 3 => (decScope w 1).bind fun s' => .ok (.aor (decFull w 17 5) (decFull w 12 5) (decFull w 7 5) s' (decBit w 0))
  | 4 => (decScope w 1).bind fun s' => .ok (.amax (decFull w 17 5) (decFull w 12 5) (decFull w 7 5) s' (decBit w 0))
  | 5 => (decScope w 1).bind fun s' => .ok (.amin (decFull w 17 5) (decFull w 12 5) (decFull w 7 5) s' (decBit w 0))
  | 6 => (decScope w 1).bind fun s' => .ok (.acas (decFull w 17 5) (decFull w 12 5) (decFull w 7 5) s' (decBit w 0))
  | 7 => if fld w 0 1 = 1 then (decScope w 1).bind fun s' => .ok (.afadd (decFull w 17 5) (decFull w 12 5) (decFull w 7 5) s') else .error .reservedBits
  | _ => .error .reservedMinor

/-- Major opcode 11, class SYNC (R36 to R44). -/
noncomputable def decodeSync (w : Nat) (lit : BitVec 32) : Except DecodeError Instr :=
  match fld w 18 4 with
  | 0 => if fld w 0 13 = 0 then (decScope w 15).bind fun s' => (decOrder w 13).bind fun o' => .ok (.fence s' o') else .error .reservedBits
  | 1 => if fld w 0 18 = 0 then .ok (.drain) else .error .reservedBits
  | 2 => if fld w 0 1 = 0 then (decDst w 12).bind fun d' => (decScope w 3).bind fun s' => (decSz w 1).bind fun z' => .ok (.lda d' (decSrc w 6 lit) s' z') else .error .reservedBits
  | 3 => if fld w 0 1 = 0 then (decScope w 3).bind fun s' => (decSz w 1).bind fun z' => .ok (.strl (decSrc w 12 lit) (decSrc w 6 lit) s' z') else .error .reservedBits
  | 4 => if fld w 0 12 = 0 then .ok (.waiteng (decFull w 12 6)) else .error .reservedBits
  | 5 => if fld w 0 14 = 0 then .ok (.arrive (decFull w 14 4)) else .error .reservedBits
  | 6 => if fld w 0 14 = 0 then .ok (.waitb (decFull w 14 4)) else .error .reservedBits
  | 7 => if fld w 0 14 = 0 then .ok (.rdv (decFull w 14 4)) else .error .reservedBits
  | 8 => if fld w 0 18 = 0 then .ok (.gphase) else .error .reservedBits
  | _ => .error .reservedMinor

/-- Major opcode 12, class VIA (R36 to R44). -/
noncomputable def decodeVia (w : Nat) : Except DecodeError Instr :=
  match fld w 15 5 with
  | 0 => (decWidth w 20).bind fun w' => .ok (.vaddI8 w' (decVOp w 10) (decVOp w 5) (decVOp w 0))
  | 1 => (decWidth w 20).bind fun w' => .ok (.vaddI16 w' (decVOp w 10) (decVOp w 5) (decVOp w 0))
  | 2 => (decWidth w 20).bind fun w' => .ok (.vaddI32 w' (decVOp w 10) (decVOp w 5) (decVOp w 0))
  | 3 => (decWidth w 20).bind fun w' => .ok (.vsubI8 w' (decVOp w 10) (decVOp w 5) (decVOp w 0))
  | 4 => (decWidth w 20).bind fun w' => .ok (.vsubI16 w' (decVOp w 10) (decVOp w 5) (decVOp w 0))
  | 5 => (decWidth w 20).bind fun w' => .ok (.vsubI32 w' (decVOp w 10) (decVOp w 5) (decVOp w 0))
  | 6 => (decWidth w 20).bind fun w' => .ok (.vmulI16 w' (decVOp w 10) (decVOp w 5) (decVOp w 0))
  | 7 => (decWidth w 20).bind fun w' => .ok (.vmulI32 w' (decVOp w 10) (decVOp w 5) (decVOp w 0))
  | 8 => (decWidth w 20).bind fun w' => .ok (.vmulhI32 w' (decVOp w 10) (decVOp w 5) (decVOp w 0))
  | 9 => (decWidth w 20).bind fun w' => .ok (.vminI32 w' (decVOp w 10) (decVOp w 5) (decVOp w 0))
  | 10 => (decWidth w 20).bind fun w' => .ok (.vmaxI32 w' (decVOp w 10) (decVOp w 5) (decVOp w 0))
  | 11 => (decWidth w 20).bind fun w' => .ok (.vminnN32 w' (decVOp w 10) (decVOp w 5) (decVOp w 0))
  | 12 => (decWidth w 20).bind fun w' => .ok (.vmaxnN32 w' (decVOp w 10) (decVOp w 5) (decVOp w 0))
  | 13 => (decWidth w 20).bind fun w' => .ok (.vand w' (decVOp w 10) (decVOp w 5) (decVOp w 0))
  | 14 => (decWidth w 20).bind fun w' => .ok (.vor w' (decVOp w 10) (decVOp w 5) (decVOp w 0))
  | 15 => (decWidth w 20).bind fun w' => .ok (.vxor w' (decVOp w 10) (decVOp w 5) (decVOp w 0))
  | 16 => (decWidth w 20).bind fun w' => .ok (.vandn w' (decVOp w 10) (decVOp w 5) (decVOp w 0))
  | 17 => (decWidth w 20).bind fun w' => .ok (.vshlI32 w' (decVOp w 10) (decVOp w 5) (decVOp w 0))
  | 18 => (decWidth w 20).bind fun w' => .ok (.vshrN32 w' (decVOp w 10) (decVOp w 5) (decVOp w 0))
  | 19 => (decWidth w 20).bind fun w' => .ok (.vsarI32 w' (decVOp w 10) (decVOp w 5) (decVOp w 0))
  | 20 => (decWidth w 20).bind fun w' => .ok (.vaddsI8 w' (decVOp w 10) (decVOp w 5) (decVOp w 0))
  | 21 => (decWidth w 20).bind fun w' => .ok (.vaddsI16 w' (decVOp w 10) (decVOp w 5) (decVOp w 0))
  | 22 => (decWidth w 20).bind fun w' => .ok (.vsubsI8 w' (decVOp w 10) (decVOp w 5) (decVOp w 0))
  | 23 => (decWidth w 20).bind fun w' => .ok (.vsubsI16 w' (decVOp w 10) (decVOp w 5) (decVOp w 0))
  | 24 => if fld w 13 2 = 0 then (decWidth w 20).bind fun w' => .ok (.vceqI32 w' (decFull w 10 3) (decVOp w 5) (decVOp w 0)) else .error .reservedBits
  | 25 => if fld w 13 2 = 0 then (decWidth w 20).bind fun w' => .ok (.vcltI32 w' (decFull w 10 3) (decVOp w 5) (decVOp w 0)) else .error .reservedBits
  | 26 => if fld w 13 2 = 0 then (decWidth w 20).bind fun w' => .ok (.vcltnN32 w' (decFull w 10 3) (decVOp w 5) (decVOp w 0)) else .error .reservedBits
  | 27 => if fld w 0 5 = 0 then (decWidth w 20).bind fun w' => .ok (.vabsI32 w' (decVOp w 10) (decVOp w 5)) else .error .reservedBits
  | 28 => (decWidth w 20).bind fun w' => .ok (.vmadI16 w' (decVOp w 10) (decVOp w 5) (decVOp w 0))
  | 29 => (decWidth w 20).bind fun w' => .ok (.vdot4I8 w' (decVOp w 10) (decVOp w 5) (decVOp w 0))
  | 30 => if fld w 0 5 = 0 then (decWidth w 20).bind fun w' => .ok (.vclzI32 w' (decVOp w 10) (decVOp w 5)) else .error .reservedBits
  | 31 => if fld w 0 5 = 0 then (decWidth w 20).bind fun w' => .ok (.vpopcI32 w' (decVOp w 10) (decVOp w 5)) else .error .reservedBits
  | _ => .error .reservedMinor

/-- Major opcode 13, class VFA (R36 to R44). -/
noncomputable def decodeVfa (w : Nat) : Except DecodeError Instr :=
  match fld w 15 5 with
  | 0 => (decWidth w 20).bind fun w' => .ok (.vfaddF32 w' (decVOp w 10) (decVOp w 5) (decVOp w 0))
  | 1 => (decWidth w 20).bind fun w' => .ok (.vfsubF32 w' (decVOp w 10) (decVOp w 5) (decVOp w 0))
  | 2 => (decWidth w 20).bind fun w' => .ok (.vfmulF32 w' (decVOp w 10) (decVOp w 5) (decVOp w 0))
  | 3 => (decWidth w 20).bind fun w' => .ok (.vfmaF32 w' (decVOp w 10) (decVOp w 5) (decVOp w 0))
  | 4 => (decWidth w 20).bind fun w' => .ok (.vfmsF32 w' (decVOp w 10) (decVOp w 5) (decVOp w 0))
  | 5 => (decWidth w 20).bind fun w' => .ok (.vfminF32 w' (decVOp w 10) (decVOp w 5) (decVOp w 0))
  | 6 => (decWidth w 20).bind fun w' => .ok (.vfmaxF32 w' (decVOp w 10) (decVOp w 5) (decVOp w 0))
  | 7 => if fld w 0 5 = 0 then (decWidth w 20).bind fun w' => .ok (.vfabsF32 w' (decVOp w 10) (decVOp w 5)) else .error .reservedBits
  | 8 => if fld w 0 5 = 0 then (decWidth w 20).bind fun w' => .ok (.vfnegF32 w' (decVOp w 10) (decVOp w 5)) else .error .reservedBits
  | 9 => (decWidth w 20).bind fun w' => .ok (.vfdivF32 w' (decVOp w 10) (decVOp w 5) (decVOp w 0))
  | 10 => if fld w 0 5 = 0 then (decWidth w 20).bind fun w' => .ok (.vfsqrtF32 w' (decVOp w 10) (decVOp w 5)) else .error .reservedBits
  | 11 => if fld w 13 2 = 0 then (decWidth w 20).bind fun w' => .ok (.vfceqF32 w' (decFull w 10 3) (decVOp w 5) (decVOp w 0)) else .error .reservedBits
  | 12 => if fld w 13 2 = 0 then (decWidth w 20).bind fun w' => .ok (.vfcltF32 w' (decFull w 10 3) (decVOp w 5) (decVOp w 0)) else .error .reservedBits
  | 13 => if fld w 13 2 = 0 then (decWidth w 20).bind fun w' => .ok (.vfcleF32 w' (decFull w 10 3) (decVOp w 5) (decVOp w 0)) else .error .reservedBits
  | 14 => if fld w 13 2 = 0 then (decWidth w 20).bind fun w' => .ok (.vfcunF32 w' (decFull w 10 3) (decVOp w 5) (decVOp w 0)) else .error .reservedBits
  | 15 => (decWidth w 20).bind fun w' => .ok (.vfaddBf16 w' (decVOp w 10) (decVOp w 5) (decVOp w 0))
  | 16 => (decWidth w 20).bind fun w' => .ok (.vfmulBf16 w' (decVOp w 10) (decVOp w 5) (decVOp w 0))
  | 17 => (decWidth w 20).bind fun w' => .ok (.vfmaBf16 w' (decVOp w 10) (decVOp w 5) (decVOp w 0))
  | 18 => (decWidth w 20).bind fun w' => .ok (.vfminBf16 w' (decVOp w 10) (decVOp w 5) (decVOp w 0))
  | 19 => (decWidth w 20).bind fun w' => .ok (.vfmaxBf16 w' (decVOp w 10) (decVOp w 5) (decVOp w 0))
  | 20 => (decWidth w 20).bind fun w' => .ok (.vfsclF32 w' (decVOp w 10) (decVOp w 5) (decVOp w 0))
  | 21 => if fld w 0 5 = 0 then (decWidth w 20).bind fun w' => .ok (.vfrndF32 w' (decVOp w 10) (decVOp w 5)) else .error .reservedBits
  | 22 => (decWidth w 20).bind fun w' => .ok (.vfamaxF32 w' (decVOp w 10) (decVOp w 5) (decVOp w 0))
  | _ => .error .reservedMinor

/-- Major opcode 14, class VCV (R36 to R44). -/
noncomputable def decodeVcv (w : Nat) (lit : BitVec 32) : Except DecodeError Instr :=
  match fld w 16 4 with
  | 0 => if fld w 0 6 = 0 then (decWidth w 20).bind fun w' => .ok (.cvtF32Bf16 w' (decVOp w 11) (decVOp w 6)) else .error .reservedBits
  | 1 => if fld w 0 6 = 0 then (decWidth w 20).bind fun w' => .ok (.cvtBf16F32 w' (decVOp w 11) (decVOp w 6)) else .error .reservedBits
  | 2 => if fld w 0 6 = 0 then (decWidth w 20).bind fun w' => .ok (.cvtF32I32 w' (decVOp w 11) (decVOp w 6)) else .error .reservedBits
  | 3 => if fld w 0 6 = 0 then (decWidth w 20).bind fun w' => .ok (.cvtI32F32 w' (decVOp w 11) (decVOp w 6)) else .error .reservedBits
  | 4 => if fld w 20 2 = 2 then .ok (.cvtMx8F32 (decVOp w 11) (decVOp w 6) (decSrc w 0 lit)) else .error .reservedBits
  | 5 => if fld w 20 2 = 2 then .ok (.cvtMx6F32 (decVOp w 11) (decVOp w 6) (decSrc w 0 lit)) else .error .reservedBits
  | 6 => if fld w 20 2 = 2 then .ok (.cvtMx4F32 (decVOp w 11) (decVOp w 6) (decSrc w 0 lit)) else .error .reservedBits
  | 7 => if fld w 20 2 = 2 then .ok (.cvtF32Mx8 (decVOp w 11) (decVOp w 6) (decSrc w 0 lit)) else .error .reservedBits
  | 8 => if fld w 20 2 = 2 then .ok (.cvtF32Mx6 (decVOp w 11) (decVOp w 6) (decSrc w 0 lit)) else .error .reservedBits
  | 9 => if fld w 20 2 = 2 then .ok (.cvtF32Mx4 (decVOp w 11) (decVOp w 6) (decSrc w 0 lit)) else .error .reservedBits
  | 10 => if fld w 0 6 = 0 then (decWidth w 20).bind fun w' => .ok (.cvtF8e4F32 w' (decVOp w 11) (decVOp w 6)) else .error .reservedBits
  | 11 => if fld w 0 6 = 0 then (decWidth w 20).bind fun w' => .ok (.cvtF32F8e4 w' (decVOp w 11) (decVOp w 6)) else .error .reservedBits
  | 12 => if fld w 0 6 = 0 then (decWidth w 20).bind fun w' => .ok (.cvtF8e5F32 w' (decVOp w 11) (decVOp w 6)) else .error .reservedBits
  | 13 => if fld w 0 6 = 0 then (decWidth w 20).bind fun w' => .ok (.cvtF32F8e5 w' (decVOp w 11) (decVOp w 6)) else .error .reservedBits
  | 14 => if fld w 0 6 = 0 ∧ fld w 20 2 = 2 then .ok (.bscale (decVOp w 11) (decVOp w 6)) else .error .reservedBits
  | 15 => if fld w 0 6 = 0 then (decWidth w 20).bind fun w' => .ok (.cvtBf16F32Sr w' (decVOp w 11) (decVOp w 6)) else .error .reservedBits
  | _ => .error .reservedMinor

/-- Major opcode 15, class VRD (R36 to R44). -/
noncomputable def decodeVrd (w : Nat) : Except DecodeError Instr :=
  match fld w 15 5 with
  | 0 => if fld w 0 5 = 0 then (decWidth w 20).bind fun w' => .ok (.vrsumF32 w' (decVOp w 10) (decVOp w 5)) else .error .reservedBits
  | 1 => if fld w 0 5 = 0 then (decWidth w 20).bind fun w' => .ok (.vrmaxF32 w' (decVOp w 10) (decVOp w 5)) else .error .reservedBits
  | 2 => if fld w 0 5 = 0 then (decWidth w 20).bind fun w' => .ok (.vrminF32 w' (decVOp w 10) (decVOp w 5)) else .error .reservedBits
  | 3 => if fld w 0 5 = 0 then (decWidth w 20).bind fun w' => .ok (.vrsumI32 w' (decVOp w 10) (decVOp w 5)) else .error .reservedBits
  | 4 => if fld w 0 5 = 0 then (decWidth w 20).bind fun w' => .ok (.vrmaxI32 w' (decVOp w 10) (decVOp w 5)) else .error .reservedBits
  | 5 => if fld w 0 5 = 0 then (decWidth w 20).bind fun w' => .ok (.vrminI32 w' (decVOp w 10) (decVOp w 5)) else .error .reservedBits
  | 6 => if fld w 0 5 = 0 then (decWidth w 20).bind fun w' => .ok (.vramaxF32 w' (decVOp w 10) (decVOp w 5)) else .error .reservedBits
  | 7 => (decWidth w 20).bind fun w' => .ok (.vdeltaF32 w' (decVOp w 10) (decVOp w 5) (decVOp w 0))
  | 8 => (decWidth w 20).bind fun w' => .ok (.vdeltaBf16 w' (decVOp w 10) (decVOp w 5) (decVOp w 0))
  | 9 => if fld w 0 5 = 0 then (decWidth w 20).bind fun w' => .ok (.vmaxmagF32 w' (decVOp w 10) (decVOp w 5)) else .error .reservedBits
  | 10 => if fld w 0 5 = 0 then (decWidth w 20).bind fun w' => .ok (.vmaxmagBf16 w' (decVOp w 10) (decVOp w 5)) else .error .reservedBits
  | 11 => if fld w 0 5 = 0 then (decWidth w 20).bind fun w' => .ok (.vscanF32 w' (decVOp w 10) (decVOp w 5)) else .error .reservedBits
  | 12 => if fld w 0 5 = 0 then (decWidth w 20).bind fun w' => .ok (.vscanI32 w' (decVOp w 10) (decVOp w 5)) else .error .reservedBits
  | 13 => if fld w 0 5 = 0 ∧ fld w 8 2 = 0 then (decWidth w 20).bind fun w' => .ok (.kcnt w' (decVOp w 10) (decFull w 5 3)) else .error .reservedBits
  | _ => .error .reservedMinor

/-- Major opcode 16, class VPM (R36 to R44). -/
noncomputable def decodeVpm (w : Nat) (lit : BitVec 32) : Except DecodeError Instr :=
  match fld w 15 5 with
  | 0 => if fld w 0 5 = 0 then (decWidth w 20).bind fun w' => .ok (.vmov w' (decVOp w 10) (decVOp w 5)) else .error .reservedBits
  | 1 => (decWidth w 20).bind fun w' => .ok (.vbc w' (decVOp w 10) (decBits w 6 4) (decSrc w 0 lit))
  | 2 => (decWidth w 20).bind fun w' => (decDst w 9).bind fun d' => .ok (.vext w' d' (decVOp w 4) (decBits w 0 4))
  | 3 => (decWidth w 20).bind fun w' => .ok (.vins w' (decVOp w 10) (decBits w 6 4) (decSrc w 0 lit))
  | 4 => (decWidth w 20).bind fun w' => .ok (.vperm w' (decVOp w 10) (decVOp w 5) (decVOp w 0))
  | 5 => (decWidth w 20).bind fun w' => .ok (.vzip w' (decVOp w 10) (decVOp w 5) (decVOp w 0))
  | 6 => (decWidth w 20).bind fun w' => .ok (.vunzip w' (decVOp w 10) (decVOp w 5) (decVOp w 0))
  | 7 => (decWidth w 20).bind fun w' => .ok (.vrotl w' (decVOp w 10) (decVOp w 5) (decBits w 0 5))
  | 8 | 9 | 10 | 11 | 12 | 13 | 14 | 15 => (decWidth w 20).bind fun w' => .ok (.vsel w' (decFull w 15 3) (decVOp w 10) (decVOp w 5) (decVOp w 0))
  | 16 => if fld w 0 6 = 0 ∧ fld w 20 2 = 0 then .ok (.kand (decFull w 12 3) (decFull w 9 3) (decFull w 6 3)) else .error .reservedBits
  | 17 => if fld w 0 6 = 0 ∧ fld w 20 2 = 0 then .ok (.kor (decFull w 12 3) (decFull w 9 3) (decFull w 6 3)) else .error .reservedBits
  | 18 => if fld w 0 6 = 0 ∧ fld w 20 2 = 0 then .ok (.kxor (decFull w 12 3) (decFull w 9 3) (decFull w 6 3)) else .error .reservedBits
  | 19 => if fld w 0 9 = 0 ∧ fld w 20 2 = 0 then .ok (.knot (decFull w 12 3) (decFull w 9 3)) else .error .reservedBits
  | 20 => if fld w 9 3 = 0 ∧ fld w 20 2 = 0 then (decHalf w 6).bind fun h' => .ok (.kfroms (decFull w 12 3) h' (decSrc w 0 lit)) else .error .reservedBits
  | 21 => if fld w 12 3 = 0 ∧ fld w 20 2 = 0 then (decHalf w 6).bind fun h' => (decDst w 0).bind fun d' => .ok (.ktos (decFull w 9 3) h' d') else .error .reservedBits
  | 22 => if fld w 0 10 = 0 then (decWidth w 20).bind fun w' => .ok (.viota w' (decVOp w 10)) else .error .reservedBits
  | _ => .error .reservedMinor

/-- Major opcode 17, class SFU (R36 to R44). -/
noncomputable def decodeSfu (w : Nat) : Except DecodeError Instr :=
  match fld w 15 5 with
  | 0 => if fld w 0 5 = 0 ∧ fld w 21 1 = 0 then .ok (.vexp2 (decBit w 20) (decVOp w 10) (decVOp w 5)) else .error .reservedBits
  | 1 => if fld w 0 5 = 0 ∧ fld w 21 1 = 0 then .ok (.vexp (decBit w 20) (decVOp w 10) (decVOp w 5)) else .error .reservedBits
  | 2 => if fld w 0 5 = 0 ∧ fld w 21 1 = 0 then .ok (.vlog2 (decBit w 20) (decVOp w 10) (decVOp w 5)) else .error .reservedBits
  | 3 => if fld w 0 5 = 0 ∧ fld w 21 1 = 0 then .ok (.vrcp (decBit w 20) (decVOp w 10) (decVOp w 5)) else .error .reservedBits
  | 4 => if fld w 0 5 = 0 ∧ fld w 21 1 = 0 then .ok (.vrsqrt (decBit w 20) (decVOp w 10) (decVOp w 5)) else .error .reservedBits
  | 5 => if fld w 0 5 = 0 ∧ fld w 21 1 = 0 then .ok (.vlog (decBit w 20) (decVOp w 10) (decVOp w 5)) else .error .reservedBits
  | 6 => if fld w 0 5 = 0 ∧ fld w 21 1 = 0 then .ok (.vsin (decBit w 20) (decVOp w 10) (decVOp w 5)) else .error .reservedBits
  | 7 => if fld w 0 5 = 0 ∧ fld w 21 1 = 0 then .ok (.vcos (decBit w 20) (decVOp w 10) (decVOp w 5)) else .error .reservedBits
  | 8 => if fld w 0 5 = 0 ∧ fld w 21 1 = 0 then .ok (.vtanh (decBit w 20) (decVOp w 10) (decVOp w 5)) else .error .reservedBits
  | 9 => if fld w 0 5 = 0 ∧ fld w 21 1 = 0 then .ok (.vsigm (decBit w 20) (decVOp w 10) (decVOp w 5)) else .error .reservedBits
  | 10 => if fld w 0 5 = 0 ∧ fld w 21 1 = 0 then .ok (.verf (decBit w 20) (decVOp w 10) (decVOp w 5)) else .error .reservedBits
  | 11 => if fld w 0 5 = 0 ∧ fld w 21 1 = 0 then .ok (.vsilu (decBit w 20) (decVOp w 10) (decVOp w 5)) else .error .reservedBits
  | _ => .error .reservedMinor

/-- Major opcode 18, class WIN (R36 to R44). -/
noncomputable def decodeWin (w : Nat) (lit : BitVec 32) : Except DecodeError Instr :=
  match fld w 19 3 with
  | 0 => if fld w 0 9 = 0 then .ok (.wcfg (decFull w 15 4) (decSrc w 9 lit)) else .error .reservedBits
  | 1 => if fld w 0 3 = 0 then .ok (.wset (decFull w 15 4) (decSrc w 9 lit) (decSrc w 3 lit)) else .error .reservedBits
  | 2 => if fld w 0 3 = 0 then (decDst w 9).bind fun s' => .ok (.wget (decFull w 15 4) s' (decSrc w 3 lit)) else .error .reservedBits
  | 3 => if fld w 0 15 = 0 then .ok (.wrst (decFull w 15 4)) else .error .reservedBits
  | 4 => if fld w 0 9 = 0 then .ok (.wskip (decFull w 15 4) (decSrc w 9 lit)) else .error .reservedBits
  | 5 => if fld w 0 15 = 0 then .ok (.wisect (decFull w 15 4)) else .error .reservedBits
  | 6 => if fld w 0 9 = 0 then .ok (.wicnt (decFull w 15 4) (decSrc w 9 lit)) else .error .reservedBits
  | 7 => if fld w 0 9 = 0 then (decDst w 9).bind fun s' => .ok (.wstat (decFull w 15 4) s') else .error .reservedBits
  | _ => .error .reservedMinor

/-- Major opcode 19, class MXC (R36 to R44). -/
noncomputable def decodeMxc (w : Nat) (lit : BitVec 32) : Except DecodeError Instr :=
  match fld w 19 3 with
  | 0 => if fld w 0 6 = 0 then .ok (.mcall (decFull w 17 2) (decBits w 9 8) (decFull w 6 3)) else .error .reservedBits
  | 1 => if fld w 0 10 = 0 then .ok (.mset (decFull w 16 3) (decSrc w 10 lit)) else .error .reservedBits
  | 2 => if fld w 0 10 = 0 then (decDst w 10).bind fun d' => .ok (.mget (decFull w 16 3) d') else .error .reservedBits
  | 3 => if fld w 0 17 = 0 then .ok (.mzero (decFull w 17 2)) else .error .reservedBits
  | 4 => if fld w 0 8 = 0 then (decBounded w 8 3 6).bind fun f' => .ok (.mdrain (decFull w 17 2) (decBit w 16) (decVOp w 11) f') else .error .reservedBits
  | 5 => if fld w 0 17 = 0 then .ok (.mwait (decFull w 17 2)) else .error .reservedBits
  | 6 => if fld w 0 10 = 0 ∧ fld w 16 1 = 0 then (decDst w 10).bind fun d' => .ok (.mstat (decFull w 17 2) d') else .error .reservedBits
  | 7 => if fld w 0 6 = 0 ∧ fld w 16 3 = 0 then (decSel w 6).bind fun s' => .ok (.mcfg (decSrc w 10 lit) s') else .error .reservedBits
  | _ => .error .reservedMinor

/-- Major opcode 20, class RNG (R36 to R44). -/
noncomputable def decodeRng (w : Nat) (lit : BitVec 32) : Except DecodeError Instr :=
  match fld w 19 3 with
  | 0 => if fld w 0 5 = 0 then .ok (.rcfg (decFull w 15 4) (decSrc w 9 lit) (decBit w 8) (decBit w 7) (decBit w 6) (decBit w 5)) else .error .reservedBits
  | 1 => if fld w 0 15 = 0 then .ok (.racq (decFull w 15 4)) else .error .reservedBits
  | 2 => if fld w 0 15 = 0 then .ok (.rpub (decFull w 15 4)) else .error .reservedBits
  | 3 => if fld w 0 15 = 0 then .ok (.rwait (decFull w 15 4)) else .error .reservedBits
  | 4 => if fld w 0 15 = 0 then .ok (.rrel (decFull w 15 4)) else .error .reservedBits
  | 5 => if fld w 0 15 = 0 then .ok (.reos (decFull w 15 4)) else .error .reservedBits
  | 6 => (decDst w 9).bind fun d' => (decBounded w 0 9 7).bind fun i' => .ok (.rstat (decFull w 15 4) d' i')
  | 7 => if fld w 0 9 = 0 then .ok (.rmask (decFull w 15 4) (decSrc w 9 lit)) else .error .reservedBits
  | _ => .error .reservedMinor

/-- Major opcode 21, class ENG (R36 to R44). -/
noncomputable def decodeEng (w : Nat) (lit : BitVec 32) : Except DecodeError Instr :=
  match fld w 18 4 with
  | 0 => if fld w 0 1 = 0 then (decScope w 13).bind fun s' => .ok (.ecopy (decBit w 17) (decBit w 16) s' (decSrc w 7 lit) (decFull w 1 6)) else .error .reservedBits
  | 1 => if fld w 0 1 = 0 then (decScope w 13).bind fun s' => .ok (.egath (decBit w 17) (decBit w 16) s' (decSrc w 7 lit) (decFull w 1 6)) else .error .reservedBits
  | 2 => if fld w 0 1 = 0 then (decScope w 13).bind fun s' => .ok (.escat (decBit w 17) (decBit w 16) s' (decSrc w 7 lit) (decFull w 1 6)) else .error .reservedBits
  | 3 => if fld w 0 1 = 0 then (decScope w 13).bind fun s' => .ok (.esubs (decBit w 17) (decBit w 16) s' (decSrc w 7 lit) (decFull w 1 6)) else .error .reservedBits
  | 4 => if fld w 0 1 = 0 then (decScope w 13).bind fun s' => .ok (.ecoll (decBit w 17) (decBit w 16) s' (decSrc w 7 lit) (decFull w 1 6)) else .error .reservedBits
  | 5 => if fld w 0 1 = 0 ∧ fld w 13 3 = 6 then .ok (.ehalo (decBit w 17) (decBit w 16) (decSrc w 7 lit) (decFull w 1 6)) else .error .reservedBits
  | 6 => if fld w 0 1 = 0 ∧ fld w 13 3 = 6 then .ok (.ered (decBit w 17) (decBit w 16) (decSrc w 7 lit) (decFull w 1 6)) else .error .reservedBits
  | 7 => if fld w 0 1 = 0 then (decScope w 13).bind fun s' => .ok (.eckpt (decBit w 17) (decBit w 16) s' (decSrc w 7 lit) (decFull w 1 6)) else .error .reservedBits
  | 8 => if fld w 0 1 = 0 then (decScope w 13).bind fun s' => .ok (.erolb (decBit w 17) (decBit w 16) s' (decSrc w 7 lit) (decFull w 1 6)) else .error .reservedBits
  | _ => .error .reservedMinor

/-- Major opcode 22, class TSK (R36 to R44). -/
noncomputable def decodeTsk (w : Nat) (lit : BitVec 32) : Except DecodeError Instr :=
  match fld w 20 2 with
  | 0 => if fld w 0 8 = 0 then .ok (.enq (decFull w 14 6) (decSrc w 8 lit)) else .error .reservedBits
  | 1 => if fld w 0 11 = 0 then (decBounded w 11 3 5).bind fun n' => .ok (.exit (decSrc w 14 lit) n') else .error .reservedBits
  | 2 =>
    if fld w 19 1 = 0 then if fld w 0 13 = 0 ∧ fld w 19 1 = 0 then (decDst w 13).bind fun d' => .ok (.tid d') else .error .reservedBits
    else if fld w 0 7 = 0 ∧ fld w 19 1 = 1 then (decDst w 13).bind fun d' => .ok (.tparm d' (decFull w 7 6)) else .error .reservedBits
  | 3 => if fld w 0 8 = 0 then (decDst w 14).bind fun d' => .ok (.qstat d' (decFull w 8 6)) else .error .reservedBits
  | _ => .error .reservedMinor

/-- Major opcode 23, class STP (R36 to R44). -/
noncomputable def decodeStp (w : Nat) (lit : BitVec 32) : Except DecodeError Instr :=
  match fld w 19 3 with
  | 0 => if fld w 0 8 = 0 then (decDst w 13).bind fun d' => (decBounded w 8 5 17).bind fun s' => .ok (.srd d' s') else .error .reservedBits
  | 1 => if fld w 0 8 = 0 then (decBounded w 8 5 17).bind fun s' => .ok (.swr (decSrc w 13 lit) s') else .error .reservedBits
  | 2 => if fld w 0 7 = 0 then .ok (.tmark (decSrc w 13 lit) (decSrc w 7 lit)) else .error .reservedBits
  | 3 => if fld w 0 13 = 0 then .ok (.rrec (decSrc w 13 lit)) else .error .reservedBits
  | 4 => if fld w 0 7 = 0 then (decDst w 13).bind fun d' => .ok (.rprobe d' (decSrc w 7 lit)) else .error .reservedBits
  | 5 => if fld w 0 13 = 0 then .ok (.rgate (decSrc w 13 lit)) else .error .reservedBits
  | 6 => if fld w 0 13 = 0 then (decDst w 13).bind fun d' => .ok (.mmrd d') else .error .reservedBits
  | 7 => if fld w 0 19 = 0 then .ok (.mmclr) else .error .reservedBits
  | _ => .error .reservedMinor

/-- Major opcode 24, class GST (R36 to R44). -/
noncomputable def decodeGst (w : Nat) (lit : BitVec 32) : Except DecodeError Instr :=
  match fld w 20 2 with
  | 0 => if fld w 0 5 = 0 then .ok (.gpost (decFull w 17 3) (decSrc w 11 lit) (decFull w 5 6)) else .error .reservedBits
  | 1 => if fld w 0 5 = 0 ∧ fld w 11 6 = 0 then .ok (.gwait (decFull w 17 3) (decFull w 5 6)) else .error .reservedBits
  | 2 => if fld w 0 5 = 0 then (decDst w 5).bind fun d' => .ok (.gstat (decFull w 17 3) (decSrc w 11 lit) d') else .error .reservedBits
  | 3 => if fld w 0 17 = 0 then .ok (.gpre (decFull w 17 3)) else .error .reservedBits
  | _ => .error .reservedMinor

/-- Major opcode 25, class CHK (R36 to R44). -/
noncomputable def decodeChk (w : Nat) (lit : BitVec 32) : Except DecodeError Instr :=
  match fld w 19 3 with
  | 0 => if fld w 0 7 = 0 then .ok (.chkeq (decSrc w 13 lit) (decSrc w 7 lit)) else .error .reservedBits
  | 1 => if fld w 0 9 = 0 then (decBounded w 14 5 16).bind fun v' => (decBounded w 9 5 16).bind fun w' => .ok (.chkv v' w') else .error .reservedBits
  | 2 => if fld w 0 13 = 0 then .ok (.sig (decSrc w 13 lit)) else .error .reservedBits
  | 3 => if fld w 0 13 = 0 then (decDst w 13).bind fun d' => .ok (.sigrd d') else .error .reservedBits
  | 4 => if fld w 0 19 = 0 then .ok (.sigclr) else .error .reservedBits
  | _ => .error .reservedMinor

/-- Major opcode 26, class SYS (R36 to R44). -/
noncomputable def decodeSys (w : Nat) (lit : BitVec 32) : Except DecodeError Instr :=
  match fld w 19 3 with
  | 0 => if fld w 0 7 = 0 then .ok (.trap (decBits w 7 12)) else .error .reservedBits
  | 1 => if fld w 0 7 = 0 then .ok (.brk (decBits w 7 12)) else .error .reservedBits
  | 2 => if fld w 0 7 = 0 then (decDst w 13).bind fun d' => (decBounded w 7 6 20).bind fun r' => .ok (.rdsys d' r') else .error .reservedBits
  | 3 => if fld w 0 7 = 0 then (decBounded w 7 6 20).bind fun r' => .ok (.wrsys (decSrc w 13 lit) r') else .error .reservedBits
  | 4 => if fld w 0 15 = 0 then (decBounded w 15 4 15).bind fun n' => .ok (.lphase n') else .error .reservedBits
  | _ => .error .reservedMinor

/-- Major opcode 27, class PRV (R36 to R44). -/
noncomputable def decodePrv (w : Nat) (lit : BitVec 32) : Except DecodeError Instr :=
  match fld w 18 4 with
  | 0 => if fld w 0 18 = 0 then .ok (.rfe) else .error .reservedBits
  | 1 => if fld w 0 6 = 0 then .ok (.ctxsave (decSrc w 12 lit) (decSrc w 6 lit)) else .error .reservedBits
  | 2 => if fld w 0 6 = 0 then .ok (.ctxrest (decSrc w 12 lit) (decSrc w 6 lit)) else .error .reservedBits
  | 3 => if fld w 0 6 = 0 then (decBounded w 6 6 20).bind fun r' => .ok (.wrsysp (decSrc w 12 lit) r') else .error .reservedBits
  | 4 => if fld w 0 18 = 0 then .ok (.halt) else .error .reservedBits
  | 5 => if fld w 0 6 = 0 then .ok (.mpld (decSrc w 12 lit) (decSrc w 6 lit)) else .error .reservedBits
  | 6 => if fld w 0 6 = 0 then .ok (.tlbinv (decSrc w 12 lit) (decSrc w 6 lit)) else .error .reservedBits
  | 7 => if fld w 0 6 = 0 then .ok (.kidset (decSrc w 12 lit) (decSrc w 6 lit)) else .error .reservedBits
  | 8 => if fld w 0 12 = 0 then .ok (.kidkill (decSrc w 12 lit)) else .error .reservedBits
  | _ => .error .reservedMinor

/-- The classes by major opcode; 28 to 31 are reserved (R36). -/
noncomputable def decodeFields (w : Nat) (lit : BitVec 32) : Except DecodeError Instr :=
  match fld w 26 5 with
  | 0 => decodeBc w
  | 1 => decodeSar w lit
  | 2 => decodeSai w lit
  | 3 => decodeSmx w lit
  | 4 => decodeSfp w lit
  | 5 => decodeScp w lit
  | 6 => decodeBr w lit
  | 7 => decodeLoop w lit
  | 8 => decodeLd w lit
  | 9 => decodeSt w lit
  | 10 => decodeAtm w
  | 11 => decodeSync w lit
  | 12 => decodeVia w
  | 13 => decodeVfa w
  | 14 => decodeVcv w lit
  | 15 => decodeVrd w
  | 16 => decodeVpm w lit
  | 17 => decodeSfu w
  | 18 => decodeWin w lit
  | 19 => decodeMxc w lit
  | 20 => decodeRng w lit
  | 21 => decodeEng w lit
  | 22 => decodeTsk w lit
  | 23 => decodeStp w lit
  | 24 => decodeGst w lit
  | 25 => decodeChk w lit
  | 26 => decodeSys w lit
  | 27 => decodePrv w lit
  | _ => .error .reservedMajor

/-- The body of a slot word, with the word after it as its literal (R21, R23). -/
noncomputable def decodeBody (w : Nat) (lit : BitVec 32) : Except DecodeError Instr :=
  (decodeFields w lit).bind fun i => if i.wf then .ok i else .error .illFormed

/-- A slot: header and body (R20). -/
noncomputable def decodeSlot (w lit : BitVec 32) : Except DecodeError Slot :=
  (decodeBody w.toNat lit).bind fun i => .ok ⟨decBit w.toNat 31, decFull w.toNat 22 4, i⟩

/-- The scalar source fields of a word by its class, whether or not the word is well formed: (low bit) of each field (R36). -/
def markedFields (w : Nat) : List Nat :=
  match fld w 26 5 with
  | 1 => [10, 4]
  | 2 => [10]
  | 3 => [10, 4]
  | 4 => [10, 4]
  | 5 => if fld w 0 5 ≤ 10 then [11, 5] else []
  | 6 => if 2 ≤ fld w 19 3 ∧ fld w 19 3 ≤ 4 then [13] else []
  | 7 => if fld w 19 3 = 0 ∨ fld w 19 3 = 4 ∨ fld w 19 3 = 5 then [13] else []
  | 8 => [7]
  | 9 => if fld w 19 3 ≤ 3 then [13, 7] else [7]
  | 11 => if fld w 18 4 = 2 then [6] else if fld w 18 4 = 3 then [12, 6] else []
  | 14 => [0]
  | 16 => if fld w 15 5 = 1 ∨ fld w 15 5 = 3 ∨ fld w 15 5 = 20 then [0] else []
  | 18 => if fld w 19 3 = 7 then [] else if fld w 19 3 = 2 then [3] else [9, 3]
  | 19 => if fld w 19 3 = 1 ∨ fld w 19 3 = 7 then [10] else []
  | 20 => if fld w 19 3 = 6 then [] else [9]
  | 21 => [7]
  | 22 => if fld w 20 2 = 0 then [8] else if fld w 20 2 = 1 then [14] else []
  | 23 =>
    if fld w 19 3 = 2 then [13, 7] else if fld w 19 3 = 1 ∨ fld w 19 3 = 3 ∨ fld w 19 3 = 5 then [13]
    else if fld w 19 3 = 4 then [7] else []
  | 24 => if fld w 20 2 = 3 then [] else [11]
  | 25 => if fld w 19 3 = 0 then [13, 7] else if fld w 19 3 = 2 then [13] else []
  | 26 => if fld w 19 3 = 3 then [13] else []
  | 27 => if fld w 18 4 = 3 ∨ fld w 18 4 = 8 then [12] else if fld w 18 4 = 0 ∨ fld w 18 4 = 4 then [] else [12, 6]
  | _ => []

/-- Whether a slot word names a literal (R21). -/
def namesLiteral (w : BitVec 32) : Bool := (markedFields w.toNat).any fun lo => fld w.toNat lo 6 == 63

/-- A micro-operation (R166). -/
noncomputable def decodeMicro (w : Nat) : Except DecodeError Instr :=
  (match fld w 12 4 with
  | 0 => if fld w 0 12 = 0 then .ok .uEnd else .error .reservedBits
  | 1 => if fld w 0 12 = 0 then .ok .uGeta else .error .reservedBits
  | 2 => if fld w 0 12 = 0 then .ok .uGetb else .error .reservedBits
  | 3 => if fld w 0 12 = 0 then .ok .uMac else .error .reservedBits
  | 4 => if fld w 0 12 = 0 then .ok .uRela else .error .reservedBits
  | 5 => if fld w 0 12 = 0 then .ok .uRelb else .error .reservedBits
  | 6 => if fld w 0 12 = 0 then .ok .uLoopk else .error .reservedBits
  | 7 => if fld w 0 12 = 0 then .ok .uEndl else .error .reservedBits
  | 8 => if fld w 0 12 = 0 then .ok .uCson else .error .reservedBits
  | 9 => if fld w 0 12 = 0 then .ok .uCsoff else .error .reservedBits
  | 10 => if fld w 0 12 = 0 then .ok .uZero else .error .reservedBits
  | 11 => if fld w 1 11 = 0 then .ok (.uSub (decBit w 0)) else .error .reservedBits
  | 12 => if fld w 4 8 = 0 then .ok (.uKmask (decBits w 0 4)) else .error .reservedBits
  | 13 => if fld w 8 4 = 0 then .ok (.uTag (decBits w 0 8)) else .error .reservedBits
  | 14 => if fld w 0 12 = 0 then .ok .uNop else .error .reservedBits
  | 15 => if fld w 0 12 = 0 then .ok .uGetab else .error .reservedBits
  | _ => .error .reservedMinor : Except DecodeError Instr).bind fun i => if i.wf then .ok i else .error .illFormed

/-- A node of the command graph from its four words (R360, R361). -/
noncomputable def decodeNodeFields (w0 w1 w2 w3 : Nat) : Except DecodeError Instr :=
  match fld w0 0 8 with
  | 1 =>
    if fld w0 19 45 = 0 ∧ fld w1 56 8 = 0 ∧ fld w2 16 48 = 0 ∧ w3 = 0 then
      .ok (.nodeLaunch (decFull w0 8 6) (decFull w0 14 4) (decBit w0 18) (decBits w1 0 56) (decBits w2 0 16))
    else .error .badNode
  | 2 => if fld w0 24 40 = 0 ∧ w1 = 0 ∧ w2 = 0 ∧ w3 = 0 then .ok (.nodeWaitk (decBits w0 8 16)) else .error .badNode
  | 3 => if fld w0 8 56 = 0 ∧ w1 = 0 ∧ w2 = 0 ∧ w3 = 0 then .ok .nodeStep else .error .badNode
  | 4 =>
    if fld w0 19 45 = 0 ∧ fld w0 17 1 = 0 ∧ fld w3 56 8 = 0 then
      (decBounded w0 9 5 17).bind fun sreg =>
        .ok (.nodeCond (decBit w0 8) sreg (decFull w0 14 3) (decBit w0 18) (decBits w1 0 64) (decBits w2 0 64) (decBits w3 0 56))
    else .error .badNode
  | 5 =>
    if fld w0 28 36 = 0 ∧ w2 = 0 ∧ w3 = 0 then .ok (.nodePost (decFull w0 8 4) (decBits w0 12 16) (decBits w1 0 64))
    else .error .badNode
  | 6 =>
    if fld w0 13 51 = 0 ∧ w2 = 0 ∧ w3 = 0 then
      (decBounded w0 8 5 17).bind fun sreg => .ok (.nodeSetr sreg (decBits w1 0 64))
    else .error .badNode
  | 7 =>
    if fld w0 11 53 = 0 ∧ w1 = 0 ∧ w2 = 0 ∧ w3 = 0 then (decScope w0 8).bind fun s => .ok (.nodeFence s) else .error .badNode
  | 8 => if fld w0 24 40 = 0 ∧ w1 = 0 ∧ w2 = 0 ∧ w3 = 0 then .ok (.nodeStop (decBits w0 8 16)) else .error .badNode
  | _ => .error .badNode

/-- A node with its limits checked (R360). -/
noncomputable def decodeNode (w0 w1 w2 w3 : Word) : Except DecodeError Instr :=
  (decodeNodeFields w0.toNat w1.toNat w2.toNat w3.toNat).bind fun i => if i.wf then .ok i else .error .badNode

/-! ## Bundles -/

/-- A bundle as fetch frames it: its slot words, each with the word after it, its length in words, and the first fault of framing. -/
structure Framed where
  /-- Slot words, each with the literal word that follows it where it names one. -/
  slots : List (BitVec 32 × BitVec 32)
  /-- Words taken, literals included. -/
  words : Nat
  /-- The word that could not be read. -/
  stop  : Option Nat
  /-- No slot with E = 1 among the first eight (R45). -/
  open9 : Bool
  deriving DecidableEq, Repr, Inhabited

/-- Frames a bundle from the words that `read` gives: through the first slot whose E is 1 and its literal (R21). -/
def frameFrom (read : Nat → Option (BitVec 32)) : Nat → Nat → List (BitVec 32 × BitVec 32) → Framed
  | 0, i, acc => ⟨acc.reverse, i, none, true⟩
  | fuel + 1, i, acc =>
    match read i with
    | none => ⟨acc.reverse, i, some i, false⟩
    | some w =>
      if namesLiteral w then
        match read (i + 1) with
        | none => ⟨acc.reverse, i + 1, some (i + 1), false⟩
        | some l =>
          if decBit w.toNat 31 then ⟨((w, l) :: acc).reverse, i + 2, none, false⟩ else frameFrom read fuel (i + 2) ((w, l) :: acc)
      else if decBit w.toNat 31 then ⟨((w, 0) :: acc).reverse, i + 1, none, false⟩
      else frameFrom read fuel (i + 1) ((w, 0) :: acc)

/-- A bundle of at most eight slots (R21). -/
def frame (read : Nat → Option (BitVec 32)) : Framed := frameFrom read 8 0 []

/-- The slots of a framed bundle up to the first that is no instruction, with that slot's index. -/
noncomputable def decodeSlots : List (BitVec 32 × BitVec 32) → Nat → List Slot × Option Nat
  | [], _ => ([], none)
  | (w, l) :: rest, i =>
    match decodeSlot w l with
    | .error _ => ([], some i)
    | .ok s => let (ss, e) := decodeSlots rest (i + 1); (s :: ss, e)

/-- How many of a bundle's slots stand in one group. -/
def groupCount (g : Group) (ss : List Slot) : Nat := (ss.filter fun s => s.op.group == g).length

/-- The sum of the vector slots' widths (R22). -/
def widthSum (ss : List Slot) : Nat := ((ss.filter fun s => s.op.group == .vector).map fun s => s.op.vwidth).sum

/-- The number of literal words (R23). -/
def literalCount (ss : List Slot) : Nat := (ss.filter fun s => !s.op.lits.isEmpty).length

/-- The limits of R22 and R23 on the slots of a bundle. -/
def limitsOk (ss : List Slot) : Bool :=
  groupCount .bc ss ≤ 1 && groupCount .scalar ss ≤ 2 && groupCount .vector ss ≤ 3 && widthSum ss ≤ 2048 &&
  groupCount .sfu ss ≤ 1 && groupCount .mem ss ≤ 2 && groupCount .branch ss ≤ 1 && groupCount .other ss ≤ 1 && literalCount ss ≤ 2

/-- Destinations of a slot for the same-destination rule: s0 and p0 apart (R24). -/
def Slot.dests (s : Slot) : List Reg := s.op.writes.filter fun r => !r.isConst

/-- A slot that repeats a destination, or a windrow destination, of an earlier slot or of its own (R24). DEDUCED: R24 speaks of two slots and R45 of
the same destination twice, so a load whose d is also the base that it increments raises ILLOP too (log 87). -/
def repeatsDest (earlier : List Slot) (s : Slot) : Bool :=
  (s.dests.any fun r => earlier.any fun e => e.dests.contains r) ||
  (!(decide s.dests.Nodup)) ||
  (s.op.winPushes.any fun w => earlier.any fun e => e.op.winPushes.any fun x => x.1 == w.1)

/-- A slot that reads a windrow at another width than an earlier read of it (R109, R129). -/
def readsOtherWidth (earlier : List Slot) (s : Slot) : Bool :=
  let all := (earlier.flatMap fun e => e.op.winReads) ++ s.op.winReads
  s.op.winReads.any fun w => all.any fun x => x.1 == w.1 && x.2 != w.2

/-- The LEND, RM and BRK fields of a bundle's BC slot; all zero without one (R26). -/
def bcFields (ss : List Slot) : Fin 7 × BitVec 2 × Bool × BitVec 4 × Bool × BitVec 11 :=
  match ss with
  | ⟨_, _, .bc stall y lend rm brk run⟩ :: _ => (lend, rm, brk, stall, y, run)
  | _ => (0, 0, false, 0, false, 0)

/-- LEND of a bundle. -/
def lendOf (ss : List Slot) : Nat := (bcFields ss).1.val

/-- RM of a bundle. -/
def rmOf (ss : List Slot) : BitVec 2 := (bcFields ss).2.1

/-- The rules on which slots may share a bundle with one slot, and the offset of a loop (R99, R296, R297, R319, R339, R348). -/
def companyOk (ss : List Slot) (words : Nat) (s : Slot) : Bool :=
  match s.op with
  | .loop _ o => lendOf ss == 0 && words ≤ o.toNat
  | .loopi _ o => lendOf ss == 0 && words ≤ o.toNat
  | .lexit _ => lendOf ss == 0
  | .rfe => lendOf ss == 0 && groupCount .branch ss == 0
  | .exit _ _ => lendOf ss == 0 && groupCount .branch ss == 0
  | .trap _ => ss.length == 2 && rmOf ss != 0
  | .brk _ => ss.length == 2 && rmOf ss != 0
  | .gphase => 2 ≤ (rmOf ss).toNat
  | .arrive _ => 2 ≤ (rmOf ss).toNat
  | .rdv _ => 2 ≤ (rmOf ss).toNat
  | _ => true

/-- The first slot, by index, that breaks a rule of R22, R23, R24, R45, R99, R129 or R455. -/
def firstBadSlot (all : List Slot) (words : Nat) : List Slot → List Slot → Nat → Option Nat
  | _, [], _ => none
  | earlier, s :: rest, i =>
    if (s.op.group == .bc && i != 0) || s.op.group == .notSlot || !limitsOk (earlier ++ [s]) || repeatsDest earlier s ||
       readsOtherWidth earlier s || !companyOk all words s
    then some i else firstBadSlot all words (earlier ++ [s]) rest (i + 1)

/-- A bundle that fetch has checked: its slots and length, or the index of the first offending slot (R45, R455). DEDUCED: a ninth slot reached
without E, which three bits cannot number, is a fault of the bundle as a whole, with index 0 (R47; log 87). -/
noncomputable def checkFramed (f : Framed) : Except Nat (List Slot) :=
  let (ss, bad) := decodeSlots f.slots 0
  match firstBadSlot ss f.words [] ss 0 with
  | some i => .error i
  | none =>
    match bad with
    | some i => .error i
    | none => if f.open9 then .error 0 else .ok ss

/-! ## Encoding -/

/-- A source field's six bits (R23). -/
def encSrc : Src → Nat
  | .reg r => r.val
  | .lit _ => 63

/-- One bit. -/
def encBit (b : Bool) : Nat := if b then 1 else 0

/-- A vector field's five bits (R36). -/
def encVOp : VOp → Nat
  | .reg v => v.val
  | .win w => 16 + w.val

/-- The W field. -/
def encWidth : Width → Nat
  | .w256 => 0
  | .w512 => 1
  | .w1k => 2

/-- A scope field. -/
def encScope : Scope → Nat
  | .ctx => 0
  | .core => 1
  | .sheaf => 2
  | .field => 3
  | .pkg => 4
  | .host => 5
  | .sys => 6

/-- The ord field. -/
def encOrder : Order → Nat
  | .acq => 1
  | .rel => 2
  | .ar => 3

/-- The bits [30:26] and [21:0] of a slot word, or the 16 bits of a micro-operation, that stand for an instruction; 0 for a row
without an encoding. -/
def encodeBody : Instr → Nat
  | .bc stall y lend rm brk run => 0 + stall.toNat * 262144 + encBit y * 131072 + lend.val * 16384 + rm.toNat * 4096 + encBit brk * 2048 + run.toNat
  | .add d a b => 67108864 + d.val * 65536 + encSrc a * 1024 + encSrc b * 16
  | .sub d a b => 67108865 + d.val * 65536 + encSrc a * 1024 + encSrc b * 16
  | .mul d a b => 67108866 + d.val * 65536 + encSrc a * 1024 + encSrc b * 16
  | .mulh d a b => 67108867 + d.val * 65536 + encSrc a * 1024 + encSrc b * 16
  | .mulhn d a b => 67108868 + d.val * 65536 + encSrc a * 1024 + encSrc b * 16
  | .and d a b => 67108869 + d.val * 65536 + encSrc a * 1024 + encSrc b * 16
  | .or d a b => 67108870 + d.val * 65536 + encSrc a * 1024 + encSrc b * 16
  | .xor d a b => 67108871 + d.val * 65536 + encSrc a * 1024 + encSrc b * 16
  | .andn d a b => 67108872 + d.val * 65536 + encSrc a * 1024 + encSrc b * 16
  | .shl d a b => 67108873 + d.val * 65536 + encSrc a * 1024 + encSrc b * 16
  | .shr d a b => 67108874 + d.val * 65536 + encSrc a * 1024 + encSrc b * 16
  | .sar d a b => 67108875 + d.val * 65536 + encSrc a * 1024 + encSrc b * 16
  | .min d a b => 67108876 + d.val * 65536 + encSrc a * 1024 + encSrc b * 16
  | .max d a b => 67108877 + d.val * 65536 + encSrc a * 1024 + encSrc b * 16
  | .minn d a b => 67108878 + d.val * 65536 + encSrc a * 1024 + encSrc b * 16
  | .maxn d a b => 67108879 + d.val * 65536 + encSrc a * 1024 + encSrc b * 16
  | .addi d a imm => 134217728 + d.val * 65536 + encSrc a * 1024 + imm.toNat
  | .andi d a imm => 134217856 + d.val * 65536 + encSrc a * 1024 + imm.toNat
  | .ori d a imm => 134217984 + d.val * 65536 + encSrc a * 1024 + imm.toNat
  | .xori d a imm => 134218112 + d.val * 65536 + encSrc a * 1024 + imm.toNat
  | .shli d a imm => 134218240 + d.val * 65536 + encSrc a * 1024 + imm.toNat
  | .shri d a imm => 134218368 + d.val * 65536 + encSrc a * 1024 + imm.toNat
  | .sari d a imm => 134218496 + d.val * 65536 + encSrc a * 1024 + imm.toNat
  | .rsubi d a imm => 134218624 + d.val * 65536 + encSrc a * 1024 + imm.toNat
  | .div d a b => 201326592 + d.val * 65536 + encSrc a * 1024 + encSrc b * 16
  | .divn d a b => 201326593 + d.val * 65536 + encSrc a * 1024 + encSrc b * 16
  | .rem d a b => 201326594 + d.val * 65536 + encSrc a * 1024 + encSrc b * 16
  | .remn d a b => 201326595 + d.val * 65536 + encSrc a * 1024 + encSrc b * 16
  | .clz d a => 201326596 + d.val * 65536 + encSrc a * 1024
  | .ctz d a => 201326597 + d.val * 65536 + encSrc a * 1024
  | .popc d a => 201326598 + d.val * 65536 + encSrc a * 1024
  | .brev d a => 201326599 + d.val * 65536 + encSrc a * 1024
  | .bswap d a => 201326600 + d.val * 65536 + encSrc a * 1024
  | .sext d a b => 201326601 + d.val * 65536 + encSrc a * 1024 + encSrc b * 16
  | .zext d a b => 201326602 + d.val * 65536 + encSrc a * 1024 + encSrc b * 16
  | .bfx d a b => 201326603 + d.val * 65536 + encSrc a * 1024 + encSrc b * 16
  | .bfi d a b => 201326604 + d.val * 65536 + encSrc a * 1024 + encSrc b * 16
  | .abs d a => 201326605 + d.val * 65536 + encSrc a * 1024
  | .neg d a => 201326606 + d.val * 65536 + encSrc a * 1024
  | .fadd d a b => 268435456 + d.val * 65536 + encSrc a * 1024 + encSrc b * 16
  | .fsub d a b => 268435457 + d.val * 65536 + encSrc a * 1024 + encSrc b * 16
  | .fmul d a b => 268435458 + d.val * 65536 + encSrc a * 1024 + encSrc b * 16
  | .fdiv d a b => 268435459 + d.val * 65536 + encSrc a * 1024 + encSrc b * 16
  | .fsqrt d a => 268435460 + d.val * 65536 + encSrc a * 1024
  | .fmin d a b => 268435461 + d.val * 65536 + encSrc a * 1024 + encSrc b * 16
  | .fmax d a b => 268435462 + d.val * 65536 + encSrc a * 1024 + encSrc b * 16
  | .fabs d a => 268435463 + d.val * 65536 + encSrc a * 1024
  | .fneg d a => 268435464 + d.val * 65536 + encSrc a * 1024
  | .fitof d a => 268435465 + d.val * 65536 + encSrc a * 1024
  | .ftoi d a => 268435466 + d.val * 65536 + encSrc a * 1024
  | .fround d a => 268435467 + d.val * 65536 + encSrc a * 1024
  | .ceq p cflag a b => 335544320 + p.val * 262144 + encBit cflag * 131072 + encSrc a * 2048 + encSrc b * 32
  | .cne p cflag a b => 335544321 + p.val * 262144 + encBit cflag * 131072 + encSrc a * 2048 + encSrc b * 32
  | .clt p cflag a b => 335544322 + p.val * 262144 + encBit cflag * 131072 + encSrc a * 2048 + encSrc b * 32
  | .cge p cflag a b => 335544323 + p.val * 262144 + encBit cflag * 131072 + encSrc a * 2048 + encSrc b * 32
  | .cltn p cflag a b => 335544324 + p.val * 262144 + encBit cflag * 131072 + encSrc a * 2048 + encSrc b * 32
  | .cgen p cflag a b => 335544325 + p.val * 262144 + encBit cflag * 131072 + encSrc a * 2048 + encSrc b * 32
  | .ctst p cflag a b => 335544326 + p.val * 262144 + encBit cflag * 131072 + encSrc a * 2048 + encSrc b * 32
  | .fceq p cflag a b => 335544327 + p.val * 262144 + encBit cflag * 131072 + encSrc a * 2048 + encSrc b * 32
  | .fclt p cflag a b => 335544328 + p.val * 262144 + encBit cflag * 131072 + encSrc a * 2048 + encSrc b * 32
  | .fcle p cflag a b => 335544329 + p.val * 262144 + encBit cflag * 131072 + encSrc a * 2048 + encSrc b * 32
  | .fcun p cflag a b => 335544330 + p.val * 262144 + encBit cflag * 131072 + encSrc a * 2048 + encSrc b * 32
  | .pand p cflag q r => 335544331 + p.val * 262144 + encBit cflag * 131072 + q.val * 2048 + r.val * 32
  | .por p cflag q r => 335544332 + p.val * 262144 + encBit cflag * 131072 + q.val * 2048 + r.val * 32
  | .pxor p cflag q r => 335544333 + p.val * 262144 + encBit cflag * 131072 + q.val * 2048 + r.val * 32
  | .pandn p cflag q r => 335544334 + p.val * 262144 + encBit cflag * 131072 + q.val * 2048 + r.val * 32
  | .pset p cflag v => 335544335 + p.val * 262144 + encBit cflag * 131072 + encBit v * 2048
  | .kany p cflag k => 335544336 + p.val * 262144 + encBit cflag * 131072 + k.val * 2048
  | .kall p cflag k => 335544337 + p.val * 262144 + encBit cflag * 131072 + k.val * 2048
  | .knone p cflag k => 335544338 + p.val * 262144 + encBit cflag * 131072 + k.val * 2048
  | .br o => 402653184 + o.toNat
  | .call o => 403177472 + o.toNat
  | .bi a => 403701760 + encSrc a * 8192
  | .calli a => 404226048 + encSrc a * 8192
  | .ret a => 404750336 + encSrc a * 8192
  | .bk k o => 405274624 + k.val * 65536 + o.toNat
  | .bkn k o => 405798912 + k.val * 65536 + o.toNat
  | .loop a o => 469762048 + encSrc a * 8192 + o.toNat
  | .loopi n o => 470286336 + n.toNat * 1024 + o.toNat
  | .lexit l => 470810624 + l.val * 65536
  | .rdlp d x l => 471334912 + d.val * 8192 + encBit x * 4096 + l.val * 512
  | .wrlp a x l => 471859200 + encSrc a * 8192 + encBit x * 4096 + l.val * 512
  | .replay a n => 472383488 + encSrc a * 8192 + n.toNat * 128
  | .stgset p n => 472907776 + p.val * 32768 + n.toNat * 4096
  | .ldb d b m i => 536870912 + d.val * 8192 + encSrc b * 128 + m.val * 16 + i.toNat
  | .ldh d b m i => 537395200 + d.val * 8192 + encSrc b * 128 + m.val * 16 + i.toNat
  | .ldw d b m i => 537919488 + d.val * 8192 + encSrc b * 128 + m.val * 16 + i.toNat
  | .ldd d b m i => 538443776 + d.val * 8192 + encSrc b * 128 + m.val * 16 + i.toNat
  | .ldv256 v b m i => 538968064 + encVOp v * 8192 + encSrc b * 128 + m.val * 16 + i.toNat
  | .ldv512 v b m i => 539492352 + encVOp v * 8192 + encSrc b * 128 + m.val * 16 + i.toNat
  | .ldv1k v b m i => 540016640 + encVOp v * 8192 + encSrc b * 128 + m.val * 16 + i.toNat
  | .ldbc v b m i => 540540928 + encVOp v * 8192 + encSrc b * 128 + m.val * 16 + i.toNat
  | .stb a b m i => 603979776 + encSrc a * 8192 + encSrc b * 128 + m.val * 16 + i.toNat
  | .sth a b m i => 604504064 + encSrc a * 8192 + encSrc b * 128 + m.val * 16 + i.toNat
  | .stw a b m i => 605028352 + encSrc a * 8192 + encSrc b * 128 + m.val * 16 + i.toNat
  | .std a b m i => 605552640 + encSrc a * 8192 + encSrc b * 128 + m.val * 16 + i.toNat
  | .stv256 v b m i => 606076928 + encVOp v * 8192 + encSrc b * 128 + m.val * 16 + i.toNat
  | .stv512 v b m i => 606601216 + encVOp v * 8192 + encSrc b * 128 + m.val * 16 + i.toNat
  | .stv1k v b m i => 607125504 + encVOp v * 8192 + encSrc b * 128 + m.val * 16 + i.toNat
  | .stvk v b k i => 607649792 + encVOp v * 8192 + encSrc b * 128 + k.val * 16 + i.toNat
  | .aswap d a b s z => 671088640 + d.val * 131072 + a.val * 4096 + b.val * 128 + encScope s * 2 + encBit z
  | .aadd d a b s z => 671088656 + d.val * 131072 + a.val * 4096 + b.val * 128 + encScope s * 2 + encBit z
  | .aand d a b s z => 671088672 + d.val * 131072 + a.val * 4096 + b.val * 128 + encScope s * 2 + encBit z
  | .aor d a b s z => 671088688 + d.val * 131072 + a.val * 4096 + b.val * 128 + encScope s * 2 + encBit z
  | .amax d a b s z => 671088704 + d.val * 131072 + a.val * 4096 + b.val * 128 + encScope s * 2 + encBit z
  | .amin d a b s z => 671088720 + d.val * 131072 + a.val * 4096 + b.val * 128 + encScope s * 2 + encBit z
  | .acas d a b s z => 671088736 + d.val * 131072 + a.val * 4096 + b.val * 128 + encScope s * 2 + encBit z
  | .afadd d a b s => 671088753 + d.val * 131072 + a.val * 4096 + b.val * 128 + encScope s * 2
  | .fence s o => 738197504 + encScope s * 32768 + encOrder o * 8192
  | .drain => 738459648
  | .lda d b s z => 738721792 + d.val * 4096 + encSrc b * 64 + encScope s * 8 + encBit z * 2
  | .strl a b s z => 738983936 + encSrc a * 4096 + encSrc b * 64 + encScope s * 8 + encBit z * 2
  | .waiteng t => 739246080 + t.val * 4096
  | .arrive b => 739508224 + b.val * 16384
  | .waitb b => 739770368 + b.val * 16384
  | .rdv b => 740032512 + b.val * 16384
  | .gphase => 740294656
  | .vaddI8 w d a b => 805306368 + encWidth w * 1048576 + encVOp d * 1024 + encVOp a * 32 + encVOp b
  | .vaddI16 w d a b => 805339136 + encWidth w * 1048576 + encVOp d * 1024 + encVOp a * 32 + encVOp b
  | .vaddI32 w d a b => 805371904 + encWidth w * 1048576 + encVOp d * 1024 + encVOp a * 32 + encVOp b
  | .vsubI8 w d a b => 805404672 + encWidth w * 1048576 + encVOp d * 1024 + encVOp a * 32 + encVOp b
  | .vsubI16 w d a b => 805437440 + encWidth w * 1048576 + encVOp d * 1024 + encVOp a * 32 + encVOp b
  | .vsubI32 w d a b => 805470208 + encWidth w * 1048576 + encVOp d * 1024 + encVOp a * 32 + encVOp b
  | .vmulI16 w d a b => 805502976 + encWidth w * 1048576 + encVOp d * 1024 + encVOp a * 32 + encVOp b
  | .vmulI32 w d a b => 805535744 + encWidth w * 1048576 + encVOp d * 1024 + encVOp a * 32 + encVOp b
  | .vmulhI32 w d a b => 805568512 + encWidth w * 1048576 + encVOp d * 1024 + encVOp a * 32 + encVOp b
  | .vminI32 w d a b => 805601280 + encWidth w * 1048576 + encVOp d * 1024 + encVOp a * 32 + encVOp b
  | .vmaxI32 w d a b => 805634048 + encWidth w * 1048576 + encVOp d * 1024 + encVOp a * 32 + encVOp b
  | .vminnN32 w d a b => 805666816 + encWidth w * 1048576 + encVOp d * 1024 + encVOp a * 32 + encVOp b
  | .vmaxnN32 w d a b => 805699584 + encWidth w * 1048576 + encVOp d * 1024 + encVOp a * 32 + encVOp b
  | .vand w d a b => 805732352 + encWidth w * 1048576 + encVOp d * 1024 + encVOp a * 32 + encVOp b
  | .vor w d a b => 805765120 + encWidth w * 1048576 + encVOp d * 1024 + encVOp a * 32 + encVOp b
  | .vxor w d a b => 805797888 + encWidth w * 1048576 + encVOp d * 1024 + encVOp a * 32 + encVOp b
  | .vandn w d a b => 805830656 + encWidth w * 1048576 + encVOp d * 1024 + encVOp a * 32 + encVOp b
  | .vshlI32 w d a b => 805863424 + encWidth w * 1048576 + encVOp d * 1024 + encVOp a * 32 + encVOp b
  | .vshrN32 w d a b => 805896192 + encWidth w * 1048576 + encVOp d * 1024 + encVOp a * 32 + encVOp b
  | .vsarI32 w d a b => 805928960 + encWidth w * 1048576 + encVOp d * 1024 + encVOp a * 32 + encVOp b
  | .vaddsI8 w d a b => 805961728 + encWidth w * 1048576 + encVOp d * 1024 + encVOp a * 32 + encVOp b
  | .vaddsI16 w d a b => 805994496 + encWidth w * 1048576 + encVOp d * 1024 + encVOp a * 32 + encVOp b
  | .vsubsI8 w d a b => 806027264 + encWidth w * 1048576 + encVOp d * 1024 + encVOp a * 32 + encVOp b
  | .vsubsI16 w d a b => 806060032 + encWidth w * 1048576 + encVOp d * 1024 + encVOp a * 32 + encVOp b
  | .vceqI32 w k a b => 806092800 + encWidth w * 1048576 + k.val * 1024 + encVOp a * 32 + encVOp b
  | .vcltI32 w k a b => 806125568 + encWidth w * 1048576 + k.val * 1024 + encVOp a * 32 + encVOp b
  | .vcltnN32 w k a b => 806158336 + encWidth w * 1048576 + k.val * 1024 + encVOp a * 32 + encVOp b
  | .vabsI32 w d a => 806191104 + encWidth w * 1048576 + encVOp d * 1024 + encVOp a * 32
  | .vmadI16 w d a b => 806223872 + encWidth w * 1048576 + encVOp d * 1024 + encVOp a * 32 + encVOp b
  | .vdot4I8 w d a b => 806256640 + encWidth w * 1048576 + encVOp d * 1024 + encVOp a * 32 + encVOp b
  | .vclzI32 w d a => 806289408 + encWidth w * 1048576 + encVOp d * 1024 + encVOp a * 32
  | .vpopcI32 w d a => 806322176 + encWidth w * 1048576 + encVOp d * 1024 + encVOp a * 32
  | .vfaddF32 w d a b => 872415232 + encWidth w * 1048576 + encVOp d * 1024 + encVOp a * 32 + encVOp b
  | .vfsubF32 w d a b => 872448000 + encWidth w * 1048576 + encVOp d * 1024 + encVOp a * 32 + encVOp b
  | .vfmulF32 w d a b => 872480768 + encWidth w * 1048576 + encVOp d * 1024 + encVOp a * 32 + encVOp b
  | .vfmaF32 w d a b => 872513536 + encWidth w * 1048576 + encVOp d * 1024 + encVOp a * 32 + encVOp b
  | .vfmsF32 w d a b => 872546304 + encWidth w * 1048576 + encVOp d * 1024 + encVOp a * 32 + encVOp b
  | .vfminF32 w d a b => 872579072 + encWidth w * 1048576 + encVOp d * 1024 + encVOp a * 32 + encVOp b
  | .vfmaxF32 w d a b => 872611840 + encWidth w * 1048576 + encVOp d * 1024 + encVOp a * 32 + encVOp b
  | .vfabsF32 w d a => 872644608 + encWidth w * 1048576 + encVOp d * 1024 + encVOp a * 32
  | .vfnegF32 w d a => 872677376 + encWidth w * 1048576 + encVOp d * 1024 + encVOp a * 32
  | .vfdivF32 w d a b => 872710144 + encWidth w * 1048576 + encVOp d * 1024 + encVOp a * 32 + encVOp b
  | .vfsqrtF32 w d a => 872742912 + encWidth w * 1048576 + encVOp d * 1024 + encVOp a * 32
  | .vfceqF32 w k a b => 872775680 + encWidth w * 1048576 + k.val * 1024 + encVOp a * 32 + encVOp b
  | .vfcltF32 w k a b => 872808448 + encWidth w * 1048576 + k.val * 1024 + encVOp a * 32 + encVOp b
  | .vfcleF32 w k a b => 872841216 + encWidth w * 1048576 + k.val * 1024 + encVOp a * 32 + encVOp b
  | .vfcunF32 w k a b => 872873984 + encWidth w * 1048576 + k.val * 1024 + encVOp a * 32 + encVOp b
  | .vfaddBf16 w d a b => 872906752 + encWidth w * 1048576 + encVOp d * 1024 + encVOp a * 32 + encVOp b
  | .vfmulBf16 w d a b => 872939520 + encWidth w * 1048576 + encVOp d * 1024 + encVOp a * 32 + encVOp b
  | .vfmaBf16 w d a b => 872972288 + encWidth w * 1048576 + encVOp d * 1024 + encVOp a * 32 + encVOp b
  | .vfminBf16 w d a b => 873005056 + encWidth w * 1048576 + encVOp d * 1024 + encVOp a * 32 + encVOp b
  | .vfmaxBf16 w d a b => 873037824 + encWidth w * 1048576 + encVOp d * 1024 + encVOp a * 32 + encVOp b
  | .vfsclF32 w d a b => 873070592 + encWidth w * 1048576 + encVOp d * 1024 + encVOp a * 32 + encVOp b
  | .vfrndF32 w d a => 873103360 + encWidth w * 1048576 + encVOp d * 1024 + encVOp a * 32
  | .vfamaxF32 w d a b => 873136128 + encWidth w * 1048576 + encVOp d * 1024 + encVOp a * 32 + encVOp b
  | .cvtF32Bf16 w d a => 939524096 + encWidth w * 1048576 + encVOp d * 2048 + encVOp a * 64
  | .cvtBf16F32 w d a => 939589632 + encWidth w * 1048576 + encVOp d * 2048 + encVOp a * 64
  | .cvtF32I32 w d a => 939655168 + encWidth w * 1048576 + encVOp d * 2048 + encVOp a * 64
  | .cvtI32F32 w d a => 939720704 + encWidth w * 1048576 + encVOp d * 2048 + encVOp a * 64
  | .cvtMx8F32 d a s => 941883392 + encVOp d * 2048 + encVOp a * 64 + encSrc s
  | .cvtMx6F32 d a s => 941948928 + encVOp d * 2048 + encVOp a * 64 + encSrc s
  | .cvtMx4F32 d a s => 942014464 + encVOp d * 2048 + encVOp a * 64 + encSrc s
  | .cvtF32Mx8 d a s => 942080000 + encVOp d * 2048 + encVOp a * 64 + encSrc s
  | .cvtF32Mx6 d a s => 942145536 + encVOp d * 2048 + encVOp a * 64 + encSrc s
  | .cvtF32Mx4 d a s => 942211072 + encVOp d * 2048 + encVOp a * 64 + encSrc s
  | .cvtF8e4F32 w d a => 940179456 + encWidth w * 1048576 + encVOp d * 2048 + encVOp a * 64
  | .cvtF32F8e4 w d a => 940244992 + encWidth w * 1048576 + encVOp d * 2048 + encVOp a * 64
  | .cvtF8e5F32 w d a => 940310528 + encWidth w * 1048576 + encVOp d * 2048 + encVOp a * 64
  | .cvtF32F8e5 w d a => 940376064 + encWidth w * 1048576 + encVOp d * 2048 + encVOp a * 64
  | .bscale d a => 942538752 + encVOp d * 2048 + encVOp a * 64
  | .cvtBf16F32Sr w d a => 940507136 + encWidth w * 1048576 + encVOp d * 2048 + encVOp a * 64
  | .vrsumF32 w d a => 1006632960 + encWidth w * 1048576 + encVOp d * 1024 + encVOp a * 32
  | .vrmaxF32 w d a => 1006665728 + encWidth w * 1048576 + encVOp d * 1024 + encVOp a * 32
  | .vrminF32 w d a => 1006698496 + encWidth w * 1048576 + encVOp d * 1024 + encVOp a * 32
  | .vrsumI32 w d a => 1006731264 + encWidth w * 1048576 + encVOp d * 1024 + encVOp a * 32
  | .vrmaxI32 w d a => 1006764032 + encWidth w * 1048576 + encVOp d * 1024 + encVOp a * 32
  | .vrminI32 w d a => 1006796800 + encWidth w * 1048576 + encVOp d * 1024 + encVOp a * 32
  | .vramaxF32 w d a => 1006829568 + encWidth w * 1048576 + encVOp d * 1024 + encVOp a * 32
  | .vdeltaF32 w d a b => 1006862336 + encWidth w * 1048576 + encVOp d * 1024 + encVOp a * 32 + encVOp b
  | .vdeltaBf16 w d a b => 1006895104 + encWidth w * 1048576 + encVOp d * 1024 + encVOp a * 32 + encVOp b
  | .vmaxmagF32 w d a => 1006927872 + encWidth w * 1048576 + encVOp d * 1024 + encVOp a * 32
  | .vmaxmagBf16 w d a => 1006960640 + encWidth w * 1048576 + encVOp d * 1024 + encVOp a * 32
  | .vscanF32 w d a => 1006993408 + encWidth w * 1048576 + encVOp d * 1024 + encVOp a * 32
  | .vscanI32 w d a => 1007026176 + encWidth w * 1048576 + encVOp d * 1024 + encVOp a * 32
  | .kcnt w d k => 1007058944 + encWidth w * 1048576 + encVOp d * 1024 + k.val * 32
  | .vmov w d a => 1073741824 + encWidth w * 1048576 + encVOp d * 1024 + encVOp a * 32
  | .vbc w d i s => 1073774592 + encWidth w * 1048576 + encVOp d * 1024 + i.toNat * 64 + encSrc s
  | .vext w d a i => 1073807360 + encWidth w * 1048576 + d.val * 512 + encVOp a * 16 + i.toNat
  | .vins w d i s => 1073840128 + encWidth w * 1048576 + encVOp d * 1024 + i.toNat * 64 + encSrc s
  | .vperm w d a b => 1073872896 + encWidth w * 1048576 + encVOp d * 1024 + encVOp a * 32 + encVOp b
  | .vzip w d a b => 1073905664 + encWidth w * 1048576 + encVOp d * 1024 + encVOp a * 32 + encVOp b
  | .vunzip w d a b => 1073938432 + encWidth w * 1048576 + encVOp d * 1024 + encVOp a * 32 + encVOp b
  | .vrotl w d a c => 1073971200 + encWidth w * 1048576 + encVOp d * 1024 + encVOp a * 32 + c.toNat
  | .vsel w j d a b => 1074003968 + encWidth w * 1048576 + j.val * 32768 + encVOp d * 1024 + encVOp a * 32 + encVOp b
  | .kand k a b => 1074266112 + k.val * 4096 + a.val * 512 + b.val * 64
  | .kor k a b => 1074298880 + k.val * 4096 + a.val * 512 + b.val * 64
  | .kxor k a b => 1074331648 + k.val * 4096 + a.val * 512 + b.val * 64
  | .knot k a => 1074364416 + k.val * 4096 + a.val * 512
  | .kfroms k h s => 1074397184 + k.val * 4096 + encBit h * 64 + encSrc s
  | .ktos a h d => 1074429952 + a.val * 512 + encBit h * 64 + d.val
  | .viota w d => 1074462720 + encWidth w * 1048576 + encVOp d * 1024
  | .vexp2 w d a => 1140850688 + encBit w * 1048576 + encVOp d * 1024 + encVOp a * 32
  | .vexp w d a => 1140883456 + encBit w * 1048576 + encVOp d * 1024 + encVOp a * 32
  | .vlog2 w d a => 1140916224 + encBit w * 1048576 + encVOp d * 1024 + encVOp a * 32
  | .vrcp w d a => 1140948992 + encBit w * 1048576 + encVOp d * 1024 + encVOp a * 32
  | .vrsqrt w d a => 1140981760 + encBit w * 1048576 + encVOp d * 1024 + encVOp a * 32
  | .vlog w d a => 1141014528 + encBit w * 1048576 + encVOp d * 1024 + encVOp a * 32
  | .vsin w d a => 1141047296 + encBit w * 1048576 + encVOp d * 1024 + encVOp a * 32
  | .vcos w d a => 1141080064 + encBit w * 1048576 + encVOp d * 1024 + encVOp a * 32
  | .vtanh w d a => 1141112832 + encBit w * 1048576 + encVOp d * 1024 + encVOp a * 32
  | .vsigm w d a => 1141145600 + encBit w * 1048576 + encVOp d * 1024 + encVOp a * 32
  | .verf w d a => 1141178368 + encBit w * 1048576 + encVOp d * 1024 + encVOp a * 32
  | .vsilu w d a => 1141211136 + encBit w * 1048576 + encVOp d * 1024 + encVOp a * 32
  | .wcfg w s => 1207959552 + w.val * 32768 + encSrc s * 512
  | .wset w s t => 1208483840 + w.val * 32768 + encSrc s * 512 + encSrc t * 8
  | .wget w s t => 1209008128 + w.val * 32768 + s.val * 512 + encSrc t * 8
  | .wrst w => 1209532416 + w.val * 32768
  | .wskip w s => 1210056704 + w.val * 32768 + encSrc s * 512
  | .wisect w => 1210580992 + w.val * 32768
  | .wicnt w s => 1211105280 + w.val * 32768 + encSrc s * 512
  | .wstat w s => 1211629568 + w.val * 32768 + s.val * 512
  | .mcall a r m => 1275068416 + a.val * 131072 + r.toNat * 512 + m.val * 64
  | .mset m a => 1275592704 + m.val * 65536 + encSrc a * 1024
  | .mget m d => 1276116992 + m.val * 65536 + d.val * 1024
  | .mzero a => 1276641280 + a.val * 131072
  | .mdrain a clr v f => 1277165568 + a.val * 131072 + encBit clr * 65536 + encVOp v * 2048 + f.val * 256
  | .mwait a => 1277689856 + a.val * 131072
  | .mstat a d => 1278214144 + a.val * 131072 + d.val * 1024
  | .mcfg a s => 1278738432 + encSrc a * 1024 + encBit s * 64
  | .rcfg b s i p c n => 1342177280 + b.val * 32768 + encSrc s * 512 + encBit i * 256 + encBit p * 128 + encBit c * 64 + encBit n * 32
  | .racq b => 1342701568 + b.val * 32768
  | .rpub b => 1343225856 + b.val * 32768
  | .rwait b => 1343750144 + b.val * 32768
  | .rrel b => 1344274432 + b.val * 32768
  | .reos b => 1344798720 + b.val * 32768
  | .rstat b d i => 1345323008 + b.val * 32768 + d.val * 512 + i.val
  | .rmask b s => 1345847296 + b.val * 32768 + encSrc s * 512
  | .ecopy a l s c t => 1409286144 + encBit a * 131072 + encBit l * 65536 + encScope s * 8192 + encSrc c * 128 + t.val * 2
  | .egath a l s c t => 1409548288 + encBit a * 131072 + encBit l * 65536 + encScope s * 8192 + encSrc c * 128 + t.val * 2
  | .escat a l s c t => 1409810432 + encBit a * 131072 + encBit l * 65536 + encScope s * 8192 + encSrc c * 128 + t.val * 2
  | .esubs a l s c t => 1410072576 + encBit a * 131072 + encBit l * 65536 + encScope s * 8192 + encSrc c * 128 + t.val * 2
  | .ecoll a l s c t => 1410334720 + encBit a * 131072 + encBit l * 65536 + encScope s * 8192 + encSrc c * 128 + t.val * 2
  | .ehalo a l c t => 1410646016 + encBit a * 131072 + encBit l * 65536 + encSrc c * 128 + t.val * 2
  | .ered a l c t => 1410908160 + encBit a * 131072 + encBit l * 65536 + encSrc c * 128 + t.val * 2
  | .eckpt a l s c t => 1411121152 + encBit a * 131072 + encBit l * 65536 + encScope s * 8192 + encSrc c * 128 + t.val * 2
  | .erolb a l s c t => 1411383296 + encBit a * 131072 + encBit l * 65536 + encScope s * 8192 + encSrc c * 128 + t.val * 2
  | .enq q a => 1476395008 + q.val * 16384 + encSrc a * 256
  | .exit a n => 1477443584 + encSrc a * 16384 + n.val * 2048
  | .tid d => 1478492160 + d.val * 8192
  | .tparm d j => 1479016448 + d.val * 8192 + j.val * 128
  | .qstat d q => 1479540736 + d.val * 16384 + q.val * 256
  | .srd d s => 1543503872 + d.val * 8192 + s.val * 256
  | .swr a s => 1544028160 + encSrc a * 8192 + s.val * 256
  | .tmark a b => 1544552448 + encSrc a * 8192 + encSrc b * 128
  | .rrec a => 1545076736 + encSrc a * 8192
  | .rprobe d a => 1545601024 + d.val * 8192 + encSrc a * 128
  | .rgate a => 1546125312 + encSrc a * 8192
  | .mmrd d => 1546649600 + d.val * 8192
  | .mmclr => 1547173888
  | .gpost q a t => 1610612736 + q.val * 131072 + encSrc a * 2048 + t.val * 32
  | .gwait q t => 1611661312 + q.val * 131072 + t.val * 32
  | .gstat q a d => 1612709888 + q.val * 131072 + encSrc a * 2048 + d.val * 32
  | .gpre q => 1613758464 + q.val * 131072
  | .chkeq a b => 1677721600 + encSrc a * 8192 + encSrc b * 128
  | .chkv v w => 1678245888 + v.val * 16384 + w.val * 512
  | .sig a => 1678770176 + encSrc a * 8192
  | .sigrd d => 1679294464 + d.val * 8192
  | .sigclr => 1679818752
  | .trap c => 1744830464 + c.toNat * 128
  | .brk c => 1745354752 + c.toNat * 128
  | .rdsys d r => 1745879040 + d.val * 8192 + r.val * 128
  | .wrsys a r => 1746403328 + encSrc a * 8192 + r.val * 128
  | .lphase n => 1746927616 + n.val * 32768
  | .rfe => 1811939328
  | .ctxsave a b => 1812201472 + encSrc a * 4096 + encSrc b * 64
  | .ctxrest a b => 1812463616 + encSrc a * 4096 + encSrc b * 64
  | .wrsysp a r => 1812725760 + encSrc a * 4096 + r.val * 64
  | .halt => 1812987904
  | .mpld a b => 1813250048 + encSrc a * 4096 + encSrc b * 64
  | .tlbinv a b => 1813512192 + encSrc a * 4096 + encSrc b * 64
  | .kidset a b => 1813774336 + encSrc a * 4096 + encSrc b * 64
  | .kidkill a => 1814036480 + encSrc a * 4096
  | .uEnd => 0
  | .uGeta => 4096
  | .uGetb => 8192
  | .uMac => 12288
  | .uRela => 16384
  | .uRelb => 20480
  | .uLoopk => 24576
  | .uEndl => 28672
  | .uCson => 32768
  | .uCsoff => 36864
  | .uZero => 40960
  | .uSub s => 45056 + encBit s
  | .uKmask k => 49152 + k.toNat
  | .uTag t => 53248 + t.toNat
  | .uNop => 57344
  | .uGetab => 61440
  | _ => 0

/-- The literal word of an instruction, 0 where it names none. -/
def Instr.litWord (i : Instr) : BitVec 32 := i.lits.headD 0

/-- The slot word of a slot (R20). -/
def encodeSlot (s : Slot) : BitVec 32 :=
  BitVec.ofNat 32 (encBit s.last * 2 ^ 31 + s.guard.val * 2 ^ 22 + encodeBody s.op)

/-- The words of a slot: the slot word, then its literal where it names one (R21). -/
def encode (s : Slot) : List (BitVec 32) := encodeSlot s :: s.op.lits.take 1

/-- The four words of a node (R361). -/
def encodeNode : Instr → List Word
  | .nodeLaunch q grp re lb join =>
    [BitVec.ofNat 64 (1 + q.val * 2 ^ 8 + grp.val * 2 ^ 14 + encBit re * 2 ^ 18), lb.setWidth 64, join.setWidth 64, 0]
  | .nodeWaitk m => [BitVec.ofNat 64 (2 + m.toNat * 2 ^ 8), 0, 0, 0]
  | .nodeStep => [3, 0, 0, 0]
  | .nodeCond src sreg op breg mem b target =>
    [BitVec.ofNat 64 (4 + encBit src * 2 ^ 8 + sreg.val * 2 ^ 9 + op.val * 2 ^ 14 + encBit breg * 2 ^ 18), mem, b, target.setWidth 64]
  | .nodePost ring tag payload => [BitVec.ofNat 64 (5 + ring.val * 2 ^ 8 + tag.toNat * 2 ^ 12), payload, 0, 0]
  | .nodeSetr sreg value => [BitVec.ofNat 64 (6 + sreg.val * 2 ^ 8), value, 0, 0]
  | .nodeFence s => [BitVec.ofNat 64 (7 + encScope s * 2 ^ 8), 0, 0, 0]
  | .nodeStop code => [BitVec.ofNat 64 (8 + code.toNat * 2 ^ 8), 0, 0, 0]
  | _ => []

/-- The host's view of the decoder: the instruction of the table row whose bits are w. Micro-operations are 16 bits long; a slot
word is 32 bits, with its literal word above it. -/
noncomputable def decodeTableWord (nbits w : Nat) : Option Instr :=
  if nbits = 16 then (decodeMicro (w % 2 ^ 16)).toOption
  else (decodeBody (w % 2 ^ 32) (BitVec.ofNat 32 (w / 2 ^ 32))).toOption

end Sys2Proof
end

