-- ==== Sys2Proof/Machine/Control.lean ====
section
/-! DEFINITION. The bundle control slot (02_bundle.md R26). -/

namespace Sys2Proof.Machine

/-- Sets the control fields of the bundle in issue. -/
def State.control (s : State) (stall : BitVec 4) (y : Bool) (lend : Fin 7) (rm : BitVec 2) (brk : Bool) (run : BitVec 11) : State :=
  { s with issue := { s.issue with stall := stall, y := y, lend := lend.val, rm := rm, brk := brk, run := run } }

/-- A BC gives its bundle the control fields that BUNDLE_ISSUE, the commit and the bundle's end act on (R26 to R30). -/
def execBc (stall : BitVec 4) (y : Bool) (lend : Fin 7) (rm : BitVec 2) (brk : Bool) (run : BitVec 11) (s : State) :
    Host.Outcome State Fault Refusal := .next (s.control stall y lend rm brk run)

end Sys2Proof.Machine
end

