-- ==== Sys2Proof/Machine/Bundle.lean ====
section
/-! DEFINITION. The issue of a bundle (02_bundle.md R24 to R35, R46, 12_region.md R268 to R282, 13_context.md R286, R287, R294): the checks
before its slots, the run of its slots and its end. -/

namespace Sys2Proof.Machine

/-! ## Fetch of one word and selection -/

/-- The machine with memory as it was at the dispatch of a context's kernel (R48). -/
def State.fetchView (s : State) (k : Nat) (j : Fin 4) : State :=
  match (s.ctxAt k j).member with
  | none => s
  | some m => match s.findRun m.field m.run with
    | none => s
    | some lb => s.withView lb.code

/-- A word of code at a virtual address as fetch sees it (R46, R249, R457): one stored after the dispatch of the context's kernel may still be
seen as it was then (R48). -/
def State.fetchWord (s : State) (k : Nat) (j : Fin 4) (first va : Nat) : Except TrapVal (BitVec 32) :=
  let info := info249 0 2 first
  match s.translate (s.ctxAt k j).who .fetch va with
  | .fault c => .error ⟨c, if c = cGUEST then s.accessInfo c 0 2 va false else info⟩
  | .copy _ => .error ⟨cPPROT, info⟩
  | .ok t _ =>
    match s.lineError t with
    | some c => .error ⟨c, info⟩
    | none =>
      let word := fun (u : State) => (u.readHome t).extractLsb' (8 * (va % 64)) 32
      let old := word (s.fetchView k j)
      .ok (if old = word s then old else if Config.seesOld s.now (4 * k + j.val) va then old else word s)

/-- RUN of the bundle at a context's pc: 0 without a BC (R286). -/
def State.runAtPc (s : State) (k : Nat) (j : Fin 4) : Nat :=
  let pc := (s.ctxAt k j).pc.toNat
  match s.fetchWord k j pc pc with
  | .ok w => if w.toNat / 2 ^ 22 % 2 ^ 9 = 0 then w.toNat % 2 ^ 11 else 0
  | .error _ => 0

/-- RANK of a context. -/
def Context.rank (c : Context) : Nat := (c.sysv rRANK).toNat

/-- The slots in the order Last + 1, Last + 2, Last + 3, Last (R287). -/
def slotOrder (last : Fin 4) : List (Fin 4) := [last + 1, last + 2, last + 3, last]

/-- The largest rank of some slots. -/
def State.topRank (s : State) (k : Nat) (js : List (Fin 4)) : Nat := js.foldl (fun m j => max m (s.ctxAt k j).rank) 0

/-- Select of R287: the slot chosen and whether it is the fallback. -/
def State.selectSlot (s : State) (k : Nat) (cands : List (Fin 4)) : Option (Fin 4 × Bool) :=
  let core := s.core k
  let maxr := s.topRank k cands
  let aged := cands.filter fun j => (s.ctxAt k j).rank == maxr && 16 ≤ (s.ctxAt k j).passed
  let fit := cands.filter fun j => s.runAtPc k j != 0 && 64 * s.runAtPc k j ≤ core.rem
  let (pool, fallback) := if aged ≠ [] then (aged, false) else if fit ≠ [] then (fit, false) else (cands, true)
  let top := pool.filter fun j => (s.ctxAt k j).rank == s.topRank k pool
  match (slotOrder core.last).filter fun j => top.contains j with
  | [] => none
  | j :: _ => some (j, fallback)

/-- A selection among candidates (R286, R287): pass counts, REM and the chosen context RUNNING, after a bubble if another context ran before
(R285). -/
def State.selectCore (s : State) (k : Nat) (cands : List (Fin 4)) : State :=
  match s.selectSlot k cands with
  | none => s
  | some (x, fallback) =>
    let s := cands.foldl (fun s j => if j = x then s else s.modCtx k j fun c => { c with passed := c.passed + 1 }) s
    let s := if (s.core k).running = some x then s
      else
        let s := match (s.core k).running with
          | some o => s.modCtx k o fun c => { c with state := .yielded }
          | none => s
        (s.modCtx k x fun c => { c with state := .running, resumed := true }).modCore k fun c =>
          { c with running := some x, ran := c.ctx[x].ident, bubble := if c.ran = 0 ∨ c.ran = c.ctx[x].ident then c.bubble else s.now + 1 }
    let slice := 64 * ((s.ctxAt k x).sysv rSLICE).toNat
    (s.modCtx k x fun c => { c with passed := 0 }).modCore k fun c => if x ≠ c.last ∨ fallback then { c with rem := slice } else c

/-- READY and YIELDED contexts of a core. -/
def State.candidates (s : State) (k : Nat) : List (Fin 4) :=
  (List.finRange 4).filter fun j => (s.ctxAt k j).state == .ready || (s.ctxAt k j).state == .yielded

/-! ## What a bundle's slots name -/

/-- A slot with its index. -/
abbrev Indexed := Nat × Slot

/-- The slots with their indices. -/
def indexed (ss : List Slot) : List Indexed := (List.range ss.length).zip ss

/-- Whether a slot's guard holds (R34). -/
def State.guardOn (s : State) (x : Slot) : Bool := s.getP x.guard

/-- The slots that take effect: not BC, guard true. -/
def State.active (s : State) (ss : List Slot) : List Indexed := (indexed ss).filter fun x => x.2.op.group != .bc && s.guardOn x.2

/-- The md register that a wset or wget of items 0x10 to 0x27 names (R149, R269). -/
def State.itemMd (s : State) (t : Src) : List Reg :=
  let v := (s.src t).toNat
  if 0x10 ≤ v ∧ v < 0x28 then [.md ⟨v % 8, Nat.mod_lt _ (by decide)⟩] else []

/-- Registers a slot reads, its guard apart, and writes (R269). -/
def State.slotReads (s : State) (i : Instr) : List Reg :=
  match i with
  | .wget _ _ t => i.reads ++ s.itemMd t
  | _ => i.reads

def State.slotWrites (s : State) (i : Instr) : List Reg :=
  match i with
  | .wset _ _ t => i.writes ++ s.itemMd t
  | _ => i.writes

/-- Windrows that a slot names. -/
def State.slotWins (s : State) (i : Instr) : List (Fin 16) :=
  match i with
  | .wcfg w _ => [w]
  | .wset w _ t => if s.itemMd t = [] then [w] else []
  | .wget w _ t => if s.itemMd t = [] then [w] else []
  | .wrst w => [w]
  | .wskip w _ => [w]
  | .wisect w => [w, w + 1]
  | .wicnt w _ => [w]
  | .wstat w _ => [w]
  | _ => (i.winReads ++ i.winPushes).map Prod.fst

/-- A register whose interlocked result is still to come (R33). -/
def Context.inFlight (c : Context) (r : Reg) : Bool :=
  c.flights.any (fun f => f.vals.any fun v => v.reg == some r) || c.atomics.any fun x => r == .s (d32 x.1) && x.1.val != 0

/-- A register whose fixed-latency result is not yet readable (R32); MAXMAG while an update is to land (R111). -/
def Context.pendingOn (c : Context) (now : Nat) (r : Reg) : Bool :=
  c.pend.any fun w => decide (now < w.due) && (w.val.reg == some r || (r == .sys rMAXMAG && match w.val with
    | .mergeMag _ _ => true
    | _ => false))

/-! ## Region tracking (R268 to R270, R282) -/

/-- The class and number of a register in TRAPINFO (R270). -/
def regCode : Reg → Nat × Nat
  | .s n => (0, n.val)
  | .p n => (1, n.val)
  | .v n => (2, n.val)
  | .k n => (3, n.val)
  | .md n => (4, n.val)
  | .mp n => (5, n.val)
  | .sys n => (6, n.val)
  | .mxcfg => (6, 0x3F)

/-- Live-ins after a bundle's reads: a register not yet written joins RD. -/
def trackReads (rd wr : List Reg) (rs : List Reg) : List Reg :=
  rs.foldl (fun rd r => if r.isConst || wr.contains r || rd.contains r then rd else r :: rd) rd

/-- WR after a bundle's writes. -/
def trackWrites (wr : List Reg) (rs : List Reg) : List Reg :=
  rs.foldl (fun wr r => if r.isConst || wr.contains r then wr else r :: wr) wr

/-- Registers read by a bundle: guards of every slot, and the sources of those that take effect. -/
def State.bundleReads (s : State) (ss : List Slot) : List Reg :=
  (ss.filter fun x => x.op.group != .bc).map (fun x => Reg.p x.guard) ++ (s.active ss).flatMap fun x => s.slotReads x.2.op

/-- Registers written by a bundle. -/
def State.bundleWrites (s : State) (ss : List Slot) : List Reg := (s.active ss).flatMap fun x => s.slotWrites x.2.op

/-- TRAPINFO of REGILL (R270). -/
def State.regillInfo (s : State) (cls num slot : Nat) : Word :=
  let off := (s.issue.addr - s.cur.sysv rREGENT).toNat / 4 % 2 ^ 32
  BitVec.ofNat 64 (cls * 2 ^ 41 + num * 2 ^ 35 + slot % 8 * 2 ^ 32 + off)

/-- Whether an instruction is an atomic. -/
def isAtomic : Instr → Bool
  | .aswap .. => true
  | .aadd .. => true
  | .aand .. => true
  | .aor .. => true
  | .amax .. => true
  | .amin .. => true
  | .acas .. => true
  | .afadd .. => true
  | _ => false

/-- The d register of the open region's atomic. -/
def Context.atomicReg (c : Context) : List Reg :=
  match c.region.atomic with
  | some a => if a.d.val = 0 then [] else [.s (d32 a.d)]
  | none => []

/-- The trap REGILL of a bundle, if any (R242, R268, R270). -/
def State.regill (s : State) (ss : List Slot) : Option Word :=
  let c := s.cur
  let rd := trackReads c.region.rd c.region.wr (s.bundleReads ss)
  let live := (s.active ss).findSome? fun x =>
    (s.slotWrites x.2.op).findSome? fun r => if rd.contains r then some (s.regillInfo (regCode r).1 (regCode r).2 x.1) else none
  let atoms := ((s.active ss).filter fun x => isAtomic x.2.op).map Prod.fst
  let atom := (s.active ss).findSome? fun x =>
    if ((s.slotReads x.2.op ++ s.slotWrites x.2.op).any fun r => c.atomicReg.contains r) ||
      (isAtomic x.2.op && (c.region.atomic.isSome || atoms.any fun i => decide (i < x.1)))
    then some (s.regillInfo 7 0 x.1) else none
  match live with
  | some w => some w
  | none => atom

/-- RD and WR of the region and of the span after a bundle (R268, R282). -/
def Context.track (c : Context) (rs ws : List Reg) : Context :=
  let rd := trackReads c.region.rd c.region.wr rs
  let srd := trackReads c.span.rd c.span.wr rs
  { c with region := { c.region with rd := rd, wr := trackWrites c.region.wr ws },
           span := { c.span with rd := srd, wr := trackWrites c.span.wr ws,
                                 rewindable := c.span.rewindable && !(ws.any fun r => srd.contains r) } }

/-- The tracking of the context that issues. -/
def State.track (s : State) (rs ws : List Reg) : State := s.modCur fun c => c.track rs ws

/-! ## Quiet boundaries (R183, R281, R403) -/

/-- How a quiet-boundary test ends. -/
inductive QuietTest where
  | boundary | ordinary | wait
  deriving DecidableEq, Repr, Inhabited

/-- Commands for a bank that have been committed and are not yet in the queue, those that R161 discards apart: a FAULT bank takes none before an
mzero, an EMPTY one no clear. -/
def Core.comingFor (core : Core) (b : Fin 4) : List MatrixOp :=
  let xs := core.ctx.toList.flatMap fun x => x.outbox.filterMap fun h => match h with
    | .effect (.mcall c r p) => if c = b then some (.call r p) else none
    | .effect (.mzero c) => if c = b then some .zero else none
    | .effect (.clear c) => if c = b then some .clear else none
    | _ => none
  match core.banks[b].state with
  | .fault => xs.dropWhile fun x => x != .zero
  | .empty => xs.dropWhile fun x => x == .clear
  | _ => xs

/-- The state of a bank under R161: a command makes it BUSY as it commits. -/
def Core.bankState (core : Core) (b : Fin 4) : BankState := if core.comingFor b = [] then core.banks[b].state else .busy

/-- Matrix commands for a bank that are queued, running or coming. -/
def State.bankCommands (s : State) (k : Nat) (b : Fin 4) : List MatrixOp :=
  let core := s.core k
  ((core.mq.filter fun m => m.bank == b).map fun m => m.op) ++ ((core.calls.filter fun m => m.cmd.bank == b).map fun m => m.cmd.op) ++
  (match core.clearing with
   | some (c, z, _) => if c = b then [if z then .zero else .clear] else []
   | none => []) ++ core.comingFor b

/-- Whether a command is a call. -/
def MatrixOp.isCall : MatrixOp → Bool
  | .call _ _ => true
  | _ => false

/-- The test of R183, with the guest test of R403. -/
def State.quietTest (s : State) (k : Nat) (j : Fin 4) : QuietTest :=
  let owned := (List.finRange 4).filter fun b => (s.core k).banks[b].owner == some j
  let guest := (s.ctxAt k j).tokens.toList.any fun t => t.state == .pending && match t.kind with
    | .guest _ => true
    | _ => false
  if guest then .ordinary
  else if owned.any fun b => (s.core k).bankState b == .live || (s.core k).bankState b == .fault || (s.bankCommands k b).any MatrixOp.isCall
  then .ordinary
  else if owned.any fun b => s.bankCommands k b != [] then .wait
  else .boundary

/-- A span that begins at a context's pc (R282). -/
def Context.newSpan (c : Context) (ck : Checkpoint) : Span :=
  ⟨ck, c.pc, [], [], true, (c.member.map Member.sect).getD .prologue, (c.member.map Member.iter).getD 0⟩

/-- A context leaves its slot SAVED (R281, R285, R303). -/
def State.saveContext (s : State) (k : Nat) (j : Fin 4) (q : SaveRequest) : State :=
  let s := s.modCtx k j fun c => c.setSys rEPC (c.sysv rREGENT)
  let kid := match (s.ctxAt k j).member with
    | some m => m.kid
    | none => 0
  let s := (s.saveImage k j q 1).freeSlot k j
  match q.home with
  | some (f, x, va) => s.modQueue f x fun y => { y with saved := y.saved ++ [⟨va, kid⟩] }
  | none => s

/-- A quiet boundary is passed: the save lands if one is requested; otherwise the PREBOUND count restarts and a span begins (R281, R282,
R299). -/
def State.passQuiet (s : State) (k : Nat) (j : Fin 4) : State :=
  let c := s.ctxAt k j
  match c.save with
  | some q => s.saveContext k j q
  | none =>
    let ck := s.checkpoint k j
    s.modCtx k j fun c => { c with quiet := false, running := 0, preHit := false, span := c.newSpan ck }

/-! ## Before the slots -/

/-- Sets the frame of the bundle in issue. -/
def State.frameIssue (s : State) (k : Nat) (j : Fin 4) (f : Fetched) : State :=
  let c := s.ctxAt k j
  let (lend, rm, brk, stall, y, run) := bcFields f.slots
  State.control { s with issue := { Issue.reset with core := k, slot := j, addr := c.pc, words := f.words, firstId := c.nextId } }
    stall y lend rm brk run

/-- The bundle does not issue in this cycle. -/
def State.notYet (s : State) (k : Nat) : State := s.modCore k fun c => { c with tried := some s.now }

/-- The bundle waits on an interlocked result: STALLED at a yield point, else the whole core waits (R33, R285). -/
def State.stallOrWait (s : State) (k : Nat) (j : Fin 4) (y : Bool) : State :=
  if y then (s.modCtx k j fun c => { c with state := .stalled }).modCore k fun c => { c with running := none }
  else s.notYet k

/-- The bundle issues: Last, and the core's last issue (R287, R328). -/
def State.noteIssue (s : State) : State := s.modCore s.issue.core fun c => { c with last := s.issue.slot, issued := s.now }

/-- Signatures of the context's earlier bundles differ: the yoke raises YOKEMIS as the shadow issues the bundle (R407, R409). -/
def Context.mismatched (c : Context) : Bool := c.sigs.any fun x => x.primary != x.shadow

/-- The levels from the one that takes the back-edge of a LEND outwards; none where every level that it names ends (R101). -/
def backEdge : Nat → List LoopLevel → List LoopLevel
  | 0, _ => []
  | _ + 1, [] => []
  | m + 1, l :: ls => if l.lc.toNat ≤ 1 then backEdge m ls else l :: ls

/-- Registers that the LEND of the bundle moves: those of the replay tables bound to the level that takes the back-edge and outside it, and the
stage predicates of that level (R155, R156). -/
def State.lendRegs (s : State) : List Reg :=
  let ls := backEdge s.issue.lend s.cur.loop.levels
  (LoopStack.namedRegs ⟨ls, none, none⟩).map Reg.s ++ (LoopStack.stagePreds ⟨ls.take 1, none, none⟩).map Reg.p

/-- Whether the bundle must wait under R33, for the conditions of R273, or for a YOKEMIS that keeps its region from committing (R408). -/
def State.mustWait (s : State) (ss : List Slot) : Bool :=
  let c := s.cur
  (s.lendRegs.any fun r => c.inFlight r) ||
  ((s.active ss).any fun x =>
    ((s.slotReads x.2.op ++ s.slotWrites x.2.op).any fun r => c.inFlight r) || ((s.slotWins x.2.op).any fun w => c.windrows[w].state == .busy)) ||
  ((ss.any fun x => c.inFlight (.p x.guard))) || (c.draining && !c.drained) ||
  (2 ≤ s.issue.rm.toNat && !c.skipRm && (!s.acceptReady s.issue.core s.issue.slot || c.mismatched))

/-- A bundle that fetch nullifies (R35); its guards still count as read (R269; log 75). -/
def State.nullified (s : State) (ss : List Slot) : Bool :=
  s.issue.lend == 0 && s.issue.rm == 0 && !s.issue.brk && !s.issue.y && (s.active ss).isEmpty

/-- The first slot that meets a fixed-latency result not yet readable (R32). -/
def State.stallcnt (s : State) (ss : List Slot) : Option Nat :=
  let c := s.cur
  (indexed ss).findSome? fun x =>
    let on := x.2.op.group != .bc && s.guardOn x.2
    let rs := if on then Reg.p x.2.guard :: (s.slotReads x.2.op ++ s.slotWrites x.2.op) else [Reg.p x.2.guard]
    if rs.any fun r => c.pendingOn s.now r then some x.1 else none

/-- Whether an instruction raises a bank's recorded error: mwait and mdrain (R171). -/
def waitsBank : Instr → Option (Fin 4)
  | .mdrain a _ _ _ => some a
  | .mwait a => some a
  | _ => none

/-- The scope that DOMAIN.LEVEL selects for the issuing context (R336). -/
def State.levelMine (s : State) : Scope := levelScope ((s.getSys rDOMAIN).extractLsb' 0 3)

/-- FLT of the issuing context. -/
def State.flt (s : State) : Bool := (s.getSys rDOMAIN).getLsbD 42

/-- An acquire by the issuing context (R231). -/
def State.acquireMine (s : State) (scope : Scope) : State := s.acquire s.issue.core s.issue.slot scope

/-- A recorded fault or error that the bundle raises, and the machine without the record (R142, R151, R171, R242). DESIGN CHOICE: where several
stand, R294 names no order among them; a windrow's comes first, then a bank's, then the atomic's, the lowest number first (log 93). -/
def State.recorded (s : State) (ss : List Slot) : Option (TrapVal × Bool × State) :=
  let c := s.cur
  let commits := 2 ≤ s.issue.rm.toNat && !c.skipRm
  let act := s.active ss
  let win := (List.finRange 16).findSome? fun w =>
    match c.windrows[w].mergeFault with
    | some v =>
      if commits || act.any (fun x => (s.slotWins x.2.op).contains w) then
        some (v, decide (v.cause = cUCE), s.modCur fun c => { c with windrows := c.windrows.set w { c.windrows[w] with mergeFault := none } })
      else none
    | none => none
  let bank := (List.finRange 4).findSome? fun b =>
    match s.myCore.banks[b].error with
    | some v =>
      if s.myCore.banks[b].owner = some s.issue.slot ∧ (s.issue.rm = 3 ∧ !c.skipRm ∨ act.any fun x => waitsBank x.2.op == some b) then
        some (v, false, s.modCore s.issue.core fun x => { x with banks := x.banks.set b { x.banks[b] with error := none } })
      else none
    | none => none
  let atom := match c.atomicErr with
    | some (d, v) =>
      if commits || act.any (fun x => d.val != 0 && (s.slotReads x.2.op).contains (.s (d32 d))) then
        some (v, false, s.modCur fun c => { c with atomicErr := none })
      else none
    | none => none
  match win with
  | some x => some x
  | none => match bank with
    | some x => some x
    | none => atom

/-- A trap of the bundle, handled in hardware or not (R278). -/
def State.raiseAt (s : State) (v : TrapVal) (hardware : Bool) : State :=
  let t := s.trapAt s.issue.core s.issue.slot v.cause v.info hardware
  { t with issue := { t.issue with outcome := .trap, trapped := some v } }

/-- The bits of INJECT KIND 2 that are armed: the flip of the next signature of the shadow (R415). -/
def Context.sigInject (c : Context) : BitVec 64 :=
  let v := c.sysv rINJECT
  let b := (v.extractLsb' 27 7).toNat
  if v.getLsbD 63 ∧ v.extractLsb' 60 3 = 2#3 ∧ b ≤ 63 then 1#64 <<< b else 0

/-- An armed KIND 2 is spent: the injection clears INJECT, a split yoke or a BIT that is too large only ARM (R415; log 80). -/
def Context.spendInject (c : Context) (locked : Bool) : Context :=
  let v := c.sysv rINJECT
  if v.getLsbD 63 ∧ v.extractLsb' 60 3 = 2#3 then
    c.setSys rINJECT (if locked ∧ c.sigInject ≠ 0 then 0 else v &&& 0x7FFFFFFFFFFFFFFF#64)
  else c

/-- In a locked yoke the bundle's two signatures wait for the shadow's issue, 2 cycles on (R407); a datapath error or INJECT makes them
differ. A committing bundle has been signed as its primary issued it (R408). -/
def State.sign (s : State) : State :=
  let w := Config.signature (numCores * s.now + s.issue.core)
  let core := s.myCore
  if s.cur.signed.isSome then s
  else if core.locked then
    (s.modCur fun c =>
      { c.spendInject true with sigs := c.sigs ++ [⟨s.now + 2, s.issue.addr, w, w ^^^ c.sigInject ^^^ core.upset⟩] }).modCore s.issue.core fun x =>
        { x with upset := 0 }
  else s.modCur fun c => c.spendInject false

/-- A bundle of a locked yoke that commits: the primary has yet to issue it, and its marker waits for the shadow (R408). -/
def State.mustSign (s : State) : Bool := s.myCore.locked && decide (2 ≤ s.issue.rm.toNat) && !s.cur.skipRm && s.cur.signed.isNone

/-- The primary issues a committing bundle of a locked yoke: its region is accepted, and its slots act, in the cycle of the shadow's issue, if the
signatures have compared equal then (R408, R409). -/
def State.issueSigned (s : State) : State :=
  s.noteIssue.sign.modCur fun c => { c with signed := some (s.now + 2), notBefore := s.now + 2, resumed := true }

/-- The region marker takes effect (R29, R264): it is applied once, even where a slot then waits. -/
def State.applyRm (s : State) (rm : BitVec 2) : State :=
  let k := s.issue.core
  let j := s.issue.slot
  if rm = 0 ∨ s.cur.skipRm then s
  else
    let s := (if rm = 1 then s else s.accept k j).openRegion k j s.issue.addr
    s.modCur fun c => { c with skipRm := true, quiet := rm == 3 }

/-- Whether the open region holds a buffered store, an atomic or a deferred effect (R270). -/
def Region.holds (r : Region) : Bool := !r.buffer.isEmpty || r.atomic.isSome || !r.deferred.isEmpty

/-- LEND names more levels than there are (R101). -/
def State.lendTooDeep (s : State) : Bool := s.cur.loop.levels.length < s.issue.lend

/-- A bundle with BRK that gets past BREAK clears the break suppression (R30). -/
def State.passBreak (s : State) : State :=
  if s.issue.brk then s.modCur fun c => c.setSys rSTATUS (c.sysv rSTATUS &&& ~~~ 0x10#64) else s

/-- A bundle that issues and raises a trap before its slots. -/
def State.raiseEarly (s : State) (cause : Cause) (info : Word) : State := s.passBreak.noteIssue.sign.raise cause info

/-- The first check of a bundle that has got past its waits, which raises a trap before its region marker takes effect (R294). A committing
bundle that the primary of a locked yoke has issued has passed it. -/
def State.earlyTrap (s : State) (ss : List Slot) : Option State :=
  let info := info47 0 s.issue.addr
  if s.cur.signed.isSome ∧ !s.cur.skipRm then none
  else if s.issue.brk ∧ !s.cur.bsup then some (s.noteIssue.sign.raise cBREAK info)
  else
    match if s.getSys rSBCHK = 1 then s.stallcnt ss else none with
    | some i => some (s.raiseEarly cSTALLCNT (info47 i s.issue.addr))
    | none =>
      if s.cur.preHit ∨ (s.getSys rPREBOUND).toNat < s.cur.running then some (s.raiseEarly cPREBOUND info)
      else
        match s.recorded ss with
        | some (v, hardware, t) => some (t.passBreak.noteIssue.sign.raiseAt v hardware)
        | none => if s.issue.rm = 1 ∧ !s.cur.skipRm ∧ s.cur.region.holds then some (s.raiseEarly cREGILL (s.regillInfo 7 0 0)) else none

/-- The checks behind the region marker: LEND and REGILL. DESIGN CHOICE: they come before the slots and their traps, since R270 raises REGILL at issue,
before any slot takes effect, and R294 does not place it (log 93). -/
def State.lateTrap (s : State) (ss : List Slot) : Option State :=
  if s.lendTooDeep then some (s.raiseEarly cILLOP (info47 0 s.issue.addr))
  else (s.regill ss).map fun w => s.raiseEarly cREGILL w

/-- Behind the region marker a register that an accepted atomic is still to write holds the bundle (R240); else the checks are made and `go` is
set where its slots may run. Where a slot waits, the bundle does not issue, and its checks are due when it does (R33, R299). -/
def State.allowSlots (s : State) (ss : List Slot) (waits : Bool) : State :=
  if s.mustWait ss then s.stallOrWait s.issue.core s.issue.slot s.issue.y
  else
    match if waits then none else s.lateTrap ss with
    | some t => t
    | none => { s.modCur fun c => { c with draining := false } with issue := { s.issue with go := true, due := waits, loads := s.cur.region.buffer } }

/-- The checks of a bundle that has got past its waits (R294), the acceptance of its region marker and the quiet boundary. -/
def State.checkBundle (s : State) (ss : List Slot) (waits : Bool) : State :=
  let k := s.issue.core
  let j := s.issue.slot
  match if waits ∧ (s.issue.rm = 0 ∨ s.cur.skipRm) then none else s.earlyTrap ss with
  | some t => t
  | none =>
    if s.mustSign then s.issueSigned
    else
      let s := s.applyRm s.issue.rm
      if s.cur.quiet then
        match s.quietTest k j with
        | .wait => s.stallOrWait k j s.issue.y
        | .ordinary => (s.modCur fun c => { c with quiet := false }).allowSlots ss waits
        | .boundary =>
          if s.cur.save.isSome ∧ !s.cur.handedOff then s.stallOrWait k j s.issue.y
          else
            let s := s.passQuiet k j
            if (s.ctxAt k j).state = .running then s.allowSlots ss waits else s
      else s.allowSlots ss waits

/-- BUNDLE_ISSUE up to the point where the slots run (R27, R28, R33, R35, R46, R286). A yield bundle that must wait is STALLED; one with STALL
left makes a selection in which it is no candidate (R285, R286). DEDUCED: a yield bundle that fetch traps raises its trap without a selection,
since no slot of it, BC included, takes effect (R46; log 67). -/
def State.issueBundle (s : State) (k : Nat) : State :=
  match (s.core k).running, s.issue.fetched with
  | some j, some f =>
    let s := s.modCtx k j fun c => c.settle s.now
    let c := s.ctxAt k j
    let s := s.frameIssue k j f
    let y := s.issue.y
    let early := s.now < c.notBefore ∨ s.now < (s.core k).bubble
    let since : Nat → Bool := fun n => match c.lastIssue with
      | some i => decide (s.now < i + n)
      | none => false
    let test := s.quietTest k j
    if c.state ≠ .running ∨ early then s.notYet k
    else if c.quiet ∧ test = .wait then s.stallOrWait k j y
    else if c.quiet ∧ test = .boundary ∧ c.save.isSome then (if c.handedOff then s.passQuiet k j else s.stallOrWait k j y)
    else
      let s := if c.quiet then (if test = .boundary then s.passQuiet k j else s.modCur fun c => { c with quiet := false }) else s
      match f.trap with
      | some v => s.raise v.cause v.info
      | none =>
        if s.nullified f.slots then
          (s.track (s.bundleReads f.slots) []).modCur fun c => { c with pc := c.pc + BitVec.ofNat 64 (4 * f.words), skipRm := false, resumed := false }
        else if since (1 + s.issue.stall.toNat) && !(y && (s.mustWait f.slots || f.idle)) then
          if y ∧ !c.resumed ∧ s.candidates k ≠ [] then s.selectCore k (s.candidates k) else s.notYet k
        else if s.mustWait f.slots || since (1 + s.issue.stall.toNat) then s.stallOrWait k j y
        else if y ∧ !c.resumed ∧ !f.waits then
          let s := s.selectCore k (j :: s.candidates k)
          if (s.core k).running = some j then s.checkBundle f.slots f.waits else s
        else s.checkBundle f.slots f.waits
  | _, _ => s

/-! ## The slots -/

/-- The bundle at a place of a replayed body, counted from 1 (R155): the bundles from START are framed one after another. -/
def State.bodyPlace (s : State) (k : Nat) (j : Fin 4) (target : Word) : Nat → Word → Nat → Option Nat
  | 0, _, _ => none
  | fuel + 1, at_, n =>
    if at_ = target then some n
    else
      let f := frame fun i => match s.fetchWord k j at_.toNat (at_.toNat + 4 * i) with
        | .ok w => some w
        | .error _ => none
      s.bodyPlace k j target fuel (at_ + BitVec.ofNat 64 (4 * f.words)) (n + 1)

/-- The place of the bundle in issue in the body of a bound level. -/
def State.placeIn (s : State) (l : LoopLevel) : Option Nat :=
  match l.replay with
  | some r => s.bodyPlace s.issue.core s.issue.slot s.issue.addr r.len.toNat l.start 1
  | none => none

/-- A slot that writes a register named by a bound replay table, or an SCP that writes a bound stage predicate, raises ILLOP (R155, R156). -/
def State.writesBound (s : State) (i : Instr) : Bool :=
  let regs := s.cur.loop.namedRegs
  let preds := s.cur.loop.stagePreds
  i.writes.any fun r => match r with
    | .s n => regs.contains n
    | .p n => preds.contains n
    | _ => false

/-- Runs one slot by the meaning given. -/
def State.runSlot (s : State) (run : Instr → State → State) (x : Indexed) : State :=
  run x.2.op { s with issue := { s.issue with index := x.1, outcome := .run, trapped := none } }

/-- Tries one slot on the state before the bundle, where the bindings of its issue hold (R155, R156). -/
def State.trySlot (s : State) (run : Instr → State → State) (x : Indexed) : State :=
  if s.writesBound x.2.op then State.illop { s with issue := { s.issue with index := x.1, outcome := .run, trapped := none } }
  else s.runSlot run x

/-- The slots of a bundle, each tried on the state before the bundle with the generator as the slots before it leave it (R24, R74). -/
def State.tryAll (run : Instr → State → State) : List Indexed → State → List State
  | [], _ => []
  | x :: xs, s =>
    let t := s.trySlot run x
    t :: State.tryAll run xs (if t.issue.outcome = .run then s.modCur fun c => c.setSys rRNGSEED (t.getSys rRNGSEED) else s)

/-- The machine with every FPX disabled: the bundle decides on it from the flags of all its slots (R76). -/
def State.withoutFpx (s : State) : State := s.modCur fun c => c.setSys rFPMODE (c.sysv rFPMODE &&& ~~~ 0x1F0#64)

/-- How a tried slot stops its bundle: by a trap of its own, or by an enabled flag (R76, R294). -/
def State.stops (t : State) (xe : BitVec 5) : Bool := t.issue.outcome == .trap || t.issue.flags &&& xe != 0

/-- Readers of a windrow's items and of system registers act before the bundle's other slots, then loads, and slots that change a windrow last:
operands are read before anything is written, and memory before a push or store; loop and loopi act at the bundle's end (R100). DEDUCED: RNGSEED counts as such an operand of rdsys, and a push as
a store (R24, R25, R140; logs 8 and 83). -/
def phaseOf : Instr → Nat
  | .wget _ _ _ => 0
  | .wstat _ _ => 0
  | .rdsys _ _ => 0
  | .ldb _ _ _ _ => 1
  | .ldh _ _ _ _ => 1
  | .ldw _ _ _ _ => 1
  | .ldd _ _ _ _ => 1
  | .ldv256 _ _ _ _ => 1
  | .ldv512 _ _ _ _ => 1
  | .ldv1k _ _ _ _ => 1
  | .ldbc _ _ _ _ => 1
  | .lda _ _ _ _ => 1
  | .loop _ _ => 4
  | .loopi _ _ => 4
  | .wcfg _ _ => 3
  | .wset _ _ _ => 3
  | .wrst _ => 3
  | .wskip _ _ => 3
  | .wisect _ => 3
  | .wicnt _ _ => 3
  | .mcfg _ _ => 3
  | _ => 2

/-- The slots of a phase, in slot order. -/
def inPhase (n : Nat) (xs : List Indexed) : List Indexed := xs.filter fun x => phaseOf x.2.op == n

/-- Runs slots one after another, each from the state the ones before it left. -/
def runAll (run : Instr → State → State) : List Indexed → State → State
  | [], s => s
  | x :: xs, s =>
    let t := s.runSlot run x
    if t.issue.outcome = .run then runAll run xs t else t

/-- The element vectors that a bundle's slots read are consumed, each once (R24, R138). -/
def State.consumeWins (s : State) (act : List Indexed) : State :=
  (act.flatMap fun x => x.2.op.winReads).foldl (fun s r => match s.readWin r.1 r.2 with
    | .ok _ t => t
    | .stop _ => s) s

/-- The slots of a bundle take effect, phase by phase. -/
def runPhases (run : Instr → State → State) (act : List Indexed) (s : State) : State :=
  let t := runAll run (inPhase 0 act) s
  if t.issue.outcome = .run then runAll run (inPhase 1 act ++ inPhase 2 act ++ inPhase 3 act ++ inPhase 4 act) (t.consumeWins act) else t

/-- A LEND that ends a bound level anywhere but in its body's last bundle (R155); it ends the levels that it names (R101). -/
def State.lendMisplaced (s : State) : Bool :=
  (s.cur.loop.levels.take s.issue.lend).any fun l => match l.replay with
    | some r => s.placeIn l != some r.len.toNat
    | none => false

/-- Writes a value that is readable by the next bundle. -/
def State.putNext (s : State) (v : RegVal) : State := s.put v 1

/-- The deltas of a back-edge at depth j, by register, for the tables bound to levels at and outside it (R155). -/
def replaySums (levels : List LoopLevel) : List (Fin 63 × Word) :=
  ((List.range levels.length).zip levels).flatMap fun x => match x.2.replay with
    | some r => r.entries.map fun e => (e.1, ((e.2.getD x.1 0 : BitVec 32)).signExtend 64)
    | none => []

/-- Every register that the bound tables name moves by the deltas of all its entries, readable by the next bundle (R155). -/
def State.replayDeltas (s : State) (levels : List LoopLevel) : State :=
  let ds := replaySums levels
  (List.finRange 63).foldl (fun s r =>
    if ds.any fun x => x.1 == r then s.putS r (s.cur.regs.s[r] + ((ds.filter fun x => x.1 == r).map Prod.snd).sum) 1 else s) s

/-- The rotation of stage predicates at a back-edge (R156), lc after the decrement. -/
def State.rotateStages (s : State) (l : LoopLevel) : State :=
  match l.stage with
  | none => s
  | some (pb, n) =>
    (stageRegs (pb, n)).foldl (fun s p =>
      s.putNext (.p p (if p = pb then decide (n.toNat - 1 < l.lc.toNat) else s.cur.regs.p[p - 1]))) s

/-- LEND (R101): ended levels pop; the first that goes on takes its back-edge. -/
def State.endLevels : Nat → State → State
  | 0, s => s
  | m + 1, s =>
    match s.cur.loop.levels with
    | [] => s
    | l :: ls =>
      if l.lc.toNat ≤ 1 then State.endLevels m (s.modCur fun c => { c with loop := { c.loop with levels := ls } })
      else
        let l := { l with li := l.li + 1, lc := l.lc - 1 }
        let s := s.modCur fun c => { c with loop := { c.loop with levels := l :: ls } }
        let s := (s.replayDeltas (l :: ls)).rotateStages l
        { s with issue := { s.issue with target := some (l.start, 1) } }

/-- The end of a bundle whose slots have taken effect (R29, R76, R97, R101). -/
def State.endBundle (s : State) (base : State) (ss : List Slot) : State :=
  let s := s.track (base.bundleReads ss) (base.bundleWrites ss)
  let s := if s.issue.flags = 0 then s else s.put (.orFlags s.issue.flags) 1
  let s := if s.issue.taken then s else s.endLevels s.issue.lend
  let (pc, cycles) := match s.issue.target with
    | some x => x
    | none => (s.issue.addr + BitVec.ofNat 64 (4 * s.issue.words), 1)
  let s := s.sign.modCur fun c =>
    { c with pc := pc, notBefore := s.now + cycles, lastIssue := some s.now, skipRm := false, resumed := false, asks := [], signed := none, early := [],
             state := if c.closing.isSome then .closing else c.state }
  let s := s.noteIssue
  match s.cur.member with
  | some m => s.modRun m.field m.run fun l => if l.state = .dispatched then { l with state := .running } else l
  | none => s

/-- A RAW windrow takes the width of the bundle's readers; a buffer of another width is dropped (R138). -/
def State.prepareWins (s : State) (act : List Indexed) : State :=
  (act.flatMap fun x => x.2.op.winReads).foldl (fun s r =>
    let w := s.win r.1
    let n := w.desc.bytes r.2
    if w.misused false r.2 ∨ w.state ≠ .active ∨ w.width = some n then s else s.setWin r.1 { w with width := some n, buf := [] }) s

/-- A windrow of a bundle that waits: as it was before, but a buffer that was emptied under an unmoved cursor stays so (R251). -/
def Windrow.held (b t : Windrow) : Windrow := if t.buf = [] ∧ t.n = b.n ∧ t.desc = b.desc then { b with buf := [] } else b

/-- The machine after a bundle found that it must wait: nothing of its slots has taken effect in the context (R33). -/
def State.held (s t : State) : State :=
  let b := s.cur
  t.modCtx s.issue.core s.issue.slot fun c =>
    { c with regs := b.regs, pend := b.pend, flights := b.flights, nextId := b.nextId,
             windrows := Vector.ofFn fun i => b.windrows[i].held c.windrows[i],
             region := b.region, span := b.span, loop := b.loop }

/-- FPX of a bundle: the flags of its slots are in FPFLAGS, and it names a slot (R76). -/
def State.raiseFpx (u : State) (flags : BitVec 5) (index : Nat) : State := (u.put (.orFlags flags) 1).raise cFPX (info47 index u.issue.addr)

/-- The trap of the lowest slot that stops a bundle: its own, or FPX with the flags of all the slots (R76). -/
def State.bundleTrap (u : State) (run : Instr → State → State) (act : List Indexed) (tries : List State) (t : State) : State :=
  if t.issue.outcome = .trap then
    match act.find? fun x => x.1 == t.issue.index with
    | some x => u.sign.trySlot run x
    | none => t
  else u.sign.raiseFpx (tries.foldl (fun f t => f ||| t.issue.flags) 0) t.issue.index

/-- A vector load: the address of its first byte and its bytes. -/
def State.vectorLoad (s : State) : Instr → Option (Nat × Nat)
  | .ldv256 _ b _ _ => some ((s.src b).toNat, 32)
  | .ldv512 _ b _ _ => some ((s.src b).toNat, 64)
  | .ldv1k _ b _ _ => some ((s.src b).toNat, 128)
  | _ => none

/-- Reads the lines of a load early: those outside the scratchpad that can be read, under the context's own stores (R226, R227). -/
def State.readEarly (s : State) (va n : Nat) : State :=
  (pieces n va n).foldl (fun s x => match s.locate .read x.1 0 0 with
    | (.ok t, s) =>
      if t.place ≠ .phys ∨ (s.lineError t).isSome ∨ s.linkWaits s.issue.core t then s
      else
        let (d, s) := s.readLine s.issue.core t
        s.modCur fun c => { c with early := c.early ++ [(t, overlayStores c.outStores t d)] }
    | (_, s) => s) s

/-- Some granules of the vector loads of a bundle are read before its others, where a run has it so: the bundle then issues later (R227). -/
def State.splitLoads (s : State) (act : List Indexed) : Option State :=
  match act.filterMap fun x => s.vectorLoad x.2.op with
  | [] => none
  | ls => if s.cur.early ≠ [] ∨ !Config.splitsLoad s.draws then none else some (ls.foldl (fun s x => s.readEarly x.1 x.2) s.drawn)

/-- A gphase that goes on, beside slots that read memory: it runs first in its region (R339), so its acquire is made before they read. -/
def State.phaseFirst (s : State) (act : List Indexed) : Option State :=
  let isPhase := fun (i : Instr) => match i with
    | .gphase => true
    | _ => false
  match act.find? fun x => isPhase x.2.op with
  | none => none
  | some x =>
    if !(act.any fun y => phaseOf y.2.op == 1 || !y.2.op.winReads.isEmpty) ∨ (s.cur.asks.any fun a => a.index == x.1) ∨ s.flt then none
    else some ((s.acquireMine s.levelMine).modCur fun c => { c with asks := c.asks ++ [⟨x.1, 0, true⟩] })

/-- The slots of a bundle that may run: each is tried on the state before the bundle; a wait holds the bundle, the checks that are due are made, the
lowest slot's trap is taken (R33, R76, R276, R294), and otherwise all take effect and the bundle ends. -/
def State.runBundle (s : State) (run : Instr → State → State) (ss : List Slot) : State :=
  let k := s.issue.core
  let j := s.issue.slot
  let act := s.active ss
  let s := s.prepareWins act
  let u := s.passBreak
  let tries := State.tryAll run act u.withoutFpx
  match tries.find? fun t => t.issue.outcome == .wait with
  | some t => (s.held t).stallOrWait k j s.issue.y
  | none =>
    match if s.issue.due then s.earlyTrap ss <|> s.lateTrap ss else none with
    | some t => t
    | none =>
      match s.phaseFirst act <|> s.splitLoads act with
      | some t => t.notYet k
      | none =>
        let u := u.noteIssue
        if u.lendMisplaced then u.sign.raise cILLOP (info47 0 s.issue.addr)
        else
          match tries.find? fun t => t.stops u.xe with
          | some t => u.bundleTrap run act tries t
          | none =>
            let t := runPhases run act u
            match t.issue.outcome, t.issue.trapped with
            | .run, _ => t.endBundle u ss
            | .trap, some v => if v.cause = cFPX then u.sign.raiseFpx t.issue.flags t.issue.index else u.sign.raise v.cause v.info
            | .trap, none => t
            | .wait, _ => s.stallOrWait k j s.issue.y

/-- Whether a slot of the bundle that its checks let issue would wait (R33, R285): its region marker is taken to have taken effect. -/
def State.slotsWait (s : State) (run : Instr → State → State) (ss : List Slot) : Bool :=
  let s := (s.applyRm s.issue.rm).prepareWins (s.active ss)
  s.mustWait ss || (s.active ss).any fun x => (s.trySlot run x).issue.outcome == .wait

/-- A tried slot that waits has nothing to ask before its wait: no arrival, request, drop or copy of its own comes first. -/
def State.sameAsks (s t : State) : Bool :=
  t.cur.asks == s.cur.asks && t.cur.arr == s.cur.arr && t.cur.cnt == s.cur.cnt && t.cur.pos == s.cur.pos && t.cur.drops == s.cur.drops &&
  t.myCore.copies == s.myCore.copies

/-- Whether a slot of a bundle whose region marker has taken effect would wait for what comes without a further move of the bundle (R285). -/
def State.slotsIdle (s : State) (run : Instr → State → State) (ss : List Slot) : Bool :=
  (s.issue.rm == 0 || s.cur.skipRm) && (s.prepareWins (s.active ss)).cur.windrows == s.cur.windrows &&
  (s.active ss).any fun x => let t := s.trySlot run x; t.issue.outcome == .wait && s.sameAsks t

/-- Whether the bundle of a STALLED context would still wait (R285). -/
def State.stillWaits (s : State) (run : Instr → State → State) (k : Nat) (j : Fin 4) (f : Fetched) : Bool :=
  let s := s.modCtx k j fun c => c.settle s.now
  let s := s.frameIssue k j f
  if f.trap.isSome then false
  else if s.cur.quiet ∧ (s.quietTest k j = .wait ∨ s.quietTest k j = .boundary ∧ s.cur.save.isSome ∧ !s.cur.handedOff) then true
  else s.mustWait f.slots || s.slotsIdle run f.slots

end Sys2Proof.Machine
end

