-- ==== Sys2Proof/Machine/Scalar.lean ====
section
/-! DEFINITION. The scalar forms SAR, SAI, SMX and SFP (04_scalar.md R85 to R90). -/

namespace Sys2Proof.Machine

/-! ## Integer forms (R86 to R89) -/

/-- Writes a function of two sources. -/
def State.bin (s : State) (d : SReg) (a b : Src) (f : Word → Word → Word) (latency : Nat) : Host.Outcome State Fault Refusal :=
  (s.putS d (f (s.src a) (s.src b)) latency).done

/-- Writes a function of one source, with latency 1. -/
def State.un (s : State) (d : SReg) (a : Src) (f : Word → Word) : Host.Outcome State Fault Refusal := (s.putS d (f (s.src a)) 1).done

/-- An interlocked scalar result (R31); s0 discards it. -/
def State.flyS (s : State) (kind : FlightKind) (d : SReg) (v : Word) (delay : Nat) : State :=
  s.fly kind (if d.val = 0 then [] else [.s d v]) none delay

/-- Bits [127:64] of the signed product. -/
def mulHigh (a b : Word) : Word := BitVec.ofInt 64 (a.toInt * b.toInt / 2 ^ 64)

/-- Bits [127:64] of the natural product. -/
def mulHighN (a b : Word) : Word := BitVec.ofNat 64 (a.toNat * b.toNat / 2 ^ 64)

/-- The count in b[5:0]. -/
def shiftCount (b : Word) : Nat := b.toNat % 64

def minS (a b : Word) : Word := if a.slt b then a else b
def maxS (a b : Word) : Word := if a.slt b then b else a
def minN (a b : Word) : Word := if a.ult b then a else b
def maxN (a b : Word) : Word := if a.ult b then b else a

def execAdd (d : SReg) (a b : Src) (s : State) : Host.Outcome State Fault Refusal := s.bin d a b (· + ·) 1
def execSub (d : SReg) (a b : Src) (s : State) : Host.Outcome State Fault Refusal := s.bin d a b (· - ·) 1
def execMul (d : SReg) (a b : Src) (s : State) : Host.Outcome State Fault Refusal := s.bin d a b (· * ·) 3
def execMulh (d : SReg) (a b : Src) (s : State) : Host.Outcome State Fault Refusal := s.bin d a b mulHigh 3
def execMulhn (d : SReg) (a b : Src) (s : State) : Host.Outcome State Fault Refusal := s.bin d a b mulHighN 3
def execAnd (d : SReg) (a b : Src) (s : State) : Host.Outcome State Fault Refusal := s.bin d a b (· &&& ·) 1
def execOr (d : SReg) (a b : Src) (s : State) : Host.Outcome State Fault Refusal := s.bin d a b (· ||| ·) 1
def execXor (d : SReg) (a b : Src) (s : State) : Host.Outcome State Fault Refusal := s.bin d a b (· ^^^ ·) 1
def execAndn (d : SReg) (a b : Src) (s : State) : Host.Outcome State Fault Refusal := s.bin d a b (fun x y => x &&& ~~~ y) 1
def execShl (d : SReg) (a b : Src) (s : State) : Host.Outcome State Fault Refusal := s.bin d a b (fun x y => x <<< shiftCount y) 1
def execShr (d : SReg) (a b : Src) (s : State) : Host.Outcome State Fault Refusal := s.bin d a b (fun x y => x >>> shiftCount y) 1
def execSar (d : SReg) (a b : Src) (s : State) : Host.Outcome State Fault Refusal := s.bin d a b (fun x y => x.sshiftRight (shiftCount y)) 1
def execMin (d : SReg) (a b : Src) (s : State) : Host.Outcome State Fault Refusal := s.bin d a b minS 1
def execMax (d : SReg) (a b : Src) (s : State) : Host.Outcome State Fault Refusal := s.bin d a b maxS 1
def execMinn (d : SReg) (a b : Src) (s : State) : Host.Outcome State Fault Refusal := s.bin d a b minN 1
def execMaxn (d : SReg) (a b : Src) (s : State) : Host.Outcome State Fault Refusal := s.bin d a b maxN 1

def execAddi (d : SReg) (a : Src) (imm : BitVec 7) (s : State) : Host.Outcome State Fault Refusal := s.un d a (· + imm.signExtend 64)
def execAndi (d : SReg) (a : Src) (imm : BitVec 7) (s : State) : Host.Outcome State Fault Refusal := s.un d a (· &&& imm.signExtend 64)
def execOri (d : SReg) (a : Src) (imm : BitVec 7) (s : State) : Host.Outcome State Fault Refusal := s.un d a (· ||| imm.signExtend 64)
def execXori (d : SReg) (a : Src) (imm : BitVec 7) (s : State) : Host.Outcome State Fault Refusal := s.un d a (· ^^^ imm.signExtend 64)
def execShli (d : SReg) (a : Src) (imm : BitVec 6) (s : State) : Host.Outcome State Fault Refusal := s.un d a (· <<< imm.toNat)
def execShri (d : SReg) (a : Src) (imm : BitVec 6) (s : State) : Host.Outcome State Fault Refusal := s.un d a (· >>> imm.toNat)
def execSari (d : SReg) (a : Src) (imm : BitVec 6) (s : State) : Host.Outcome State Fault Refusal := s.un d a (·.sshiftRight imm.toNat)
def execRsubi (d : SReg) (a : Src) (imm : BitVec 7) (s : State) : Host.Outcome State Fault Refusal := s.un d a (imm.signExtend 64 - ·)

/-- The results of the divide forms, their special operands included (R88). -/
def divS (a b : Word) : Word := if b = 0 then BitVec.allOnes 64 else a.sdiv b
def divN (a b : Word) : Word := if b = 0 then BitVec.allOnes 64 else a / b
def remS (a b : Word) : Word := if b = 0 then a else a.srem b
def remN (a b : Word) : Word := if b = 0 then a else a % b

/-- Starts a divide: its result returns in a later cycle (R31, R88). -/
def State.divide (s : State) (d : SReg) (a b : Src) (f : Word → Word → Word) : Host.Outcome State Fault Refusal :=
  (s.flyS .divide d (f (s.src a) (s.src b)) 1).done

def execDiv (d : SReg) (a b : Src) (s : State) : Host.Outcome State Fault Refusal := s.divide d a b divS
def execDivn (d : SReg) (a b : Src) (s : State) : Host.Outcome State Fault Refusal := s.divide d a b divN
def execRem (d : SReg) (a b : Src) (s : State) : Host.Outcome State Fault Refusal := s.divide d a b remS
def execRemn (d : SReg) (a b : Src) (s : State) : Host.Outcome State Fault Refusal := s.divide d a b remN

/-- The low n = b[5:0] + 1 bits of a, sign-extended. -/
def sextLow (a b : Word) : Word := (a <<< (63 - shiftCount b)).sshiftRight (63 - shiftCount b)

/-- The low n = b[5:0] + 1 bits of a, zero-extended. -/
def zextLow (a b : Word) : Word := (a <<< (63 - shiftCount b)) >>> (63 - shiftCount b)

/-- The length of a field specification: b[11:6] + 1 (R89). -/
def fieldLen (b : Word) : Nat := b.toNat / 64 % 64 + 1

/-- The field of a that b names (R89). -/
def fieldGet (a b : Word) : Word := (a >>> shiftCount b) &&& BitVec.ofNat 64 (2 ^ fieldLen b - 1)

/-- The bits of the field that b names (R89); those beyond bit 63 are dropped. -/
def fieldMask (b : Word) : Word := BitVec.ofNat 64 ((2 ^ fieldLen b - 1) * 2 ^ shiftCount b)

/-- The old value with the field that b names replaced from a (R89). -/
def fieldPut (old a b : Word) : Word := (old &&& ~~~ fieldMask b) ||| ((a <<< shiftCount b) &&& fieldMask b)

def execClz (d : SReg) (a : Src) (s : State) : Host.Outcome State Fault Refusal := s.un d a fun x => BitVec.ofNat 64 (leadingZeros x)
def execCtz (d : SReg) (a : Src) (s : State) : Host.Outcome State Fault Refusal := s.un d a fun x => BitVec.ofNat 64 (trailingZeros x)
def execPopc (d : SReg) (a : Src) (s : State) : Host.Outcome State Fault Refusal := s.un d a fun x => BitVec.ofNat 64 (popCount x)
def execBrev (d : SReg) (a : Src) (s : State) : Host.Outcome State Fault Refusal := s.un d a fun x => bitsOf 64 fun i => x.getLsbD (63 - i)
def execBswap (d : SReg) (a : Src) (s : State) : Host.Outcome State Fault Refusal :=
  s.un d a fun x => bitsOf 64 fun i => x.getLsbD (8 * (7 - i / 8) + i % 8)
def execSext (d : SReg) (a b : Src) (s : State) : Host.Outcome State Fault Refusal := s.bin d a b sextLow 1
def execZext (d : SReg) (a b : Src) (s : State) : Host.Outcome State Fault Refusal := s.bin d a b zextLow 1
def execBfx (d : SReg) (a b : Src) (s : State) : Host.Outcome State Fault Refusal := s.bin d a b fieldGet 1
def execBfi (d : SReg) (a b : Src) (s : State) : Host.Outcome State Fault Refusal := s.bin d a b (fieldPut (s.getS d)) 1
def execAbs (d : SReg) (a : Src) (s : State) : Host.Outcome State Fault Refusal := s.un d a fun x => if x.slt 0 then -x else x
def execNeg (d : SReg) (a : Src) (s : State) : Host.Outcome State Fault Refusal := s.un d a fun x => -x

/-! ## Floating point (R90) -/

/-- A source as FP32: bits [31:0]. -/
def State.srcF (s : State) (a : Src) : FVal := fp32.unpack ((s.src a).toNat % 2 ^ 32)

/-- An FP32 result zero-extended, with its flags, latency 4. -/
def State.putF (s : State) (d : SReg) (r : FRes) : Host.Outcome State Fault Refusal :=
  ((s.putS d (BitVec.ofNat 64 r.bits) 4).flagged s r.flags).done

/-- An interlocked FP32 result; its flags join the bundle's. -/
def State.flyF (s : State) (d : SReg) (r : FRes) : Host.Outcome State Fault Refusal :=
  ((s.flyS .divide d (BitVec.ofNat 64 r.bits) 1).flagged s r.flags).done

def execFadd (d : SReg) (a b : Src) (s : State) : Host.Outcome State Fault Refusal := s.putF d (fAdd fp32 s.rmArith (s.srcF a) (s.srcF b))
def execFsub (d : SReg) (a b : Src) (s : State) : Host.Outcome State Fault Refusal := s.putF d (fAdd fp32 s.rmArith (s.srcF a) (s.srcF b).neg)
def execFmul (d : SReg) (a b : Src) (s : State) : Host.Outcome State Fault Refusal := s.putF d (fMul fp32 s.rmArith (s.srcF a) (s.srcF b))
def execFdiv (d : SReg) (a b : Src) (s : State) : Host.Outcome State Fault Refusal := s.flyF d (fDiv fp32 s.rmArith (s.srcF a) (s.srcF b))
def execFsqrt (d : SReg) (a : Src) (s : State) : Host.Outcome State Fault Refusal := s.flyF d (fSqrt fp32 s.rmArith (s.srcF a))
def execFmin (d : SReg) (a b : Src) (s : State) : Host.Outcome State Fault Refusal := s.putF d (fMinMax fp32 false (s.srcF a) (s.srcF b))
def execFmax (d : SReg) (a b : Src) (s : State) : Host.Outcome State Fault Refusal := s.putF d (fMinMax fp32 true (s.srcF a) (s.srcF b))
def execFabs (d : SReg) (a : Src) (s : State) : Host.Outcome State Fault Refusal := s.putF d (fAbsNeg fp32 false (s.srcF a))
def execFneg (d : SReg) (a : Src) (s : State) : Host.Outcome State Fault Refusal := s.putF d (fAbsNeg fp32 true (s.srcF a))
def execFitof (d : SReg) (a : Src) (s : State) : Host.Outcome State Fault Refusal := s.putF d (fOfInt fp32 s.rmArith (s.src a).toInt)
def execFtoi (d : SReg) (a : Src) (s : State) : Host.Outcome State Fault Refusal := s.putF d (fToInt 64 s.rmArith (s.srcF a))
def execFround (d : SReg) (a : Src) (s : State) : Host.Outcome State Fault Refusal := s.putF d (fRound fp32 s.rmArith (s.srcF a))

end Sys2Proof.Machine
end

