-- ==== Sys2Proof/Machine/Branch.lean ====
section
/-! DEFINITION. Branches, loops and the two bindings, BR and LOOP (04_scalar.md R94 to R103, 06_windrow.md R153 to R156, 14_kernel.md R314). -/

namespace Sys2Proof.Machine

/-! ## Branches -/

/-- The bundle in issue lies in the body of a bound level (R155). -/
def State.inBody (s : State) : Bool := s.cur.loop.levels.any fun l => (s.placeIn l).isSome

/-- A taken BR slot: the next bundle is at the target; in a replayed body it raises ILLOP (R94, R97, R155). -/
def State.branchTo (s : State) (target : Word) (cycles : Nat) : State :=
  if s.inBody then s.illop else { s with issue := { s.issue with taken := true, target := some (target, cycles) } }

/-- A PC-relative target: an offset in words from the bundle (R94). DESIGN CHOICE: the sum wraps at 64 bits, so that a target below address 0 has bits
[63:56] set, and its fetch raises PFAULT (log 96). -/
def State.relative (s : State) (off : Word) : Word := s.issue.addr + 4 * off

/-- The first word after the bundle. -/
def State.after (s : State) : Word := s.issue.addr + BitVec.ofNat 64 (4 * s.issue.words)

/-- The address that ends a section (R313). -/
def secEnd : Word := 0x00FFFFFFFFFFFFFC#64

/-- A taken bi or ret: to SECEND it ends the member's section (R94, R314). -/
def State.branchReg (s : State) (a : Word) : State :=
  if a &&& 3#64 ≠ 0 then s.raise47 cALIGN
  else if a = secEnd ∧ s.cur.member.isSome then
    if s.cur.loop.levels ≠ [] then s.illop
    else (s.branchTo a 3).modCur fun c => { c with closing := some .sectionEnd }
  else s.branchTo a 3

/-- A call: the link register takes the address after the bundle, unless the slot traps (R94, R96). -/
def State.callTo (s : State) (target : Word) (cycles : Nat) : State :=
  if s.inBody then s.illop else (s.branchTo target cycles).putS 62 s.after 1

def execBr (o : BitVec 19) (s : State) : Host.Outcome State Fault Refusal := (s.branchTo (s.relative (o.signExtend 64)) 2).done
def execCall (o : BitVec 19) (s : State) : Host.Outcome State Fault Refusal := (s.callTo (s.relative (o.signExtend 64)) 2).done
def execBi (a : Src) (s : State) : Host.Outcome State Fault Refusal := (s.branchReg (s.src a)).done
def execCalli (a : Src) (s : State) : Host.Outcome State Fault Refusal :=
  (if s.src a &&& 3#64 ≠ 0 then s.raise47 cALIGN else s.callTo (s.src a) 3).done
def execRet (a : Src) (s : State) : Host.Outcome State Fault Refusal := (s.branchReg (s.src a)).done

/-- bk and bkn (R95): taken on one uniform mask, not on the other; a mixed mask raises NONUNI. -/
def State.branchMask (s : State) (k : Fin 8) (taken : Mask) (o : BitVec 16) : State :=
  if s.getK k = taken then s.branchTo (s.relative (o.signExtend 64)) 2
  else if s.getK k = ~~~ taken then s
  else s.raise47 cNONUNI

def execBk (k : Fin 8) (o : BitVec 16) (s : State) : Host.Outcome State Fault Refusal := (s.branchMask k (BitVec.allOnes 128) o).done
def execBkn (k : Fin 8) (o : BitVec 16) (s : State) : Host.Outcome State Fault Refusal := (s.branchMask k 0 o).done

/-! ## Loops -/

/-- A level of the loop stack. -/
def State.level (s : State) (l : Fin 6) : Option LoopLevel := s.cur.loop.levels[l.val]?

/-- Adds registers and predicates that a new binding names to a checkpoint, with their values (R155, R156). -/
def Checkpoint.addNamed (ck : Checkpoint) (c : Context) (l : LoopStack) : Checkpoint :=
  { ck with
    named := (l.namedRegs.filter fun r => !(ck.named.any fun x => x.1 == r)).map (fun r => (r, c.latestS r)) ++ ck.named,
    stages := (l.stagePreds.filter fun r => !(ck.stages.any fun x => x.1 == r)).map (fun r => (r, c.latestP r)) ++ ck.stages }

/-- Sets the loop stack, with what its bindings name held in the checkpoints. -/
def Context.setLoop (c : Context) (l : LoopStack) : Context :=
  { c with loop := l, region := { c.region with check := c.region.check.addNamed c l }, span := { c.span with check := c.span.check.addNamed c l } }

/-- The stage predicates of a new level with count n (R156). -/
def State.firstStages (s : State) (b : Option (Fin 16 × BitVec 3)) (n : BitVec 32) : State :=
  match b with
  | none => s
  | some (pb, m) => (stageRegs (pb, m)).foldl (fun s p => s.putP p (p == pb && decide (m.toNat - 1 < n.toNat)) 1) s

/-- loop and loopi (R100, R153). -/
def State.pushLoop (s : State) (n : BitVec 32) (off : Nat) : State :=
  let l := s.cur.loop
  let exit := s.issue.addr + BitVec.ofNat 64 (4 * off)
  if n = 0 then
    let s := s.modCur fun c => { c with loop := { l with armedReplay := none, armedStage := none } }
    { s with issue := { s.issue with target := some (exit, 2) } }
  else if 6 ≤ l.levels.length then s.illop
  else
    let level : LoopLevel := ⟨s.after, exit, 0, n, l.armedReplay, l.armedStage⟩
    (s.modCur fun c => c.setLoop ⟨level :: l.levels, none, none⟩).firstStages l.armedStage n

def execLoop (a : Src) (o : BitVec 13) (s : State) : Host.Outcome State Fault Refusal := (s.pushLoop ((s.src a).setWidth 32) o.toNat).done
def execLoopi (n : BitVec 9) (o : BitVec 10) (s : State) : Host.Outcome State Fault Refusal := (s.pushLoop (n.setWidth 32) o.toNat).done

/-- lexit (R102). -/
def execLexit (l : Fin 6) (s : State) : Host.Outcome State Fault Refusal :=
  match s.level l with
  | none => s.illop.done
  | some x =>
    let s := s.modCur fun c => { c with loop := { c.loop with levels := c.loop.levels.drop (l.val + 1) } }
    State.done { s with issue := { s.issue with target := some (x.exit, 2) } }

/-- rdlp (R103): lc with x, else li; 0 at or above the depth. -/
def execRdlp (d : SReg) (x : Bool) (l : Fin 6) (s : State) : Host.Outcome State Fault Refusal :=
  let v : BitVec 32 := match s.level l with
    | none => 0
    | some y => if x then y.lc else y.li
  (s.putS d (v.setWidth 64) 1).done

/-- wrlp (R103). -/
def execWrlp (a : Src) (x : Bool) (l : Fin 6) (s : State) : Host.Outcome State Fault Refusal :=
  match s.level l with
  | none => s.illop.done
  | some y =>
    let v : BitVec 32 := (s.src a).setWidth 32
    let y := if x then { y with lc := v } else { y with li := v }
    (s.modCur fun c => { c with loop := { c.loop with levels := c.loop.levels.set l.val y } }).done

/-! ## Bindings -/

/-- An entry of a delta table (R154): its four words; none where it is invalid. -/
def deltaEntry (ws : List Word) : Option (Fin 63 × List (BitVec 32)) :=
  let w0 := wordAt ws 0
  if w0.toNat / 64 % 2 ^ 26 ≠ 0 ∨ recBits ws 255 224 ≠ 0 ∨ w0.toNat % 64 = 0 then none
  else if h : w0.toNat % 64 < 63 then
    some (⟨w0.toNat % 64, h⟩, (List.range 6).map fun i => BitVec.ofNat 32 (recBits ws (63 + 32 * i) (32 + 32 * i)))
  else none

/-- The entries of a delta table; none where one is invalid or two name one register (R154). -/
def deltaEntries (ws : List Word) (n : Nat) : Option (List (Fin 63 × List (BitVec 32))) :=
  match (List.range n).mapM fun i => deltaEntry ((ws.drop (1 + 4 * i)).take 4) with
  | none => none
  | some es => if (es.map Prod.fst).Nodup then some es else none

/-- A read of a descriptor or table at a[55:0] by the slot that runs: alignment, then the words (R133, R148, R154, R187). -/
inductive TableRead where
  | ok (ws : List Word)
  | trap (v : TrapVal)
  | wait
  deriving DecidableEq, Repr

/-- R249 names the kind of access: 0, a read. An address with a nonzero bit above 55 is PFAULT here as at any use (R244). -/
def State.readTable (s : State) (a : Word) (align words : Nat) : TableRead × State :=
  let va := a.toNat
  if va % align ≠ 0 then (.trap ⟨cALIGN, s.slotInfo⟩, s)
  else
    match s.readVa va (8 * words) 0 with
    | (.ok bs _, s) => (.ok (wordsOf bs), s)
    | (.trap v, s) => (.trap v, s)
    | (.wait, s) => (.wait, s)

/-- The trap of an address that its use bars: above 56 bits (R244), or in the Loft window (R457). -/
def barred (kind va : Nat) : Option TrapVal :=
  if 2 ^ 56 ≤ va then some ⟨cPFAULT, info249 0 kind va⟩
  else if loftBase ≤ va then some ⟨cPPROT, info249 0 kind va⟩
  else none

/-- A read of a launch block, an image or a table that the Loft window may not hold (R457). -/
def State.readOutside (s : State) (a : Word) (align words : Nat) : TableRead × State :=
  match barred 0 a.toNat with
  | some v => (.trap (if a.toNat % align ≠ 0 then ⟨cALIGN, s.slotInfo⟩ else v), s)
  | none => s.readTable a align words

/-- ILLOP with the address of a descriptor or table (R47). -/
def State.badTable (s : State) (a : Word) : State := s.raise cILLOP (info47 s.issue.index a)

/-- replay (R153, R154). -/
def execReplay (a : Src) (n : BitVec 6) (s : State) : Host.Outcome State Fault Refusal :=
  let at_ := s.src a
  match s.readTable at_ 8 1 with
  | (.trap v, s) => (s.raise v.cause v.info).done
  | (.wait, s) => s.wait.done
  | (.ok h, s) =>
    let nent := (wordAt h 0).toNat
    if nent = 0 ∨ 8 < nent then (s.badTable at_).done
    else
      match s.readTable at_ 8 (1 + 4 * nent) with
      | (.trap v, s) => (s.raise v.cause v.info).done
      | (.wait, s) => s.wait.done
      | (.ok ws, s) =>
        match deltaEntries ws nent with
        | none => (s.badTable at_).done
        | some es => (s.modCur fun c => { c with loop := { c.loop with armedReplay := some ⟨es, n⟩ } }).done

/-- stgset (R153, R156). -/
def execStgset (p : Fin 16) (n : BitVec 3) (s : State) : Host.Outcome State Fault Refusal :=
  (s.modCur fun c => { c with loop := { c.loop with armedStage := some (p, n) } }).done

end Sys2Proof.Machine
end

