-- ==== Sys2Proof/Machine/RingOps.lean ====
section
/-! DEFINITION. Ring-table entries, slots and bindings as operations: publish, release, mask change, init and the Gleaner's and the matrix
engine's use of a slot (08_ring.md R185 to R192, R194, R197, R199 to R203, R456). -/

namespace Sys2Proof.Machine

/-! ## Entries and slots -/

/-- A ring-table entry of a sheaf. -/
def State.ringEntry (s : State) (h rid : Nat) : RingEntry := tget RingEntry.reset (s.sheaf h).rings rid

/-- Changes a ring-table entry. -/
def State.modRing (s : State) (h rid : Nat) (f : RingEntry → RingEntry) : State :=
  s.modSheaf h fun x => { x with rings := tput x.rings rid (f (tget RingEntry.reset x.rings rid)) }

/-- The index of sequence q (R188). -/
def RingDesc.index (d : RingDesc) (q : BitVec 32) : Nat := q.toNat % d.nslot.toNat

/-- Bytes of a slot. -/
def RingDesc.slotBytes (d : RingDesc) : Nat := d.slotsz.toNat * 256

/-- The address of slot q (R188). -/
def RingDesc.slotAddr (d : RingDesc) (q : BitVec 32) : Nat := d.base.toNat + d.index q * d.slotBytes

/-- The scratchpad offset of slot q. -/
def RingDesc.slotOff (d : RingDesc) (q : BitVec 32) : Nat := d.slotAddr q - loftBase

/-- The slot that sequence q occupies. -/
def RingEntry.slot (e : RingEntry) (q : BitVec 32) : RingSlot := tget RingSlot.reset e.slots (e.desc.index q)

/-- Replaces the slot that sequence q occupies. -/
def RingEntry.setSlot (e : RingEntry) (q : BitVec 32) (x : RingSlot) : RingEntry := { e with slots := tput e.slots (e.desc.index q) x }

/-- The bit of a context in a CMASK (R186). -/
def meBit (core : Nat) (j : Fin 4) : Nat := 4 * (core % 8) + j.val

/-- Slots of an entry in FREE state (R198). -/
def RingEntry.freeCount (e : RingEntry) : Nat :=
  ((List.range e.desc.nslot.toNat).filter fun i => (tget RingSlot.reset e.slots i).state == .free).length

/-- Whether sequence q is FULL for a consumer's bit, and visible (R196, R201). -/
def RingEntry.fullFor (e : RingEntry) (now : Nat) (q : BitVec 32) (bit : Nat) : Bool :=
  let x := e.slot q
  x.state == .full && x.tag == q && x.pending.getLsbD bit && decide (x.visible ≤ now)

/-- Whether the slot of sequence q is FREE, and visibly so. -/
def RingEntry.freeFor (e : RingEntry) (now : Nat) (q : BitVec 32) : Bool :=
  let x := e.slot q
  x.state == .free && decide (x.visible ≤ now)

/-- A FULL slot loses pending bits: with none left it is FREE, visibly from two cycles on (R189, R190, R201). -/
def RingSlot.clear (x : RingSlot) (now : Nat) (keep : BitVec 32) (gleaner : Bool) : RingSlot :=
  let p := x.pending &&& keep
  let g := x.gpend && !gleaner
  if p = 0 ∧ !g then { RingSlot.reset with visible := now + 2 } else { x with pending := p, gpend := g }

/-- A slot becomes FULL (R189). -/
def RingEntry.fill (e : RingEntry) (q : BitVec 32) (eos err : Bool) (visible : Nat) : RingEntry :=
  let x := e.slot q
  if !e.desc.cons ∧ e.cmask = 0 then e.setSlot q { RingSlot.reset with visible := visible }
  else e.setSlot q { x with state := .full, tag := q, pending := if e.desc.cons then 0 else e.cmask, gpend := e.desc.cons,
                            eos := eos, err := err, visible := visible }

/-- A slot leaves FREE for sequence q: it takes its tag and NEXT advances (R185). -/
def RingEntry.take (e : RingEntry) (q : BitVec 32) (eos : Bool) (visible : Nat) : RingEntry :=
  { e.setSlot q { RingSlot.reset with state := .filling, tag := q, eos := eos, visible := visible } with next := e.next + 1 }

/-- Cores that keep a copy of an entry's slots (R188). -/
def RingEntry.copies (e : RingEntry) (h : Nat) : List Nat :=
  ((List.range 8).filter fun c => e.cmask.toNat / 2 ^ (4 * c) % 16 != 0 || (match e.producer with
    | some (k, _) => k == 8 * h + c
    | none => false)).map fun c => 8 * h + c

/-- Loft steps that an entry's slots lie in (R211). -/
def RingDesc.stepsNeeded (d : RingDesc) : Nat := (d.base.toNat - loftBase + d.nslot.toNat * d.slotBytes + 0x3FFFF) / 0x40000

/-- The floor under SCR (R211). -/
def State.loftFloor (s : State) (k : Nat) : Nat :=
  (s.sheaf (sheafOf k)).rings.foldl (fun n x =>
    let e := x.2
    let names := e.cmask.toNat / 2 ^ (4 * (k % 8)) % 16 != 0 || (match e.producer with
      | some (p, _) => p == k
      | none => false)
    if e.ready ∧ names then max n e.desc.stepsNeeded else n) 0

/-- Loft bytes of a core. -/
def State.loftRead (s : State) (k off n : Nat) : List Byte := bgetN (s.core k).loft off n

/-- Writes Loft bytes of a core. -/
def State.loftWrite (s : State) (k off : Nat) (bs : List Byte) : State := s.modCore k fun c => { c with loft := bsetN c.loft off bs }

/-! ## Bindings -/

/-- A change of ring registers that no restore undoes: it is made in the checkpoints too (R191). -/
def Context.mapRings (c : Context) (f : RingReg → RingReg) : Context :=
  { c with rings := vecMap f c.rings,
           region := { c.region with check := { c.region.check with rings := vecMap f c.region.check.rings } },
           span := { c.span with check := { c.span.check with rings := vecMap f c.span.check.rings } } }

/-- The same, each register by its number. -/
def Context.mapRingsAt (c : Context) (f : Fin 16 → RingReg → RingReg) : Context :=
  let g := fun (v : Vector RingReg 16) => Vector.ofFn fun i => f i v[i]
  { c with rings := g c.rings,
           region := { c.region with check := { c.region.check with rings := g c.region.check.rings } },
           span := { c.span with check := { c.span.check with rings := g c.span.check.rings } } }

/-- Changes the contexts of a sheaf. -/
def State.modSheafCtx (s : State) (h : Nat) (f : Nat → Fin 4 → Context → Context) : State :=
  (coresOfSheaf h).foldl (fun s k => (List.finRange 4).foldl (fun s j => s.modCtx k j (f k j)) s) s

/-- The ring that an effect acts on at its commit. -/
def Effect.ring : Effect → Option (Fin 64)
  | .publish _ _ _ rid _ => some rid
  | .release _ _ _ rid => some rid
  | .mask _ _ rid _ => some rid
  | .init _ d _ => some d.rid
  | _ => none

/-- Effects of a context that have been accepted and have not taken effect. -/
def Context.effectsOut (c : Context) : List Effect :=
  c.outbox.filterMap fun x => match x with
    | .effect e => some e
    | _ => none

/-- An rcfg of the context has bound a register with init, and the init has not taken effect (R194). -/
def Context.initPending (c : Context) (d : RingDesc) : Bool :=
  (c.effectsOut ++ c.region.deferred).any fun e => match e with
    | .init _ d' _ => d' == d
    | _ => false

/-- A binding made with init whose init is still to take effect: it is BOUND all the same (R194). -/
def State.fresh (s : State) (k : Nat) (j : Fin 4) (r : RingReg) : Bool :=
  r.core == k && r.epoch == (s.ringEntry (sheafOf k) r.desc.rid.val).epoch + 1 && (s.ctxAt k j).initPending r.desc

/-- The entry of a binding: before its own init has taken effect, what that init makes of it (R194; log 85). DESIGN CHOICE: for a STALE binding
restored on a core of another sheaf it is the entry of the present core's sheaf (R198; log 85). -/
def State.boundEntry (s : State) (k : Nat) (j : Fin 4) (r : RingReg) : RingEntry :=
  let e := s.ringEntry (sheafOf k) r.desc.rid.val
  if s.fresh k j r then { e with ready := true, desc := r.desc, cmask := r.desc.cmask, epoch := r.epoch, next := 0, slots := [] } else e

/-- A binding as its next use finds it; an rmask that takes its consumer bit, and an init of its entry, have made it STALE then (R191). -/
def State.bindState (s : State) (k : Nat) (j : Fin 4) (r : RingReg) : RingState :=
  match r.state with
  | .bound =>
    let e := s.boundEntry k j r
    if !e.ready ∨ e.epoch ≠ r.epoch ∨ r.core ≠ k then .stale else .bound
  | x => x

/-- The bindings of a context to an epoch of an entry are STALE from now on, its checkpoints' too (R191, R456). -/
def State.makeStale (s : State) (k : Nat) (j : Fin 4) (rid : Fin 64) (epoch : BitVec 8) : State :=
  s.modCtx k j fun c => c.mapRings fun r => if r.state = .bound ∧ r.desc.rid = rid ∧ r.epoch = epoch then { r with state := .stale } else r

/-- A commit-time effect acts only within the epoch of its binding (R456). -/
def State.inEpoch (s : State) (k : Nat) (j : Fin 4) (epoch : BitVec 8) (rid : Fin 64) (f : State → State) : State :=
  let e := s.ringEntry (sheafOf k) rid.val
  if e.ready ∧ e.epoch = epoch then f s else s.makeStale k j rid epoch

/-- Changes ring registers of saved contexts, by their binding's core and their slot (R191, R194, R197). -/
def State.modSealed (s : State) (h : Nat) (pick : Nat → Fin 4 → Bool) (f : RingReg → RingReg) : State :=
  { s with sealed := s.sealed.map fun (x : Sealed) =>
      { x with rings := vecMap (fun r => if sheafOf r.core = h ∧ pick r.core x.slot then f r else r) x.rings } }

/-- Changes ring registers of every context of a sheaf that a test on its core and slot picks, live or saved (R191, R197). -/
def State.modBindings (s : State) (h : Nat) (pick : Nat → Fin 4 → Bool) (f : RingReg → RingReg) : State :=
  (s.modSheafCtx h fun k j c => if pick k j then c.mapRings f else c).modSealed h pick f

/-! ## Effects at commit (R189, R195 to R197, R199) -/

/-- A publish of sequence q: FULL in a local ring, FILLING in a multicast ring, whose copies take a cycle for each 256 bytes (R201). -/
def State.publish (s : State) (k : Nat) (j : Fin 4) (q : BitVec 32) (epoch : BitVec 8) (rid : Fin 64) (eos : Bool) : State :=
  s.inEpoch k j epoch rid fun s => s.modRing (sheafOf k) rid.val fun e =>
    if (e.slot q).state ≠ .free then e
    else if e.desc.mcast then e.take q eos (s.now + 2 + (if eos then 0 else e.desc.slotsz.toNat))
    else (e.take q eos 0).fill q eos false (s.now + 2)

/-- A consumer's release of sequence q in an entry: without effect where the slot is not FULL with its bit set (R456). -/
def RingEntry.release (e : RingEntry) (now : Nat) (q : BitVec 32) (bit : Nat) : RingEntry :=
  let x := e.slot q
  if x.state = .full ∧ x.pending.getLsbD bit then e.setSlot q (x.clear now (~~~ (1#32 <<< bit)) false) else e

/-- The commit of an rrel. -/
def State.releaseSlot (s : State) (k : Nat) (j : Fin 4) (q : BitVec 32) (epoch : BitVec 8) (rid : Fin 64) : State :=
  s.inEpoch k j epoch rid fun s => s.modRing (sheafOf k) rid.val fun e => e.release s.now q (meBit k j)

/-- The commit of an rmask (R197): contexts whose bit goes are STALE, saved ones too. -/
def State.maskRing (s : State) (k : Nat) (j : Fin 4) (epoch : BitVec 8) (rid : Fin 64) (cmask : BitVec 32) : State :=
  s.inEpoch k j epoch rid fun s =>
    let h := sheafOf k
    let gone := (s.ringEntry h rid.val).cmask &&& ~~~ cmask
    let s := s.modRing h rid.val fun e =>
      { e with cmask := cmask, slots := e.slots.map fun x => (x.1, if x.2.state = .full then x.2.clear s.now cmask false else x.2) }
    s.modBindings h (fun k' j' => gone.getLsbD (meBit k' j')) fun r =>
      if r.state = .bound ∧ r.desc.rid = rid ∧ (r.c || r.e) then { r with state := .stale } else r

/-- A token completes (R238). -/
def doneToken (ts : Vector Token 64) (tok : Fin 64) (st : Status) (trap : TrapVal) : Vector Token 64 :=
  if ts[tok].state = .pending then ts.set tok { ts[tok] with state := .done st trap } else ts

/-- A token of a context completes where the context is: in a slot, or in the sealed part of its image (R238, R301). -/
def State.completeToken (s : State) (ident : Nat) (tok : Fin 64) (st : Status) (trap : TrapVal) : State :=
  let s := { s with sealed := s.sealed.map fun (x : Sealed) => if x.ident = ident then { x with tokens := doneToken x.tokens tok st trap } else x }
  s.liveCores.foldl (fun s k => (List.finRange 4).foldl (fun s j =>
    if (s.ctxAt k j).ident = ident then s.modCtx k j fun c => { c with tokens := doneToken c.tokens tok st trap } else s) s) s

/-- TRAPINFO of a stream's token: RID and tile index (R203). -/
def streamInfo (rid : Fin 64) (tile : Nat) : Word := BitVec.ofNat 64 (rid.val + tile % 2 ^ 32 * 64)

/-- A command ends: with L its writes perform before its token is DONE (R239). -/
def State.endCommand (s : State) (ident : Nat) (c : EngineCmd) (st : Status) (v : TrapVal) : State :=
  (if c.l then s.landCommand ident c.tok else s).completeToken ident c.tok st v

/-- Streams on an entry stop with RESET (R194, R203, R422). -/
def State.resetStreams (s : State) (h : Nat) (rid : Fin 64) : State :=
  let hit := (s.sheaf h).streams.filter fun x => x.rid == rid
  let s := s.modSheaf h fun x => { x with streams := x.streams.filter fun y => !(y.rid == rid) }
  hit.foldl (fun s x => if x.errEos then s
    else s.endCommand x.ident x.cmd .reset ⟨cRINGERR, streamInfo rid x.tile⟩) s

/-- An effect of a binding takes the epoch that the binding's init has given it. -/
def Effect.renew (rid : Fin 64) (old new : BitVec 8) (e : Effect) : Effect :=
  match e with
  | .publish rb q epoch r eos => .publish rb q (if r = rid ∧ epoch = old then new else epoch) r eos
  | .release rb q epoch r => .release rb q (if r = rid ∧ epoch = old then new else epoch) r
  | .mask rb epoch r m => .mask rb (if r = rid ∧ epoch = old then new else epoch) r m
  | e => e

/-- The binding of an init and what the context still has to commit through it take the entry's epoch: it is the one that they took at issue,
unless another init of the entry has come between. -/
def Context.renew (c : Context) (rb : Fin 16) (rid : Fin 64) (epoch : BitVec 8) : Context :=
  let old := c.rings[rb].epoch
  if old = epoch then c
  else
    { c with rings := c.rings.set rb { c.rings[rb] with epoch := epoch },
             region := { c.region with deferred := c.region.deferred.map (Effect.renew rid old epoch) },
             outbox := c.outbox.map fun x => match x with
               | .effect e => .effect (e.renew rid old epoch)
               | x => x }

/-- The commit of an rcfg with init (R189, R194): the entry starts a new epoch, and every other binding is STALE, live or saved, but one whose own
init is still to come. -/
def State.initRing (s : State) (k : Nat) (j : Fin 4) (rb : Fin 16) (d : RingDesc) (prod : Bool) : State :=
  let h := sheafOf k
  let s := s.resetStreams h d.rid
  let epoch := (s.ringEntry h d.rid.val).epoch + 1
  let s := s.modRing h d.rid.val fun _ =>
    { ready := true, desc := d, cmask := d.cmask, producer := if prod then some (k, j) else none, epoch := epoch, next := 0, slots := [] }
  let mine := fun (r : RingReg) => r.state == .bound && r.desc == d && r.core == k
  let coming := fun (c : Context) (i : Fin 16) => c.effectsOut.any fun e => match e with
    | .init i' d' _ => i' == i && d' == d
    | _ => false
  let stale := fun (r : RingReg) => if r.state = .bound ∧ r.desc.rid = d.rid then { r with state := .stale } else r
  let s := (s.modSheafCtx h fun k' j' c => if k' = k ∧ j' = j then c else c.mapRings stale).modSealed h (fun _ _ => true) stale
  let s := s.modCtx k j fun c => c.mapRingsAt fun i r => if (i = rb ∨ coming c i) ∧ mine r ∧ r.epoch = c.rings[i].epoch then r else stale r
  s.modCtx k j fun c => if mine c.rings[rb] then c.renew rb d.rid epoch else c

/-! ## The matrix engine's use (R165, R167, R192) -/

/-- The engine gives a slot back: its bit clears at once. -/
def State.engineRelease (s : State) (k : Nat) (j : Fin 4) (x : HeldSlot) : State :=
  let e := s.ringEntry (sheafOf k) x.rid.val
  if e.ready ∧ e.epoch = x.epoch then s.modRing (sheafOf k) x.rid.val fun e => e.release s.now x.q (meBit k j) else s

end Sys2Proof.Machine
end

