-- ==== Sys2Proof/Machine/StepRegs.lean ====
section
/-! DEFINITION. The Step Sequencer's own operations and the forms srd and swr (18_step.md R353 to R370). -/

namespace Sys2Proof.Machine

/-- The cores and fields of the package. -/
def allFields : List Nat := List.range 4

/-- The value a step register stores (R357, R367): N32 and FP32 registers keep the low 32 bits. -/
def stepValue (r : Fin 17) (v : Word) : Word := if r.val = 2 ∨ r.val = 4 then v else v &&& 0xFFFFFFFF#64

/-- Applies writes to a copy of the step registers. -/
def applySteps (ws : List (Fin 17 × Word)) (x : Vector Word 17) : Vector Word 17 := ws.foldl (fun x w => x.set w.1 w.2) x

/-- The SSQ begins to write step registers: its own at once, then every copy (R358). -/
def Ssq.beginWrites (q : Ssq) (ws : List (Fin 17 × Word)) : Ssq :=
  { q with step := applySteps ws q.step, writes := ws, oldCores := List.range numCores, oldFields := allFields }

/-- One copy changes: a core's, or a Thresher's (R358). -/
def State.copyStep (s : State) (core : Bool) (n : Nat) : State :=
  let ws := s.ssq.writes
  if core then
    { s.modCore n fun c => { c with step := applySteps ws c.step } with ssq := { s.ssq with oldCores := s.ssq.oldCores.filter (· != n) } }
  else
    { s.modField n fun f => { f with step := applySteps ws f.step } with ssq := { s.ssq with oldFields := s.ssq.oldFields.filter (· != n) } }

/-- Every copy that is still old changes. -/
def State.copyAllSteps (s : State) : State :=
  s.ssq.oldFields.foldl (fun s n => s.copyStep false n) (s.ssq.oldCores.foldl (fun s n => s.copyStep true n) s)

/-- The control block's address with an offset in bytes. -/
def State.ssqBlock (s : State) (off : Nat) : Nat := s.config.sqblk + off

/-- Writes CUR (R354). -/
def State.writeCur (s : State) : State := s.physWrite (s.ssqBlock 40) (leBytes 8 s.ssq.last.toNat)

/-- STATE codes (R354). -/
def SsqState.code : SsqState → Nat
  | .idle => 0
  | .running => 1
  | .waiting => 2
  | .stopped => 3
  | .faulted => 4
  | .taken => 5

/-- Writes STATE, bits [275:272] of the block. -/
def State.writeSsqState (s : State) : State :=
  let a := s.ssqBlock 34
  s.physWrite a [BitVec.ofNat 8 s.ssq.state.code]

/-- The SSQ moves to a state, which it writes (R355). -/
def State.ssqTo (s : State) (x : SsqState) : State := ({ s with ssq := { s.ssq with state := x, waiting := none } } : State).writeSsqState

/-- A fault of the SSQ (R368): CAUSE and DETAIL are written before STATE. -/
def State.ssqFault (s : State) (c : Cause) (detail : Nat) : State :=
  let s := s.physWrite (s.ssqBlock 35) [c]
  let s := s.physWrite (s.ssqBlock 48) (leBytes 8 detail)
  s.ssqTo .faulted

/-- A stop with a code (R355, R367). -/
def State.ssqStop (s : State) (code : BitVec 16) : State := (s.physWrite (s.ssqBlock 36) (leBytes 2 code.toNat)).ssqTo .stopped

/-- The node in progress ends: CUR is written, and the SSQ goes on at an address (R354, R360). -/
def State.nodeEnds (s : State) (at_ next : BitVec 56) : State :=
  ({ s with ssq := { s.ssq with last := at_, cur := next, state := .running, waiting := none, ending := none } } : State).writeCur

/-- What happens once every copy holds the values: the node ends, or the swr is answered (R358, R370). -/
def State.endWrites (s : State) : State :=
  let q := s.ssq
  let s := { s with ssq := { q with writes := [], asker := none } }
  let s := match q.asker with
    | some a => s.modCtx a.core a.slot fun c => c.answer a.id
    | none => s
  match q.ending with
  | some n => s.nodeEnds n s.ssq.cur
  | none => s

/-- One move of the SSQ's copying: a copy that is still old changes; with none left the writes end; with no write in progress the oldest swr
begins (R358). The copy is a free choice. -/
def State.copyMove (s : State) : State :=
  let q := s.ssq
  if q.writes ≠ [] then
    let n := q.oldCores.length + q.oldFields.length
    if n = 0 then s.endWrites
    else
      let i := Config.latency s.draws % n
      let s := s.drawn
      if i < q.oldCores.length then s.copyStep true (q.oldCores.getD i 0) else s.copyStep false (q.oldFields.getD (i - q.oldCores.length) 0)
  else
    match q.asks with
    | a :: rest => { s with ssq := { q with asks := rest, asker := some a }.beginWrites [(a.reg, a.value)] }
    | [] => s

/-! ## srd and swr (R370) -/

def execSrd (d : SReg) (x : Fin 17) (s : State) : Host.Outcome State Fault Refusal := (s.putS d s.myCore.step[x] 1).done

/-- SWREN of the control block, bit 265, as it stands. -/
def State.swren (s : State) : Bool := (leNat (s.physRead (s.ssqBlock 33) 1)).testBit 1

/-- swr makes its request once and waits until every copy holds the value. -/
def execSwr (a : Src) (x : Fin 17) (s : State) : Host.Outcome State Fault Refusal :=
  match s.asked with
  | some true => s.done
  | some false => s.wait.done
  | none =>
    if x.val < 4 ∨ !s.swren then s.illop.done
    else
      let ask : StepAsk := ⟨s.issue.core, s.issue.slot, s.serial, x, stepValue x (s.src a)⟩
      (({ s with ssq := { s.ssq with asks := s.ssq.asks ++ [ask] } } : State).meetPhys (s.ssqBlock 33) 1).ask.wait.done

end Sys2Proof.Machine
end

