-- ==== Sys2Proof/Machine/LoadStore.lean ====
section
/-! DEFINITION. Loads and stores, LD and ST (02_bundle.md R39, 06_windrow.md R143 to R145). -/

namespace Sys2Proof.Machine

/-- The base after a post-increment (R39, R145); none without one. -/
def State.postIncrement (s : State) (base : Word) (m : Fin 8) (i : BitVec 4) (size : Nat) : Option Word :=
  if i = 0 then none
  else if i = 8 then
    let r := s.cur.regs
    if r.mlen[m] = 0 then some (base + r.mstep[m])
    else
      let x : Int := (base.toNat : Int) - (r.mb[m]).toNat + (r.mstep[m]).toInt
      some (r.mb[m] + BitVec.ofInt 64 (x % ((r.mlen[m]).toNat : Int)))
  else some (base + BitVec.ofInt 64 (i.toInt * size))

/-- The register a base field names. -/
def srcReg : Src → Option (Fin 63)
  | .reg r => some r
  | .lit _ => none

/-- The base register with its new value, s0 apart. -/
def State.advanced (s : State) (b : Src) (m : Fin 8) (i : BitVec 4) (size : Nat) : Option (Fin 63 × Word) :=
  match srcReg b, s.postIncrement (s.src b) m i size with
  | some r, some v => if r.val = 0 then none else some (r, v)
  | _, _ => none

/-- Checks an effective address (R143): PFAULT beyond 56 bits, then ALIGN. -/
def State.badAddress (s : State) (ea : Word) (align kind : Nat) : Option TrapVal :=
  if 2 ^ 56 ≤ ea.toNat then some ⟨cPFAULT, info249 0 kind ea.toNat⟩
  else if ea.toNat % align ≠ 0 then some ⟨cALIGN, s.slotInfo⟩
  else none

/-- The bytes of a load, whether they come from the scratchpad, and the machine after the read. -/
def State.loadBytes (s : State) (b : Src) (size align : Nat) : Got (List Byte × Bool) :=
  let ea := s.src b
  match s.badAddress ea align 0 with
  | some v => .stop (s.raise v.cause v.info)
  | none =>
    match s.readVa ea.toNat size 0 with
    | (.ok bs loft, s) => .ok (bs, loft) s
    | (.trap v, s) => .stop (s.raise v.cause v.info)
    | (.wait, s) => .stop s.wait

/-- The post-increment of a load or store of fixed latency (R31, R145). -/
def State.advance (s : State) (b : Src) (m : Fin 8) (i : BitVec 4) (size : Nat) : State :=
  match s.advanced b m i size with
  | some (r, v) => s.putS r v 1
  | none => s

/-- Ends a load into registers: five cycles from the scratchpad, else interlocked with its post-increment (R31). -/
def State.finishLoad (s : State) (v : RegVal) (loft : Bool) (b : Src) (m : Fin 8) (i : BitVec 4) (size : Nat) : State :=
  if loft then
    (match v with
     | .s r x => s.putS r x 5
     | v => s.put v 5).advance b m i size
  else
    let drop : RegVal → List RegVal := fun v => match v with
      | .s r x => if r.val = 0 then [] else [.s r x]
      | v => [v]
    let inc := match s.advanced b m i size with
      | some (r, x) => [RegVal.s r x]
      | none => []
    s.fly .load (drop v ++ inc) none 1

/-- A scalar load (R143). -/
def State.loadS (s : State) (d : SReg) (b : Src) (m : Fin 8) (i : BitVec 4) (size : Nat) : Host.Outcome State Fault Refusal :=
  match s.loadBytes b size size with
  | .stop s => s.done
  | .ok (bs, loft) s => (s.finishLoad (.s d (BitVec.ofNat 64 (leNat bs))) loft b m i size).done

def execLdb (d : SReg) (b : Src) (m : Fin 8) (i : BitVec 4) (s : State) : Host.Outcome State Fault Refusal := s.loadS d b m i 1
def execLdh (d : SReg) (b : Src) (m : Fin 8) (i : BitVec 4) (s : State) : Host.Outcome State Fault Refusal := s.loadS d b m i 2
def execLdw (d : SReg) (b : Src) (m : Fin 8) (i : BitVec 4) (s : State) : Host.Outcome State Fault Refusal := s.loadS d b m i 4
def execLdd (d : SReg) (b : Src) (m : Fin 8) (i : BitVec 4) (s : State) : Host.Outcome State Fault Refusal := s.loadS d b m i 8

/-- A vector load of loaded bytes as `value` gives them (R143): into a register, or pushed to a write windrow when the data arrives (R140). DESIGN
CHOICE: where its address and its windrow are both bad, a load raises the trap of the address, and a vector store that of the windrow (log 93). -/
def State.loadV (s : State) (v : VOp) (b : Src) (m : Fin 8) (i : BitVec 4) (size align bits : Nat) (value : List Byte → Vec) :
    Host.Outcome State Fault Refusal :=
  match v with
  | .reg r =>
    match s.loadBytes b size align with
    | .stop s => s.done
    | .ok (bs, loft) s => (s.finishLoad (.v r (value bs)) loft b m i size).done
  | .win w =>
    match s.loadBytes b size align with
    | .stop s => s.done
    | .ok (bs, loft) s =>
      let desc := (s.win w).desc
      let vas := (s.win w).pushAddrs bits
      match s.startPush w bits with
      | .stop s => s.done
      | .ok places s =>
        let inc := match s.advanced b m i size with
          | some (r, x) => [RegVal.s r x]
          | none => []
        let push : Option HeldPush := match places with
          | some ps => some ⟨w, ps, desc.store bits (value bs), vas⟩
          | none => none
        if loft then ((s.fly .fixed [] push 5).advance b m i size).done else (s.fly .load inc push 1).done

/-- The lowest bytes of a vector. -/
def vecOfBytes (bs : List Byte) : Vec := BitVec.ofNat 1024 (leNat bs)

/-- Four bytes in every 32-bit lane. -/
def broadcast4 (bs : List Byte) : Vec := ofLanes 32 (List.replicate 32 (BitVec.ofNat 32 (leNat bs)))

def execLdv256 (v : VOp) (b : Src) (m : Fin 8) (i : BitVec 4) (s : State) : Host.Outcome State Fault Refusal := s.loadV v b m i 32 32 256 vecOfBytes
def execLdv512 (v : VOp) (b : Src) (m : Fin 8) (i : BitVec 4) (s : State) : Host.Outcome State Fault Refusal := s.loadV v b m i 64 32 512 vecOfBytes
def execLdv1k (v : VOp) (b : Src) (m : Fin 8) (i : BitVec 4) (s : State) : Host.Outcome State Fault Refusal := s.loadV v b m i 128 32 1024 vecOfBytes
def execLdbc (v : VOp) (b : Src) (m : Fin 8) (i : BitVec 4) (s : State) : Host.Outcome State Fault Refusal := s.loadV v b m i 4 4 1024 broadcast4

/-! ## Stores -/

/-- A store of bytes at the base, a mask choosing those written; its trap names the slot where the address alone fails (R143, R144, R271). -/
def State.storeBytes (s : State) (b : Src) (align size : Nat) (bs : List Byte) (keep : Nat → Bool) (m : Fin 8) (i : BitVec 4) : State :=
  let ea := s.src b
  match s.badAddress ea align 1 with
  | some v => s.raise v.cause v.info
  | none =>
    match s.storeVa ea.toNat bs keep none with
    | (.ok, s) => s.advance b m i size
    | (.trap v, s) => s.raise v.cause v.info
    | (.wait, s) => s.wait

/-- A scalar store. -/
def State.storeS (s : State) (a b : Src) (m : Fin 8) (i : BitVec 4) (size : Nat) : Host.Outcome State Fault Refusal :=
  (s.storeBytes b size size (leBytes size (s.src a).toNat) (fun _ => true) m i).done

def execStb (a b : Src) (m : Fin 8) (i : BitVec 4) (s : State) : Host.Outcome State Fault Refusal := s.storeS a b m i 1
def execSth (a b : Src) (m : Fin 8) (i : BitVec 4) (s : State) : Host.Outcome State Fault Refusal := s.storeS a b m i 2
def execStw (a b : Src) (m : Fin 8) (i : BitVec 4) (s : State) : Host.Outcome State Fault Refusal := s.storeS a b m i 4
def execStd (a b : Src) (m : Fin 8) (i : BitVec 4) (s : State) : Host.Outcome State Fault Refusal := s.storeS a b m i 8

/-- A vector store of a register or of an element vector it consumes (R143). -/
def State.storeV (s : State) (v : VOp) (b : Src) (m : Fin 8) (i : BitVec 4) (bits : Nat) (keep : Nat → Bool) : Host.Outcome State Fault Refusal :=
  match s.readV v bits with
  | .stop s => s.done
  | .ok x s => (s.storeBytes b 32 (bits / 8) (leBytes (bits / 8) x.toNat) keep m i).done

def execStv256 (v : VOp) (b : Src) (m : Fin 8) (i : BitVec 4) (s : State) : Host.Outcome State Fault Refusal := s.storeV v b m i 256 fun _ => true
def execStv512 (v : VOp) (b : Src) (m : Fin 8) (i : BitVec 4) (s : State) : Host.Outcome State Fault Refusal := s.storeV v b m i 512 fun _ => true
def execStv1k (v : VOp) (b : Src) (m : Fin 8) (i : BitVec 4) (s : State) : Host.Outcome State Fault Refusal := s.storeV v b m i 1024 fun _ => true
def execStvk (v : VOp) (b : Src) (k : Fin 8) (i : BitVec 4) (s : State) : Host.Outcome State Fault Refusal :=
  s.storeV v b 0 i 1024 fun n => (s.getK k).getLsbD n

end Sys2Proof.Machine
end

