-- ==== Sys2Proof/Machine/Sync.lean ====
section
/-! DEFINITION. Ordering, atomics, tokens, rendezvous and phases: ATM and SYNC (10_line.md R230 to R242, 16_group.md R336 to R341,
17_barrier.md R344 to R351). -/

namespace Sys2Proof.Machine

/-! ## Atomics (R240 to R242) -/

/-- An ATM slot at issue: its address is checked and translated, and the region holds the atomic until its commit; the host window takes
none (R393). -/
def State.atomic (s : State) (op : Fin 8) (d a b : Fin 32) (scope : Scope) (four : Bool) : Host.Outcome State Fault Refusal :=
  let ea := s.getS (d32 a)
  match s.badAddress ea (if four then 4 else 8) 3 with
  | some v => (s.raise v.cause v.info).done
  | none =>
    match s.locate .write ea.toNat 0 3 with
    | (.trap v, s) => (s.raise v.cause v.info).done
    | (.wait, s) => s.wait.done
    | (.ok t, s) =>
      if t.place = .phys ∧ s.paKind t.addr = .host then (s.raise cPPROT (info249 0 3 ea.toNat)).done
      else
      let r : AtomicReq := ⟨op, four, scope, t, ea.toNat / 4096, s.cur.kid, d, s.getS (d32 b), s.getS (d32 d)⟩
      (s.modCur fun c => { c with region := { c.region with atomic := some r } }).done

def execAswap (d a b : Fin 32) (x : Scope) (z : Bool) (s : State) : Host.Outcome State Fault Refusal := s.atomic 0 d a b x z
def execAadd (d a b : Fin 32) (x : Scope) (z : Bool) (s : State) : Host.Outcome State Fault Refusal := s.atomic 1 d a b x z
def execAand (d a b : Fin 32) (x : Scope) (z : Bool) (s : State) : Host.Outcome State Fault Refusal := s.atomic 2 d a b x z
def execAor (d a b : Fin 32) (x : Scope) (z : Bool) (s : State) : Host.Outcome State Fault Refusal := s.atomic 3 d a b x z
def execAmax (d a b : Fin 32) (x : Scope) (z : Bool) (s : State) : Host.Outcome State Fault Refusal := s.atomic 4 d a b x z
def execAmin (d a b : Fin 32) (x : Scope) (z : Bool) (s : State) : Host.Outcome State Fault Refusal := s.atomic 5 d a b x z
def execAcas (d a b : Fin 32) (x : Scope) (z : Bool) (s : State) : Host.Outcome State Fault Refusal := s.atomic 6 d a b x z
def execAfadd (d a b : Fin 32) (x : Scope) (s : State) : Host.Outcome State Fault Refusal := s.atomic 7 d a b x true

/-! ## Fences, drain, ordered accesses (R234 to R237) -/

/-- A release by the issuing context (R230). -/
def State.releaseMine (s : State) (scope : Scope) : State := s.release s.issue.core scope

/-- A release fence waits for the accesses already issued, and divides the region's store buffer (R234). -/
def State.fenceRel (s : State) (scope : Scope) : State :=
  if s.cur.unperformed then s.wait
  else (s.releaseMine scope).modCur fun c => { c with region := c.region.fence scope }

def execFence (z : Scope) (o : Order) (s : State) : Host.Outcome State Fault Refusal :=
  match o with
  | .acq => (s.acquireMine z).done
  | .rel => (s.fenceRel z).done
  | .ar => if s.cur.unperformed then s.wait.done else ((s.fenceRel z).acquireMine z).done

def execDrain (s : State) : Host.Outcome State Fault Refusal := (s.modCur fun c => { c with draining := true }).done

/-- Bytes of an lda or strl. -/
def szBytes (z : Bool) : Nat := if z then 8 else 4

/-- lda (R236): a read, and then the acquire; its result is interlocked. -/
def execLda (d : SReg) (b : Src) (x : Scope) (z : Bool) (s : State) : Host.Outcome State Fault Refusal :=
  match s.loadBytes b (szBytes z) (szBytes z) with
  | .stop s => s.done
  | .ok (bs, _) s => ((s.flyS .load d (BitVec.ofNat 64 (leNat bs)) 1).acquireMine x).done

/-- strl (R237): checked at issue; it takes its own entry, which performs at its scope after all that precedes it. -/
def execStrl (a b : Src) (x : Scope) (z : Bool) (s : State) : Host.Outcome State Fault Refusal :=
  let ea := s.src b
  match s.badAddress ea (szBytes z) 1 with
  | some v => (s.raise v.cause v.info).done
  | none =>
    match s.storeVa ea.toNat (leBytes (szBytes z) (s.src a).toNat) (fun _ => true) (some x) with
    | (.ok, s) => s.done
    | (.trap v, s) => (s.raise v.cause v.info).done
    | (.wait, s) => s.wait.done

/-! ## Tokens (R238) -/

/-- A command of the open region that will set a token. -/
def Region.sets (r : Region) (t : Fin 64) : Bool := r.deferred.any fun e => e.token == some t

/-- The trap that a token's status gives: HANDLE and ILLOP take the TRAPINFO of the slot that waits (R47). -/
def State.tokenTrap (s : State) (v : TrapVal) : TrapVal := if v.cause = cHANDLE ∨ v.cause = cILLOP then ⟨v.cause, s.slotInfo⟩ else v

/-- A completed token is acted on: a trap, or the acquire that its command asked for; a guest's packet acquires at HOST scope (R239, R402). -/
def State.finishToken (s : State) (x : Token) (st : Status) (v : TrapVal) : State :=
  match x.kind with
  | .guest _ => if st = .ok ∨ st = .saved then s.acquireMine .host else s.raiseAt (s.tokenTrap v) false
  | _ => if st ≠ .ok then s.raiseAt (s.tokenTrap v) false else if x.a then s.acquireMine x.scope else s

/-- waiteng: its trap is the one the command's chapter gives, and goes to the supervisor (R203, R263, R278, R399). -/
def execWaiteng (t : Fin 64) (s : State) : Host.Outcome State Fault Refusal :=
  let x := s.cur.tokens[t]
  if s.cur.region.sets t then s.illop.done
  else
    match x.state with
    | .pending => s.wait.done
    | .idle => s.done
    | .done st v => ((s.waitOn s.issue.core s.cur.ident t).finishToken x st v).done

/-! ## Rendezvous slots and phases -/

/-- Members that an open phase or generation waits for have all arrived or retired. -/
def allHere (width : Nat) (arrived retired : List Nat) : Bool := (List.range width).all fun i => arrived.contains i || retired.contains i

/-- The open phase completes when every member has arrived or retired (R339). -/
def Group.closePhase (g : Group) (width : Nat) : Group :=
  if allHere width g.arrived g.retired then { g with phase := g.phase + 1, arrived := [] } else g

/-- The open generation of a slot completes when every member has arrived or retired (R346). -/
def Group.closeGen (g : Group) (width : Nat) (b : Fin 16) : Group :=
  if allHere width g.met[b] g.retired then { g with gen := g.gen.set b (g.gen[b] + 1), met := g.met.set b [] } else g

/-- The group of a member's copy of its run. -/
def HeldLb.groupOf (l : HeldLb) (twin : Bool) : Group := if twin then l.dupGroup else l.group

/-- Changes the group of a copy. -/
def HeldLb.modGroup (l : HeldLb) (twin : Bool) (f : Group → Group) : HeldLb :=
  if twin then { l with dupGroup := f l.dupGroup } else { l with group := f l.group }

/-- Records a member's arrival at the open phase; a group of one package completes it at once (R339). -/
def State.arrivePhase (s : State) (m : Member) : State :=
  s.modRun m.field m.run fun l => l.modGroup m.twin fun g =>
    let g := { g with arrived := m.index.toNat :: g.arrived }
    if l.remote then g else g.closePhase (lbWidth l.words)

/-- Records a member's arrival at a slot's open generation (R346). -/
def State.arriveGen (s : State) (m : Member) (b : Fin 16) : State :=
  s.modRun m.field m.run fun l => l.modGroup m.twin fun g =>
    let g := { g with met := g.met.set b (m.index.toNat :: g.met[b]) }
    if l.remote then g else g.closeGen (lbWidth l.words) b

/-- GEN of a slot as it has reached the issuing member; a context of no launch block is a group of one. -/
def State.genSeen (s : State) (b : Fin 16) : BitVec 16 :=
  match s.cur.member with
  | some m => m.seenGen[b]
  | none => s.cur.cnt[b]

/-- What an arrival waits for: accesses that have left the context, and effects on rings, which others bind or use after the rendezvous (R194,
R230). -/
def Context.unsettled (c : Context) : Bool := c.unperformed || c.effectsOut.any fun e => e.ring.isSome

/-- arrive (R349), once for a bundle. -/
def State.arriveAt (s : State) (b : Fin 16) : State :=
  let c := s.cur
  if c.cnt[b] ≠ c.pos[b] then s.modCur fun c => { c with pos := c.pos.set b (c.pos[b] + 1) }
  else if s.genSeen b ≠ c.cnt[b] ∧ !s.flt then s.wait
  else if c.unsettled then s.wait
  else
    let s := s.releaseMine s.levelMine
    let s := match c.member with
      | some m => if s.flt then s else s.arriveGen m b
      | none => s
    s.modCur fun c => { c with cnt := c.cnt.set b (c.cnt[b] + 1), pos := c.pos.set b (c.pos[b] + 1) }

/-- waitb (R349). -/
def State.waitAt (s : State) (b : Fin 16) : State :=
  if s.flt then s
  else if s.genSeen b = s.cur.pos[b] then s.acquireMine s.levelMine
  else s.wait

def execArrive (b : Fin 16) (s : State) : Host.Outcome State Fault Refusal := (s.arriveAt b).done
def execWaitb (b : Fin 16) (s : State) : Host.Outcome State Fault Refusal := (s.waitAt b).done

/-- rdv: the arrival is made once, however often the wait is tried (R349). -/
def execRdv (b : Fin 16) (s : State) : Host.Outcome State Fault Refusal :=
  if s.asked.isSome then (s.waitAt b).done
  else
    let t := s.arriveAt b
    if t.issue.outcome = .wait then t.done else (t.ask.waitAt b).done

/-- GPH of the issuing context. -/
def State.gph (s : State) : BitVec 12 := (s.getSys rDOMAIN).extractLsb' 3 12

/-- The phases whose completion has reached the issuing member. -/
def State.phaseSeen (s : State) : BitVec 12 :=
  match s.cur.member with
  | some m => m.seen
  | none => s.cur.arr

/-- Sets GPH. -/
def Context.setGph (c : Context) (p : BitVec 12) : Context :=
  c.setSys rDOMAIN ((c.sysv rDOMAIN &&& ~~~ 0x7FF8#64) ||| (p.setWidth 64 <<< 3))

/-- The arrival of gphase at phase p, after its release (R339). -/
def State.phaseArrival (s : State) (p : BitVec 12) : State :=
  let s := s.releaseMine s.levelMine
  let s := match s.cur.member with
    | some m => s.arrivePhase m
    | none => s
  s.modCur fun c => { c with arr := p + 1 }

/-- gphase (R339): it arrives once, and goes on when the phase has completed. -/
def execGphase (s : State) : Host.Outcome State Fault Refusal :=
  let p := s.gph
  if s.cur.arr = p ∧ s.cur.unsettled then s.wait.done
  else
  let s := if s.cur.arr = p then s.phaseArrival p else s
  if s.flt then (s.modCur fun c => c.setGph (p + 1)).done
  else if s.phaseSeen = p then s.wait.done
  else ((s.acquireMine s.levelMine).modCur fun c => c.setGph (p + 1)).done

end Sys2Proof.Machine
end

