-- ==== Sys2Proof/Machine/Windrow.lean ====
section
/-! DEFINITION. The class WIN (06_windrow.md R132, R133, R137, R147 to R152). -/

namespace Sys2Proof.Machine

/-! ## Descriptors -/

/-- Words as one number, the first lowest. -/
def wordsNat : List Word → Nat
  | [] => 0
  | w :: ws => w.toNat + 2 ^ 64 * wordsNat ws

/-- Bits [lo + n − 1 : lo] of a number. -/
def bitsAt (x lo n : Nat) : BitVec n := BitVec.ofNat n (x / 2 ^ lo)

/-- A descriptor as its 64 bytes give it (R132). -/
def WinDesc.ofNat (x : Nat) : WinDesc where
  modlen := bitsAt x 464 32
  scstr := bitsAt x 448 16
  la := bitsAt x 440 4
  nlev := bitsAt x 437 3
  scen := (bitsAt x 436 1).getLsbD 0
  fmt := bitsAt x 434 2
  dir := (bitsAt x 433 1).getLsbD 0
  cnt := Vector.ofFn fun i => bitsAt x (336 + 16 * i.val) 16
  str := Vector.ofFn fun i => bitsAt x (144 + 32 * i.val) 32
  scbase := bitsAt x 64 56
  base := bitsAt x 0 56

/-- The reserved bits of a descriptor are zero. -/
def winReservedZero (x : Nat) : Bool :=
  bitsAt x 496 16 == 0 && bitsAt x 444 4 == 0 && bitsAt x 432 1 == 0 && bitsAt x 120 24 == 0 && bitsAt x 56 8 == 0

/-- A descriptor is valid (R133), its reserved bits apart. -/
def WinDesc.valid (d : WinDesc) : Bool :=
  d.fmt != 3 && d.nlev != 0 && d.nlev != 7 && decide (1 ≤ d.la.toNat ∧ d.la.toNat ≤ 8) &&
  ((List.finRange 6).all fun i => if i.val < d.nlev.toNat then d.cnt[i] != 0 else d.cnt[i] == 0 && d.str[i] == 0) &&
  d.modlen.toNat % 8 == 0 && !(d.scen && (d.dir || d.fmt == 2)) && !(d.fmt == 2 && d.modlen != 0)

/-- A windrow just configured (R137). -/
def Windrow.configured (d : WinDesc) : Windrow :=
  { Windrow.reset with desc := d, state := .active, width := d.fixedWidth }

/-- Empties a buffer and forgets the fetch width of a RAW windrow (R138). -/
def Windrow.fresh (w : Windrow) : Windrow := { w with buf := [], width := w.desc.fixedWidth }

def execWcfg (w : Fin 16) (a : Src) (s : State) : Host.Outcome State Fault Refusal :=
  if (s.win w).state = .busy then s.wait.done
  else
    match s.readTable (s.src a) 64 8 with
    | (.trap v, s) => (s.raise v.cause v.info).done
    | (.wait, s) => s.wait.done
    | (.ok ws, s) =>
      let x := wordsNat ws
      let d := WinDesc.ofNat x
      if winReservedZero x && d.valid then (s.setWin w (Windrow.configured d)).done else (s.badTable (s.src a)).done

/-! ## Items (R149) -/

/-- Replaces an md register's word: 0 MB, 1 MLEN, 2 MSTEP. -/
def Regs.setMd (r : Regs) (kind : Nat) (i : Fin 8) (v : Word) : Regs :=
  match kind with
  | 0 => { r with mb := r.mb.set i v }
  | 1 => { r with mlen := r.mlen.set i v }
  | _ => { r with mstep := r.mstep.set i v }

/-- An md register's word. -/
def Regs.getMd (r : Regs) (kind : Nat) (i : Fin 8) : Word :=
  match kind with
  | 0 => r.mb[i]
  | 1 => r.mlen[i]
  | _ => r.mstep[i]

/-- A wset that sets no cursor: the element vector is read again, and a fault recorded against it stays (R138, R139). -/
def WinEntry.outdate (e : WinEntry) : WinEntry := if e.fault.isSome then e else { e with arrived := false, stale := true }

/-- A wset of an item on a windrow that is neither IDLE nor BUSY; none where it is illegal. -/
def Windrow.setItem (w : Windrow) (item : Nat) (a : Word) : Option Windrow :=
  match item with
  | 0 => some (w.seek a.toNat).fresh
  | 2 => if 2 ^ 56 ≤ a.toNat then none else some ({ w with desc := { w.desc with base := a.setWidth 56 } } : Windrow).fresh
  | 3 => if 2 ^ 56 ≤ a.toNat then none else some { w with desc := { w.desc with scbase := a.setWidth 56 }, buf := [] }
  | 4 =>
    if 2 ^ 32 ≤ a.toNat ∨ a.toNat % 8 ≠ 0 then none
    else some ({ w with desc := { w.desc with modlen := a.setWidth 32 } } : Windrow).fresh
  | 5 => some { w with icnt := a.setWidth 32, buf := w.buf.map WinEntry.outdate }
  | 7 => some { w with skc := a.setWidth 32, buf := w.buf.map WinEntry.outdate }
  | _ => none

/-- What wget of an item returns; none where the item is not one. -/
def Windrow.getItem (w : Windrow) (item : Nat) : Option Word :=
  match item with
  | 0 => some (BitVec.ofNat 64 w.n)
  | 1 => some (BitVec.ofNat 64 (w.desc.byteAddr (w.desc.offset w.idx) 0))
  | 2 => some (w.desc.base.setWidth 64)
  | 3 => some (w.desc.scbase.setWidth 64)
  | 4 => some (w.desc.modlen.setWidth 64)
  | 5 => some (w.icnt.setWidth 64)
  | 6 => some (w.scale.setWidth 64)
  | 7 => some (w.skc.setWidth 64)
  | n => if 8 ≤ n ∧ n < 14 then some (BitVec.ofNat 64 (w.idx[n - 8]?.getD 0)) else none

/-- The md item an item value names. -/
def mdItem (item : Nat) : Option (Nat × Fin 8) :=
  if 0x10 ≤ item ∧ item < 0x28 then some ((item - 0x10) / 8, ⟨item % 8, Nat.mod_lt _ (by decide)⟩) else none

def execWset (w : Fin 16) (a t : Src) (s : State) : Host.Outcome State Fault Refusal :=
  let item := (s.src t).toNat
  let v := s.src a
  match mdItem item with
  | some (kind, i) =>
    if w ≠ 0 then s.illop.done else (s.modCur fun c => { c with regs := c.regs.setMd kind i v }).done
  | none =>
    let x := s.win w
    match x.state with
    | .busy => s.wait.done
    | .idle => s.illop.done
    | _ =>
      match x.setItem item v with
      | some y => (s.setWin w y).done
      | none => s.illop.done

def execWget (w : Fin 16) (d : SReg) (t : Src) (s : State) : Host.Outcome State Fault Refusal :=
  let item := (s.src t).toNat
  match mdItem item with
  | some (kind, i) => if w ≠ 0 then s.illop.done else (s.flyS .other d (s.cur.regs.getMd kind i) 1).done
  | none =>
    let x := s.win w
    match x.state with
    | .busy => s.wait.done
    | .idle => s.illop.done
    | _ =>
      match x.getItem item with
      | some v => (s.flyS .other d v 1).done
      | none => s.illop.done

/-! ## Cursor (R137, R150) -/

/-- A slot that acts on a windrow which is neither IDLE nor BUSY (R141). -/
def State.onWin (s : State) (w : Fin 16) (f : Windrow → Windrow) : Host.Outcome State Fault Refusal :=
  let x := s.win w
  match x.state with
  | .busy => s.wait.done
  | .idle => s.illop.done
  | _ => (s.setWin w (f x)).done

def execWrst (w : Fin 16) (s : State) : Host.Outcome State Fault Refusal :=
  s.onWin w fun x => { x.fresh with n := 0, idx := Vector.replicate 6 0, ovr := false, state := .active }

def execWskip (w : Fin 16) (a : Src) (s : State) : Host.Outcome State Fault Refusal :=
  s.onWin w fun x => (x.seek (x.n + (s.src a).toNat % 2 ^ 32)).fresh

/-! ## Merges and counts (R151) -/

/-- Whether a merge may work on a windrow: IDX32, read, not IDLE. -/
def Windrow.mergeable (w : Windrow) : Bool := w.state != .idle && w.desc.fmt == 2 && !w.desc.dir

/-- A windrow becomes BUSY. -/
def Windrow.begin (w : Windrow) (m : WinMerge) : Windrow := { w with state := .busy, merge := some m }

def execWisect (w : Fin 16) (s : State) : Host.Outcome State Fault Refusal :=
  if w.val % 2 = 1 then s.illop.done
  else
    let a := s.win w
    let b := s.win (w + 1)
    if !a.mergeable || !b.mergeable then s.illop.done
    else if a.state = .busy ∨ b.state = .busy then s.wait.done
    else ((s.setWin w (a.begin (.isect 0))).setWin (w + 1) (b.begin .partner)).done

def execWicnt (w : Fin 16) (a : Src) (s : State) : Host.Outcome State Fault Refusal :=
  let x := s.win w
  if !x.mergeable then s.illop.done
  else if x.state = .busy then s.wait.done
  else (s.setWin w (x.begin (.count ((s.src a).setWidth 32) 0))).done

/-! ## Status (R152) -/

/-- STATE codes. -/
def WinState.code : WinState → Nat
  | .idle => 0
  | .active => 1
  | .done => 2
  | .busy => 3

/-- The snapshot of a windrow (R152). -/
def Windrow.status (w : Windrow) : Word :=
  let avail := if w.state = .idle ∨ w.width = none then 0 else (w.buf.filter fun e => e.arrived).length
  let fault := w.buf.any fun e => e.arrived && e.fault.isSome
  BitVec.ofNat 64 (w.icnt.toNat * 2 ^ 32 + avail * 2 ^ 8 + w.desc.scen.toNat * 2 ^ 7 + fault.toNat * 2 ^ 6 + w.ovr.toNat * 2 ^ 5 +
    w.desc.fmt.toNat * 2 ^ 3 + w.desc.dir.toNat * 2 ^ 2 + w.state.code)

def execWstat (w : Fin 16) (d : SReg) (s : State) : Host.Outcome State Fault Refusal :=
  let x := s.win w
  if x.state = .busy then s.wait.done else (s.flyS .other d x.status 1).done

end Sys2Proof.Machine
end

