-- ==== Sys2Proof/Machine/Ring.lean ====
section
/-! DEFINITION. The class RNG (08_ring.md R186, R187, R193 to R198, R204). -/

namespace Sys2Proof.Machine

/-! ## Descriptors -/

/-- A ring descriptor as its 32 bytes give it (R186). -/
def RingDesc.ofNat (x : Nat) : RingDesc where
  cmask := bitsAt x 224 32
  slotsz := bitsAt x 192 8
  nslot := bitsAt x 184 8
  mcast := (bitsAt x 176 2) == 1
  prod := (bitsAt x 175 1).getLsbD 0
  cons := (bitsAt x 174 1).getLsbD 0
  rid := ⟨x / 2 ^ 168 % 64, Nat.mod_lt _ (by decide)⟩
  base := bitsAt x 0 56

/-- The CMASK checks of R187, for a core. -/
def RingDesc.maskOk (d : RingDesc) (core : Nat) (cmask : BitVec 32) : Bool :=
  !(cmask == 0 && !d.cons) && (d.mcast || cmask.toNat / 2 ^ (4 * (core % 8)) % 16 * 2 ^ (4 * (core % 8)) == cmask.toNat)

/-- The checks of R187 that a descriptor alone decides. -/
def RingDesc.valid (d : RingDesc) (x core : Nat) : Bool :=
  bitsAt x 200 24 == 0 && bitsAt x 178 6 == 0 && bitsAt x 56 112 == 0 && decide ((bitsAt x 176 2).toNat ≤ 1) &&
  decide (1 ≤ d.slotsz.toNat ∧ d.slotsz.toNat ≤ 128) && decide (2 ≤ d.nslot.toNat ∧ d.nslot.toNat ≤ 64) && d.base.toNat % 256 == 0 &&
  d.maskOk core d.cmask && !(d.prod && d.cons) && decide (loftBase ≤ d.base.toNat) &&
  decide (d.base.toNat + d.nslot.toNat * d.slotBytes ≤ loftBase + 14 * 0x40000)

/-- Steps of the slots' bytes. -/
def RingDesc.steps (d : RingDesc) : List Nat := (List.range d.stepsNeeded).filter fun n => (d.base.toNat - loftBase) / 0x40000 ≤ n

/-- TRAPINFO of RINGERR raised at issue (R204). -/
def State.ringInfo (s : State) (rb : Fin 16) : Word :=
  BitVec.ofNat 64 (s.issue.index % 8 * 2 ^ 61 + rb.val * 2 ^ 57) ||| (s.issue.addr &&& 0x00FFFFFFFFFFFFFF#64)

/-- RINGERR. -/
def State.ringErr (s : State) (rb : Fin 16) : State := s.raise cRINGERR (s.ringInfo rb)

/-- A ring register of the context that issues. -/
def State.rb (s : State) (rb : Fin 16) : RingReg := s.cur.rings[rb]

/-- Replaces a ring register of the context that issues. -/
def State.setRb (s : State) (rb : Fin 16) (x : RingReg) : State := s.modCur fun c => { c with rings := c.rings.set rb x }

/-- The entry of a binding of the context that issues. -/
def State.entryOf (s : State) (r : RingReg) : RingEntry := s.boundEntry s.issue.core s.issue.slot r

/-- The oldest tag among slots that are FILLING or FULL, or NEXT (R194). -/
def RingEntry.oldest (e : RingEntry) : BitVec 32 :=
  let tags := ((List.range e.desc.nslot.toNat).map fun i => tget RingSlot.reset e.slots i).filterMap fun x =>
    if x.state = .free then none else some x.tag
  tags.foldl (fun t x => if (e.next - t).toNat < (e.next - x).toNat then x else t) e.next

/-- rcfg, its descriptor valid and its bytes in the scratchpad: the roles and the binding (R194, R204). A binding without init waits until what the
context itself has committed on the ring has taken effect. -/
def State.bindRing (s : State) (rb : Fin 16) (d : RingDesc) (init prod cons eng : Bool) : State :=
  let k := s.issue.core
  let e := s.ringEntry (sheafOf k) d.rid.val
  let cm := if init then d.cmask else e.cmask
  if !init ∧ s.cur.effectsOut.any (fun e => e.ring == some d.rid) then s.wait
  else if prod ∧ (!init ∨ d.prod) then s.ringErr rb
  else if (cons ∨ eng) ∧ (d.cons ∨ !cm.getLsbD (meBit k s.issue.slot)) then s.ringErr rb
  else if !init ∧ (!e.ready ∨ { e.desc with cmask := d.cmask } ≠ d) then s.ringErr rb
  else
    let q := if init then 0 else e.oldest
    let r : RingReg := ⟨{ d with cmask := cm }, .bound, prod, cons, eng, if init then e.epoch + 1 else e.epoch, k, 0, q, q, false, false⟩
    let s := s.setRb rb r
    if init then s.modCur fun c => { c with region := { c.region with deferred := c.region.deferred ++ [.init rb d prod] } } else s

def execRcfg (rb : Fin 16) (a : Src) (init prod cons eng : Bool) (s : State) : Host.Outcome State Fault Refusal :=
  let at_ := s.src a
  if cons && eng then s.illop.done
  else if at_.toNat % 32 ≠ 0 then (s.raise cALIGN (info47 s.issue.index at_)).done
  else
    match s.readTable at_ 32 4 with
    | (.trap v, s) => (s.raise v.cause (if v.cause = cPFAULT ∨ v.cause = cPPROT ∨ v.cause = cKEYDEAD then info47 s.issue.index at_ else v.info)).done
    | (.wait, s) => s.wait.done
    | (.ok ws, s) =>
      let x := wordsNat ws
      let d := RingDesc.ofNat x
      if !d.valid x s.issue.core then (s.badTable at_).done
      else
        let steps := d.steps.map s.myCore.stepAccess
        if steps.contains .wait then s.wait.done
        else if steps.contains .refuse then (s.badTable at_).done
        else (s.bindRing rb d init prod cons eng).done

/-! ## Producer and consumer (R195, R196) -/

/-- A form that uses a binding: RINGERR unless it is BOUND (R204). -/
def State.bound (s : State) (rb : Fin 16) (f : RingReg → State) : Host.Outcome State Fault Refusal :=
  if s.bindState s.issue.core s.issue.slot (s.rb rb) = .bound then (f (s.rb rb)).done else (s.ringErr rb).done

/-- A deferred effect of the region. -/
def State.defer (s : State) (e : Effect) : State := s.modCur fun c => { c with region := { c.region with deferred := c.region.deferred ++ [e] } }

/-- An accepted publish of this ring whose slot index is sequence q's has not taken effect yet. -/
def Context.publishing (c : Context) (d : RingDesc) (q : BitVec 32) : Bool :=
  c.outbox.any fun h => match h with
    | .effect (.publish _ q' _ rid _) => rid == d.rid && d.index q' == d.index q
    | _ => false

/-- The next slot of the producer is FREE. -/
def State.slotFree (s : State) (r : RingReg) : Bool := (s.entryOf r).freeFor s.now r.pq && !s.cur.publishing r.desc r.pq

/-- racq: the acquire that matches the releases of the slot (R195, R200). -/
def execRacq (rb : Fin 16) (s : State) : Host.Outcome State Fault Refusal :=
  s.bound rb fun r =>
    if !r.p || r.pcur then s.ringErr rb
    else if !s.slotFree r then s.wait
    else (s.acquireMine .sheaf).setRb rb { r with pcur := true }

def execRpub (rb : Fin 16) (s : State) : Host.Outcome State Fault Refusal :=
  s.bound rb fun r =>
    if !r.p || !r.pcur then s.ringErr rb
    else (s.defer (.publish rb r.pq r.epoch r.desc.rid false)).setRb rb { r with pq := r.pq + 1, pcur := false }

def execReos (rb : Fin 16) (s : State) : Host.Outcome State Fault Refusal :=
  s.bound rb fun r =>
    if !r.p || r.pcur then s.ringErr rb
    else if !s.slotFree r then s.wait
    else (s.defer (.publish rb r.pq r.epoch r.desc.rid true)).setRb rb { r with pq := r.pq + 1 }

/-- The region holds its own publish of a sequence of the ring (R196). -/
def Region.publishes (x : Region) (rid : Fin 64) (q : BitVec 32) : Bool :=
  x.deferred.any fun e => match e with
    | .publish _ q' _ rid' _ => rid' == rid && q' == q
    | _ => false

/-- rwait: the acquire that matches the publish (R196, R200). -/
def execRwait (rb : Fin 16) (s : State) : Host.Outcome State Fault Refusal :=
  s.bound rb fun r =>
    if !r.c || r.ccur then s.ringErr rb
    else if s.cur.region.publishes r.desc.rid r.cq then s.illop
    else if !(s.entryOf r).fullFor s.now r.cq (meBit s.issue.core s.issue.slot) then s.wait
    else (s.acquireMine .sheaf).setRb rb { r with ccur := true }

def execRrel (rb : Fin 16) (s : State) : Host.Outcome State Fault Refusal :=
  s.bound rb fun r =>
    if !r.c || !r.ccur then s.ringErr rb
    else (s.defer (.release rb r.cq r.epoch r.desc.rid)).setRb rb { r with cq := r.cq + 1, ccur := false }

def execRmask (rb : Fin 16) (a : Src) (s : State) : Host.Outcome State Fault Refusal :=
  s.bound rb fun r =>
    let m : BitVec 32 := (s.src a).setWidth 32
    if !r.desc.maskOk s.issue.core m then s.ringErr rb
    else s.defer (.mask rb r.epoch r.desc.rid m)

/-! ## rstat (R198) -/

/-- STATE codes. -/
def RingState.code : RingState → Nat
  | .unbound => 0
  | .bound => 1
  | .stale => 2

/-- An item of rstat. DESIGN CHOICE: item 6 of an UNBOUND register, which names no entry, is 0 (log 85). -/
def State.ringItem (s : State) (r : RingReg) (item : Fin 7) : Word :=
  let e := s.entryOf r
  let cur := e.slot r.cq
  match item.val with
  | 0 =>
    BitVec.ofNat 64 (r.desc.rid.val * 2 ^ 10 + (r.ccur && cur.err).toNat * 2 ^ 9 + (r.ccur && cur.eos).toNat * 2 ^ 8 + r.ccur.toNat * 2 ^ 7 +
      r.pcur.toNat * 2 ^ 6 + r.e.toNat * 2 ^ 5 + r.c.toNat * 2 ^ 4 + r.p.toNat * 2 ^ 3 + r.desc.mcast.toNat * 2 ^ 2 +
      (s.bindState s.issue.core s.issue.slot r).code)
  | 1 => BitVec.ofNat 64 (r.desc.slotAddr r.pq)
  | 2 => BitVec.ofNat 64 (r.desc.slotAddr r.cq)
  | 3 => r.pq.setWidth 64
  | 4 => r.cq.setWidth 64
  | 5 => r.eq.setWidth 64
  | _ => BitVec.ofNat 64 (if r.state = .unbound then 0 else e.freeCount)

def execRstat (rb : Fin 16) (d : SReg) (item : Fin 7) (s : State) : Host.Outcome State Fault Refusal :=
  (s.flyS .other d (s.ringItem (s.rb rb) item) 1).done

end Sys2Proof.Machine
end

