-- ==== Sys2Proof/Machine/Matrix.lean ====
section
/-! DEFINITION. The class MXC, and the banks' own operations (07_tile.md R160 to R183). -/

namespace Sys2Proof.Machine

/-! ## Parameters (R158, R162, R163, R164) -/

/-- The fields of an mp value (R162). -/
structure MxParam where
  ksl : Nat
  rba : Fin 16
  rbb : Fin 16
  fa  : Nat
  fb  : Nat
  sp  : Nat
  dr  : Bool
  deriving DecidableEq, Repr, Inhabited

/-- Reads an mp value. -/
def MxParam.ofWord (p : Word) : MxParam where
  ksl := (p.extractLsb' 48 8).toNat
  rba := ⟨(p.extractLsb' 44 4).toNat, (p.extractLsb' 44 4).isLt⟩
  rbb := ⟨(p.extractLsb' 40 4).toNat, (p.extractLsb' 40 4).isLt⟩
  fa := (p.extractLsb' 37 3).toNat
  fb := (p.extractLsb' 34 3).toNat
  sp := (p.extractLsb' 31 3).toNat
  dr := p.getLsbD 30

/-- Quarter array cycles per K position of a format pair; none for a pair that is not accepted (R158). -/
def pairRate (fa fb : Nat) : Option Nat :=
  match fa, fb with
  | 0, 0 => some 8
  | 1, 1 => some 4
  | 2, 2 => some 4
  | 1, 3 => some 2
  | 3, 1 => some 2
  | 3, 3 => some 1
  | _, _ => none

/-- Whether an mp value passes R162. -/
def mpValid (p : Word) : Bool :=
  let x := MxParam.ofWord p
  p.extractLsb' 56 8 == 0 && p.extractLsb' 0 30 == 0 && x.ksl != 0 && decide (x.sp ≤ 4) && (pairRate x.fa x.fb).isSome

/-- Kept positions of a slot's K: 128 dense, else N (R162). -/
def sparseN (sp : Nat) : Nat := if sp = 0 then 128 else 32 * sp

/-- Bits of an element of a format. -/
def fmtBits (f : Nat) : Nat :=
  match f with
  | 0 => 16
  | 1 => 8
  | 2 => 6
  | _ => 4

/-- The implicit factor's exponent of a format (R64). -/
def fmtFrac (f : Nat) : Nat :=
  match f with
  | 1 => 6
  | 2 => 4
  | _ => 2

/-- Rows of a call (R169). -/
def MxParam.rows (x : MxParam) : Nat := if x.dr then 64 else 128

/-- The layout size of a slot: lines of n kept elements each, a mask first where sparse (R163, R164). -/
def layoutSize (f lines sp : Nat) : Nat :=
  let stride := fmtBits f * sparseN sp / 8
  let n := (if sp = 0 then 0 else 16) + lines * stride + (if f = 0 then 0 else 4 * lines)
  if sp = 0 then n else (n + 255) / 256 * 256

/-- The mask of a slot: all ones where dense. -/
def slotMask (bs : List Byte) (sp : Nat) : BitVec 128 := if sp = 0 then BitVec.allOnes 128 else BitVec.ofNat 128 (leNat (bs.take 16))

/-- The bits of kept element m of a line (R163, R164). -/
def slotElem (bs : List Byte) (f sp line m : Nat) : Nat :=
  let w := fmtBits f
  let start := 8 * ((if sp = 0 then 0 else 16) + line * (w * sparseN sp / 8)) + w * m
  leNat ((bs.drop (start / 8)).take 3) / 2 ^ (start % 8) % 2 ^ w

/-- The scale of K-block b of a line. -/
def slotScale (bs : List Byte) (f lines sp line b : Nat) : Byte :=
  bs.getD ((if sp = 0 then 0 else 16) + lines * (fmtBits f * sparseN sp / 8) + 4 * line + b) 0

/-- A stored MX element as an integer (R64). -/
def mxInt (f x : Nat) : Int := (BitVec.ofNat (fmtBits f) x).toInt

/-- The exact value of an element (R170): a block with scale 0xFF holds NaNs. -/
def elemVal (f x : Nat) (scale : Byte) : FVal :=
  if f = 0 then bf16.unpack x
  else if scale = 0xFF#8 then .nan false
  else .fin (mxInt f x < 0) (mxInt f x).natAbs (Int.ofNat scale.toNat - 127 - Int.ofNat (fmtFrac f))

/-! ## Banks -/

/-- A bank of the core of the context that issues. -/
def State.bank (s : State) (a : Fin 4) : Bank := s.myCore.banks[a]

/-- Changes a bank of a core. -/
def State.modBank (s : State) (k : Nat) (a : Fin 4) (f : Bank → Bank) : State :=
  s.modCore k fun c => { c with banks := c.banks.set a (f c.banks[a]) }

/-- The context that issues owns a bank (R160). -/
def State.owns (s : State) (a : Fin 4) : Bool := (s.bank a).owner == some s.issue.slot

/-- A command for a bank is pending in the open region (R173). -/
def State.bankPending (s : State) (a : Fin 4) : Bool := s.cur.region.deferred.any fun e => e.bank == some a

/-- A bank waits for commands: it is BUSY (R175, R177). -/
def State.bankBusy (s : State) (a : Fin 4) : Bool := s.myCore.bankState a == .busy

/-- A cell: +0 where it is not listed. -/
def Bank.cell (b : Bank) (n : Nat) : Acc := tget 0 b.cells n

/-- Stores a cell, with the sticky INF and NAN (R170). -/
def Bank.setCell (b : Bank) (n : Nat) (x : Acc) : Bank :=
  let special := x.extractLsb' 64 15 == 0x7FFF#15
  { b with cells := tput b.cells n x,
           inf := b.inf || (special && x.extractLsb' 0 64 == 0), nan := b.nan || (special && x.extractLsb' 0 64 != 0) }

/-- The cell of the shadow copy of primary row i (R180). -/
def shadowCell (i j : Nat) : Nat := 64 * (64 + (i + 1) % 64) + j

/-- The first primary cell that differs from its shadow, row-major (R180). -/
def Bank.mismatch (b : Bank) : Option Nat := (List.range 4096).find? fun n => b.cell n != b.cell (shadowCell (n / 64) (n % 64))

/-- A bank after an mzero or a clear, or when it is given up: every field but its owner (R161, R177). DEDUCED: a recorded error that has not been
raised goes with RERR and UCE (log 81). -/
def Bank.cleared (b : Bank) (st : BankState) : Bank := { Bank.reset with owner := b.owner, state := st }

/-- The slots that a bank holds go back to their rings, oldest first (R161, R167). -/
def State.releaseHeld (s : State) (k : Nat) (a : Fin 4) : State :=
  let b := (s.core k).banks[a]
  match b.owner with
  | some j => (b.held.foldl (fun s x => s.engineRelease k j x) s).modBank k a fun b => { b with held := [] }
  | none => s.modBank k a fun b => { b with held := [] }

/-- TRAPINFO of an engine error (R171). -/
def engineInfo (a : Fin 4) (routine : BitVec 8) (calln : BitVec 16) (index : Nat) : Word :=
  BitVec.ofNat 64 (a.val + routine.toNat * 2 ^ 2 + (calln + 1).toNat * 2 ^ 10 + index % 32 * 2 ^ 26)

/-- TRAPINFO of MXMIS (R180). -/
def misInfo (a : Fin 4) (b : Bank) (cell : Nat) : Word :=
  BitVec.ofNat 64 (a.val + b.lrtn.toNat * 2 ^ 2 + b.calln.toNat * 2 ^ 10 + cell / 64 * 2 ^ 26 + cell % 64 * 2 ^ 32)

/-! ## mcall, mzero, mwait, parameters (R172 to R174, R177, R178) -/

def execMcall (a : Fin 4) (r : BitVec 8) (m : Fin 8) (s : State) : Host.Outcome State Fault Refusal :=
  let p := s.cur.regs.mp[m]
  if !s.owns a || tget [] s.myCore.store r.toNat == [] || !mpValid p then s.illop.done
  else (s.defer (.mcall a r p)).done

def execMset (m : Fin 8) (a : Src) (s : State) : Host.Outcome State Fault Refusal := (s.put (.mp m (s.src a)) 1).done

def execMget (m : Fin 8) (d : SReg) (s : State) : Host.Outcome State Fault Refusal := (s.flyS .other d s.cur.regs.mp[m] 2).done

def execMzero (a : Fin 4) (s : State) : Host.Outcome State Fault Refusal :=
  if !s.owns a then s.illop.done else (s.defer (.mzero a)).done

/-- The recorded error of a bank is raised by the slot that names it (R171). -/
def State.raiseBank (s : State) (a : Fin 4) (v : TrapVal) : State :=
  (s.modBank s.issue.core a fun b => { b with error := none }).raiseAt v false

def execMwait (a : Fin 4) (s : State) : Host.Outcome State Fault Refusal :=
  if !s.owns a || s.bankPending a then s.illop.done
  else if s.bankBusy a then s.wait.done
  else
    match (s.bank a).error with
    | some v => (s.raiseBank a v).done
    | none => s.done

/-- The codes of RM that mcfg stores (R178). -/
def drmOf (x : BitVec 3) : BitVec 3 := if 5 < x.toNat then 0 else x

/-- mcfg: sel 0 writes DRM, sel 1 DSAT (R178). -/
def execMcfg (a : Src) (sel : Bool) (s : State) : Host.Outcome State Fault Refusal :=
  let v := s.src a
  (s.modCur fun c => { c with regs := if sel then { c.regs with dsat := v.getLsbD 0 } else { c.regs with drm := drmOf (v.setWidth 3) } }).done

/-- STATE codes of mstat. -/
def BankState.code : BankState → Nat
  | .empty => 0
  | .live => 1
  | .busy => 2
  | .fault => 3

/-- The status of an owned bank in a state (R177), with the commands of it that are queued or running. -/
def Bank.status (b : Bank) (state : BankState) (qcnt : Nat) : Word :=
  let st := state.code
  BitVec.ofNat 64 (b.calln.toNat * 2 ^ 48 + b.lrtn.toNat * 2 ^ 40 + min qcnt 16 * 2 ^ 35 + b.ccur.toNat * 2 ^ 32 + b.dcur.toNat * 2 ^ 19 +
    b.tag.toNat * 2 ^ 11 + b.uce.toNat * 2 ^ 10 + b.ck.toNat * 2 ^ 9 + b.dr.toNat * 2 ^ 8 + b.nan.toNat * 2 ^ 7 + b.inf.toNat * 2 ^ 6 +
    b.rerr.toNat * 2 ^ 5 + b.mis.toNat * 2 ^ 4 + 8 + st)

def execMstat (a : Fin 4) (d : SReg) (s : State) : Host.Outcome State Fault Refusal :=
  (s.flyS .other d (if s.owns a then (s.bank a).status (s.myCore.bankState a) (s.bankCommands s.issue.core a).length else 0) 2).done

/-! ## mdrain (R175, R176) -/

/-- MXCFG.DRM. -/
def State.drmCode (s : State) : Nat := s.cur.regs.drm.toNat

/-- DSAT replaces an overflowed result by the largest finite value (R175). -/
def drainRes (f : Fmt) (dsat : Bool) (mode : RMode) (v : FVal) : FRes :=
  let r := fConvert f mode v
  if dsat ∧ r.flags &&& fOF ≠ 0 then { r with bits := f.signed v.isNeg f.maxFinite } else r

/-- Cells of a bank's tile (R175). -/
def Bank.tileCells (b : Bank) : Nat := if b.dr then 4096 else 8192

/-- m cells from DCUR. -/
def Bank.drainCells (b : Bank) (m : Nat) : List Nat := (List.range m).map fun l => (b.dcur.toNat + l) % b.tileCells

/-- The checksums at CCUR (R175); under DR the upper row checksums read as zero. -/
def Bank.checks (b : Bank) : List (BitVec 32) :=
  (List.range 32).map fun l =>
    let c := b.ccur.toNat
    if c < 4 then (if b.dr ∧ 2 ≤ c then 0 else tget 0 b.rp (32 * c + l)) else tget 0 b.cp (32 * (c - 4) + l)

/-- The data of a drain, its flags, and the machine after the words it draws. -/
def State.drainData (s : State) (b : Bank) (f : Fin 6) : Vec × BitVec 5 × State :=
  let vals := fun (m : Nat) => (b.drainCells m).map fun n => acc80.unpack (b.cell n).toNat
  let pack := fun (g : Fmt) (m rm : Nat) =>
    let (modes, s) := State.drawModes rm m s
    let rs := List.zipWith (fun v mode => drainRes g s.cur.regs.dsat mode v) (vals m) modes
    (g.vec rs, flagsOf rs, s)
  match f.val with
  | 0 => pack fp32 32 s.drmCode
  | 1 => pack bf16 64 s.drmCode
  | 2 => pack bf16 64 5
  | 3 =>
    let rs := (vals 32).map (fToInt 32 (rmode s.drmCode))
    (fp32.vec rs, flagsOf rs, s)
  | 4 => (ofLanes 128 ((b.drainCells 8).map fun n => (b.cell n).setWidth 128), 0, s)
  | _ => (ofLanes 32 b.checks, 0, s)

/-- Cells that a format drains. -/
def drainCount (f : Fin 6) : Nat :=
  match f.val with
  | 0 => 32
  | 1 => 64
  | 2 => 64
  | 3 => 32
  | 4 => 8
  | _ => 0

/-- Moves the drain cursor, or the checksum cursor (R175). -/
def Bank.drained (b : Bank) (f : Fin 6) : Bank :=
  if f.val = 5 then { b with ccur := BitVec.ofNat 3 ((b.ccur.toNat + 1) % 6) }
  else { b with dcur := BitVec.ofNat 13 ((b.dcur.toNat + drainCount f) % b.tileCells) }

/-- The dual-row compare fails: MIS, FAULT, and MXMIS is raised (R180, R181). -/
def State.mismatchTrap (s : State) (a : Fin 4) (cell : Nat) : State :=
  let info := misInfo a (s.bank a) cell
  (s.modBank s.issue.core a fun b => { b with state := .fault, mis := true, compare := false }).raise cMXMIS info

/-- Why a push of 1,024 bits cannot start now: the machine in which it waits or has trapped (R140). -/
def State.pushStops (s : State) (v : VOp) : Option State :=
  match v with
  | .reg _ => none
  | .win w =>
    match s.startPush w 1024 with
    | .stop t => some t
    | .ok _ _ => none

/-- The drain itself, its waits and errors behind it. DESIGN CHOICE: the UCE of a drain that reads a poisoned cell goes to the supervisor, and is not
handled by re-entry at REGENT (R175, R278; log 57). -/
def State.drain (s : State) (a : Fin 4) (clr : Bool) (v : VOp) (f : Fin 6) : State :=
  let b := s.bank a
  if (b.drainCells (drainCount f)).any fun n => b.poisoned.contains n then
    s.raiseAt ⟨cUCE, engineInfo a b.lrtn b.calln 0⟩ false
  else
    let compared := b.compare && b.state == .live
    let (x, flags, t) := s.drainData b f
    let t := if compared then (t.releaseHeld s.issue.core a).modBank s.issue.core a fun b => { b with compare := false } else t
    let t := t.modBank s.issue.core a fun b => b.drained f
    let t := if clr then t.defer (.clear a) else t
    (t.flyV .drain v 1024 x (if compared then 70 else 6)).withFlags s flags

def execMdrain (a : Fin 4) (clr : Bool) (v : VOp) (f : Fin 6) (s : State) : Host.Outcome State Fault Refusal :=
  let badWin : Bool := match v with
    | .reg _ => false
    | .win w => (s.win w).misused true 1024
  if !s.owns a || s.bankPending a || badWin then s.illop.done
  else if s.bankBusy a then s.wait.done
  else
    match (s.bank a).error with
    | some v => (s.raiseBank a v).done
    | none =>
      match (if (s.bank a).compare && (s.bank a).state == .live then (s.bank a).mismatch else none) with
      | some n => (s.mismatchTrap a n).done
      | none =>
        match s.pushStops v with
        | some t => t.done
        | none => (s.drain a clr v f).done

/-! ## mpld (R166, R179) -/

/-- The largest and smallest arg of a micro-operation (R166). -/
def argRange (op : Nat) : Nat × Nat :=
  match op with
  | 11 => (0, 1)
  | 12 => (1, 15)
  | 13 => (0, 255)
  | _ => (0, 0)

/-- The loops of a routine are well formed: none nested, none left open (R179). -/
def loopsOk : Bool → List (BitVec 16) → Bool
  | isOpen, [] => !isOpen
  | isOpen, u :: us =>
    match (u.extractLsb' 12 4).toNat with
    | 6 => !isOpen && loopsOk true us
    | 7 => isOpen && loopsOk false us
    | _ => loopsOk isOpen us

/-- A routine passes the checks of R179. -/
def routineOk (us : List (BitVec 16)) : Bool :=
  (us.all fun u =>
    let r := argRange (u.extractLsb' 12 4).toNat
    decide (r.1 ≤ (u.extractLsb' 0 12).toNat ∧ (u.extractLsb' 0 12).toNat ≤ r.2)) &&
  loopsOk false us && (match us.getLast? with
    | some u => u.extractLsb' 12 4 == 0
    | none => false)

/-- A form that only supervisor level may run (R46). -/
def State.asSuper (s : State) (f : State → Host.Outcome State Fault Refusal) : Host.Outcome State Fault Refusal :=
  if s.cur.super then f s else (s.raise47 cPRIV).done

/-- Matrix commands of a core that are queued, running or on their way. -/
def State.engineIdle (s : State) (k : Nat) : Bool := (List.finRange 4).all fun a => s.bankCommands k a == []

/-- The 16-bit words of bytes. -/
def halves : List Byte → List (BitVec 16)
  | x :: y :: rest => BitVec.ofNat 16 (x.toNat + 256 * y.toNat) :: halves rest
  | _ => []

/-- mpld (R179). DESIGN CHOICE: the header's LEN is the whole word, 1 to 32, since bits [4:0] cannot hold 32, and a nonzero b[63:8] raises ILLOP
(log 82). -/
def execMpld (a b : Src) (s : State) : Host.Outcome State Fault Refusal :=
  s.asSuper fun s =>
    let at_ := s.src a
    let rtn := s.src b
    if 256 ≤ rtn.toNat then s.illop.done
    else if !s.engineIdle s.issue.core then s.wait.done
    else
      match s.readTable at_ 64 1 with
      | (.trap v, s) => (s.raise v.cause v.info).done
      | (.wait, s) => s.wait.done
      | (.ok h, s) =>
        let n := (wordAt h 0).toNat
        if n = 0 ∨ 32 < n then s.illop.done
        else
          match s.readVa (at_.toNat % 2 ^ 56 + 8) (2 * n) 0 with
          | (.trap v, s) => (s.raise v.cause v.info).done
          | (.wait, s) => s.wait.done
          | (.ok bs _, s) =>
            let us := halves bs
            if routineOk us then (s.modCore s.issue.core fun c => { c with store := tput c.store rtn.toNat us }).done else s.illop.done

end Sys2Proof.Machine
end

