-- ==== Sys2Proof/Machine/Array.lean ====
section
/-! DEFINITION. The matrix array: the accumulation of a MAC's terms, calls and their ends, and the command queue (07_tile.md R158 to R161,
R165, R168 to R171, R180, R182, 03_numbers.md R61, R62, R80). -/

namespace Sys2Proof.Machine

/-! ## Accumulation (R80, R170) -/

/-- The exact sum of two values. -/
def exactAdd (a b : FVal) : FVal :=
  match a, b with
  | .nan _, _ => .nan false
  | _, .nan _ => .nan false
  | .inf n, .inf n' => if n = n' then .inf n else .nan false
  | .inf n, .fin _ _ _ => .inf n
  | .fin _ _ _, .inf n => .inf n
  | .fin n m e, .fin n' m' e' =>
    let (x, y, z) := addFin false n m e n' m' e'
    .fin x y z

/-- An exact sum rounded to FP32. -/
def sumFp32 (vs : List FVal) : FVal := fp32.unpack (fConvert fp32 .rne (vs.foldl exactAdd (.fin false 0 0))).bits

/-- Negation where a MAC subtracts. -/
def FVal.negIf (v : FVal) (neg : Bool) : FVal := if neg then v.neg else v

/-- Kept positions of K-block b of an A slot, ascending. -/
def keptOf (mask : BitVec 128) (b : Nat) : List Nat := ((List.range 32).map fun i => 32 * b + i).filter fun k => mask.getLsbD k

/-- The place of K position k among the kept ones. -/
def rankOf (mask : BitVec 128) (k : Nat) : Nat := ((List.range k).filter fun i => mask.getLsbD i).length

/-- K-blocks that a MAC works on, with their kept positions. -/
def MacTerms.blocks (t : MacTerms) (mask : BitVec 128) : List (Nat × List Nat) :=
  ((List.range 4).filter fun b => t.km.getLsbD b).map fun b => (b, keptOf mask b)

/-- The terms a MAC adds to cell (i, j), in order (R80, R170). -/
def MacTerms.terms (t : MacTerms) (x : MxParam) (i j : Nat) : List FVal :=
  let mask := slotMask t.slotA x.sp
  (t.blocks mask).flatMap fun (b, ks) =>
    if x.fa = 0 then
      ks.map fun k => ((fProd (bf16.unpack (slotElem t.slotA 0 x.sp i (rankOf mask k))) (bf16.unpack (slotElem t.slotB 0 0 j k))).1).negIf t.neg
    else if ks = [] then []
    else
      let xa := slotScale t.slotA x.fa x.rows x.sp i b
      let xb := slotScale t.slotB x.fb 64 0 j b
      if xa = 0xFF#8 ∨ xb = 0xFF#8 then [.nan false]
      else
        let p := ks.foldl (fun p k => p + mxInt x.fa (slotElem t.slotA x.fa x.sp i (rankOf mask k)) * mxInt x.fb (slotElem t.slotB x.fb 0 j k)) 0
        [(FVal.fin (p < 0) p.natAbs
          (Int.ofNat xa.toNat - 127 - Int.ofNat (fmtFrac x.fa) + (Int.ofNat xb.toNat - 127 - Int.ofNat (fmtFrac x.fb)))).negIf t.neg]

/-- Adds a term to a cell in ACC80 (R62). -/
def Bank.addTerm (b : Bank) (n : Nat) (v : FVal) : Bank :=
  b.setCell n (BitVec.ofNat 80 (fAdd acc80 .rne (acc80.unpack (b.cell n).toNat) v).bits)

/-- Adds a MAC's terms to a cell, and to its shadow under DR (R180). -/
def Bank.addCell (b : Bank) (x : MxParam) (t : MacTerms) (i j : Nat) : Bank :=
  let ts := t.terms x i j
  let b := ts.foldl (fun b v => b.addTerm (64 * i + j) v) b
  if x.dr then ts.foldl (fun b v => b.addTerm (shadowCell i j) v) b else b

/-- The checksum terms of one K position (R170). -/
def Bank.addChecks (b : Bank) (x : MxParam) (t : MacTerms) (mask : BitVec 128) (blk k : Nat) : Bank :=
  let va := fun i => elemVal x.fa (slotElem t.slotA x.fa x.sp i (rankOf mask k)) (slotScale t.slotA x.fa x.rows x.sp i blk)
  let vb := fun j => elemVal x.fb (slotElem t.slotB x.fb 0 j k) (slotScale t.slotB x.fb 64 0 j blk)
  let sB := sumFp32 ((List.range 64).map vb)
  let sA := sumFp32 ((List.range x.rows).map va)
  let add := fun (old : BitVec 32) (u v : FVal) => BitVec.ofNat 32 (fFma fp32 .rne (fp32.unpack old.toNat) (u.negIf t.neg) v).bits
  let b := (List.range x.rows).foldl (fun b i => { b with rp := tput b.rp i (add (tget 0 b.rp i) (va i) sB) }) b
  (List.range 64).foldl (fun b j => { b with cp := tput b.cp j (add (tget 0 b.cp j) sA (vb j)) }) b

/-- A MAC's terms land (R170). -/
def Bank.accumulate (b : Bank) (x : MxParam) (t : MacTerms) : Bank :=
  let mask := slotMask t.slotA x.sp
  let b := (List.range x.rows).foldl (fun b i => (List.range 64).foldl (fun b j => b.addCell x t i j) b) b
  if t.cs then
    (t.blocks mask).foldl (fun b (blk, ks) => ks.foldl (fun b k => b.addChecks x t mask blk k) b) { b with ck := true }
  else b

/-- Array cycles of a MAC (R158, R159). -/
def MacTerms.cycles (t : MacTerms) (x : MxParam) : Nat :=
  let n := ((t.blocks (slotMask t.slotA x.sp)).map fun y => y.2.length).sum
  max 1 (((pairRate x.fa x.fb).getD 4 * n + 3) / 4)

/-! ## Calls -/

/-- The parameters of a call. -/
def MatrixCall.param (m : MatrixCall) : MxParam :=
  match m.cmd.op with
  | .call _ p => MxParam.ofWord p
  | _ => MxParam.ofWord 0

/-- The routine of a call. -/
def MatrixCall.routine (m : MatrixCall) : BitVec 8 :=
  match m.cmd.op with
  | .call r _ => r
  | _ => 0

/-- The running call of a bank. -/
def Core.callOf (c : Core) (a : Fin 4) : Option MatrixCall := c.calls.find? fun m => m.cmd.bank == a

/-- Replaces the running call of a bank. -/
def State.setCall (s : State) (k : Nat) (a : Fin 4) (m : MatrixCall) : State :=
  s.modCore k fun c => { c with calls := c.calls.map fun x => if x.cmd.bank = a then m else x }

/-- The running call of a bank ends. -/
def State.dropCall (s : State) (k : Nat) (a : Fin 4) : State :=
  s.modCore k fun c => { c with calls := c.calls.filter fun x => !(x.cmd.bank == a),
                                array := if c.array = some a then none else c.array }

/-- A release by a call (R167): held under DR, returned to the ring otherwise. -/
def State.callRelease (s : State) (k : Nat) (a : Fin 4) (dr : Bool) (x : Option HeldSlot) : State :=
  match x with
  | none => s
  | some h =>
    if dr then s.modBank k a fun b => { b with held := b.held ++ [h] }
    else
      match (s.core k).banks[a].owner with
      | some j => s.engineRelease k j h
      | none => s

/-- A call lands the terms still on their way. -/
def State.landAll (s : State) (k : Nat) (a : Fin 4) (m : MatrixCall) : State :=
  m.macs.foldl (fun s t => s.modBank k a fun b => b.accumulate m.param t) s

/-- A call records an error and stops (R161, R171). -/
def State.callError (s : State) (k : Nat) (a : Fin 4) (m : MatrixCall) (cause : Cause) : State :=
  let dr := m.param.dr
  let s := ((s.landAll k a m).callRelease k a dr m.curA).callRelease k a dr m.curB
  let s := s.modBank k a fun b =>
    { b with state := .fault, rerr := b.rerr || cause == cRINGERR, uce := b.uce || cause == cUCE,
             error := some ⟨cause, engineInfo a m.routine b.calln m.pc⟩ }
  (s.dropCall k a).modCore k fun c => { c with arrayAt := s.now + 1, mq := c.mq.filter fun x => !(x.bank == a) || x.op == .zero }

/-- An armed accumulator flip happens as a call on its bank completes (R182, R415); INJECT is then zero, as R435 has it (log 80). -/
def State.injectCell (s : State) (k : Nat) (a : Fin 4) : State :=
  match (s.core k).banks[a].owner with
  | none => s
  | some j =>
    let v := (s.ctxAt k j).sysv rINJECT
    if v.getLsbD 63 ∧ v.extractLsb' 60 3 = 1 ∧ (v.extractLsb' 47 2).toNat = a.val then
      let n := (v.extractLsb' 34 13).toNat
      let bit := (v.extractLsb' 27 7).toNat
      let s := s.modCtx k j fun c => c.setSys rINJECT 0
      if bit ≤ 79 then s.modBank k a fun b => { b with cells := tput b.cells n (b.cell n ^^^ (1#80 <<< bit)) } else s
    else s

/-- A call completes (R161). -/
def State.completeCall (s : State) (k : Nat) (a : Fin 4) (m : MatrixCall) : State :=
  let s := (s.dropCall k a).injectCell k a
  let more := (s.core k).mq.any fun x => x.bank == a
  s.modBank k a fun b =>
    { b with calln := b.calln + 1, lrtn := m.routine, dr := m.param.dr, state := if more then .busy else .live,
             compare := !more && m.param.dr }

/-- END has run in an earlier cycle (R168). -/
def MatrixCall.over (m : MatrixCall) (now : Nat) : Bool :=
  match m.ended with
  | some c => decide (c < now)
  | none => false

/-- Calls of a core that have ended and whose last MAC has landed complete, at the end of END's cycle or later (R168). -/
def State.completeCalls (s : State) (k : Nat) : State :=
  ((s.core k).calls.filter fun m => m.ended.isSome && m.macs.isEmpty).foldl (fun s m => s.completeCall k m.cmd.bank m) s

/-! ## The command queue (R161, R168) -/

/-- A committed command reaches its bank (R161). -/
def State.enqueueMatrix (s : State) (k : Nat) (j : Fin 4) (a : Fin 4) (op : MatrixOp) : State :=
  let queue := fun (s : State) =>
    (s.modBank k a fun b => { b with state := .busy }).modCore k fun c => { c with mq := c.mq ++ [⟨a, j, op, s.now⟩] }
  match (s.core k).banks[a].state, op with
  | .fault, .zero => queue s
  | .fault, _ => s
  | .empty, .clear => s
  | _, _ => queue s

/-- Whether a call that waits finds its slots present (R168, R192). -/
def State.slotPresent (s : State) (k : Nat) (j : Fin 4) (rb : Fin 16) (ahead : BitVec 32) : Bool :=
  let r := (s.ctxAt k j).rings[rb]
  (s.boundEntry k j r).fullFor s.now (r.eq + ahead) (meBit k j)

/-- A binding that the engine can use: BOUND with the E role (R192). -/
def State.engineBound (s : State) (k : Nat) (j : Fin 4) (rb : Fin 16) : Bool :=
  let r := (s.ctxAt k j).rings[rb]
  s.bindState k j r == .bound && r.e

/-- Acquires the next slot of a ring for a layout, EQ moving past it, and says whether the call may use it: an EOS slot, a small one and a bad
sparse mask are acquired too, and fail (R165, R192; log 54). -/
def State.acquireSlot (s : State) (k : Nat) (j : Fin 4) (rb : Fin 16) (size n : Nat) : Bool × HeldSlot × State :=
  let r := (s.ctxAt k j).rings[rb]
  let e := s.boundEntry k j r
  let q := r.eq
  let sparseBad := n != 0 && popCount (BitVec.ofNat 128 (leNat (s.loftRead k (e.desc.slotOff q) 16))) != n
  (!((e.slot q).eos || decide (e.desc.slotBytes < size) || sparseBad), ⟨rb, r.desc.rid, q, r.epoch⟩,
    s.modCtx k j fun c => { c with rings := c.rings.set rb { c.rings[rb] with eq := q + 1 } })

/-- Bytes of a current slot. -/
def State.slotData (s : State) (k : Nat) (x : HeldSlot) (size : Nat) : List Byte :=
  s.loftRead k ((s.ringEntry (sheafOf k) x.rid.val).desc.slotOff x.q) size

end Sys2Proof.Machine
end

