-- ==== Sys2Proof/Machine/Section.lean ====
section
/-! DEFINITION. The sections of a member and the end of a closing bundle (12_region.md R275, 13_context.md R296 to R298, 14_kernel.md
R314, R319). -/

namespace Sys2Proof.Machine

/-- The section that runs once another has ended (R314). -/
def Member.next (m : Member) : Option (Section × BitVec 32) :=
  let epi := if m.epi = 0 then none else some (.epilogue, 0)
  let kernel := fun (i : Nat) => if i < m.trip.toNat then some (.kernel, BitVec.ofNat 32 i) else epi
  match m.sect with
  | .prologue => kernel 0
  | .kernel => kernel (m.iter.toNat + 1)
  | .epilogue => none

/-- Hardware's writes of s61 and s62 at the entry to a section: no result on its way overtakes them. -/
def Context.sectionRegs (c : Context) (iter : Option (BitVec 32)) : Context :=
  let keep := fun (w : PendingWrite) => match w.val with
    | .s r _ => !(r.val == 62 || (r.val == 61 && iter.isSome))
    | _ => true
  let s := c.regs.s.set 62 secEnd
  let s := match iter with
    | some i => s.set 61 (i.setWidth 64)
    | none => s
  { c with pend := c.pend.filter keep, regs := { c.regs with s := s } }

/-- A context leaves, the last of its fixed-latency results in its registers (R317, R412): EXITING. -/
def State.beginExit (s : State) (k : Nat) (j : Fin 4) (names : List Nat) : State :=
  (s.modCtx k j fun c => { c.settleAll with state := .exiting, closing := none, member := c.member.map fun m => { m with names := names } }).modCore k
    fun c => { c with running := if c.running = some j then none else c.running }

/-- Entry to a section: registers, which count as written in the span (R282), and a fresh region whose first bundle's RM is not applied; the entry
to KER is tested as a quiet boundary (R183, R314). -/
def State.enterSection (s : State) (k : Nat) (j : Fin 4) (m : Member) (sect : Section) (iter : BitVec 32) : State :=
  let at_ : Word := match sect with
    | .epilogue => m.epi.setWidth 64
    | _ => m.ker.setWidth 64
  (s.modCtx k j fun c =>
    { (c.sectionRegs (if sect = .kernel then some iter else none)).track [] (.s 62 :: if sect = .kernel then [.s 61] else []) with
      pc := at_, skipRm := true, quiet := sect == .kernel, member := some { m with sect := sect, iter := iter } }).openRegion k j at_

/-- The section after the one that ended, or the exit without a list (R314). -/
def State.nextSection (s : State) (k : Nat) (j : Fin 4) : State :=
  match (s.ctxAt k j).member with
  | none => s.beginExit k j []
  | some m =>
    match m.next with
    | some (sect, iter) => s.enterSection k j m sect iter
    | none => s.beginExit k j []

/-- A fault that a wisect or wicnt met, or an error of an atomic, that the committing bundle raises (R142, R242). -/
def Context.commitError (c : Context) : Option (TrapVal × Bool) :=
  match (List.finRange 16).findSome? fun w => c.windrows[w].mergeFault with
  | some v => some (v, decide (v.cause = cUCE))
  | none => c.atomicErr.map fun x => (x.2, false)

/-- The acceptance of a closing bundle's region, and what the bundle then does (R275, R296, R298, R314, R319). -/
def State.closeBundle (s : State) (k : Nat) (j : Fin 4) (x : Closing) : State :=
  match (s.ctxAt k j).commitError with
  | some (v, hardware) => (s.modCtx k j fun c => { c with atomicErr := none }).trapAt k j v.cause v.info hardware
  | none =>
    let s := s.accept k j
    match x with
    | .exit names => s.beginExit k j names
    | .rfe => s.trapReturn k j
    | .halt => (s.modCtx k j fun c => { c.settle (s.now + 1) with closing := none }).endFaulted k j
    | .sectionEnd => (s.modCtx k j fun c => { c with state := .running, closing := none }).nextSection k j
    | .faulted => s

end Sys2Proof.Machine
end

