-- ==== Sys2Proof/Machine/BundleEvents.lean ====
section
/-! DEFINITION. Events of a context's slots: issue, selection, loading, results that return and commits (02_bundle.md R31, 12_region.md R273 to
R275, R281, 13_context.md R285 to R287, R299, R304). -/

namespace Sys2Proof.Machine

/-- A slot number. -/
def slotNum (n : Nat) : Fin 4 := ⟨n % 4, Nat.mod_lt _ (by decide)⟩

/-- BUNDLE_ISSUE up to the point where the bundle's slots run. -/
def execBundleIssue (core : Nat) (s : State) : Host.Outcome State Fault Refusal := (s.issueBundle core).done

/-- CONTEXT_SELECT: the core has no running context and one is READY or YIELDED (R286, R287). -/
def execContextSelect (core : Nat) (s : State) : Host.Outcome State Fault Refusal :=
  if (s.core core).running.isSome then s.done else (s.selectCore core (s.candidates core)).done

/-- CONTEXT_WAKE: a STALLED context whose bundle would no longer wait, as the frame of issue says (R285). -/
def execContextWake (core slot : Nat) (s : State) : Host.Outcome State Fault Refusal :=
  let j := slotNum slot
  if (s.ctxAt core j).state = .stalled ∧ s.issue.outcome = .run then (s.modCtx core j fun c => { c with state := .yielded }).done else s.done

/-- CONTEXT_LOAD_COMPLETE: a dispatched member is READY at its first section; a restored one is YIELDED at EPC, where its span begins anew
(R285, R304, R314). -/
def execContextLoadComplete (core slot : Nat) (s : State) : Host.Outcome State Fault Refusal :=
  let j := slotNum slot
  let c := s.ctxAt core j
  if c.state ≠ .loading ∨ s.now < c.loadAt then s.done
  else if c.restore then
    let s := (s.modCtx core j fun c => { c with state := .yielded, restore := false, running := 0, preHit := false }).openRegion core j c.pc
    let ck := s.checkpoint core j
    (s.modCtx core j fun c => { c with span := c.newSpan ck }).done
  else
    let s := s.modCtx core j fun c => { c with state := .ready }
    (if c.pc = 0 then s.nextSection core j else s.openRegion core j c.pc).done

/-- PREBOUND_EXPIRY: the next bundle raises PREBOUND (R299). -/
def execPreboundExpiry (core slot : Nat) (s : State) : Host.Outcome State Fault Refusal :=
  let j := slotNum slot
  let c := s.ctxAt core j
  if c.state = .running ∧ (c.sysv rPREBOUND).toNat < c.running then (s.modCtx core j fun c => { c with preHit := true }).done else s.done

/-! ## Results that return (R31, R33, R140, R175) -/

/-- The push of a result performs after the earlier ones of its windrow or to one of its bytes (R25, R140). -/
def Context.pushTurn (c : Context) (f : Flight) : Bool :=
  match f.push with
  | none => true
  | some p => c.flights.all fun g => match g.push with
    | some q => decide (f.id ≤ g.id) || !(q.win == p.win || q.places.any fun a => p.places.any (samePlace a))
    | none => true

/-- A result in flight returns: its registers are written and its push performs, granule by granule (R227). -/
def State.landFlight (s : State) (k : Nat) (j : Fin 4) (id : Nat) (kinds : List FlightKind) : State :=
  let c := s.ctxAt k j
  match c.flights.find? fun f => f.id == id with
  | none => s
  | some f =>
    if !kinds.contains f.kind || decide (s.now < f.ready) || !c.pushTurn f then s
    else
      let land := fun (rest : List Flight) => s.modCtx k j fun c =>
        { c.landInjected f.vals with flights := c.flights.flatMap fun g => if g.id = id then rest else [g] }
      match f.push with
      | none => land []
      | some p =>
        let (now, rest) := p.split s.pickGranules
        let left : Flight := { f with kind := .fixed, vals := [], push := some rest }
        ((land (if rest.places.isEmpty then [] else [left])).drawn.performPush k c.ident now).modCtx k j Context.spent

def execLoadReturn (core slot id : Nat) (s : State) : Host.Outcome State Fault Refusal :=
  (s.landFlight core (slotNum slot) id [.load, .other, .fixed]).done

def execDivideComplete (core slot id : Nat) (s : State) : Host.Outcome State Fault Refusal :=
  (s.landFlight core (slotNum slot) id [.divide]).done

def execVectorDivideComplete (core slot id : Nat) (s : State) : Host.Outcome State Fault Refusal :=
  (s.landFlight core (slotNum slot) id [.vdivide]).done

def execDrainDataReady (core slot id : Nat) (s : State) : Host.Outcome State Fault Refusal :=
  (s.landFlight core (slotNum slot) id [.drain]).done

/-! ## Commits and quiet boundaries -/

/-- In a locked yoke a commit is accepted once the shadow has issued its bundle (R408). -/
def State.shadowDone (s : State) (k : Nat) (j : Fin 4) : Bool :=
  !(s.core k).locked || (match (s.ctxAt k j).lastIssue with
    | some i => decide (i + 2 ≤ s.now)
    | none => true)

/-- REGION_COMMIT_ACCEPT: the region of a bundle that closes is accepted once the conditions of R273 hold; a context that ends FAULTED does so
once what it handed off has performed (R303). Signatures that differ are met in the cycle of their compare (R409). -/
def execRegionCommitAccept (core slot : Nat) (s : State) : Host.Outcome State Fault Refusal :=
  let j := slotNum slot
  let c := s.ctxAt core j
  match c.state, c.closing with
  | .closing, some .faulted => (if c.handedOff then s.finishFaulted core j else s).done
  | .closing, some x =>
    if !s.shadowDone core j then s.done
    else (if s.acceptReady core j then s.closeBundle core j x else s).done
  | _, _ => s.done

/-- QUIET_BOUNDARY_PASS: the test of a bundle that waits for queued clears holds (R183, R281). -/
def execQuietBoundaryPass (core slot : Nat) (s : State) : Host.Outcome State Fault Refusal :=
  let j := slotNum slot
  let c := s.ctxAt core j
  if c.state ≠ .running ∨ !c.quiet ∨ s.quietTest core j ≠ .boundary ∨ (c.save.isSome ∧ !c.handedOff) then s.done else (s.passQuiet core j).done

end Sys2Proof.Machine
end

