-- ==== Sys2Proof/Machine/Restore.lean ====
section
/-! DEFINITION. The restore of a saved image into a slot (13_context.md R301, R302, R304, R460). -/

namespace Sys2Proof.Machine

/-- The words of an image from a byte offset up. -/
def imageWord (ws : List Word) (off : Nat) : Word := wordAt ws (off / 8)

/-- Some words of an image as one number. -/
def imageNat (ws : List Word) (off n : Nat) : Nat := recBits ((ws.drop (off / 8)).take n) (64 * n - 1) 0

/-- The sealed bytes of an image. -/
def imageSealed (ws : List Word) : List Byte := (ws.drop 384).flatMap fun w => leBytes 8 w.toNat

/-- Words of an image that hold zeros (R301, R302). -/
def imageZeros : List Nat := [1, 2, 3, 4, 5, 6, 8, 71] ++ (List.range 12).map (92 + ·) ++ (List.range 4).map (124 + ·)

/-- MAGIC, RPT, SEAL and the zero fields (R304). -/
def imageOk (ws : List Word) : Bool :=
  let h := wordAt ws 0
  h.extractLsb' 0 40 == 0x0143585447#40 && h.extractLsb' 41 4 == 0 && h.extractLsb' 60 4 == 0 && (wordAt ws 7).extractLsb' 0 32 == 0 &&
  (imageZeros.all fun i => wordAt ws i == 0) &&
  (wordAt ws 122 ||| wordAt ws 123) &&& 0x7FF8E0007FF8E000#64 == 0 &&
  (wordAt ws 7).extractLsb' 32 32 == crc32 (imageSealed ws)

/-- The bank word of an image: OWN, CCUR and DCUR. -/
def imageBankWord (ws : List Word) (b : Fin 4) : Word := (wordAt ws (122 + b.val / 2)) >>> (32 * (b.val % 2))

/-- Banks that an image owns. -/
def imageOwns (ws : List Word) (b : Fin 4) : Bool := (imageBankWord ws b).getLsbD 31

/-- The sealed part that an image holds, by its serial number; bytes that were not written with one hold what their layout, which is not published,
gives them (R301, R304; log 18). -/
def State.unseal (s : State) (ws : List Word) : Sealed :=
  let n := (imageWord ws 0xC00).toNat
  let known := if imageSealed ws = sealedBytes n then s.sealed.find? fun x => x.serial == n else none
  known.getD (Config.unsealed (imageSealed ws))

/-- LREQ of an image: 0 to 14, and for 15, which no save writes, a value of that range that no rule gives (R206, R207; log 86). -/
def imageLreq (ws : List Word) : BitVec 4 :=
  let n := (wordAt ws 0).extractLsb' 56 4
  if n = 15 then BitVec.ofNat 4 (Config.openLreq.toNat % 15) else n

/-- The system registers of an image in a slot: each register's own fields, STATUS with the slot and level PL, DOMAIN with FLT where the launch
block has faulted meanwhile. -/
def imageSysOf (ws : List Word) (slot : Fin 4) (flt : Bool) : Vector Word 20 :=
  let w := fun (i : Nat) => imageWord ws (0x240 + 8 * i)
  Vector.ofFn fun i =>
    if i = rSTATUS then statusWord slot ((w 0).getLsbD 4) ((w 0).getLsbD 2) ((w 0).getLsbD 1) ((wordAt ws 0).getLsbD 40)
    else if i = rREGENT then sysStore rEPC 0 (w 2) 0 fun _ => true
    else if i = rDOMAIN then sysStore i (w 16) (w 16) 0 (fun _ => true) ||| (if flt then 0x40000000000#64 else 0)
    else sysStore i (w i.val) (w i.val) 0 fun _ => true

/-- The context that an image gives. -/
def imageContext (ws : List Word) (x : Sealed) (core : Nat) (slot : Fin 4) (flt : Bool) (now : Nat) : Context :=
  let sys := imageSysOf ws slot flt
  let regs : Regs := {
    s := Vector.ofFn fun i => imageWord ws (0x40 + 8 * i.val)
    p := Vector.ofFn fun i => (imageWord ws 0x3C0).getLsbD i.val
    v := Vector.ofFn fun i => BitVec.ofNat 1024 (imageNat ws (0x400 + 128 * i.val) 16)
    k := Vector.ofFn fun i => BitVec.ofNat 128 (imageNat ws (0x340 + 16 * i.val) 2)
    mb := x.mb, mlen := x.mlen, mstep := x.mstep, mp := x.mp
    drm := (imageWord ws 0x3C8).extractLsb' 0 3
    dsat := (imageWord ws 0x3C8).getLsbD 3
    sys := sys }
  { Context.reset slot.val with
    state := .loading, ident := x.ident, pc := sys[rEPC], regs := regs, loop := x.loop, windrows := x.windrows,
    rings := vecMap (fun r => if r.state = .bound ∧ r.core ≠ core then { r with state := .stale } else r) x.rings,
    tokens := x.tokens, cnt := x.cnt, pos := x.pos, arr := x.arr, atomicErr := x.atomicErr, member := x.member,
    lreq := imageLreq ws, skipRm := true, loadAt := now + 512, restore := true }

/-- The restore itself: the slot is LOADING for 512 cycles, its banks EMPTY (R304). The core's L1 gives up its lines, so that the context does not
read below stores that it made elsewhere (R226). -/
def State.installImage (s : State) (k : Nat) (j : Fin 4) (ws : List Word) (x : Sealed) : State :=
  let flt := match x.member with
    | some m => (match s.findRun m.field m.run with
      | some l => l.faulted
      | none => true)
    | none => false
  ((s.dropL1 k).modCtx k j fun _ => imageContext ws x k j flt s.now).modCore k fun c =>
    { c with banks := Vector.ofFn fun b =>
        if imageOwns ws b then
          { Bank.reset with owner := some j, dcur := (imageBankWord ws b).extractLsb' 0 13, ccur := (imageBankWord ws b).extractLsb' 16 3 }
        else c.banks[b] }

/-- A bank that an image owns belongs to another resident context of the core. -/
def State.banksTaken (s : State) (k : Nat) (j : Fin 4) (ws : List Word) : Bool :=
  (List.finRange 4).any fun b => imageOwns ws b && (match (s.core k).banks[b].owner with
    | some o => o != j
    | none => false)

end Sys2Proof.Machine
end

