-- ==== Sys2Proof/Machine/System.lean ====
section
/-! DEFINITION. The class SYS (13_context.md R288 to R291, R297, 09_storage.md R209). -/

namespace Sys2Proof.Machine

/-- SYSCALL and BREAK give the code of the slot (R297). -/
def execTrap (c : BitVec 12) (s : State) : Host.Outcome State Fault Refusal := (s.raise cSYSCALL (c.setWidth 64)).done
def execBrk (c : BitVec 12) (s : State) : Host.Outcome State Fault Refusal := (s.raise cBREAK (c.setWidth 64)).done

def execRdsys (d : SReg) (r : Fin 20) (s : State) : Host.Outcome State Fault Refusal := (s.putS d (s.getSys r) 1).done

/-- DOMAIN.LEVEL of the launch of the issuing context's launch block (R336). -/
def State.launchLevel (s : State) : BitVec 3 :=
  match s.cur.member with
  | some m => m.level
  | none => 0

/-- A write of a system register, effective for later bundles (R291). -/
def State.writeSys (s : State) (r : Fin 20) (v : Word) : State :=
  let owns := fun (b : Fin 4) => s.myCore.banks[b].owner == some s.issue.slot
  s.put (.sys r (sysStore r (s.cur.latestSys r) v s.launchLevel owns)) 1

/-- Registers that wrsys may write (R288). -/
def userWritable (r : Fin 20) : Bool := r == rSBCHK || r == rFPMODE || r == rFPFLAGS || r == rRNGSEED || r == rMAXMAG

def execWrsys (a : Src) (r : Fin 20) (s : State) : Host.Outcome State Fault Refusal :=
  if userWritable r then (s.writeSys r (s.src a)).done else (s.raise47 cPRIV).done

/-- LREQ changes at issue, and no discard undoes it (R209). -/
def execLphase (n : Fin 15) (s : State) : Host.Outcome State Fault Refusal := (s.modCur fun c => { c with lreq := BitVec.ofNat 4 n.val }).done

end Sys2Proof.Machine
end

