-- ==== Sys2Proof/Machine/Privileged.lean ====
section
/-! DEFINITION. The class PRV (11_page.md R250 to R255, 13_context.md R292, R296, R298 to R304); mpld stands with the matrix forms. -/

namespace Sys2Proof.Machine

/-! ## Returns, halts and system registers -/

def execRfe (s : State) : Host.Outcome State Fault Refusal := s.asSuper fun s => (s.modCur fun c => { c with closing := some .rfe }).done
def execHalt (s : State) : Host.Outcome State Fault Refusal := s.asSuper fun s => (s.modCur fun c => { c with closing := some .halt }).done

def execWrsysp (a : Src) (r : Fin 20) (s : State) : Host.Outcome State Fault Refusal :=
  s.asSuper fun s => if r = rREGENT then s.illop.done else (s.writeSys r (s.src a)).done

/-! ## Saves and restores -/

/-- Translates a page of an image for writing; an image does not lie in the scratchpad (R457). -/
def State.imagePage (s : State) (va : Nat) : Located × State :=
  match barred 1 va with
  | some v => (.trap v, s)
  | none =>
    match s.locate .write va 0 1 with
    | (.ok t, s) =>
      (match (List.range 64).find? fun i => s.isLost { t with addr := t.addr + 64 * i } with
       | some i => (.trap (s.droppedTrap cPOISON 0 1 (va + 64 * i)), s)
       | none => (.ok t, s))
    | r => r

/-- The states of a context that ctxsave can name (R300). -/
def SlotState.saveable : SlotState → Bool
  | .ready => true
  | .yielded => true
  | .stalled => true
  | _ => false

/-- ctxsave, its pages translated: the cases of R300's table from the target's state on. -/
def State.requestSave (s : State) (j : Fin 4) (addr : Nat) (page0 page1 : Trans) : State :=
  let k := s.issue.core
  let last : LastImage := ⟨j, BitVec.ofNat 56 addr⟩
  if j = s.issue.slot ∨ !(s.ctxAt k j).state.saveable then s.illop
  else if (s.core k).lastSave = some last then s
  else if (s.ctxAt k j).save.isSome then s.illop
  else (s.modCtx k j fun c => { c with save := some ⟨page0, page1, none, s.cur.ident, addr⟩ }).modCore k fun c => { c with lastSave := some last }

def execCtxsave (a b : Src) (s : State) : Host.Outcome State Fault Refusal :=
  s.asSuper fun s =>
    let addr := (s.src a).toNat
    let j : Fin 4 := ⟨(s.src b).toNat % 4, Nat.mod_lt _ (by decide)⟩
    if 4 ≤ (s.src b).toNat then s.illop.done
    else if addr % 8192 ≠ 0 then (s.raise47 cALIGN).done
    else
      match s.imagePage addr with
      | (.trap v, s) => (s.raise v.cause v.info).done
      | (.wait, s) => s.wait.done
      | (.ok t0, s) =>
        match s.imagePage (addr + 4096) with
        | (.trap v, s) => (s.raise v.cause v.info).done
        | (.wait, s) => s.wait.done
        | (.ok t1, s) => (s.requestSave j addr t0 t1).done

/-- ctxrest, its image read: the rest of R304's table. -/
def State.restoreAt (s : State) (j : Fin 4) (addr : Nat) (ws : List Word) : State :=
  let k := s.issue.core
  let last : LastImage := ⟨j, BitVec.ofNat 56 addr⟩
  let isFree := (s.ctxAt k j).state == .free
  if (s.core k).lastRest = some last ∧ !isFree then s
  else if !isFree ∨ !imageOk ws ∨ s.banksTaken k j ws then s.illop
  else (s.installImage k j ws (s.unseal ws)).modCore k fun c => { c with lastRest := some last }

def execCtxrest (a b : Src) (s : State) : Host.Outcome State Fault Refusal :=
  s.asSuper fun s =>
    if 4 ≤ (s.src b).toNat then s.illop.done
    else
      match s.readOutside (s.src a) 8192 1024 with
      | (.trap v, s) => (s.raise v.cause v.info).done
      | (.wait, s) => s.wait.done
      | (.ok ws, s) => (s.restoreAt ⟨(s.src b).toNat % 4, Nat.mod_lt _ (by decide)⟩ (s.src a).toNat ws).done

/-! ## Translations (R250, R251) -/

/-- Pages of a KID from a page up; a count of 0 takes every page. -/
structure PageRange where
  kid   : BitVec 8
  first : Nat
  count : Nat
  deriving DecidableEq, Repr

/-- A cached translation has a page in a range. -/
def PageRange.drops (r : PageRange) (e : TlbEntry) : Bool :=
  e.kid == r.kid && (r.count == 0 || decide (e.base < 4096 * (r.first + r.count) ∧ 4096 * r.first < e.base + e.size))

/-- The larger pages that a range reaches into: base and size of each translation that it drops, in the TLBs or of an access made since it was
last dropped. -/
def State.dropped (s : State) (r : PageRange) : List (Nat × Nat) :=
  (s.liveCores.flatMap fun k => ((s.core k).tlb ++ (s.core k).used).filterMap fun e => if r.drops e then some (e.base, e.size) else none).eraseDups

/-- A page whose translation is dropped: one of the range, or of a larger page that the range reaches into. -/
def PageRange.hit (r : PageRange) (es : List (Nat × Nat)) (kid : BitVec 8) (page : Nat) : Bool :=
  kid == r.kid && (r.count == 0 || decide (r.first ≤ page ∧ page < r.first + r.count) ||
    es.any fun e => decide (e.1 ≤ 4096 * page ∧ 4096 * page < e.1 + e.2))

/-- Every cached translation of a range is dropped, with the regions and windrow data under it; data in the L1s performs at PKG scope. -/
def State.dropRange (s : State) (r : PageRange) (es : List (Nat × Nat)) (again : Bool) : State :=
  let own := s.cur
  let s := (s.dropTlb r.drops).dropRegions (r.hit es)
  ((if again then s.modCur fun _ => own else s).performAll).dropGuest (r.hit es)

/-- What a drop waits for has happened (R250). -/
def State.dropComplete (s : State) (r : PageRange) (es : List (Nat × Nat)) : Bool := s.dropDone r.kid (r.hit es)

/-- A drop is complete: what has performed since it began performs at PKG scope, and windrow data under it is gone. -/
def State.endDrop (s : State) (r : PageRange) (es : List (Nat × Nat)) : State :=
  (s.performAll.emptyWindrows (r.hit es)).modCur fun c => { c with drops := [], redrop := none }

/-- A slot that drops translations: once, and then it waits until the drop is complete. A region of its own that holds a store under a dropped
translation is entered again; the slot issues again and drops nothing of it a second time (R250, R251). -/
def State.invalidate (s : State) (r : PageRange) : State :=
  let before := s.cur.drops
  if s.asked.isNone then
    let es := (s.dropped r ++ before).eraseDups
    let this := (s.issue.addr, r.kid, r.first, r.count)
    let again := s.cur.redrop == some this
    let mine := s.cur.holdsPage (r.hit es) && !again
    let s := (s.dropRange r es again).modCur fun c => { c with drops := es, redrop := some this }
    if mine then { s with issue := { s.issue with outcome := .trap, trapped := none } }
    else if s.dropComplete r es then s.endDrop r es
    else s.ask.wait
  else if s.dropComplete r before then s.endDrop r before
  else s.wait

def execTlbinv (a b : Src) (s : State) : Host.Outcome State Fault Refusal :=
  s.asSuper fun s =>
    let x := s.src a
    let y := s.src b
    let n := (y.extractLsb' 8 24).toNat
    if x.toNat % 4096 ≠ 0 ∨ 2 ^ 32 ≤ y.toNat ∨ (n = 0 ∧ x ≠ 0) then s.illop.done
    else if 2 ^ 56 ≤ x.toNat then (s.raise cPFAULT (info249 0 0 x.toNat)).done
    else (s.invalidate ⟨y.setWidth 8, x.toNat / 4096, n⟩).done

/-! ## KIDs (R252 to R255) -/

/-- Fields of a KID's descriptor (R253). -/
def kdKeep (w : List Word) : Bool := recBits w 212 212 == 1
def kdKey1 (w : List Word) : BitVec 128 := BitVec.ofNat 128 (recBits w 383 256)
def kdKey2 (w : List Word) : BitVec 128 := BitVec.ofNat 128 (recBits w 511 384)

/-- A descriptor that breaks its layout. -/
def kidInvalid (w : List Word) : Bool :=
  recBits w 255 213 != 0 || recBits w 63 0 != 0 || recBits w 191 128 % 32 != 0 || recBits w 127 64 % 0x4000 != 0 ||
  recBits w 191 171 != 0 || recBits w 127 107 != 0 || (kdKeep w && (kdKey1 w != 0 || kdKey2 w != 0))

/-- Replaces a KID. -/
def State.setKid (s : State) (kid : BitVec 8) (e : KidEntry) : State := { s with kids := tput s.kids kid.toNat e }

/-- The row of R252's table that a kidset takes, its descriptor read. -/
def State.kidRow (s : State) (kid : BitVec 8) (w : List Word) : Nat :=
  if (s.kidEntry kid).state ≠ .live then 1 else if kdKeep w then 2 else 3

/-- kidset, its descriptor read (R252). -/
def State.loadKid (s : State) (kid : BitVec 8) (w : List Word) : State :=
  let e := s.kidEntry kid
  let roots := { e with state := .live, root := BitVec.ofNat 64 (recBits w 127 64), htab := BitVec.ofNat 64 (recBits w 191 128),
                        hcnt := BitVec.ofNat 20 (recBits w 211 192) }
  if e.state = .live then
    if kdKeep w ∨ (e.key1 = kdKey1 w ∧ e.key2 = kdKey2 w) then (s.setKid kid roots).invalidate ⟨kid, 0, 0⟩ else s.illop
  else if kdKeep w then s.illop
  else s.setKid kid { roots with key1 := kdKey1 w, key2 := kdKey2 w }

def execKidset (a b : Src) (s : State) : Host.Outcome State Fault Refusal :=
  s.asSuper fun s =>
    let kid : BitVec 8 := (s.src b).setWidth 8
    if 256 ≤ (s.src b).toNat ∨ kid = 0 then s.illop.done
    else if s.asked.isSome then (s.invalidate ⟨kid, 0, 0⟩).done
    else
      match s.readTable (s.src a) 64 8 with
      | (.trap v, s) => (s.raise v.cause v.info).done
      | (.wait, s) => s.wait.done
      | (.ok w, s) =>
        let row := (kidObject kid, s.kidRow kid w)
        if kidInvalid w then s.illop.done else if s.tooLate row then s.wait.done else ((s.tookRow row).loadKid kid w).done

/-- A field's lines under a KID are lost, and its Granary lines under it are zeros that keep the tag (R255). -/
def Field.killKid (f : Field) (kid : BitVec 8) : Field :=
  { f with l2 := f.l2.filter fun x => !(x.kid == kid), gran := f.gran.filter fun x => !(tget 0 f.granKid (x.1 / 64) == kid) }

/-- A base die loses its queued writes and Crib lines under a KID. -/
def Stack.killKid (t : Stack) (kid : BitVec 8) : Stack :=
  { t with writes := t.writes.filter fun x => !(x.kid == kid),
           slices := t.slices.map fun x => (x.1, { x.2 with lines := x.2.lines.filter fun l => !(l.kid == kid) }) }

/-- A place under a KID. -/
def Trans.under (t : Trans) (kid : BitVec 8) : Bool := t.place == .phys && t.kid == kid

/-- A context's stores and pushes under a KID that have left it and have not performed lose their bytes, and it is to raise KEYDEAD. -/
def Context.killKid (s : State) (c : Context) (kid : BitVec 8) : Context :=
  { c with
    outbox := c.outbox.map fun x => match x with
      | .store e => .store (if e.target.under kid then { e with mask := 0 } else e)
      | x => x,
    flights := c.flights.map fun f => { f with push := f.push.map fun p => p.part fun t => !t.under kid },
    atomicErr := (c.outbox.findSome? fun x => match x with
      | .store e => if e.target.under kid ∧ e.mask ≠ 0 then some (0, s.storeTrap e cKEYDEAD) else none
      | _ => none).or ((c.flights.findSome? fun f => f.push.bind fun p =>
        ((p.places.zip p.vas).find? fun x => x.1.under kid).map fun x => (0, ⟨cKEYDEAD, info249 p.win.val 4 x.2⟩))) |> c.atomicErr.or }

/-- A core's L1 lines and late writes under a KID are lost. -/
def Core.killKid (s : State) (c : Core) (kid : BitVec 8) : Core :=
  { c with l1 := c.l1.filter fun x => !(x.kid == kid), late := c.late.filter fun x => !(x.attr.kid == kid), ctx := vecMap (fun x => x.killKid s kid) c.ctx }

/-- The end of a LIVE KID (R255). -/
def State.killKid (s : State) (kid : BitVec 8) : State :=
  let s : State := { s with fields := s.fields.map fun (x : Nat × Field) => (x.1, x.2.killKid kid),
                            stackTab := s.stackTab.map fun (x : Nat × Stack) => (x.1, x.2.killKid kid) }
  let s := s.liveCores.foldl (fun s k => (s.core k).late.foldl (fun s x =>
    if x.attr.under kid && !x.home then s.tell x.ident (s.droppedTrap cKEYDEAD 0 5 x.va) else s) s) s
  let s := s.liveCores.foldl (fun s k => s.modCore k fun c => c.killKid s kid) s
  let s := (s.dropTlb fun e => e.kid == kid).dropGuest fun k _ => k == kid
  s.setKid kid { s.kidEntry kid with state := .dead }

/-- A kidkill as R252 has it: a LIVE KID's end, a FREE KID that is DEAD at once, a DEAD one that stays so. -/
def State.endKid (s : State) (kid : BitVec 8) : State :=
  match (s.kidEntry kid).state with
  | .live => (s.killKid kid).tookRow (kidObject kid, 4)
  | .free => (s.setKid kid { s.kidEntry kid with state := .dead }).tookRow (kidObject kid, 5)
  | .dead => s

/-- kidkill waits for the guest's acknowledgement of what it took back (R255, R401). -/
def execKidkill (a : Src) (s : State) : Host.Outcome State Fault Refusal :=
  s.asSuper fun s =>
    let kid : BitVec 8 := (s.src a).setWidth 8
    if 256 ≤ (s.src a).toNat ∨ kid = 0 then s.illop.done
    else if s.asked.isSome then (if s.guestAcked then s else s.wait).done
    else
      let t := s.endKid kid
      (if t.guestAcked then t else t.ask.wait).done

end Sys2Proof.Machine
end

