-- ==== Sys2Proof/Machine/Queue.lean ====
section
/-! DEFINITION. Queue descriptors, on-chip slots, overflow rings and arrivals as operations of a Thresher (14_kernel.md R307 to R309,
15_queue.md R322 to R328). -/

namespace Sys2Proof.Machine

/-! ## Descriptors (R322, R323) -/

def qdEn (w : List Word) : Bool := recBits w 0 0 == 1
def qdKid (w : List Word) : BitVec 8 := BitVec.ofNat 8 (recBits w 135 128)
def qdPl (w : List Word) : Bool := recBits w 136 136 == 1
def qdPre (w : List Word) : Bool := recBits w 137 137 == 1
def qdRank (w : List Word) : Nat := recBits w 154 152
def qdCap (w : List Word) : Nat := recBits w 204 192
def qdTvec (w : List Word) : Nat := recBits w 311 256
def qdOvbase (w : List Word) : Nat := recBits w 375 320
def qdOvlg (w : List Word) : Nat := recBits w 388 384
def qdSaven (w : List Word) : Nat := recBits w 415 400
def qdSavebase (w : List Word) : Nat := recBits w 503 448

/-- The descriptor of a queue as it stands in memory. -/
def State.queueDesc (s : State) (f : Nat) (q : Fin 64) : List Word := s.physWords (s.config.qtab + 64 * (64 * f + q.val)) 8

/-- A descriptor that R323 finds invalid. -/
def queueInvalid (w : List Word) : Bool :=
  !qdEn w || ([(511, 504), (447, 416), (399, 389), (383, 376), (319, 312), (255, 205), (191, 155), (147, 138), (127, 1)].any fun r => recBits w r.1 r.2 != 0) ||
  qdCap w == 0 || decide (4096 < qdCap w) || (qdOvlg w != 0 && (decide (qdOvlg w < 4) || decide (20 < qdOvlg w))) ||
  qdSavebase w % 8192 != 0 || qdOvbase w % 4096 != 0 || qdTvec w % 4 != 0

/-- An arrival finds its queue open, or opens it; none where the descriptor is invalid (R323, R326). Members saved meanwhile stay with the queue
(R327). -/
def State.openQueue (s : State) (f : Nat) (q : Fin 64) : Option State :=
  if (s.queue f q).state ≠ .off then some s
  else
    let w := s.queueDesc f q
    if queueInvalid w then none else some ((s.meetPhys (s.config.qtab + 64 * (64 * f + q.val)) 64).modQueue f q fun x => { Queue.reset with state := .open_, desc := w, saved := x.saved })

/-- Who a Thresher is for the launch blocks, ring and images of a queue. -/
def Queue.who (q : Queue) : Who := superWho (qdKid q.desc)

/-! ## On-chip slots (R324, R325) -/

/-- On-chip launch blocks of a queue. -/
def State.onChip (s : State) (f : Nat) (q : Fin 64) : Nat := ((s.field f).lbs.filter fun l => l.queue == q).length

/-- Those that hold entries of the queue's grant. -/
def State.onGrant (s : State) (f : Nat) (q : Fin 64) : Nat := ((s.field f).lbs.filter fun l => l.queue == q && l.granted).length

/-- A slot of the field's 4,096 and of the queue's CAP is free. -/
def State.ownSlotFree (s : State) (f : Nat) (q : Fin 64) : Bool :=
  decide (((s.field f).lbs.filter fun l => !l.granted).length < 4096 ∧ s.onChip f q - s.onGrant f q < qdCap (s.queue f q).desc)

/-- The queue is full (R325). -/
def State.queueFull (s : State) (f : Nat) (q : Fin 64) : Bool := !s.ownSlotFree f q && decide ((s.queue f q).grant ≤ s.onGrant f q)

/-- A launch block takes an on-chip slot of its queue: ENQUEUED. -/
def State.takeSlot (s : State) (f : Nat) (q : Fin 64) (addr : Nat) (words : List Word) : State :=
  let x : HeldLb := { (default : HeldLb) with
    run := s.serial, addr := addr, kid := qdKid (s.queue f q).desc, queue := q, words := words, state := .enqueued,
    granted := !s.ownSlotFree f q }
  { s.modField f fun fd => { fd with lbs := fd.lbs ++ [x] } with serial := s.serial + 1 }

/-! ## The overflow ring (R324, R328) -/

/-- Records in the ring. -/
def Queue.ringCount (q : Queue) : Nat := q.ringIn - q.ringOut

/-- The address of record i. -/
def Queue.recordAt (q : Queue) (i : Nat) : Nat := qdOvbase q.desc + 128 * (i % 2 ^ qdOvlg q.desc)

/-- A launch block goes to the ring's tail: QFULL or the cause, with the address that failed, where it cannot. -/
def State.spillOne (s : State) (f : Nat) (q : Fin 64) (addr : Nat) (words : List Word) : Except (Cause × Nat) State :=
  let x := s.queue f q
  if qdOvlg x.desc = 0 ∨ 2 ^ qdOvlg x.desc ≤ x.ringCount then .error (cQFULL, 0)
  else
    match s.vaWrite x.who (x.recordAt x.ringIn) (words.flatMap fun w => leBytes 8 w.toNat) with
    | .error e => .error e
    | .ok s => .ok (s.modQueue f q fun x => { x with ringIn := x.ringIn + 1, spilled := x.spilled ++ [addr] })

/-- The queue is HELD, and retries in 65,536 cycles; the failure is reported, unless the last one was the same (R326, R328). -/
def State.holdQueue (s : State) (f : Nat) (q : Fin 64) (cause : Cause) (ring first : Nat) : State :=
  let x := s.queue f q
  let s := s.modQueue f q fun x => { x with state := .held, retryAt := s.now + 65536, cause := some cause }
  if x.state = .held ∧ x.cause = some cause then s else s.addRecord f x.fring (queueRecord cause f q ring first (qdKid x.desc))

/-! ## Arrivals (R324, R325) -/

/-- An arrival's sender goes on. -/
def State.answerSender (s : State) : Sender → State
  | .enq k j id => s.modCtx k j fun c => c.answer id
  | _ => s

/-- The arrivals of a queue, oldest first. -/
def State.arrivalsOf (s : State) (f : Nat) (q : Fin 64) : List Arrival := (s.field f).arrivals.filter fun a => a.queue == q

/-- The oldest arrival of a queue leaves the field's list. -/
def removeArrival (q : Fin 64) : List Arrival → List Arrival
  | [] => []
  | a :: as => if a.queue = q then as else a :: removeArrival q as

/-- The oldest arrival of a queue has been taken. -/
def State.tookArrival (s : State) (f : Nat) (q : Fin 64) (a : Arrival) : State :=
  (s.modField f fun fd => { fd with arrivals := removeArrival q fd.arrivals }).answerSender a.sender

/-- Whether the oldest arrival of a queue can be taken now: the queue is OFF, or its ring is empty and it is not full, or it spills. -/
def State.takeable (s : State) (f : Nat) (q : Fin 64) : Bool :=
  let x := s.queue f q
  match x.state with
  | .off => true
  | .open_ => !s.queueFull f q
  | .spill => x.ringCount != 0 || !s.queueFull f q
  | .held => x.ringCount == 0 && !s.queueFull f q

/-- Arrivals that wait at a full or HELD queue. -/
def State.waiting (s : State) (f : Nat) (q : Fin 64) : Nat := if s.takeable f q then 0 else (s.arrivalsOf f q).length

/-- A launch block that its queue cannot take in: FAULTED with FCAUSE 0x01 and a record (R307, R323). -/
def State.refuseArrival (s : State) (f : Nat) (a : Arrival) (ring : Fin 16) : State :=
  let s := s.tookArrival f a.queue a
  let s := s.writeLbState f a.queue a.kid a.addr 9 (some cILLOP)
  s.addRecord f ring (faultRecord cILLOP f a.queue a.addr 0 a.kid)

/-- An invalid launch block at an open queue (R307). -/
def State.refuseInvalid (s : State) (f : Nat) (a : Arrival) : State :=
  let q := s.queue f a.queue
  s.refuseArrival f { a with kid := qdKid q.desc } q.fring

/-- Writes the waiting arrivals of a queue to its ring, oldest first, until one cannot be written; an invalid one is not taken in (R307, R326,
R328). -/
def State.spillArrivals (f : Nat) (q : Fin 64) : List Arrival → State → State
  | [], s => s
  | a :: as, s =>
    if lbInvalid a.words then State.spillArrivals f q as (s.refuseInvalid f a)
    else
      match s.spillOne f q a.addr a.words with
      | .ok s => State.spillArrivals f q as ((s.modQueue f q fun x => { x with state := .spill, cause := none }).tookArrival f q a)
      | .error (c, at_) => s.holdQueue f q c at_ a.addr

/-- A launch block becomes ENQUEUED in queue QUE of field QF (R309). -/
def State.arrive (s : State) (words : List Word) (addr : Nat) (kid : BitVec 8) (q : Fin 64) (sender : Sender) : State :=
  s.modField (lbQf words) fun fd => { fd with arrivals := fd.arrivals ++ [⟨addr, words, kid, q, sender⟩] }

/-- A naming for the Thresher of a field (R319). -/
def State.nameLb (s : State) (f : Nat) (n : Naming) : State := s.modField f fun fd => { fd with namings := fd.namings ++ [n] }

/-! ## The word of JOIN and STATE (R305, R309) -/

/-- The byte offset in a launch block of the word of JOIN, STATE, FCAUSE and QUE. -/
def lbWordOff : Nat := 80

/-- The word with JOIN and STATE replaced. -/
def joinWord (w : Word) (join state : Nat) : Word := (w &&& ~~~ 0xFFFFF#64) ||| BitVec.ofNat 64 (join % 2 ^ 16 + state % 16 * 2 ^ 16)

/-- JOIN and STATE of the word. -/
def wordJoin (w : Word) : Nat := w.toNat % 2 ^ 16
def wordState (w : Word) : Nat := w.toNat / 2 ^ 16 % 16

/-- A launch block's words with that word replaced. -/
def lbWith (ws : List Word) (w : Word) : List Word := ws.set 10 w

end Sys2Proof.Machine
end

