-- ==== Sys2Proof/Machine/Reuse.lean ====
section
/-! DEFINITION. Drift, the probe and the skip rule, and the forms tmark, rrec, rprobe, rgate, mmrd and mmclr (19_reuse.md R373 to R387). -/

namespace Sys2Proof.Machine

/-! ## Drift (R373) -/

/-- Add of R373. -/
def addDrift (d s : BitVec 32) (nan : Bool) : BitVec 32 :=
  let x := fp32.unpack s.toNat
  if nan ∨ x.isNan then 0x7F800000#32
  else BitVec.ofNat 32 (fAdd fp32 .rup (fp32.unpack d.toNat) (fp32.unpack (s.toNat % 2 ^ 31))).bits

/-! ## The probe and the rule (R376 to R378) -/

/-- The way of a set that holds a key. -/
def State.keyWay (s : State) (f : Nat) (key : BitVec 32) : Option (Fin 4) :=
  (List.finRange 4).find? fun w => (s.reuseAt f (reuseSet key) w).state != .invalid && (s.reuseAt f (reuseSet key) w).key == key

/-- A probe: the way that hits (R377). -/
def State.probe (s : State) (f : Nat) (ws : List Word) : Option (Fin 4) :=
  match s.keyWay f (lbKey ws) with
  | none => none
  | some w =>
    let e := s.reuseAt f (reuseSet (lbKey ws)) w
    if e.state = .valid ∧ e.ins = lbIns ws ∧ e.outs = lbOuts ws then some w else none

/-- δ of R378 from the inputs' drift counters and their snapshots. -/
def deltaOf : List (BitVec 32 × BitVec 32) → FVal → FVal
  | [], d => d
  | (now, snap) :: rest, d =>
    let di := fp32.unpack (fAdd fp32 .rup (fp32.unpack now.toNat) (fp32.unpack snap.toNat).neg).bits
    deltaOf rest (if di.isNan then .nan false else if !d.isNan && fLess d di then di else d)

/-- δ of a launch block against an entry. -/
def State.driftDelta (s : State) (e : ReuseEntry) : FVal := deltaOf ((e.ins.map fun t => (s.tile t).d).zip e.snaps) (.fin false 0 0)

/-- DTH0 to DTH7 as a Thresher's copy holds them (R357). -/
def Field.threshold (f : Field) (sel : Nat) : BitVec 32 := (f.step[(⟨9 + sel % 8, by have := Nat.mod_lt sel (by decide : 0 < 8); omega⟩ : Fin 17)]).setWidth 32

/-- Whether δ lies below a threshold: a NaN never does (R378). -/
def belowThreshold (delta : FVal) (t : BitVec 32) : Bool :=
  let x := fp32.unpack t.toNat
  !delta.isNan && !x.isNan && fLess delta x

/-- Whether R378 would skip a launch block that hits a way. -/
def State.wouldSkip (s : State) (f : Nat) (ws : List Word) (w : Fin 4) : Bool :=
  belowThreshold (s.driftDelta (s.reuseAt f (reuseSet (lbKey ws)) w)) ((s.field f).threshold (lbDthsel ws))

/-- The word of rprobe (R385). -/
def State.probeWord (s : State) (ws : List Word) : Word :=
  let f := lbQf ws
  let pend : Bool := match s.keyWay f (lbKey ws) with
    | some w => (s.reuseAt f (reuseSet (lbKey ws)) w).state == .pending
    | none => false
  let low := (if lbReuse ws then 1 else 0) + (if pend then 4 else 0)
  match s.probe f ws with
  | none => BitVec.ofNat 64 (0x7FC00000 * 2 ^ 32 + low)
  | some w =>
    let e := s.reuseAt f (reuseSet (lbKey ws)) w
    BitVec.ofNat 64 ((fConvert fp32 .rne (s.driftDelta e)).bits * 2 ^ 32 + e.step.toNat % 2 ^ 24 * 2 ^ 8 + (if s.wouldSkip f ws w then 8 else 0) + 2 + low)

/-! ## Instructions -/

/-- A tmark or rrec slot is deferred; the seventeenth of a region raises REGOVF (R383). -/
def State.deferMark (s : State) (e : Effect) : State :=
  if 16 ≤ s.cur.region.marks then s.raise47 cREGOVF
  else (s.defer e).modCur fun c => { c with region := { c.region with marks := c.region.marks + 1 } }

def execTmark (a b : Src) (s : State) : Host.Outcome State Fault Refusal :=
  if 2 ^ 20 ≤ (s.src a).toNat then s.illop.done
  else (s.deferMark (.tmark ((s.src a).setWidth 20) ((s.src b).setWidth 32) ((s.src b).getLsbD 32))).done

def execRrec (a : Src) (s : State) : Host.Outcome State Fault Refusal :=
  match s.cur.member with
  | none => s.illop.done
  | some m => if (s.src a).toNat ≠ m.lb ∨ m.key.isNone then s.illop.done else (s.deferMark (.rrec m.lb m.kid)).done

/-- Reads and checks the launch block of rprobe or rgate (R385, R386). -/
def State.withLb (s : State) (a : Src) (f : List Word → State → State) : Host.Outcome State Fault Refusal :=
  match s.readOutside (s.src a) 128 16 with
  | (.trap v, s) => (s.raise v.cause v.info).done
  | (.wait, s) => s.wait.done
  | (.ok ws, s) => if lbInvalid ws then s.illop.done else (f ws s).done

def execRprobe (d : SReg) (a : Src) (s : State) : Host.Outcome State Fault Refusal :=
  s.withLb a fun ws s => s.flyS .other d (s.probeWord ws) 1

def execRgate (a : Src) (s : State) : Host.Outcome State Fault Refusal :=
  s.withLb a fun ws s =>
    match s.keyWay (lbQf ws) (lbKey ws) with
    | some w => s.reuseDisplace (lbQf ws) (reuseSet (lbKey ws)) w
    | none => s

def execMmrd (d : SReg) (s : State) : Host.Outcome State Fault Refusal := (s.putS d (s.getSys rMAXMAG) 1).done

/-- mmclr clears MAXMAG at issue: an update that is still to land does so on zero (R78, R387). -/
def execMmclr (s : State) : Host.Outcome State Fault Refusal := (s.put (.sys rMAXMAG 0) 0).done

end Sys2Proof.Machine
end

