-- ==== Sys2Proof/Machine/Task.lean ====
section
/-! DEFINITION. The class TSK (14_kernel.md R309, R319 to R321, 15_queue.md R329). -/

namespace Sys2Proof.Machine

/-! ## enq (R320) -/

/-- A queue number of a launch block or slot. -/
def queueNum (n : Nat) : Fin 64 := ⟨n % 64, Nat.mod_lt _ (by decide)⟩

/-- The acas of enq on the launch block's word: WRITTEN becomes ARMED, or ENQUEUED with an arrival that the bundle then waits for. -/
def State.enqueue (s : State) (q : Fin 64) (addr : Nat) (ws : List Word) (t : Trans) : State :=
  let old := BitVec.ofNat 64 (leNat (((lineBytes (s.readHome t)).drop (t.addr % 64)).take 8))
  let put := fun (s : State) (w : Word) => s.writeHome t (byteMask (t.addr % 64) 8) (placeBytes (t.addr % 64) (leBytes 8 w.toNat))
  if 9 < wordState old then s.illop
  else if wordState old ≠ 0 then s
  else if wordJoin old ≠ 0 then
    put s ((joinWord old (wordJoin old) 1 &&& ~~~ 0x3F00000000#64) ||| BitVec.ofNat 64 (q.val * 2 ^ 32))
  else
    match s.openQueue (lbQf ws) q with
    | none => s.illop
    | some s =>
      let w := joinWord old 0 2
      ((put s w).arrive (lbWith ws w) addr s.cur.kid q (.enq s.issue.core s.issue.slot s.serial)).ask.wait

/-- enq: the launch block is read and checked at issue, and the atomic orders as an ATM of PKG scope does. -/
def execEnq (q : Fin 64) (a : Src) (s : State) : Host.Outcome State Fault Refusal :=
  s.asSuper fun s =>
    let addr := (s.src a).toNat
    match s.asked with
    | some true => (s.acquireMine .pkg).done
    | some false => s.wait.done
    | none =>
      match s.readOutside (s.src a) 128 16 with
      | (.trap v, s) => (s.raise v.cause v.info).done
      | (.wait, s) => s.wait.done
      | (.ok ws, s) =>
        if lbInvalid ws ∨ 9 < lbStateCode ws then s.illop.done
        else if s.cur.unperformed then s.wait.done
        else
          match s.locate .write (addr + lbWordOff) 0 3 with
          | (.trap v, s) => (s.raise v.cause v.info).done
          | (.wait, s) => s.wait.done
          | (.ok t, s) =>
            match s.lineError t with
            | some c => (s.raise c (s.accessInfo c 0 3 (addr + lbWordOff) (s.isLost t))).done
            | none => (((s.releaseMine .pkg).acquireMine .pkg).enqueue q addr ws t).done

/-! ## exit (R319) -/

/-- An entry of an exit list that is no launch block's address. -/
def badEntry (w : Word) : Bool := w.toNat % 128 != 0 || decide (2 ^ 56 ≤ w.toNat)

def execExit (a : Src) (n : Fin 5) (s : State) : Host.Outcome State Fault Refusal :=
  match s.readTable (s.src a) 8 n.val with
  | (.trap v, s) => (s.raise v.cause v.info).done
  | (.wait, s) => s.wait.done
  | (.ok ws, s) =>
    if ws.any badEntry then s.illop.done
    else (s.modCur fun c => { c with closing := some (.exit (ws.map BitVec.toNat)) }).done

/-! ## tid and tparm (R321) -/

def execTid (d : SReg) (s : State) : Host.Outcome State Fault Refusal :=
  (s.putS d (match s.cur.member with
    | some m => m.index.setWidth 64
    | none => 0) 1).done

/-- PARM of the issuing context's launch block. -/
def State.parmBase (s : State) : Nat :=
  match s.cur.member with
  | some m => m.parm.toNat
  | none => 0

def execTparm (d : SReg) (j : Fin 64) (s : State) : Host.Outcome State Fault Refusal :=
  let ea : Word := BitVec.ofNat 64 (s.parmBase + 8 * j.val)
  match s.badAddress ea 8 0 with
  | some v => (s.raise v.cause v.info).done
  | none =>
    match s.readVa ea.toNat 8 0 with
    | (.trap v, s) => (s.raise v.cause v.info).done
    | (.wait, s) => s.wait.done
    | (.ok bs _, s) => (s.flyS .load d (BitVec.ofNat 64 (leNat bs)) 1).done

/-! ## qstat (R329) -/

/-- STATE codes. -/
def QueueState.code : QueueState → Nat
  | .off => 0
  | .open_ => 1
  | .spill => 2
  | .held => 3

/-- The status word of a queue of a field. -/
def State.queueWord (s : State) (f : Nat) (q : Fin 64) : Word :=
  let x := s.queue f q
  let isFull := x.state != .off && s.queueFull f q
  BitVec.ofNat 64 (x.state.code * 2 ^ 62 + qdRank x.desc * 2 ^ 59 + s.onChip f q * 2 ^ 46 + x.grant * 2 ^ 34 + x.ringCount * 2 ^ 13 +
    min 255 x.saved.length * 2 ^ 5 + (if isFull then 16 else 0) + min 15 (s.waiting f q))

def execQstat (d : SReg) (q : Fin 64) (s : State) : Host.Outcome State Fault Refusal :=
  (s.flyS .other d (s.queueWord (fieldOf s.issue.core) q) 1).done

end Sys2Proof.Machine
end

