-- ==== Sys2Proof/Machine/ReuseEvents.lean ====
section
/-! DEFINITION. The run or skip decision, the end of a run's entry, tmarks at their home, and the completion of phases and generations
(14_kernel.md R310, R315, 16_group.md R339, R340, 17_barrier.md R346, 19_reuse.md R372 to R380). -/

namespace Sys2Proof.Machine

/-! ## Runs (R375, R376) -/

/-- The way that a run takes: its key's, unless that one is PENDING, else an INVALID one, else the oldest VALID one. -/
def State.chooseWay (s : State) (f : Nat) (key : BitVec 32) : Option (Fin 4) :=
  let at_ := fun (w : Fin 4) => s.reuseAt f (reuseSet key) w
  match s.keyWay f key with
  | some w => if (at_ w).state = .pending then none else some w
  | none =>
    match (List.finRange 4).find? fun w => (at_ w).state == .invalid with
    | some w => some w
    | none => ((List.finRange 4).filter fun w => (at_ w).state == .valid).foldl
        (fun best w => match best with
          | none => some w
          | some b => if (at_ b).age < (at_ w).age then some w else best) none

/-- STEP of a Thresher's copy. -/
def State.stepOf (s : State) (f : Nat) : BitVec 32 := ((s.field f).step[(0 : Fin 17)]).setWidth 32

/-- A REUSE launch block is to run: its entry becomes PENDING; untracked where no way can be taken. -/
def State.decideRun (s : State) (f : Nat) (lb : HeldLb) : State :=
  let key := lbKey lb.words
  let set := reuseSet key
  match s.chooseWay f key with
  | none => s.modRun f lb.run fun l => { l with decided := true }
  | some w =>
    let age := (s.reuseAt f set w).age
    let s := if (s.reuseAt f set w).state = .invalid then s else s.reuseInvalid f set w
    let e : ReuseEntry := ⟨.pending, false, false, key, s.stepOf f, lbIns lb.words, (lbIns lb.words).map fun t => (s.tile t).d, lbOuts lb.words, age⟩
    let s := s.modReuse f set w fun _ => e
    let s := e.outs.foldl (fun s t => s.modTile t fun x => { x with rv := true, rkey := key }) s
    s.modRun f lb.run fun l => { l with decided := true, entry := some (set, w) }

/-- The entry of a run that retires: VALID where it recorded and was not killed (R375). -/
def State.endEntry (s : State) (f : Nat) (lb : HeldLb) : State :=
  match lb.entry with
  | none => s
  | some (set, w) =>
    let e := s.reuseAt f set w
    if e.rr ∧ !e.kill then (s.modReuse f set w fun e => { e with state := .valid }).reuseYoungest f set w else s.reuseInvalid f set w

/-- The writer counts that a run raised fall (R310). -/
def State.lowerWriters (s : State) (lb : HeldLb) : State :=
  if lb.raised then (lbOuts lb.words).foldl (fun s t => s.modTile t fun e => { e with writers := e.writers.erase lb.run }) s else s

/-! ## Skips (R315, R379) -/

/-- Namings of a field's own skips, still to be made or waiting as arrivals: its Thresher's buffer takes 256. -/
def State.skipsHeld (s : State) (f : Nat) : Nat :=
  ((s.field f).namings.filter fun n => n.sender == .skip f).length +
    (allFields.map fun g => ((s.field g).arrivals.filter fun a => a.sender == .skip f).length).sum

/-- The entries of a skip's list: a valid one is named, an invalid one reported and counted. -/
def State.nameSkip (s : State) (f : Nat) (lb : HeldLb) (at_ : Nat) (w : Word) : State :=
  if badEntry w then (s.reportAccess f lb.queue cILLOP 2 at_ lb.addr lb.kid).grangerLog 8 (BitVec.ofNat 64 lb.addr)
  else s.nameLb f ⟨w.toNat, lb.kid, lb.queue, lb.addr, .skip f, (s.queue f lb.queue).fring⟩

/-- The successors of a skipped launch block. -/
def State.nameSkips (s : State) (f : Nat) (lb : HeldLb) : State :=
  let a := lbSucc lb.words
  let n := lbNsuc lb.words
  if n = 0 then s
  else
    match s.vaWords (superWho lb.kid) a n with
    | .error (c, b) => (s.reportAccess f lb.queue c 2 b lb.addr lb.kid).grangerLog 8 (BitVec.ofNat 64 lb.addr)
    | .ok ws => (ws.zip (List.range n)).foldl (fun s x => s.nameSkip f lb (a + 8 * x.2) x.1) (s.meetVa (superWho lb.kid) a (8 * n))

/-- Skip(lb) (R315, R379). -/
def State.skip (s : State) (f : Nat) (lb : HeldLb) (w : Fin 4) : State :=
  let s := (lbOuts lb.words).foldl (fun s t => s.modTile t fun x => { x with ver := s.stepOf (tileField t) }) s
  let s := s.reuseYoungest f (reuseSet (lbKey lb.words)) w
  let s := (s.lowerWriters lb).writeLbState f lb.queue lb.kid lb.addr 7 none
  ((s.nameSkips f lb).dropRun f lb.run).closeQueue f lb.queue

/-- A launch block is READY (R309, R310). -/
def State.lbReady (s : State) (lb : HeldLb) : Bool :=
  lb.state == .blocked && lb.waits.all fun x => !(s.tile x.1).writers.contains x.2

/-- A READY REUSE launch block that has not been decided. -/
def State.undecided (s : State) (lb : HeldLb) : Bool := s.lbReady lb && lbReuse lb.words && !lb.decided

/-- A launch block would skip, and its namings find the buffer full: its skip waits (R325). -/
def State.skipWaits (s : State) (f : Nat) (lb : HeldLb) : Bool :=
  match s.probe f lb.words with
  | none => false
  | some w => s.wouldSkip f lb.words w && (decide (256 ≤ s.skipsHeld f) || decide (256 < s.skipsHeld f + lbNsuc lb.words))

/-- The decision at READY, in one step (R378); a skip waits while the buffer for its namings is full (R325). -/
def State.settleReuse (s : State) (f : Nat) (lb : HeldLb) : State :=
  match s.probe f lb.words with
  | none => s.decideRun f lb
  | some w =>
    if !s.wouldSkip f lb.words w then s.decideRun f lb
    else if s.skipWaits f lb then s
    else s.skip f lb w

/-! ## Tiles at their home (R373) -/

/-- TMARK_APPLY: the oldest tmark that a field's Thresher has received. -/
def execTmarkApply (field : Nat) (s : State) : Host.Outcome State Fault Refusal :=
  match (s.field field).marks with
  | [] => s.done
  | m :: rest =>
    let s := s.modField field fun f => { f with marks := rest }
    let s := s.modTile m.tile fun e => { e with ver := s.stepOf field, d := addDrift e.d m.drift m.nan }
    (s.displaceTile m.tile m.key).done

/-! ## Phases and generations (R340, R346) -/

/-- A group of several packages completes its phase when every local member and every other package's has arrived: the latter is a free
choice (log 21). -/
def HeldLb.remotePhase (l : HeldLb) (twin : Bool) : HeldLb := if l.remote then l.modGroup twin fun g => g.closePhase (lbWidth l.words) else l

/-- The completion of a SYS group's phase or generation leaves for the group's other packages, in packets of class 2: package 0, the lowest-numbered
one, gathers the arrivals (R391; log 21). -/
def State.broadcast (s : State) (l : HeldLb) : State :=
  (List.range (l.sysw.toNat / 2 ^ 16 % 2 ^ 13 - 1)).foldl
    (fun s i => s.sendPacket (Config.groupPeer (l.sysw.toNat % 2 ^ 12) i % 8191 + 1) 2 (some l.run) []) s

/-- The group of a run after a change by which a phase or generation may have completed: if one has, the completion is broadcast. -/
def State.settleGroup (s : State) (f run : Nat) (g : HeldLb → HeldLb) : State :=
  match s.findRun f run with
  | some l => if l.remote && g l != l then (s.modRun f run g).broadcast l else s.modRun f run g
  | none => s

/-- The same of a generation. -/
def HeldLb.remoteGen (l : HeldLb) (twin : Bool) (b : Fin 16) : HeldLb :=
  if l.remote then l.modGroup twin fun g => g.closeGen (lbWidth l.words) b else l

/-- PHASE_COMPLETE: the group's count of phases reaches a member. -/
def execPhaseComplete (core slot : Nat) (s : State) : Host.Outcome State Fault Refusal :=
  let j : Fin 4 := ⟨slot % 4, Nat.mod_lt _ (by decide)⟩
  match (s.ctxAt core j).member with
  | none => s.done
  | some m =>
    let s := s.settleGroup m.field m.run fun l => l.remotePhase m.twin
    match s.findRun m.field m.run with
    | none => s.done
    | some l => (s.modCtx core j fun c => { c with member := some { m with seen := (l.groupOf m.twin).phase } }).done

/-- GENERATION_COMPLETE: a rendezvous slot's count of generations reaches a member. -/
def execGenerationComplete (core slot b : Nat) (s : State) : Host.Outcome State Fault Refusal :=
  let j : Fin 4 := ⟨slot % 4, Nat.mod_lt _ (by decide)⟩
  let i : Fin 16 := ⟨b % 16, Nat.mod_lt _ (by decide)⟩
  match (s.ctxAt core j).member with
  | none => s.done
  | some m =>
    let s := s.settleGroup m.field m.run fun l => l.remoteGen m.twin i
    match s.findRun m.field m.run with
    | none => s.done
    | some l => (s.modCtx core j fun c => { c with member := some { m with seenGen := m.seenGen.set i ((l.groupOf m.twin).gen[i]) } }).done

end Sys2Proof.Machine
end

