-- ==== Sys2Proof/Machine/Launch.lean ====
section
/-! DEFINITION. Dispatch of members, their retirement, and what a Thresher saves and restores (09_storage.md R208, 14_kernel.md R309 to R317,
15_queue.md R327, 16_group.md R337, 21_yoke.md R406). -/

namespace Sys2Proof.Machine

/-! ## Placement (R311, R312, R406) -/

/-- The core of a yoke that holds its state: the primary. -/
def primaryOf (k : Nat) : Nat := k / 2 * 2

/-- A core holds no resident context. -/
def State.coreEmpty (s : State) (k : Nat) : Bool := (s.core k).ctx.toList.all fun c => c.state == .free

/-- Whether a launch block's members may be placed on a core at all: general, and locked or not as YOKE asks. -/
def State.coreTakes (s : State) (k : Nat) (yoke : Bool) : Bool :=
  decide (k < numCores) && !isControl k &&
  (if yoke then k % 2 == 0 && ((s.core k).locked || (s.coreEmpty k && s.coreEmpty (k + 1))) else !(s.core (primaryOf k)).locked)

/-- Banks that a member in a slot owns (R312). -/
def ownedBanks (blend : Nat) (j : Fin 4) : List (Fin 4) := (List.finRange 4).filter fun b => b == j || blend.testBit b.val

/-- A slot can take a member: it and every slot of a bank lent to it is FREE, and no other member holds those banks. -/
def State.slotTakes (s : State) (k : Nat) (j : Fin 4) (blend : Nat) : Bool :=
  (ownedBanks blend j).all fun b => (s.ctxAt k b).state == .free && (s.core k).banks[b].owner.isNone

/-- The sheaf number in its field of a core. -/
def sheafIn (k : Nat) : Nat := k % 80 / 8

/-- The largest WIDTH of a SHEAF launch block in a sheaf (R311). -/
def sheafWidth (field sheaf : Nat) (yoke : Bool) : Nat :=
  let w := if sheaf % 10 = 9 then (if field % 2 = 0 then 16 else 24) else 32
  if yoke then w / 2 else w

/-- A core lies where the launch block's DOMAIN places its members, and with those placed before. -/
def inDomain (ws : List Word) (field k : Nat) (home : Option Nat) : Bool :=
  match lbDomain ws with
  | 0 => fieldOf k == field && (match home with
    | some h => h == k
    | none => true)
  | 1 => fieldOf k == field && decide (lbWidth ws ≤ sheafWidth field (sheafIn k) (lbYoke ws)) && (match home with
    | some h => sheafOf h == sheafOf k
    | none => true)
  | 2 => fieldOf k == field
  | _ => true

/-- A slot can take a member of a launch block, as the copy for a field with members placed from `home` on. -/
def State.takes (s : State) (ws : List Word) (field : Nat) (home : Option Nat) (k : Nat) (j : Fin 4) : Bool :=
  inDomain ws field k home && s.coreTakes k (lbYoke ws) && s.slotTakes k j (lbBlend ws)

/-- Members that a core can take at once: with banks lent, one. -/
def State.coreRoom (s : State) (ws : List Word) (field : Nat) (home : Option Nat) (k : Nat) : Nat :=
  let n := ((List.finRange 4).filter fun j => s.takes ws field home k j).length
  if lbBlend ws = 0 then n else min 1 n

/-- Members that can be placed together (R311): on the core, in the sheaf, or in the fields that the DOMAIN allows. -/
def State.room (s : State) (ws : List Word) (field : Nat) (home : Option Nat) : Nat :=
  let at_ := s.coreRoom ws field home
  let most := fun (xs : List Nat) => xs.foldl max 0
  match lbDomain ws with
  | 0 => most ((List.range numCores).map at_)
  | 1 => most ((List.range (numCores / 8)).map fun h => ((coresOfSheaf h).map at_).sum)
  | _ => ((List.range numCores).map at_).sum

/-- The field of a copy of a launch block (R317). -/
def copyField (field : Nat) (twin : Bool) : Nat := if twin then field ^^^ 1 else field

/-- Members of a launch block that could be dispatched now, for each copy. -/
def State.roomFor (s : State) (f : Nat) (lb : HeldLb) : Nat :=
  let n := s.room lb.words f lb.home
  if lbDup lb.words then min n (s.room lb.words (copyField f true) lb.home2) else n

/-- Members not yet dispatched. -/
def HeldLb.left (lb : HeldLb) : Nat := lbWidth lb.words - lb.started

/-- The head fits: all its members under GANG, else one (R311). -/
def State.fits (s : State) (f : Nat) (lb : HeldLb) : Bool :=
  decide ((if lbGang lb.words then lb.left else 1) ≤ s.roomFor f lb)

/-! ## The head that is served (R327) -/

/-- A launch block whose members are not all dispatched. -/
def HeldLb.undispatched (lb : HeldLb) : Bool := lb.started < lbWidth lb.words

/-- The head of a queue that is READY for dispatch: decided where it is REUSE, or in dispatch, with no saved member ahead of it. -/
def State.readyHead (s : State) (f : Nat) (q : Fin 64) : Option HeldLb :=
  match (s.field f).lbs.find? fun l => l.queue == q && l.undispatched with
  | none => none
  | some lb =>
    let ready := (s.lbReady lb && (!lbReuse lb.words || lb.decided)) || lb.state == .dispatched || lb.state == .running
    if ready ∧ (s.queue f q).saved = [] then some lb else none

/-- The first queue, in round-robin order, whose READY head fits or is a GANG head, which is then withheld. -/
def State.serveRank (s : State) (f : Nat) : List (Fin 64) → Option (Fin 64)
  | [] => none
  | q :: qs =>
    match s.readyHead f q with
    | none => s.serveRank f qs
    | some lb => if s.fits f lb || lbGang lb.words then some q else s.serveRank f qs

/-- The queues of a rank, from the one after the last served. -/
def State.rankOrder (s : State) (f rank : Nat) : List (Fin 64) :=
  let last := tget 63 (s.field f).served rank
  ((List.range 64).map fun i => queueNum (last + 1 + i)).filter fun q => (s.queue f q).state != .off && qdRank (s.queue f q).desc == rank

/-- A queue has a READY GANG head. -/
def State.gangHead (s : State) (f : Nat) (q : Fin 64) : Bool :=
  match s.readyHead f q with
  | some lb => lbGang lb.words
  | none => false

/-- The queue whose GANG head holds the Thresher for a rank since its dispatch was withheld. -/
def State.holder (s : State) (f rank : Nat) : Option (Fin 64) :=
  match tfind (s.field f).gang rank with
  | some n => if s.gangHead f (queueNum n) then some (queueNum n) else none
  | none => none

/-- The queue that a rank comes to: the one that holds it, else the first of the round-robin. -/
def State.rankTurn (s : State) (f rank : Nat) : Option (Fin 64) := s.holder f rank <|> s.serveRank f (s.rankOrder f rank)

/-- The head of a queue fits. -/
def State.headFits (s : State) (f : Nat) (q : Fin 64) : Bool :=
  match s.readyHead f q with
  | some lb => s.fits f lb
  | none => false

/-- The ranks, from the highest. -/
def ranks : List Nat := [7, 6, 5, 4, 3, 2, 1, 0]

/-- The queue that a Thresher serves next: a GANG head that does not fit holds its rank, and lower ranks are served. -/
def State.servedQueue (s : State) (f : Nat) : Option (Fin 64) :=
  ranks.findSome? fun r => match s.rankTurn f r with
    | some q => if s.headFits f q then some q else none
    | none => none

/-- The holds of a field as a cycle leaves them: those that stand, and those of GANG heads withheld in it. -/
def State.holdRanks (s : State) (f : Nat) : State :=
  let holds := if (s.field f).lbs = [] then [] else ranks.filterMap fun r => match s.rankTurn f r with
    | some q => if (s.holder f r).isSome || !s.headFits f q then some (r, q.val) else none
    | none => none
  if (s.field f).gang = holds then s else s.modField f fun fd => { fd with gang := holds }

/-! ## The start of a member (R208, R311 to R313, R337) -/

/-- A Loft plan's SCR; none where R208 fails. -/
def planScr (ws : List Word) : Option (BitVec 4) :=
  let scr := recBits ws 3 0
  if recBits ws 127 32 ≠ 0 ∨ 14 < scr ∨ 14 < recBits ws 7 4 ∨ scr * 1024 < recBits ws 31 16 + recBits ws 15 8 then none else some (BitVec.ofNat 4 scr)

/-- The dispatch checks of a launch block: LREQ and parameter word 0, or FCAUSE. -/
def State.dispatchCheck (s : State) (lb : HeldLb) : Except Cause (BitVec 4 × Word) :=
  let plan : Except Cause (BitVec 4) :=
    if lbLplan lb.words = 0 then .ok 0
    else
      match s.vaWords (superWho lb.kid) (lbLplan lb.words) 2 with
      | .error (c, _) => .error c
      | .ok ws => match planScr ws with
        | some n => .ok n
        | none => .error cILLOP
  match plan with
  | .error c => .error c
  | .ok n =>
    if lbDomain lb.words ≠ 4 then .ok (n, 0)
    else
      match s.vaWord (superWho lb.kid) (lbParm lb.words) with
      | .error (c, _) => .error c
      | .ok w =>
        if w.toNat / 2 ^ 29 ≠ 0 ∨ w.toNat / 2 ^ 12 % 16 ≠ 0 ∨ w.toNat / 2 ^ 16 % 2 ^ 13 = 0 then .error cILLOP else .ok (n, w)

/-- The Cribs meet what the dispatch checks read (R219). -/
def State.meetDispatch (s : State) (lb : HeldLb) : State :=
  let s := if lbLplan lb.words = 0 then s else s.meetVa (superWho lb.kid) (lbLplan lb.words) 16
  if lbDomain lb.words = 4 then s.meetVa (superWho lb.kid) (lbParm lb.words) 8 else s

/-- RNGSEED at member start. -/
def startSeed (seed : Word) (index : Nat) : Word :=
  let x := seed ^^^ (BitVec.ofNat 64 ((index + 1) * 0x9E3779B97F4A7C15))
  if x = 0 then 1 else x

/-- The system registers of a member at its start. -/
def memberSys (q : Queue) (lb : HeldLb) (j : Fin 4) (seed : Word) (index : Nat) : Vector Word 20 :=
  (((((((sysReset j.val).set rSTATUS (statusWord j false false false (qdPl q.desc))).set rTVEC (BitVec.ofNat 64 (qdTvec q.desc))).set rKID
    ((qdKid q.desc).setWidth 64)).set rRANK (BitVec.ofNat 64 (lbRank lb.words))).set rDOMAIN
    (BitVec.ofNat 64 (lb.faulted.toNat * 2 ^ 42 + lbWidth lb.words * 2 ^ 31 + lbDomain lb.words))).set rRNGSEED (startSeed seed index))

/-- What a member knows of its launch block. -/
def HeldLb.member (lb : HeldLb) (f : Nat) (index : Nat) (twin : Bool) : Member where
  lb := lb.addr
  kid := lb.kid
  field := f
  queue := lb.queue
  index := BitVec.ofNat 16 index
  width := BitVec.ofNat 16 (lbWidth lb.words)
  parm := BitVec.ofNat 56 (lbParm lb.words)
  trip := BitVec.ofNat 32 (lbTrip lb.words)
  ker := BitVec.ofNat 56 (lbKer lb.words)
  epi := BitVec.ofNat 56 (lbEpi lb.words)
  sect := .prologue
  iter := 0
  dup := lbDup lb.words
  twin := twin
  level := BitVec.ofNat 3 (lbDomain lb.words)
  run := lb.run
  key := if lbReuse lb.words then some (lbKey lb.words) else none
  sysw := lb.sysw
  yoke := lbYoke lb.words
  names := []
  seen := 0
  seenGen := Vector.replicate 16 0

/-- The context of a member at its start (R313). -/
def memberContext (q : Queue) (lb : HeldLb) (f index : Nat) (twin : Bool) (j : Fin 4) (seed : Word) (ident now : Nat) : Context :=
  let c := Context.reset j.val
  let sr := ((((c.regs.s.set 1 (BitVec.ofNat 64 (lbParm lb.words))).set 2 (BitVec.ofNat 64 index)).set 3
    (BitVec.ofNat 64 (lbWidth lb.words))).set 62 secEnd)
  { c with state := .loading, ident := ident, pc := BitVec.ofNat 64 (lbPro lb.words),
           regs := { c.regs with s := sr, sys := memberSys q lb j seed index },
           skipRm := true, lreq := lb.lreq, member := some (lb.member f index twin), loadAt := now }

/-- One copy of a member goes to a slot. -/
def State.startMember (s : State) (f : Nat) (lb : HeldLb) (index : Nat) (twin : Bool) (k : Nat) (j : Fin 4) : State :=
  let c := memberContext (s.queue f lb.queue) lb f index twin j ((s.field f).step[(4 : Fin 17)]) (s.serial + 1) s.now
  let own := ownedBanks (lbBlend lb.words) j
  let s : State := { s.modCtx k j fun _ => c with serial := s.serial + 1 }
  let s := s.modCore k fun x =>
    { x with banks := Vector.ofFn fun b => if own.contains b then { Bank.reset with owner := some j } else x.banks[b],
             locked := x.locked || lbYoke lb.words }
  s.modRun f lb.run fun l =>
    if twin then { l with home2 := l.home2 <|> some k } else { l with home := l.home <|> some k, started := l.started + 1, state := match l.state with
      | .running => .running
      | _ => .dispatched }

/-- A context slot in a list of places. -/
def placeAt (x : Nat × Nat) : Nat × Fin 4 := (x.1, ⟨x.2 % 4, Nat.mod_lt _ (by decide)⟩)

/-- Members go to the places given, in ascending index, a DUP member to two; none where a place cannot take its member. -/
def State.dispatchTo (f run : Nat) : List (Nat × Nat) → State → Option State
  | [], s => some s
  | x :: rest, s =>
    match s.findRun f run with
    | none => none
    | some lb =>
      let (k, j) := placeAt x
      if !lb.undispatched ∨ !s.takes lb.words f lb.home k j then none
      else
        let t := s.startMember f lb lb.started false k j
        if lbDup lb.words then
          match rest with
          | [] => none
          | y :: rest =>
            let (k', j') := placeAt y
            if !t.takes lb.words (copyField f true) lb.home2 k' j' then none
            else State.dispatchTo f run rest (t.startMember f lb lb.started true k' j')
        else State.dispatchTo f run rest t

/-- The served head is dispatched to places: at its first dispatch it is checked. -/
def State.dispatchHead (s : State) (f : Nat) (lb : HeldLb) (place : List (Nat × Nat)) : State :=
  let first := lb.started == 0
  match (if first then s.dispatchCheck lb else .ok (lb.lreq, lb.sysw)) with
  | .error c => s.kernelFault f lb.run c 0
  | .ok (lreq, sysw) =>
    let s := (if first then s.meetDispatch lb else s).modRun f lb.run fun l => { l with lreq := lreq, sysw := sysw, remote := decide (1 < sysw.toNat / 2 ^ 16 % 2 ^ 13), code := if first then s.codeView else l.code }
    let copies := if lbDup lb.words then 2 else 1
    if place = [] ∨ (lbGang lb.words ∧ place.length ≠ copies * lb.left) then s
    else
      match State.dispatchTo f lb.run place s with
      | none => s
      | some t =>
        let r := qdRank (s.queue f lb.queue).desc
        t.modField f fun fd => { fd with served := tput fd.served r lb.queue.val, gang := tdel fd.gang r }

/-- LB_DISPATCH: a READY REUSE launch block of the queue that has not been decided, and whose skip need not wait, is decided first; else members of
the head that the Thresher serves go to the places given. -/
def execLbDispatch (field q : Nat) (place : List (Nat × Nat)) (s : State) : Host.Outcome State Fault Refusal :=
  let i := queueNum q
  match (s.field field).lbs.find? fun l => l.queue == i && s.undecided l && !s.skipWaits field l with
  | some lb => (s.settleReuse field lb).done
  | none =>
    if s.servedQueue field ≠ some i then s.done
    else
      match s.readyHead field i with
      | none => s.done
      | some lb => (s.dispatchHead field lb place).done

/-! ## Retirement (R316, R317, R319, R343) -/

/-- Namings by a member that its Thresher has still to make or place. -/
def State.namesPending (s : State) (f : Nat) (who : Sender) : Bool :=
  ((s.field f).namings.any fun n => n.sender == who) || allFields.any fun g => (s.field g).arrivals.any fun a => a.sender == who

/-- tmarks of a context that have not been applied, wherever it sent them from (R373). -/
def State.marksPending (s : State) (ident : Nat) : Bool := allFields.any fun f => (s.field f).marks.any fun m => m.ident == ident

/-- The names of an exit go to the Thresher; those of a launch block that has faulted, here or in another package of its group, go nowhere, a DUP
one's wait for every pair (R316, R317, R341). -/
def State.handNames (s : State) (k : Nat) (j : Fin 4) (m : Member) : State :=
  let s := s.modCtx k j fun c => { c with member := some { m with names := [] } }
  match s.findRun m.field m.run with
  | none => s
  | some lb =>
    if lb.faulted then s
    else if m.dup then (if m.twin then s else s.modRun m.field m.run fun l => { l with names := l.names ++ m.names })
    else m.names.foldl (fun s a => s.nameLb m.field ⟨a, m.kid, m.queue, m.lb, .exit k j, (s.queue m.field m.queue).fring⟩) s

/-- A copy's group with one more member RETIRED: it counts as arrived everywhere (R339, R346). -/
def Group.retire (g : Group) (width index : Nat) (sig : Word) (remote : Bool) : Group :=
  let g := { g with retired := index :: g.retired, sigs := (index, sig) :: g.sigs }
  if remote then g else (List.finRange 16).foldl (fun g b => g.closeGen width b) (g.closePhase width)

/-- The copies of a member have both exited and differ (R317). -/
def HeldLb.differs (lb : HeldLb) (index : Nat) : Bool :=
  match tfind lb.group.sigs index, tfind lb.dupGroup.sigs index with
  | some a, some b => a != b
  | _, _ => false

/-- Every member of every copy is RETIRED. -/
def HeldLb.finished (lb : HeldLb) : Bool :=
  let all := fun (g : Group) => (List.range (lbWidth lb.words)).all fun i => g.retired.contains i
  all lb.group && (!lbDup lb.words || all lb.dupGroup)

/-- The shadow pages of a DUP launch change over (R259). -/
def State.flipSet (s : State) (lb : HeldLb) : State :=
  lb.writeSet.foldl (fun s x => match s.walk lb.kid (x.1 * 4096) with
    | .ok e => (s.flipShadow lb.kid (x.1 * 4096)).dropPage e
    | .error _ => s) (if lb.writeSet = [] then s else s.performAll)

/-- The pages of a launch's write set. -/
def HeldLb.shadows (lb : HeldLb) (kid : BitVec 8) (p : Nat) : Bool := kid == lb.kid && lb.writeSet.any fun x => x.1 == p

/-- The drop of a launch's shadow pages is not complete: the change over, and with it the retirement of the launch block, waits for it (R250, R258),
though no member's exit does (R343). -/
def State.flipWaits (s : State) (lb : HeldLb) : Bool := lb.writeSet != [] && !s.dropDone lb.kid lb.shadows

/-- The launch block is RETIRED (R309, R310, R375). -/
def State.retireRun (s : State) (f : Nat) (lb : HeldLb) : State :=
  let s := s.flipSet lb
  let s := ((s.endEntry f lb).lowerWriters lb).writeLbState f lb.queue lb.kid lb.addr 8 none
  let s := lb.names.foldl (fun s a => s.nameLb f ⟨a, lb.kid, lb.queue, lb.addr, .dup, (s.queue f lb.queue).fring⟩) s
  (s.dropRun f lb.run).closeQueue f lb.queue

/-- A finished launch block retires, or takes the guest's translations of its shadow pages back and waits. -/
def State.endRun (s : State) (f : Nat) (lb : HeldLb) : State :=
  let s := if lb.writeSet = [] then s else s.dropGuest lb.shadows
  if s.flipWaits lb then s else s.retireRun f lb

/-- A member becomes RETIRED. -/
def State.retireMember (s : State) (k : Nat) (j : Fin 4) : State :=
  let c := s.ctxAt k j
  let s := (s.cancelSave k j).freeSlot k j
  match c.member with
  | none => s
  | some m =>
    let s := s.modRun m.field m.run fun l =>
      l.modGroup m.twin fun g => g.retire (lbWidth l.words) m.index.toNat (c.sysv rSIGREG) l.remote
    match s.findRun m.field m.run with
    | none => s
    | some lb =>
      if lb.differs m.index.toNat then s.kernelFault m.field m.run cDUPMIS 0
      else if lb.finished then s.endRun m.field lb
      else s

/-- Launch blocks whose members are all RETIRED and whose change over has waited retire (R259, R343). -/
def State.retireWaiting (s : State) (f : Nat) : State :=
  ((s.field f).lbs.filter fun lb => lb.writeSet != [] && lb.finished).foldl (fun s lb => s.endRun f lb) s

/-- MEMBER_RETIRE: an EXITING context's namings are handed off after its other effects; once they are placed, the member is RETIRED. -/
def execMemberRetire (core slot : Nat) (s : State) : Host.Outcome State Fault Refusal :=
  let j : Fin 4 := ⟨slot % 4, Nat.mod_lt _ (by decide)⟩
  let c := s.ctxAt core j
  if c.state ≠ .exiting ∨ !c.handedOff then s.done
  else
    match c.member with
    | none => (s.retireMember core j).done
    | some m =>
      if m.names ≠ [] then (s.handNames core j m).done
      else if s.namesPending m.field (.exit core j) ∨ s.marksPending c.ident then s.done
      else (s.retireMember core j).done

/-! ## Pre-emption by the Thresher (R327) -/

/-- Images of a queue in use: by saved members, and by requests not yet acted on. -/
def State.imagesUsed (s : State) (f : Nat) (q : Fin 64) : List Nat :=
  (s.queue f q).saved.map SavedMember.image ++ s.liveCores.flatMap fun k => (s.core k).ctx.toList.filterMap fun c => match c.save with
    | some r => match r.home with
      | some (g, x, va) => if g = f ∧ x = q then some va else none
      | none => none
    | none => none

/-- The first free image of a queue. -/
def State.freeImage (s : State) (f : Nat) (q : Fin 64) : Option Nat :=
  let d := (s.queue f q).desc
  ((List.range (qdSaven d)).map fun i => qdSavebase d + 8192 * i).find? fun a => !(s.imagesUsed f q).contains a

/-- Requests that a Thresher has made and that have not been acted on. -/
def State.savesComing (s : State) (f : Nat) : Nat :=
  (s.liveCores.map fun k => ((s.core k).ctx.toList.filter fun c => match c.save with
    | some r => (match r.home with
      | some (g, _, _) => g == f
      | none => false)
    | none => false).length).sum

/-- Resident members that a head of some rank may pre-empt: slot, rank of their queue, and number. -/
def State.victims (s : State) (f rank : Nat) : List (Nat × Fin 4 × Nat × Nat) :=
  s.liveCores.flatMap fun k => (List.finRange 4).filterMap fun j =>
    let c := s.ctxAt k j
    match c.member with
    | none => none
    | some m =>
      let r := qdRank (s.queue f m.queue).desc
      let runs := c.state == .ready || c.state == .running || c.state == .yielded || c.state == .stalled
      if m.field = f ∧ runs ∧ c.save.isNone ∧ r < rank ∧ (s.freeImage f m.queue).isSome then some (k, j, r, c.ident) else none

/-- The victim that R327 chooses: the lowest rank, then the most recently dispatched. -/
def chooseVictim : List (Nat × Fin 4 × Nat × Nat) → Option (Nat × Fin 4 × Nat × Nat)
  | [] => none
  | x :: xs =>
    match chooseVictim xs with
    | none => some x
    | some y => some (if y.2.2.1 < x.2.2.1 ∨ (y.2.2.1 = x.2.2.1 ∧ x.2.2.2 < y.2.2.2) then y else x)

/-- The rank and need of the first PRE queue whose head is READY and does not fit. -/
def State.starved (s : State) (f : Nat) : Option (Nat × Nat) :=
  ranks.findSome? fun r => (s.rankOrder f r).findSome? fun q =>
    if !qdPre (s.queue f q).desc then none
    else
      match s.readyHead f q with
      | none => none
      | some lb => if s.fits f lb then none else some (r, (if lbGang lb.words then lb.left else 1) - s.roomFor f lb)

/-- A page of an image, translated for writing under a queue's KID. -/
def State.queuePage (s : State) (who : Who) (va : Nat) : Option (Trans × State) :=
  let s := match s.translate who .write va with
    | .copy e => s.ckptCopy e
    | _ => s
  match s.translate who .write va with
  | .ok t _ => some (t, s)
  | _ => none

/-- THRESHER_SAVE_REQUEST: the member that R327 chooses is to be saved, while fewer requests are pending than the head needs. -/
def execThresherSaveRequest (field core slot : Nat) (s : State) : Host.Outcome State Fault Refusal :=
  let j : Fin 4 := ⟨slot % 4, Nat.mod_lt _ (by decide)⟩
  match s.starved field with
  | none => s.done
  | some (rank, need) =>
    match chooseVictim (s.victims field rank), (s.ctxAt core j).member with
    | some (k, i, _, _), some m =>
      if k ≠ core ∨ i ≠ j ∨ need ≤ s.savesComing field then s.done
      else
        match s.freeImage field m.queue with
        | none => s.done
        | some va =>
          let who := (s.queue field m.queue).who
          match s.queuePage who va with
          | none => s.done
          | some (p0, s) =>
            match s.queuePage who (va + 4096) with
            | none => s.done
            | some (p1, s) => (s.modCtx core j fun c => { c with save := some ⟨p0, p1, some (field, m.queue, va), 0, va⟩ }).done
    | _, _ => s.done

/-- THRESHER_REDISPATCH: the queue's oldest saved member is restored into a slot that can take it, with the effect of ctxrest (R304): a FREE slot
that is lent to no BLEND member, the slots of every bank that the image owns being FREE too (R312). An image that ctxrest would refuse is not
restored. -/
def execThresherRedispatch (field q core slot : Nat) (s : State) : Host.Outcome State Fault Refusal :=
  let i := queueNum q
  let j : Fin 4 := ⟨slot % 4, Nat.mod_lt _ (by decide)⟩
  let x := s.queue field i
  match x.saved with
  | [] => s.done
  | m :: rest =>
    match s.vaWords (superWho m.kid) m.image 1024 with
    | .error _ => s.done
    | .ok ws =>
      let z := s.unseal ws
      let words := match z.member with
        | some y => (s.findRun y.field y.run).map fun l => (l.words, copyField y.field y.twin, if y.twin then l.home2 else l.home)
        | none => none
      let free := decide (core < numCores) && !isControl core && ((List.finRange 4).all fun b =>
        !(b == j || imageOwns ws b) || ((s.ctxAt core b).state == .free && (s.core core).banks[b].owner.isNone))
      let allowed := match words with
        | some (w, f, home) => inDomain w f core home && s.coreTakes core (lbYoke w)
        | none => fieldOf core == field && s.coreTakes core false
      if !imageOk ws ∨ !free ∨ !allowed then s.done
      else
        let s := ((s.meetVa (superWho m.kid) m.image 8192).modQueue field i fun y => { y with saved := rest }).closeQueue field i
        let lock := match words with
          | some (w, _, _) => lbYoke w
          | none => false
        ((s.installImage core j ws z).modCore core fun c => { c with locked := c.locked || lock }).done

end Sys2Proof.Machine
end

