-- ==== Sys2Proof/Machine/Cycle.lean ====
section
/-! DEFINITION. The passing of one cycle (R4): what counts cycles, the moves of a Loft, and the events that a cycle may not pass over (R161,
R168, R201, R210, R211, R287, R299, R328). -/

namespace Sys2Proof.Machine

/-! ## Events that are due -/

/-- A core has an event whose cycle a rule fixes and that is due; a push of a scratchpad load's data, or of data at hand, performs in its cycle
(R140, R225). -/
def Core.overdue (c : Core) (now : Nat) : Bool :=
  (match c.move with
   | some m => decide (m.ends ≤ now)
   | none => false) ||
  (c.ctx.toList.any fun x => x.flights.any fun f => f.kind == .fixed && decide (f.ready ≤ now) && x.pushTurn f) ||
  (c.calls.any fun m => m.macs.any fun t => decide (t.land ≤ now)) ||
  (match c.clearing with
   | some (_, _, e) => decide (e ≤ now)
   | none => false)

/-- A slot of a multicast ring that a context published has all its copies (R201). -/
def RingEntry.overdue (e : RingEntry) (now : Nat) : Bool :=
  e.ready && e.desc.mcast && e.producer.isSome && e.slots.any fun x => x.2.state == .filling && decide (x.2.visible ≤ now)

/-- Queues of a field that are full with an arrival waiting (R325, R328). -/
def State.stuckQueues (s : State) (f : Nat) : List (Fin 64) :=
  (List.finRange 64).filter fun q => s.queueFull f q && s.waiting f q != 0

/-- A field that has been stuck for 4,096 cycles takes a step of R328. -/
def Field.overdue (f : Field) : Bool := decide (4096 ≤ f.stuck)

/-! ## What a cycle counts -/

/-- A cycle of a core: REM falls while a context holds the core, and the RUNNING context counts (R287, R299). -/
def Core.cycle (c : Core) : Core :=
  match c.running with
  | none => c
  | some j =>
    let x := c.ctx[j]
    { c with rem := c.rem - 1, ctx := c.ctx.set j { x with running := x.running + 1 } }

/-- The Loft step that starts to move in this cycle, with none in motion (R210). A shrink that the floor comes to hold does not go on, and its
step stays scratch (R211; log 86). -/
def Core.nextMove (c : Core) (floor now : Nat) : Option LoftMove :=
  match c.move with
  | some m => if !m.grow && c.scr ≤ floor then none else some m
  | none =>
    if c.scr < c.target then some ⟨true, c.scr, now + 1024⟩
    else if max c.target floor < c.scr then some ⟨false, c.scr - 1, now + 64⟩
    else none

/-- A cycle of a core with its Loft, its calls and the late writes of its engine commands (R168, R210, R239). -/
def State.coreCycle (s : State) (k : Nat) : State :=
  let floor := s.loftFloor k
  let s := (s.landOne k).modCore k fun c => { c.cycle with move := c.nextMove floor s.now }
  s.completeCalls k

/-- A field counts the cycles in which no general core of it has issued and an arrival waits at a full queue (R328). -/
def State.fieldCycle (s : State) (f : Nat) : State :=
  let issued := s.cores.any fun x => fieldOf x.1 == f && !isControl x.1 && x.2.issued == s.now
  let n := if issued ∨ (s.stuckQueues f).isEmpty then 0 else (s.field f).stuck + 1
  if n = (s.field f).stuck then s else s.modField f fun x => { x with stuck := n }

/-- The yoke compares the signatures of a context's bundles that the shadow has issued by now; the first that differ raise YOKEMIS, and the shadow
issues none of the discarded ones behind it (R407, R409). -/
def State.compareSigs (s : State) (k : Nat) (j : Fin 4) : State :=
  let c := s.ctxAt k j
  let past := c.sigs.filter fun x => x.due ≤ s.now
  if past = [] then s
  else
    match past.find? fun x => x.primary != x.shadow with
    | some x => (s.modCtx k j fun c => { c with sigs := [] }).trapAt k j cYOKEMIS (info47 0 x.addr) true
    | none => s.modCtx k j fun c => { c with sigs := c.sigs.filter fun x => !(x.due ≤ s.now) }

/-- What a locked yoke does as a cycle begins. -/
def State.yokeCycle (s : State) (k : Nat) : State := (List.finRange 4).foldl (fun s j => s.compareSigs k j) s

/-- One cycle passes, unless an event is due that it may not pass over. In fatal error, and before boot ends, it moves no agent of the fields (R416,
R423). -/
def State.tick (s : State) : State :=
  if !s.awake then { s with now := s.now + 1, rows := [] }
  else if s.cores.any (fun x => x.2.overdue s.now) || s.sheaves.any (fun x => x.2.rings.any fun e => e.2.overdue s.now) ||
      s.fields.any (fun x => x.2.overdue) then s
  else
    let s := (tkeys s.fields).foldl (fun s f => ((s.fieldCycle f).retireWaiting f).holdRanks f) s
    let s := s.liveCores.foldl State.coreCycle s
    s.liveCores.foldl State.yokeCycle { s with now := s.now + 1, rows := [] }

end Sys2Proof.Machine
end

