-- ==== Sys2Proof/Machine/EngineCmd.lean ====
section
/-! DEFINITION. The class ENG at issue: command blocks, their checks, handles and the deferred command (08_ring.md R202, 10_line.md R239,
11_page.md R256, R257, R261, 20_link.md R396 to R398). -/

namespace Sys2Proof.Machine

/-! ## Handles (R256, R257) -/

/-- The entry of a handle operand, as its four words; none from HCNT on. -/
def State.handleWords (s : State) (kid : BitVec 8) (h : Word) : Option (List Word) :=
  let i := h.toNat / 2 ^ 44
  let e := s.kidEntry kid
  if e.hcnt.toNat ≤ i then none else some (s.physWords (e.htab.toNat + 32 * i) 4)

/-- The Cribs meet the reads of a handle's entry (R219). -/
def State.meetHandle (s : State) (kid : BitVec 8) (h : Word) (handle : Bool) : State :=
  if handle && decide (h.toNat / 2 ^ 44 < (s.kidEntry kid).hcnt.toNat) then s.meetPhys ((s.kidEntry kid).htab.toNat + 32 * (h.toNat / 2 ^ 44)) 32 else s

/-- The entry is valid and of the handle's generation. -/
def handleLive (h : Word) (ws : List Word) : Bool := recBits ws 140 140 == 1 && recBits ws 139 128 == h.toNat / 2 ^ 32 % 4096

/-- A handle operand that its check at issue refuses: an extent of bytes, and whether it is written. -/
def State.handleBad (s : State) (kid : BitVec 8) (h : Word) (extent : Nat) (write : Bool) : Bool :=
  match s.handleWords kid h with
  | none => true
  | some ws => !handleLive h ws || decide (recBits ws 95 64 < h.toNat % 2 ^ 32 + extent) || (write && recBits ws 141 141 == 0)

/-! ## Blocks -/

/-- Fields of a memory command's block (R261). -/
def cbDh (b : List Word) : Bool := recBits b 449 449 == 1
def cbSh (b : List Word) : Bool := recBits b 448 448 == 1
def cbCount (b : List Word) : Nat := recBits b 255 224
def cbLen (b : List Word) : Nat := recBits b 223 192
def cbIdx (b : List Word) : Nat := recBits b 191 128
def cbDst (b : List Word) : Word := wordAt b 1
def cbSrc (b : List Word) : Word := wordAt b 0

/-- Fields of a stream's block (R202). -/
def sbEosf (b : List Word) : Bool := recBits b 456 456 == 1
def sbRid (b : List Word) : Fin 64 := ⟨recBits b 453 448 % 64, Nat.mod_lt _ (by decide)⟩
def sbCount (b : List Word) : Nat := recBits b 447 416
def sbBytes (b : List Word) : Nat := recBits b 415 384
def sbStride (b : List Word) : Int := (wordAt b 5).toInt
def sbAddr (b : List Word) : Nat := recBits b 55 0

/-- Fields of an ehalo or ered block (R397, R398). -/
def gbTag (b : List Word) : Nat := recBits b 511 496
def gbPeer (b : List Word) : Nat := recBits b 495 483
def gbOp (b : List Word) : Nat := recBits b 495 492
def gbDst (b : List Word) : Nat := recBits b 119 64
def gbSrc (b : List Word) : Nat := recBits b 55 0
def hbCount (b : List Word) : Nat := recBits b 447 416
def hbLen (b : List Word) : Nat := recBits b 415 384
def hbSstr (b : List Word) : Int := (BitVec.ofNat 32 (recBits b 383 352)).toInt
def hbDstr (b : List Word) : Int := (BitVec.ofNat 32 (recBits b 351 320)).toInt
def rbCount (b : List Word) : Nat := recBits b 479 448

/-- What every memory command's block must meet (R261). -/
def copyBlockBad (b : List Word) : Bool :=
  recBits b 511 450 != 0 || recBits b 447 256 != 0 || cbLen b == 0 || cbLen b % 8 != 0 || (!cbSh b && (cbSrc b).toNat % 8 != 0) ||
  (!cbDh b && (cbDst b).toNat % 8 != 0)

/-- COUNT and IDX of an indexed form (R261; log 11). -/
def indexBad (b : List Word) : Bool := cbCount b == 0 || decide (2 ^ 24 < cbCount b) || cbIdx b % 4 != 0

/-- The block of an eckpt or erolb (R261; log 11). -/
def pagesBad (b : List Word) : Bool :=
  copyBlockBad b || cbSh b || cbDh b || cbDst b != 0 || (cbSrc b).toNat % 4096 != 0 || cbLen b % 4096 != 0 || cbCount b != 0 || cbIdx b != 0

/-- The layout of an ehalo block (R397). -/
def haloBad (b : List Word) : Bool :=
  gbPeer b == ownPackage || recBits b 482 448 != 0 || hbCount b == 0 || decide (65536 < hbCount b) || hbLen b == 0 || hbLen b % 8 != 0 ||
  decide (65536 < hbLen b) || recBits b 319 120 != 0 || gbDst b % 8 != 0 || recBits b 63 56 != 0 || gbSrc b % 8 != 0

/-- The layout of an ered block (R398). -/
def reduceBad (b : List Word) : Bool :=
  decide (5 < gbOp b) || recBits b 491 480 != 0 || rbCount b == 0 || decide (2 ^ 24 < rbCount b) || recBits b 447 120 != 0 || gbDst b % 8 != 0 ||
  recBits b 63 56 != 0 || gbSrc b % 8 != 0

/-! ## At issue -/

/-- Reads the 64-byte block at a[55:0] (R202, R261, R396). -/
def State.withBlock (s : State) (c : Src) (f : List Word → State → State) : Host.Outcome State Fault Refusal :=
  match s.readTable (s.src c) 64 8 with
  | (.trap v, s) => (s.raise v.cause v.info).done
  | (.wait, s) => s.wait.done
  | (.ok ws, s) => (f ws s).done

/-- The command is deferred to the commit of its region (R225, R261). -/
def State.sendEngine (s : State) (kind : CmdKind) (tok : Fin 64) (a l : Bool) (scope : Scope) (b : List Word) : State :=
  let dup := match s.cur.member with
    | some m => if m.dup then some (m.field, m.run) else none
    | none => none
  s.defer (.engine ⟨kind, tok, a, l, scope, s.cur.kid, s.cur.super, dup, b, 0⟩)

/-- A copy, gather or scatter whose block passed its checks: its handles (R257). -/
def State.sendCopy (s : State) (kind : CmdKind) (srcExtent dstExtent : Nat) (tok : Fin 64) (a l : Bool) (scope : Scope) (b : List Word) : State :=
  if (cbSh b && s.handleBad s.cur.kid (cbSrc b) srcExtent false) || (cbDh b && s.handleBad s.cur.kid (cbDst b) dstExtent true)
  then s.raise47 cHANDLE
  else ((s.meetHandle s.cur.kid (cbSrc b) (cbSh b)).meetHandle s.cur.kid (cbDst b) (cbDh b)).sendEngine kind tok a l scope b

def execEcopy (a l : Bool) (x : Scope) (c : Src) (t : Fin 64) (s : State) : Host.Outcome State Fault Refusal :=
  s.withBlock c fun b s =>
    if copyBlockBad b || cbCount b != 0 || cbIdx b != 0 then s.illop else s.sendCopy .copy (cbLen b) (cbLen b) t a l x b

def execEgath (a l : Bool) (x : Scope) (c : Src) (t : Fin 64) (s : State) : Host.Outcome State Fault Refusal :=
  s.withBlock c fun b s => if copyBlockBad b || indexBad b then s.illop else s.sendCopy .gath 0 (cbCount b * cbLen b) t a l x b

def execEscat (a l : Bool) (x : Scope) (c : Src) (t : Fin 64) (s : State) : Host.Outcome State Fault Refusal :=
  s.withBlock c fun b s => if copyBlockBad b || indexBad b then s.illop else s.sendCopy .scat (cbCount b * cbLen b) 0 t a l x b

def execEckpt (a l : Bool) (x : Scope) (c : Src) (t : Fin 64) (s : State) : Host.Outcome State Fault Refusal :=
  s.withBlock c fun b s => if pagesBad b then s.illop else s.sendEngine .ckpt t a l x b

def execErolb (a l : Bool) (x : Scope) (c : Src) (t : Fin 64) (s : State) : Host.Outcome State Fault Refusal :=
  s.withBlock c fun b s => if pagesBad b then s.illop else s.sendEngine .rolb t a l x b

/-- esubs: what is wrong with its block shows in the token (R203). -/
def execEsubs (a l : Bool) (x : Scope) (c : Src) (t : Fin 64) (s : State) : Host.Outcome State Fault Refusal :=
  s.withBlock c fun b s => s.sendEngine .subs t a l x b

def execEcoll (a l : Bool) (x : Scope) (c : Src) (t : Fin 64) (s : State) : Host.Outcome State Fault Refusal :=
  s.withBlock c fun b s => s.sendEngine .coll t a l x b

/-- DOMAIN.LEVEL of the issuing context is SYS (R396). -/
def State.levelSys (s : State) : Bool := (s.getSys rDOMAIN).extractLsb' 0 3 == 4#3

def execEhalo (a l : Bool) (c : Src) (t : Fin 64) (s : State) : Host.Outcome State Fault Refusal :=
  if !s.levelSys then s.illop.done else s.withBlock c fun b s => if haloBad b then s.illop else s.sendEngine .halo t a l .sys b

def execEred (a l : Bool) (c : Src) (t : Fin 64) (s : State) : Host.Outcome State Fault Refusal :=
  if !s.levelSys then s.illop.done else s.withBlock c fun b s => if reduceBad b then s.illop else s.sendEngine .red t a l .sys b

end Sys2Proof.Machine
end

