-- ==== Sys2Proof/Machine/Engines.lean ====
section
/-! DEFINITION. The engines of a field and the Gleaners of its stacks: how a command starts and moves its data (08_ring.md R202, R203,
10_line.md R239, 11_page.md R257 to R263, 20_link.md R397 to R399). -/

namespace Sys2Proof.Machine

/-! ## Memory as an engine sees it -/

/-- Who an engine is to translation: the issuing context (R247, R259). -/
def EngineCmd.who (c : EngineCmd) : Who := ⟨c.kid, c.super, c.dup.isSome⟩

/-- TRAPINFO of a fault of an engine's access: as R249 gives it, or a breach's code (R405). -/
def State.engineFault (s : State) (x : Cause × Nat) : TrapVal := ⟨x.1, s.accessInfo x.1 0 5 x.2 false⟩

/-- Adds the pages of a DUP member's write to its launch's write set (R259): the page that does not fit, or the machine with them. -/
def State.noteWrites (s : State) (c : EngineCmd) (va n : Nat) : Except (Cause × Nat) State :=
  match c.dup with
  | none => .ok s
  | some (f, run) =>
    (pieces n va n).foldlM (init := s) fun s am =>
      match s.findRun f run, s.translate c.who .write am.1 with
      | some lb, .ok _ e =>
        if ptePr e.leaf ≠ 1 ∨ (lb.writeSet.any fun x => x.1 == e.base / 4096) then Except.ok s
        else if 4096 ≤ lb.writeSet.length then Except.error (cDUPMIS, e.base)
        else Except.ok (s.modRun f run fun l => { l with writeSet := l.writeSet ++ [(e.base / 4096, e.entry)] })
      | _, _ => Except.ok s

/-- Writes of a command leave for their homes: each becomes visible in its own time (R227, R239). -/
def State.sendWrites (s : State) (core ident : Nat) (tok : Fin 64) (ws : List LateWrite) : State :=
  s.modCore core fun c => { c with late := c.late ++ ws.map fun x => { x with ident := ident, tok := tok } }

/-- An engine writes bytes: all of them, or none and the cause (R239). -/
def State.engineWrite (s : State) (core ident : Nat) (c : EngineCmd) (va : Nat) (bs : List Byte) : Except (Cause × Nat) State := do
  let s ← s.noteWrites c va bs.length
  (s.vaPlaces c.who va bs).map fun (x : State × List LateWrite) => x.1.sendWrites core ident c.tok x.2

/-! ## Engine runs -/

/-- Parameter word 0 of a member's SYS group; zero for a context in no launch block (R337). -/
def Context.sysw (c : Context) : Word :=
  match c.member with
  | some m => m.sysw
  | none => 0

/-- Finds a run of a field. -/
def State.engineRun (s : State) (f id : Nat) : Option EngineRun := (s.field f).engines.find? fun r => r.id == id

/-- Changes a run. -/
def State.modEngine (s : State) (f id : Nat) (g : EngineRun → EngineRun) : State :=
  s.modField f fun fd => { fd with engines := fd.engines.map fun r => if r.id = id then g r else r }

/-- A command stops with a status. -/
def State.stopEngine (s : State) (f id : Nat) (st : Status) (v : TrapVal) : State := s.modEngine f id fun r => { r with status := some (st, v) }

/-- An operand of a memory command: its base address and, for a handle, the bytes its buffer holds from the offset on (R256, R257). None
where the handle has been freed. -/
def State.operand (s : State) (kid : BitVec 8) (h : Word) (handle : Bool) : Option (Nat × Option Nat) :=
  if handle then
    match s.handleWords kid h with
    | some ws =>
      if handleLive h ws then some ((recBits ws 63 0 + h.toNat % 2 ^ 32) % 2 ^ 64, some (recBits ws 95 64 - h.toNat % 2 ^ 32)) else none
    | none => none
  else some (h.toNat, none)

/-- An address within an operand, and whether the bytes there lie in its buffer (R263). -/
def operandAt (o : Nat × Option Nat) (off n : Nat) : Nat × Bool :=
  ((o.1 + off) % 2 ^ 64, match o.2 with
    | some len => decide (off + n ≤ len)
    | none => true)

/-- Elements of a copy, gather or scatter. -/
def EngineCmd.elements (c : EngineCmd) : Nat :=
  match c.kind with
  | .gath => cbCount c.block
  | .scat => cbCount c.block
  | _ => 1

/-- The index of an element, read from the index array (R262). -/
def State.indexOf (s : State) (c : EngineCmd) (i : Nat) : Except (Cause × Nat) Nat :=
  (s.vaRead c.who ((cbIdx c.block + 4 * i) % 2 ^ 64) 4).map leNat

/-- The Cribs meet what the start of a chunk reads: the entries of its handles, its index, and the walk of its source (R219). -/
def State.meetChunk (s : State) (c : EngineCmd) (i src : Nat) : State :=
  let s := (s.meetHandle c.kid (cbSrc c.block) (cbSh c.block)).meetHandle c.kid (cbDst c.block) (cbDh c.block)
  let s := if c.kind = .copy then s else s.meetVa c.who ((cbIdx c.block + 4 * i) % 2 ^ 64) 4
  s.meetWalk c.kid src

/-- Splits n bytes from an address at granule boundaries: address and length of each piece (R227). -/
def grains : Nat → Nat → Nat → List (Nat × Nat)
  | 0, _, _ => []
  | fuel + 1, a, n => if n = 0 then [] else (a, min n (8 - a % 8)) :: grains fuel (a + min n (8 - a % 8)) (n - min n (8 - a % 8))

/-- The granules of n bytes to be read by virtual address: offset, place, length and address of each, or the first that cannot be. -/
def State.vaSources (s : State) (w : Who) (va n : Nat) : Except (Cause × Nat) (List (Nat × Trans × Nat × Nat)) :=
  (grains n va n).mapM fun x => match s.translate w .read x.1 with
    | .ok t _ => Except.ok (x.1 - va, t, x.2, x.1)
    | .fault c => Except.error (c, x.1)
    | .copy _ => Except.error (cPPROT, x.1)

/-- What stops a read at a place translated earlier: its KID is DEAD, the guest in quarantine, or its line in error (R226, R255, R405, R411). -/
def State.readError (s : State) (t : Trans) : Option Cause :=
  if t.place = .phys ∧ (s.kidEntry t.kid).state = .dead then some cKEYDEAD
  else if t.place = .phys ∧ s.paKind t.addr = .guest ∧ s.guest.breach.isSome then some cGUEST
  else s.lineError t

/-- Granules of a chunk are read into its bytes. -/
def State.readGrains (s : State) : List (Nat × Trans × Nat × Nat) → List Byte → Except (Cause × Nat) (List Byte)
  | [], bs => .ok bs
  | (o, t, m, va) :: xs, bs =>
    match s.readError t with
    | some c => .error (c, va)
    | none => s.readGrains xs (bs.take o ++ ((lineBytes (s.readHome t)).drop (t.addr % 64)).take m ++ bs.drop (o + m))

/-- The bytes that late writes carry, in the order of their addresses. -/
def fillWrites : List LateWrite → List Byte → List LateWrite
  | [], _ => []
  | x :: xs, bs =>
    let n := ((List.range 64).filter fun i => x.mask.getLsbD i).length
    { x with data := placeBytes (x.attr.addr % 64) (bs.take n) } :: fillWrites xs (bs.drop n)

/-- A first write to a CLEAN page among n bytes at an address, whose copy the drop of the page's translations holds up (R258, R260). -/
def State.copyHeld (s : State) (w : Who) (va n : Nat) : Option TlbEntry :=
  (pieces n va n).findSome? fun x => match s.translate w .write x.1 with
    | .copy e => if s.guestHolds e.covers || !s.dropDone e.kid e.covers then some e else none
    | _ => none

/-- The next chunk of a copy, gather or scatter starts: bytes up to the next 4 KiB boundary of the destination, handles and addresses checked
(R262). DESIGN CHOICE: a handle of the same generation whose LEN has shrunk below the chunk ends the command with PPROT, indexed or not (R257, R263;
log 97). -/
def State.startChunk (s : State) (f : Nat) (r : EngineRun) : State :=
  let c := r.cmd
  let b := c.block
  let n := cbLen b
  let i := r.done / n
  let off := r.done % n
  match s.operand c.kid (cbSrc b) (cbSh b), s.operand c.kid (cbDst b) (cbDh b) with
  | some src, some dst =>
    let idx : Except (Cause × Nat) (Nat × Nat) := match c.kind with
      | .gath => (s.indexOf c i).map fun x => (x * n, i * n)
      | .scat => (s.indexOf c i).map fun x => (i * n, x * n)
      | _ => .ok (0, 0)
    match idx with
    | .error e => s.stopEngine f r.id .fault (s.engineFault e)
    | .ok (so, d) =>
      let (sa, sok) := operandAt src so n
      let (da, dok) := operandAt dst d n
      if !sok then s.stopEngine f r.id .fault (s.engineFault (cPPROT, sa))
      else if !dok then s.stopEngine f r.id .fault (s.engineFault (cPPROT, da))
      else
        let a := (da + off) % 2 ^ 64
        let b := (sa + off) % 2 ^ 64
        let m := min (n - off) (4096 - a % 4096)
        match s.copyHeld c.who a m with
        | some e => s.dropGuest e.covers
        | none =>
        let s := s.meetChunk c i b
        let start : Except (Cause × Nat) (State × EngineChunk) := do
          let srcs ← s.vaSources c.who b m
          let s ← s.noteWrites c a m
          let (s, ws) ← s.vaPlaces c.who a (List.replicate m 0)
          return (s, ⟨srcs, List.replicate m 0, ws, [a / 4096, b / 4096, (b + m - 1) / 4096], c.kid⟩)
        match start with
        | .error e => s.stopEngine f r.id .fault (s.engineFault e)
        | .ok (s, x) => s.modEngine f r.id fun r => { r with part := some x }
  | _, _ => s.stopEngine f r.id .stale ⟨cHANDLE, 0⟩

/-- A chunk in motion: granules of it that a run picks are read; with none left to read its writes leave (R227, R239, R262). -/
def State.moveChunk (s : State) (f : Nat) (r : EngineRun) (x : EngineChunk) : State :=
  let i := (Config.pickPair s.draws 0).1 % x.left.length
  let xs := (x.left.drop i).take ((Config.pickPair s.draws 0).2 + 1)
  let left := x.left.take i ++ (x.left.drop i).drop ((Config.pickPair s.draws 0).2 + 1)
  match s.readGrains xs x.bytes with
  | .error e => s.stopEngine f r.id .fault (s.engineFault e)
  | .ok bs =>
    let s := xs.foldl (fun s y => if y.1 = 0 ∨ y.2.1.addr % 64 = 0 then s.meet y.2.1 else s) s.drawn
    if left.isEmpty then
      let n := r.done + bs.length
      let all := r.cmd.elements * cbLen r.cmd.block
      (s.sendWrites r.core r.ident r.cmd.tok (fillWrites x.writes bs)).modEngine f r.id fun r =>
        { r with done := n, part := none, status := if n = all then some (.ok, ⟨0, 0⟩) else none }
    else s.modEngine f r.id fun r => { r with part := some { x with left := left, bytes := bs } }

/-- The next move of a copy, gather or scatter. -/
def State.copyChunk (s : State) (f : Nat) (r : EngineRun) : State :=
  match r.part with
  | none => s.startChunk f r
  | some x => s.moveChunk f r x

/-- The next page of an eckpt or erolb (R260, R262). -/
def State.pageChunk (s : State) (f : Nat) (r : EngineRun) : State :=
  let c := r.cmd
  let va := ((cbSrc c.block).toNat + r.done) % 2 ^ 64
  match s.translate c.who .read va with
  | .ok _ e =>
    if ptePr e.leaf < 2 then s.stopEngine f r.id .fault (s.engineFault (cPPROT, va))
    else if ptePr e.leaf = 2 ∧ s.guestHolds e.covers then s.dropGuest e.covers
    else if ptePr e.leaf = 2 ∧ !s.dropDone e.kid e.covers then s
    else
      let s := if ptePr e.leaf = 2 then
          let s := (s.dropPage e).performAll
          if c.kind = .ckpt then s.ckptClean e else s.ckptBack e
        else s
      s.modEngine f r.id fun r =>
        { r with done := r.done + 4096, status := if r.done + 4096 = cbLen c.block then some (.ok, ⟨0, 0⟩) else none }
  | .fault x => s.stopEngine f r.id .fault (s.engineFault (x, va))
  | .copy _ => s.stopEngine f r.id .fault (s.engineFault (cPPROT, va))

/-- The package that an exchange's packets go to first, and their class (R391, R397). -/
def EngineRun.dest (r : EngineRun) : Nat := if r.cmd.kind = .halo then gbPeer r.cmd.block else Config.peerOf r.id % 8191 + 1
def EngineRun.cls (r : EngineRun) : Nat := if r.cmd.kind = .halo then 0 else 1

/-- A round of one package: nothing of it travels (R398). -/
def EngineRun.alone (r : EngineRun) : Bool := r.cmd.kind == .red && r.npkg == 1

/-- An exchange goes out to its peers; a round of one package needs none (R389, R398). -/
def State.postExchange (s : State) (f : Nat) (r : EngineRun) : State :=
  if r.posted then s
  else (if r.alone then s else s.sendPacket r.dest r.cls (some r.id) []).modEngine f r.id fun r => { r with posted := true }

/-- ENGINE_CHUNK: a running memory command moves its next chunk, and an exchange goes out to its peers. -/
def execEngineChunk (field cmd : Nat) (s : State) : Host.Outcome State Fault Refusal :=
  match s.engineRun field cmd with
  | none => s.done
  | some r =>
    if r.status.isSome then s.done
    else
      match r.cmd.kind with
      | .ckpt => (s.pageChunk field r).done
      | .rolb => (s.pageChunk field r).done
      | .copy => (s.copyChunk field r).done
      | .gath => (s.copyChunk field r).done
      | .scat => (s.copyChunk field r).done
      | .halo => (s.postExchange field r).done
      | .red => (s.postExchange field r).done
      | _ => s.done

/-- TRAPINFO of a LOST token: the peer, or 0x1FFF (R399). -/
def EngineCmd.lostTrap (c : EngineCmd) : TrapVal :=
  ⟨cPOISON, if c.kind = .halo then BitVec.ofNat 64 (gbPeer c.block) else 0x1FFF#64⟩

/-- Packets of a command are before a link, in flight, or lost with their link and not accounted for yet: its SRC has not been delivered (R399). -/
def State.unsent (s : State) (id : Nat) : Bool :=
  s.links.any fun x => (x.2.queue ++ x.2.flits ++ x.2.lost).any fun f => f.owner == some id && f.cls.toNat < 2

/-- An exchange has found no match within 2^32 cycles of the commit that sent it (R399). -/
def EngineRun.expired (r : EngineRun) (now : Nat) : Bool := !r.alone && decide (r.sent + 2 ^ 32 ≤ now)

/-- ENGINE_TOKEN_COMPLETE: a command that has stopped sets its token DONE, an exchange that ends well once its SRC has been delivered; one that has
found no match in 2^32 cycles is LOST (R238, R399). -/
def execEngineTokenComplete (field cmd : Nat) (s : State) : Host.Outcome State Fault Refusal :=
  match s.engineRun field cmd with
  | none => s.done
  | some r =>
    let ends := fun (st : Status) (v : TrapVal) =>
      (s.modField field fun fd => { fd with engines := fd.engines.filter fun x => !(x.id == cmd) }).endCommand r.ident r.cmd st v
    match r.status with
    | some (st, v) => if st = .ok ∧ s.unsent cmd then s.done else (ends st v).done
    | none =>
      if (r.cmd.kind = .halo ∨ r.cmd.kind = .red) ∧ !r.matched ∧ r.expired s.now then (ends .lost r.cmd.lostTrap).done else s.done

/-! ## Exchanges with other packages (R397, R398) -/

/-- Every engine run of the package with its field. -/
def State.engineRuns (s : State) : List (Nat × EngineRun) := (List.range 4).flatMap fun f => (s.field f).engines.map fun r => (f, r)

/-- Two commands with their groups that match in commit order: one kind, group and tag, and for ehalo one peer. -/
def sameExchange (a b : EngineCmd × Nat) : Bool :=
  a.1.kind == b.1.kind && a.2 == b.2 && gbTag a.1.block == gbTag b.1.block && (a.1.kind != .halo || gbPeer a.1.block == gbPeer b.1.block)

/-- Commands with their groups that have been committed and not matched: at an engine, or still to be handed to one (R397, R398). -/
def State.unmatched (s : State) : List (EngineCmd × Nat) :=
  (s.engineRuns.filterMap fun x => if x.2.matched then none else some (x.2.cmd, x.2.gnum)) ++
  s.liveCores.flatMap fun k => (List.finRange 4).flatMap fun j => (s.ctxAt k j).outbox.filterMap fun h =>
    match h with
    | .effect (.engine c) => some (c, ((s.ctxAt k j).sysw.extractLsb' 0 12).toNat)
    | _ => none

/-- An unmatched exchange that is the oldest of its kind, group and tag in the order of commits, sent less than 2^32 cycles ago (R397 to R399). -/
def State.oldestExchange (s : State) (kind : CmdKind) (cmd : Nat) : Option (Nat × EngineRun) :=
  match s.engineRuns.find? fun x => x.2.id == cmd && x.2.cmd.kind == kind && !x.2.matched && x.2.status.isNone &&
      x.2.posted && !x.2.expired s.now with
  | none => none
  | some x => if s.unmatched.any fun y => sameExchange (x.2.cmd, x.2.gnum) y && decide (y.1.order < x.2.cmd.order) then none else some x

/-- The Cribs meet the reads of a strided buffer (R219). -/
def State.meetRows (s : State) (c : EngineCmd) (base : Nat) (stride : Int) (len count : Nat) : State :=
  (List.range count).foldl (fun s i => s.meetVa c.who (((base : Int) + i * stride) % (2 ^ 64 : Int)).toNat len) s

/-- A copy that holds up the rows of a strided buffer. -/
def State.rowsHeld (s : State) (c : EngineCmd) (base : Nat) (stride : Int) (len count : Nat) : Option TlbEntry :=
  (List.range count).findSome? fun i => s.copyHeld c.who (((base : Int) + i * stride) % (2 ^ 64 : Int)).toNat len

/-- Reads rows of a strided buffer; the fault of the first that cannot be read. -/
def State.readRows (s : State) (c : EngineCmd) (base : Nat) (stride : Int) (len count : Nat) : Except (Cause × Nat) (List Byte) :=
  (List.range count).foldlM (init := ([] : List Byte)) fun acc i =>
    (s.vaRead c.who (((base : Int) + i * stride) % (2 ^ 64 : Int)).toNat len).map fun bs => acc ++ bs

/-- Writes rows of a strided buffer as far as they can be written. -/
def State.writeRows (core ident : Nat) (c : EngineCmd) (base : Nat) (stride : Int) (len : Nat) : Nat → List Byte → State → State × Option (Cause × Nat)
  | 0, _, s => (s, none)
  | n + 1, bs, s =>
    if bs = [] then (s, none)
    else
      match s.engineWrite core ident c ((base : Int) % (2 ^ 64 : Int)).toNat (bs.take len) with
      | .error e => (s, some e)
      | .ok s => State.writeRows core ident c (((base : Int) + stride) % (2 ^ 64 : Int)).toNat stride len n (bs.drop len) s

/-- HALO_MATCH: the peer's command names this one; its rows arrive, and this side's are delivered, or packets were lost (R397, R399). -/
def execHaloMatch (cmd peerCount peerLen : Nat) (rows : List (BitVec 8)) (delivered : Bool) (s : State) : Host.Outcome State Fault Refusal :=
  match s.oldestExchange .halo cmd with
  | none => s.done
  | some (f, r) =>
    if !s.routeUp r.dest r.cls then s.done
    else
    let b := r.cmd.block
    match s.rowsHeld r.cmd (gbDst b) (hbDstr b) (hbLen b) (hbCount b) with
    | some e => (s.dropGuest e.covers).done
    | none =>
    let s := s.modEngine f cmd fun r => { r with matched := true }
    if peerCount ≠ hbCount b ∨ peerLen ≠ hbLen b then (s.stopEngine f cmd .bad ⟨cILLOP, 0⟩).done
    else
      match s.readRows r.cmd (gbSrc b) (hbSstr b) (hbLen b) (hbCount b) with
      | .error e => (s.stopEngine f cmd .fault (s.engineFault e)).done
      | .ok own =>
        let s := (s.meetRows r.cmd (gbSrc b) (hbSstr b) (hbLen b) (hbCount b)).sendPacket r.dest r.cls (some r.id) own
        let all := hbCount b * hbLen b
        match State.writeRows r.core r.ident r.cmd (gbDst b) (hbDstr b) (hbLen b) (hbCount b) (rows.take all) s with
        | (s, some e) => (s.stopEngine f cmd .fault (s.engineFault e)).done
        | (s, none) =>
          if delivered ∧ all ≤ rows.length then (s.stopEngine f cmd .ok ⟨0, 0⟩).done else (s.stopEngine f cmd .lost r.cmd.lostTrap).done

/-- The 4-byte elements of bytes. -/
def elementsOf (bs : List Byte) : List (BitVec 32) := (List.range (bs.length / 4)).map fun i => BitVec.ofNat 32 (leNat ((bs.drop (4 * i)).take 4))

/-- Adds FP32 contributions pair by pair, in the order that a run picks (R82, R398). -/
def sumPairs (pick : Nat → Nat × Nat) : Nat → List (BitVec 32) → BitVec 32
  | 0, xs => xs.headD 0
  | n + 1, xs =>
    match xs with
    | [] => 0
    | [x] => x
    | _ =>
      let i := (pick n).1 % xs.length
      let rest := xs.eraseIdx i
      let j := (pick n).2 % rest.length
      let v := fAdd fp32 .rne (fp32.unpack (xs.getD i 0).toNat) (fp32.unpack (rest.getD j 0).toNat)
      sumPairs pick n (BitVec.ofNat 32 v.bits :: rest.eraseIdx j)

/-- The larger or smaller of two FP32 values: a NaN gives the canonical NaN, and −0 < +0 (R398). -/
def reduceFloat (larger : Bool) (x y : BitVec 32) : BitVec 32 :=
  let a := fp32.unpack x.toNat
  let b := fp32.unpack y.toNat
  if a.isNan ∨ b.isNan then 0x7FC00000#32 else BitVec.ofNat 32 (fMinMax fp32 larger a b).bits

/-- One element of a reduction (R398). -/
def reduceElement (op : Nat) (pick : Nat → Nat × Nat) (xs : List (BitVec 32)) : BitVec 32 :=
  match op, xs with
  | _, [] => 0
  | 0, xs => sumPairs pick xs.length xs
  | 1, x :: xs => xs.foldl (reduceFloat true) (reduceFloat true x x)
  | 2, x :: xs => xs.foldl (reduceFloat false) (reduceFloat false x x)
  | 3, x :: xs => xs.foldl (· + ·) x
  | 4, x :: xs => xs.foldl (fun a b => if a.slt b then b else a) x
  | _, x :: xs => xs.foldl (fun a b => if a.slt b then a else b) x

/-- REDUCTION_ROUND_MATCH: every package's ered of the round has been committed; each element is computed once (R398). The contribution goes out; the
peers' arrays come from outside, and where one is too short, by lost packets or a peer that faulted, the elements that it gives are written and the
command ends LOST (R399). A round of one package has no peer that could disagree. -/
def execReductionRoundMatch (cmd : Nat) (agree : Bool) (peers : List (List (BitVec 32))) (s : State) : Host.Outcome State Fault Refusal :=
  match s.oldestExchange .red cmd with
  | none => s.done
  | some (f, r) =>
    let b := r.cmd.block
    let n := rbCount b
    let peers := if r.npkg = 1 then [] else peers
    if r.npkg = 0 ∨ (agree ∧ peers.length + 1 ≠ r.npkg) then s.done
    else
      match s.copyHeld r.cmd.who (gbDst b) (4 * n) with
      | some e => (s.dropGuest e.covers).done
      | none =>
      let s := s.modEngine f cmd fun r => { r with matched := true }
      if !agree ∧ r.npkg ≠ 1 then (s.stopEngine f cmd .bad ⟨cILLOP, 0⟩).done
      else
        match s.vaRead r.cmd.who (gbSrc b) (4 * n) with
        | .error e => (s.stopEngine f cmd .fault (s.engineFault e)).done
        | .ok bs =>
          let s := s.meetVa r.cmd.who (gbSrc b) (4 * n)
          let s := if r.alone then s else s.sendPacket r.dest r.cls (some r.id) bs
          let rows := elementsOf bs :: peers
          let arrived := peers.foldl (fun m p => min m p.length) n
          let out := (List.range n).map fun i => reduceElement (gbOp b) (Config.pickPair s.draws) (rows.map fun p => p.getD i 0)
          match State.writeRows r.core r.ident r.cmd (gbDst b) 4 4 n ((out.take arrived).flatMap fun x => leBytes 4 x.toNat) s.drawn with
          | (s, some e) => (s.stopEngine f cmd .fault (s.engineFault e)).done
          | (s, none) => (if n ≤ arrived then s.stopEngine f cmd .ok ⟨0, 0⟩ else s.stopEngine f cmd .lost r.cmd.lostTrap).done

/-! ## Streams (R202, R203) -/

/-- What makes a stream's token BAD (R203). -/
def State.streamBad (s : State) (h : Nat) (c : EngineCmd) : Bool :=
  let b := c.block
  let e := s.ringEntry h (sbRid b).val
  recBits b 495 457 != 0 || recBits b 455 454 != 0 || recBits b 319 56 != 0 || sbBytes b == 0 || sbBytes b % 64 != 0 ||
  !e.ready || decide (e.desc.slotBytes < sbBytes b) || (if c.kind = .subs then !e.desc.prod else !e.desc.cons) ||
  (s.sheaf h).streams.any fun x => x.rid == sbRid b

/-- Replaces the stream on a ring; none removes it. -/
def State.setStream (s : State) (h : Nat) (rid : Fin 64) (x : Option Stream) : State :=
  s.modSheaf h fun y => { y with streams := y.streams.flatMap fun z => if z.rid = rid then x.toList else [z] }

/-- A stream with nothing left to do completes OK. -/
def State.closeStream (s : State) (h : Nat) (x : Stream) : State :=
  let left := x.tile < sbCount x.cmd.block || (x.cmd.kind == .subs && sbEosf x.cmd.block)
  if left then s else (s.setStream h x.rid none).endCommand x.ident x.cmd .ok ⟨0, 0⟩

/-- An engine command takes effect after its region's commit: a stream starts, or an engine takes the command. With A it begins once the
accesses before it have performed: writes of the commands waited on land and dirty lines are written back (R230, R239). -/
def State.startEngine (s : State) (k : Nat) (j : Fin 4) (c : EngineCmd) : State :=
  let s := if c.a then (s.landWaited k).writeBack k else s
  let x := s.ctxAt k j
  let h := sheafOf k
  match c.kind with
  | .subs =>
    if s.streamBad h c then s.completeToken x.ident c.tok .bad ⟨cRINGERR, streamInfo (sbRid c.block) 0⟩
    else
      let t : Stream := ⟨sbRid c.block, c, x.ident, 0, false, false⟩
      (s.modSheaf h fun y => { y with streams := y.streams ++ [t] }).closeStream h t
  | .coll =>
    if s.streamBad h c then s.completeToken x.ident c.tok .bad ⟨cRINGERR, streamInfo (sbRid c.block) 0⟩
    else
      let t : Stream := ⟨sbRid c.block, c, x.ident, 0, false, false⟩
      (s.modSheaf h fun y => { y with streams := y.streams ++ [t] }).closeStream h t
  | _ =>
    let w := x.sysw
    let r : EngineRun := ⟨s.serial, c, k, x.ident, (w.extractLsb' 0 12).toNat, (w.extractLsb' 16 13).toNat, 0, none, none, false, false, s.now⟩
    { s.modField (fieldOf k) fun fd => { fd with engines := fd.engines ++ [r] } with serial := s.serial + 1 }

/-- Finds the stream on a ring. -/
def State.streamOn (s : State) (h rid : Nat) : Option Stream := (s.sheaf h).streams.find? fun x => x.rid.val == rid

/-- The address of a tile. -/
def Stream.tileAddr (x : Stream) : Nat := (((sbAddr x.cmd.block : Nat) : Int) + x.tile * sbStride x.cmd.block) % (2 ^ 64 : Int) |>.toNat

/-- A tile reaches the Loft window (R203). -/
def Stream.inWindow (x : Stream) : Bool :=
  decide (loftBase < x.tileAddr + sbBytes x.cmd.block ∧ x.tileAddr < 2 ^ 56)

/-- A stream's token completes FAULT; at the Loft window TRAPINFO holds kind 5 beside the RID and the tile, and at the guest's window it is the
breach's code (R203, R405, R457). -/
def State.streamFault (s : State) (x : Stream) (c : Cause) : State :=
  let kind : Word := if c = cPPROT ∧ x.inWindow then 5 * 2 ^ 56 else 0
  s.endCommand x.ident x.cmd .fault ⟨c, if c = cGUEST then (s.guest.breach.getD 0).setWidth 64 else streamInfo x.rid x.tile ||| kind⟩

/-- GLEANER_TILE_START: with the next slot FREE, an esubs stream reads its next tile and writes it into every copy of the slot, which is
FILLING; past the last tile it publishes its EOS (R189, R202). -/
def execGleanerTileStart (sheaf rid : Nat) (s : State) : Host.Outcome State Fault Refusal :=
  match s.streamOn sheaf rid with
  | none => s.done
  | some x =>
    let e := s.ringEntry sheaf rid
    let q := e.next
    if x.cmd.kind ≠ .subs ∨ x.filling ∨ x.errEos ∨ !e.freeFor s.now q then s.done
    else if x.tile < sbCount x.cmd.block then
      let s := s.meetVa x.cmd.who x.tileAddr (sbBytes x.cmd.block)
      match s.vaRead x.cmd.who x.tileAddr (sbBytes x.cmd.block) with
      | .error (c, _) => ((s.streamFault x c).setStream sheaf x.rid (some { x with errEos := true })).done
      | .ok bs =>
        let s := s.modRing sheaf rid fun e => e.take q false 0
        let s := (e.copies sheaf).foldl (fun s k => s.loftWrite k (e.desc.slotOff q) bs) s
        (s.setStream sheaf x.rid (some { x with filling := true })).done
    else
      ((s.modRing sheaf rid fun e => (e.take q true 0).fill q true false (s.now + 2)).setStream sheaf x.rid none).completeToken x.ident x.cmd.tok
        .ok ⟨0, 0⟩ |>.done

/-- GLEANER_TILE_COMPLETE: the slot being filled is FULL, visibly from two cycles on (R201). -/
def execGleanerTileComplete (sheaf rid : Nat) (s : State) : Host.Outcome State Fault Refusal :=
  match s.streamOn sheaf rid with
  | none => s.done
  | some x =>
    if !x.filling then s.done
    else
      let y := { x with filling := false, tile := x.tile + 1 }
      (((s.modRing sheaf rid fun e => e.fill (e.next - 1) false false (s.now + 2)).setStream sheaf x.rid (some y)).closeStream sheaf y).done

/-- GLEANER_COLLECT: an ecoll stream writes the oldest slot to memory and releases it; an EOS slot ends it unwritten (R202). -/
def execGleanerCollect (sheaf rid : Nat) (s : State) : Host.Outcome State Fault Refusal :=
  match s.streamOn sheaf rid with
  | none => s.done
  | some x =>
    let e := s.ringEntry sheaf rid
    let q := e.oldest
    let slot := e.slot q
    if x.cmd.kind ≠ .coll ∨ slot.state ≠ .full ∨ !slot.gpend ∨ s.now < slot.visible then s.done
    else
      let freed := fun (s : State) => s.modRing sheaf rid fun e => e.setSlot q ((e.slot q).clear s.now (BitVec.allOnes 32) true)
      if slot.eos then (((freed s).setStream sheaf x.rid none).endCommand x.ident x.cmd .ok ⟨0, 0⟩).done
      else
        let core := match e.producer with
          | some (k, _) => k
          | none => 8 * sheaf
        match s.copyHeld x.cmd.who x.tileAddr (sbBytes x.cmd.block) with
        | some e => (s.dropGuest e.covers).done
        | none =>
        match s.engineWrite core x.ident x.cmd x.tileAddr (s.loftRead core (e.desc.slotOff q) (sbBytes x.cmd.block)) with
        | .error (c, _) => ((s.streamFault x c).setStream sheaf x.rid none).done
        | .ok s =>
          let y := { x with tile := x.tile + 1 }
          (((freed s).setStream sheaf x.rid (some y)).closeStream sheaf y).done

/-- GLEANER_ERROR_EOS: after a fault the next slot that is FREE becomes an EOS slot with ERR (R203). -/
def execGleanerErrorEos (sheaf rid : Nat) (s : State) : Host.Outcome State Fault Refusal :=
  match s.streamOn sheaf rid with
  | none => s.done
  | some x =>
    let e := s.ringEntry sheaf rid
    if !x.errEos ∨ !e.freeFor s.now e.next then s.done
    else ((s.modRing sheaf rid fun e => (e.take e.next true 0).fill e.next true true (s.now + 2)).setStream sheaf x.rid none).done

/-- MULTICAST_COPY_COMPLETE: the producer's bytes are in every other copy, and the slot is FULL (R189, R201). -/
def execMulticastCopyComplete (sheaf rid q : Nat) (s : State) : Host.Outcome State Fault Refusal :=
  let e := s.ringEntry sheaf rid
  let q : BitVec 32 := BitVec.ofNat 32 q
  let slot := e.slot q
  match e.producer with
  | some (k, _) =>
    if !e.ready ∨ !e.desc.mcast ∨ slot.state ≠ .filling ∨ slot.tag ≠ q ∨ s.now < slot.visible then s.done
    else
      let bs := s.loftRead k (e.desc.slotOff q) e.desc.slotBytes
      let s := if slot.eos then s else ((e.copies sheaf).filter (· != k)).foldl (fun s c => s.loftWrite c (e.desc.slotOff q) bs) s
      (s.modRing sheaf rid fun e => e.fill q slot.eos false slot.visible).done
  | none => s.done

end Sys2Proof.Machine
end

