-- ==== Sys2Proof/Machine/Mailbox.lean ====
section
/-! DEFINITION. The Granger's mailboxes and the freeze as operations (20_link.md R389, 22_platform.md R420 to R423). -/

namespace Sys2Proof.Machine

/-! ## The device mailbox (R422) -/

/-- The device mailbox page. -/
def State.devicePage (s : State) : Nat := s.config.dmbxpn * 4096

/-- SEQ of a request word. -/
def requestSeq (w : Word) : BitVec 32 := w.extractLsb' 8 32

/-- Changes the Granger. -/
def State.modGranger (s : State) (f : Granger → Granger) : State := { s with granger := f s.granger }

/-- Writes the response word, after the response data: STATUS and the SEQ served. -/
def State.respondWord (s : State) (status : Nat) (seq : BitVec 32) : State :=
  s.physWrite (s.devicePage + 0xF80) (leBytes 8 (status % 256 + seq.toNat * 256))

/-- The request in service is done; a doorbell written meanwhile is answered with STATUS 3. -/
def State.deviceDone (s : State) (w : Word) (status : Nat) : State :=
  let s := s.respondWord status (requestSeq w)
  let s := match s.granger.late with
    | some seq => s.respondWord 3 seq
    | none => s
  s.modGranger fun g => { g with device := none, late := none }

/-- The doorbell: the request is taken into service, or answered at once where the mailbox does not accept it. -/
def State.ringDevice (s : State) (kid : BitVec 8) : State :=
  let w := s.physWord s.devicePage
  let s := s.meetPhys s.devicePage 8
  let code := (w.extractLsb' 0 8).toNat
  if s.granger.device.isSome then s.modGranger fun g => { g with late := some (requestSeq w) }
  else if w.toNat / 2 ^ 40 ≠ 0 ∨ code = 0 ∨ 8 < code then s.respondWord 1 (requestSeq w)
  else if code < 3 then s.respondWord 2 (requestSeq w)
  else s.modGranger fun g => { g with device := some (w, kid) }

/-- A store that writes the doorbell: an 8-byte strl.pkg of a supervisor-level context. -/
def State.ringsDevice (s : State) (e : StoreEntry) : Bool :=
  e.super && e.strl == some .pkg && e.target.place == .phys && e.target.pkg == ownPackage &&
  e.target.addr / 64 == (s.devicePage + 0xFF8) / 64 && e.mask == byteMask 56 8

/-- The code of the device's request. -/
def State.deviceCode (s : State) : Nat :=
  match s.granger.device with
  | some (w, _) => (w.extractLsb' 0 8).toNat
  | none => 0

/-! ## The host's mailbox (R420) -/

/-- The physical address of the host's request page, where the host window holds it (R393). -/
def State.hostPage (s : State) : Option Nat :=
  let base := s.config.hostoff * 2 ^ 30
  let a := s.granger.mbox.toNat
  if base ≤ a ∧ a + 4096 ≤ base + 2 ^ 41 then some (0x60000000000 + (a - base)) else none

/-- Bytes of the host's request page; free where the page lies outside the host window. -/
def State.hostRequest (s : State) (off n : Nat) : List Byte :=
  match s.hostPage with
  | some a => s.physRead (a + off) n
  | none => (List.range n).map fun i => Config.grangerByte s.draws (off + i)

/-- The host has rung, and its page holds a request of a code: the code is the first byte, as in the device mailbox (log 25). -/
def State.hostAsks (s : State) (code : Nat) : Bool := s.granger.rung && leNat (s.hostRequest 0 1) == code

/-- A response of given bytes in the request page; the rest of its layout is not published (log 25). -/
def State.hostAnswer (s : State) (bs : List Byte) : State :=
  let s := s.modGranger fun g => { g with rung := false }
  match s.hostPage with
  | none => s
  | some a => s.drawn.physWrite a ((bs ++ (List.range 4096).map (Config.grangerByte s.draws)).take 4096)

/-- The response of a request that returns nothing of the state. -/
def State.hostDone (s : State) : State := s.hostAnswer []

/-- Whether the host's mailbox answers: after boot, in BOOTFAIL too, and in fatal error (R416, R420). -/
def State.mailboxAnswers (s : State) : Bool := s.granger.state != .booting

/-- Serves a request that either mailbox accepts, its operands being given. -/
def State.serve (s : State) (code : Nat) (f : State → State) : State :=
  let host := s.mailboxAnswers && s.hostAsks code
  match s.granger.device with
  | some (w, _) => if s.deviceCode = code ∧ s.granger.state = .ready then (f s).deviceDone w 0 else if host then (f s).hostDone else s
  | none => if host then (f s).hostDone else s

/-- STATUS as the host reads it: its code, and in bits [15:8] that of a boot that failed (R420). -/
def Granger.statusWord (g : Granger) : BitVec 32 :=
  match g.state with
  | .booting => 0
  | .ready => 1
  | .bootfail => 2 + g.code.setWidth 32 <<< 8
  | .frozen => 3
  | .dumped => 4

/-- The host reads STATUS, in four bytes, and MBOX in its configuration space; where in the capability they lie is not published (R420; log 25). -/
def State.capRead (s : State) : State := { s with bar := leBytes 4 s.granger.statusWord.toNat ++ leBytes 8 s.granger.mbox.toNat }

/-! ## The freeze (R423) -/

/-- The Jozer links. -/
def jozerLinks : List Nat := (List.range 16).map (6 + ·)

/-- Fatal error: issue stops, the Jozer links and the Lean-to drain to DOWN, and STATUS is FROZEN; a later cause is added to the list. -/
def State.freeze (s : State) (cause : BitVec 8) : State :=
  match s.granger.state with
  | .ready =>
    let s := s.modGranger fun g => { g with state := .frozen, causes := g.causes ++ [cause] }
    (leanTo :: jozerLinks).foldl (fun s n => s.modLink n fun l => { l with state := .down }) s
  | .frozen => s.modGranger fun g => { g with causes := g.causes ++ [cause] }
  | _ => s

end Sys2Proof.Machine
end

