-- ==== Sys2Proof/Machine/Perform.lean ====
section
/-! DEFINITION. What an accepted region handed off takes effect: stores, releases, atomics and the deferred effects (10_line.md R224, R230,
R240 to R242, 12_region.md R274). -/

namespace Sys2Proof.Machine

/-! ## Stores and releases -/

/-- Plain stores at the front of an outbox: any of them may perform next, but not before an earlier one to its line. -/
def leadingStores : List Handed → List StoreEntry
  | .store e :: rest => if e.strl.isSome then [] else e :: leadingStores rest
  | _ => []

/-- Stores of a run that have no earlier one to their line. -/
def firstOfLine : List StoreEntry → List StoreEntry → List StoreEntry
  | _, [] => []
  | before, e :: es => if before.any fun x => sameLine x.target e.target then firstOfLine (before ++ [e]) es else e :: firstOfLine (before ++ [e]) es

/-- Takes bytes from the first entry equal to one: the entry with its other bytes stays in its place, and with none left it goes. -/
def takeBytes (e : StoreEntry) (m : BitVec 64) : List Handed → List Handed
  | [] => []
  | y :: ys =>
    if y = .store e then (if e.mask &&& ~~~m = 0 then ys else .store { e with mask := e.mask &&& ~~~m } :: ys) else y :: takeBytes e m ys

/-- The bytes of a store that perform together: those in some of its granules, all of them where none is picked (R227). -/
def StoreEntry.share (e : StoreEntry) (g : BitVec 8) : BitVec 64 := if e.mask &&& granuleMask g = 0 then e.mask else e.mask &&& granuleMask g

/-- A store that is dropped where it arrives, under a DEAD KID or to a LOST line: its context is to raise KEYDEAD or POISON (R255, R411). -/
def State.noteDropped (s : State) (k : Nat) (j : Fin 4) (e : StoreEntry) : State :=
  match s.writeDropped e.target with
  | some c => if e.mask = 0 then s else s.modCtx k j fun x => { x with atomicErr := x.atomicErr.or (some (0, s.storeTrap e c)) }
  | none => s

/-- Bytes of a store perform; a strl at its scope, after all that precedes it (R224, R230, R237); one may ring the Granger's doorbell (R422). -/
def State.performStore (s : State) (k : Nat) (j : Fin 4) (e : StoreEntry) (m : BitVec 64) : State :=
  let s := (s.modCtx k j fun c => { c.spent with outbox := takeBytes e m c.outbox }).noteDropped k j e
  match e.strl with
  | none => s.writeLine k e.target m e.data
  | some scope =>
    let t := ((s.release k scope).writeLine k e.target e.mask e.data).release k scope
    if t.ringsDevice e then t.ringDevice e.vkid else t

/-- An atomic has executed and not returned: no later access performs (R240). -/
def Context.returning (c : Context) : Bool := c.atomics.any fun x => x.2.isSome

/-- A push whose data is still to come: a release waits for it (R230). -/
def Context.pushesOut (c : Context) : Bool := c.flights.any fun f => f.push.isSome

/-- STORE_PERFORM: granules of a plain store, or the next strl or release of what was handed off, perform; the order among plain stores and
their granules is free, but that a store waits for the pushes before it to its bytes (R140). -/
def execStorePerform (core slot : Nat) (s : State) : Host.Outcome State Fault Refusal :=
  let j := slotNum slot
  let c := s.ctxAt core j
  if c.returning then s.done
  else
    match c.outbox with
    | .release scope :: rest =>
      if c.pushesOut then s.done else ((s.modCtx core j fun c => { c with outbox := rest }).release core scope).done
    | .store e :: _ =>
      if e.strl.isSome then (if c.pushesOut then s else s.performStore core j e e.mask).done
      else
        let es := (firstOfLine [] (leadingStores c.outbox)).filter fun x => !x.behindPush c
        match es[Config.latency s.draws % es.length]? with
        | none => s.done
        | some x => (s.drawn.performStore core j x (x.share (Config.granules s.draws))).done
    | _ => s.done

/-! ## Atomics -/

/-- The new value of an atomic, none where it writes nothing (R240). -/
def atomicNew (op : Fin 8) (n : Nat) (old operand compare : Word) : Option Word :=
  let m := 2 ^ (8 * n)
  let o := old.toNat % m
  let b := operand.toNat % m
  let signed := fun (x : Nat) => if m ≤ 2 * x then (x : Int) - m else (x : Int)
  match op.val with
  | 0 => some (BitVec.ofNat 64 b)
  | 1 => some (BitVec.ofNat 64 ((o + b) % m))
  | 2 => some (old &&& operand)
  | 3 => some (old ||| operand)
  | 4 => some (if signed o < signed b then BitVec.ofNat 64 b else BitVec.ofNat 64 o)
  | 5 => some (if signed b < signed o then BitVec.ofNat 64 b else BitVec.ofNat 64 o)
  | 6 => if o = compare.toNat % m then some (BitVec.ofNat 64 b) else none
  | _ => some (BitVec.ofNat 64 (fAdd fp32 .rne (fp32.unpack o) (fp32.unpack b)).bits)

/-- Bytes of an atomic. -/
def AtomicReq.size (a : AtomicReq) : Nat := if a.four then 4 else 8

/-- The virtual address of an atomic. -/
def AtomicReq.va (a : AtomicReq) : Nat := a.vpage * 4096 + a.target.addr % 4096

/-- Whether an atomic executes in the core's L1: a cacheable page at a scope within the sheaf (R241). -/
def State.inL1 (s : State) (a : AtomicReq) : Bool :=
  scopeRank a.scope < 3 && a.target.place == .phys && (match s.paKind a.target.addr with
    | .hbm _ => true
    | _ => false)

/-- What stops an atomic at its execution point: its cause with TRAPINFO (R242, R255, R405, R411). -/
def State.atomicError (s : State) (a : AtomicReq) : Option TrapVal :=
  match s.writeDropped a.target with
  | some c => some (s.droppedTrap c 0 3 a.va)
  | none => (s.lineError a.target).map fun c => ⟨c, s.accessInfo c 0 3 a.va (s.isLost a.target)⟩

/-- Whether an atomic is sent to the base die: a line of the package's HBM, at a scope beyond the sheaf, that the carve does not hold (R214). -/
def State.atDie (s : State) (a : AtomicReq) : Bool :=
  !s.inL1 a && a.target.place == .phys && a.target.pkg == ownPackage && (match s.paKind a.target.addr with
    | .hbm f => (findLine a.target.line a.target.kid (s.field f).l2).isNone
    | _ => false)

/-- An atomic at the base die waits for every queued write to its line (R218). -/
def State.dieBusy (s : State) (a : AtomicReq) : Bool :=
  s.atDie a && (s.stack (stackOfPa a.target.addr)).writes.any fun w => w.line == a.target.line

/-- An atomic's write at its execution point. -/
def State.writeAtomic (s : State) (k : Nat) (a : AtomicReq) (mask : BitVec 64) (data : Line) : State :=
  if s.inL1 a then s.writeLine k a.target mask data
  else if s.atDie a then
    (s.modField (64 * a.target.line / 0x10000000000) fun fd => { fd with l2 := dropClean a.target.line fd.l2 }).dramWrite a.target.kid a.target.line mask data
  else s.writeHome a.target mask data

/-- The atomic's one event at its execution point: the old value, and the machine after it. On a line that the carve lacks it is an ATM packet, which
the base die executes and answers within the move (R214, R217). -/
def State.runAtomic (s : State) (k : Nat) (a : AtomicReq) : Word × State :=
  let i := a.target.addr % 64
  let (line, s) := if s.inL1 a then s.l1Line k a.target a.target.line 
    else
      (s.readHome a.target,
       (if s.atDie a then (s.passTag (stackOfPa a.target.addr)).cribAccess a.target.line a.target.kid a.target.nocrib a.target.cribpin else s.meet a.target).drawn)
  let old := BitVec.ofNat 64 (leNat (((lineBytes line).drop i).take a.size))
  match atomicNew a.op a.size old a.operand a.compare with
  | none => (old, s)
  | some v =>
    let mask := byteMask i a.size
    let data := placeBytes i (leBytes a.size v.toNat)
    (old, s.writeAtomic k a mask data)

/-- ATOMIC_EXECUTE: an atomic executes after what precedes it, as a release and an acquire at its scope (R230, R231, R240, R241). -/
def execAtomicExecute (core slot : Nat) (s : State) : Host.Outcome State Fault Refusal :=
  let j := slotNum slot
  let c := s.ctxAt core j
  match c.outbox with
  | .atomic a :: rest =>
    if c.pushesOut ∨ c.returning then s.done
    else
      let t := (s.modCtx core j fun c => { c.spent with outbox := rest }).release core a.scope
      if t.dieBusy a ∨ (!t.inL1 a ∧ t.linkWaits core a.target) then s.done
      else
      let s := t
      match s.atomicError a with
      | some v => (s.modCtx core j fun c => { c with atomics := c.atomics.drop 1, atomicErr := some (a.d, v) }).done
      | none =>
        let (old, s) := s.runAtomic core a
        ((s.acquire core j a.scope).modCtx core j fun c => { c with atomics := (a.d, some old) :: c.atomics.drop 1 }).done
  | _ => s.done

/-- ATOMIC_RETURN: the old value is written to d (R240). -/
def execAtomicReturn (core slot : Nat) (s : State) : Host.Outcome State Fault Refusal :=
  let j := slotNum slot
  match (s.ctxAt core j).atomics with
  | (d, some v) :: rest =>
    (s.modCtx core j fun c =>
      let (v, c) := injectScalar c (d32 d) v
      { c.landVals [.s (d32 d) v] with atomics := rest }).done
  | _ => s.done

/-! ## Deferred effects (R274) -/

/-- A tmark goes to its tile's home Thresher (R373). -/
def State.sendMark (s : State) (k : Nat) (j : Fin 4) (tile : BitVec 20) (drift : BitVec 32) (nan : Bool) : State :=
  let key := match (s.ctxAt k j).member with
    | some m => m.key
    | none => none
  s.modField (tileField tile) fun f => { f with marks := f.marks ++ [⟨tile, drift, nan, key, (s.ctxAt k j).ident⟩] }

/-- An rrec sets RR of its run's entry; an untracked run has none (R375, R384). -/
def State.recordRun (s : State) (m : Member) : State :=
  match s.findRun m.field m.run with
  | none => s
  | some lb =>
    match lb.entry with
    | none => s
    | some (set, way) => s.modReuse m.field set way fun e => if e.state = .pending then { e with rr := true } else e

/-- A deferred effect takes effect; a publish or release of a ring slot is a release at SHEAF scope (R200, R230). -/
def State.takeEffect (s : State) (k : Nat) (j : Fin 4) (e : Effect) : State :=
  match e with
  | .publish _ q epoch rid eos => (s.release k .sheaf).publish k j q epoch rid eos
  | .release _ q epoch rid => (s.release k .sheaf).releaseSlot k j q epoch rid
  | .mask _ epoch rid cmask => s.maskRing k j epoch rid cmask
  | .init rb d prod => s.initRing k j rb d prod
  | .engine c => s.startEngine k j c
  | .guest _ => s
  | .mcall b r p => s.enqueueMatrix k j b (.call r p)
  | .mzero b => s.enqueueMatrix k j b .zero
  | .clear b => s.enqueueMatrix k j b .clear
  | .tmark t d n => s.sendMark k j t d n
  | .rrec _ _ =>
    match (s.ctxAt k j).member with
    | some m => s.recordRun m
    | none => s

/-- Whether an effect waits for accesses that have left the context: an engine command with A, and a publish or release, which are
releases (R199, R239). -/
def Effect.ordered : Effect → Bool
  | .publish _ _ _ _ _ => true
  | .release _ _ _ _ => true
  | .engine c => c.a
  | _ => false

/-- The first engine command without A that only plain stores stand before in an outbox, and the outbox without it: it may be sent before they
perform (R239). -/
def earlyEngine : List Handed → Option (EngineCmd × List Handed)
  | .effect (.engine c) :: rest => if c.a then none else some (c, rest)
  | .store e :: rest => if e.strl.isSome then none else (earlyEngine rest).map fun x => (x.1, .store e :: x.2)
  | _ => none

/-- DEFERRED_EFFECT_HANDOFF: the next deferred effect takes effect, after the stores and the atomic before it; matrix commands enter the core's
queue in the order of their commits (R168). A guest's packet leaves by GUEST_PACKET_WRITE. -/
def execDeferredEffectHandoff (core slot : Nat) (s : State) : Host.Outcome State Fault Refusal :=
  let j := slotNum slot
  let c := s.ctxAt core j
  match c.outbox with
  | .effect (.guest _) :: _ => s.done
  | .store _ :: _ =>
    (match earlyEngine c.outbox with
     | some (x, rest) => if c.returning then s else (s.modCtx core j fun c => { c with outbox := rest }).startEngine core j x
     | none => s).done
  | .effect e :: rest =>
    if c.returning ∨ (e.ordered ∧ c.pushesOut) ∨ (e.isMatrix ∧ (s.core core).order.head? ≠ some j) then s.done
    else
      let s := if e.isMatrix then s.modCore core fun x => { x with order := x.order.drop 1 } else s
      ((s.modCtx core j fun c => { c with outbox := rest }).takeEffect core j e).done
  | _ => s.done

end Sys2Proof.Machine
end

