-- ==== Sys2Proof/Machine/BaseDie.lean ====
section
/-! DEFINITION. The base dies of the stacks: packets, the write queue, the Crib and temperature (09_storage.md R217 to R222). -/

namespace Sys2Proof.Machine

/-! ## Packets (R217, R218) -/

/-- A packet that a field may send to a stack: its tag free, its address of that stack (R12, R217). -/
def State.mayPacket (s : State) (stack addr tag align : Nat) : Bool :=
  (match s.paKind addr with
   | .hbm _ => stackOfPa addr == stack
   | _ => false) &&
  addr % align == 0 && decide (tag < 4096) && (s.stack stack).replies.all fun r => r.tag != tag

/-- Queued writes that a read of lines under a KID must see leave: up to the last one to any of them, unless that one covers every byte read
(R218). -/
def writesBefore (lines : List Nat) (kid : BitVec 8) (ws : List QueuedWrite) : Nat :=
  match (ws.filter fun w => lines.contains w.line).getLast? with
  | none => 0
  | some w =>
    if lines = [w.line] ∧ w.mask = BitVec.allOnes 64 ∧ w.kid = kid then 0
    else ws.length - (ws.reverse.takeWhile fun x => !lines.contains x.line).length

/-- A read of n lines for a reader's KID and page attributes: the reply holds the bytes as the packet's place in the order gives them, and the Crib
meets each line (R217 to R221). -/
def State.readPacket (s : State) (stack addr tag n : Nat) (kid : BitVec 8) (nocrib cribpin : Bool) : State :=
  let lines := (List.range n).map (addr / 64 + ·)
  let bytes := lines.flatMap fun l => lineBytes (s.dieLine kid l)
  let left := writesBefore lines kid (s.stack stack).writes
  let s := lines.foldl (fun s l => s.cribAccess l kid nocrib cribpin) s
  s.modStack stack fun t => { t with replies := t.replies ++ [⟨tag, addr / 64, bytes, left, kid, nocrib, cribpin⟩] }

/-- A read packet of n lines: whose line it fetches is a free choice, under a KID that is not DEAD (log 26). -/
def State.fetchPacket (s : State) (stack addr tag n : Nat) : State :=
  let r := Config.packetReader s.draws
  if s.mayPacket stack addr tag (64 * n) && (s.kidEntry r.1).state != .dead then s.drawn.readPacket stack addr tag n r.1 r.2.1 r.2.2 else s

def execRd64 (stack addr tag : Nat) (s : State) : Host.Outcome State Fault Refusal := (s.fetchPacket stack addr tag 1).done

def execRd256 (stack addr tag : Nat) (s : State) : Host.Outcome State Fault Refusal := (s.fetchPacket stack addr tag 4).done

/-- WRM: a dirty line of the L2 carve enters the write queue, and has left the carve; the reply acknowledges it under a tag that is
free (R214, R217, R218). -/
def execWrm (stack addr kid : Nat) (mask : BitVec 64) (data : Line) (s : State) : Host.Outcome State Fault Refusal :=
  let line := addr / 64
  let f := addr / 0x10000000000
  let tag := Config.latency s.draws % 4096
  match findLine line (BitVec.ofNat 8 kid) (s.field f).l2 with
  | none => s.done
  | some x =>
    if !s.mayPacket stack addr tag 64 ∨ x.dirty ≠ mask ∨ x.data ≠ data then s.done
    else
      let s := s.drawn.modField f fun fd => { fd with l2 := dropLine line x.kid fd.l2 }
      (s.modStack stack fun t =>
        { t with writes := t.writes ++ [⟨line, x.kid, mask, data, x.attr.nocrib, x.attr.cribpin⟩],
                 replies := t.replies ++ [⟨tag, line, [], 0, x.kid, x.attr.nocrib, x.attr.cribpin⟩] }).done

/-- Whether a context's next atomic is the one that an ATM packet carries. -/
def Context.sendsAtomic (c : Context) (addr : Nat) (kid : BitVec 8) (op : Fin 8) (four : Bool) (operand compare : Word) : Option AtomicReq :=
  match c.outbox with
  | .atomic a :: _ =>
    if a.target.place = .phys ∧ a.target.addr / 8 * 8 = addr ∧ a.target.kid = kid ∧ a.op = op ∧ a.four = four ∧ a.operand = operand ∧
        a.compare = compare ∧ !c.pushesOut ∧ !c.returning
    then some a else none
  | _ => none

/-- The context that sends an ATM packet. -/
def State.atomicSender (s : State) (addr : Nat) (kid : BitVec 8) (op : Fin 8) (four : Bool) (operand compare : Word) :
    Option (Nat × Fin 4 × AtomicReq) :=
  (s.liveCores.flatMap fun k => (List.finRange 4).map fun j => (k, j)).findSome? fun x =>
    ((s.ctxAt x.1 x.2).sendsAtomic addr kid op four operand compare).map fun a => (x.1, x.2, a)

/-- ATM: an atomic on a line that the carve does not hold executes at the base die, once queued writes to its line have left (R214, R217, R218,
R240, R241). -/
def execAtm (stack addr kid tag : Nat) (op : Fin 8) (four : Bool) (operand compare : BitVec 64) (s : State) : Host.Outcome State Fault Refusal :=
  match s.atomicSender addr (BitVec.ofNat 8 kid) op four operand compare with
  | none => s.done
  | some (k, j, a) =>
    let t := (s.modCtx k j fun c => { c.spent with outbox := c.outbox.drop 1 }).release k a.scope
    if !s.mayPacket stack addr tag 8 ∨ (s.atomicError a).isSome ∨ !t.atDie a ∨ t.dieBusy a then s.done
    else
      let (old, t) := t.runAtomic k a
      let t := t.modStack stack fun x =>
        { x with replies := x.replies ++ [⟨tag, a.target.line, leBytes a.size old.toNat, 0, a.target.kid, a.target.nocrib, a.target.cribpin⟩] }
      ((t.acquire k j a.scope).modCtx k j fun c => { c with atomics := (a.d, some old) :: c.atomics.drop 1 }).done

/-- WRITE_QUEUE_DRAIN: the oldest queued write leaves for the Crib or DRAM. -/
def execWriteQueueDrain (stack : Nat) (s : State) : Host.Outcome State Fault Refusal := (s.drainWrite stack).done

/-- A line that RD64 fetched fills the carve, clean, unless the carve holds the line by then or the base die holds it with other bytes (R214). -/
def State.fillLine (s : State) (r : Reply) : State :=
  let f := 64 * r.line / 0x10000000000
  let d := lineOf r.bytes
  if r.bytes.length ≠ 64 ∨ (findLine r.line r.kid (s.field f).l2).isSome ∨ s.dieLine r.kid r.line ≠ d ∨ (s.kidEntry r.kid).state = .dead then s
  else
    let attr : Trans := { physTrans (64 * r.line) with kid := r.kid, nocrib := r.nocrib, cribpin := r.cribpin }
    s.modField f fun fd => { fd with l2 := ⟨r.line, r.kid, d, 0, attr, []⟩ :: fd.l2 }

/-- PACKET_REPLY: replies return in any order; one that waits for queued writes does not (R217, R218). -/
def execPacketReply (stack tag : Nat) (s : State) : Host.Outcome State Fault Refusal :=
  match (s.stack stack).replies.find? fun r => r.tag == tag with
  | none => s.done
  | some r =>
    if r.left ≠ 0 ∧ (s.stack stack).writes ≠ [] then s.done
    else ((s.modStack stack fun t => { t with replies := t.replies.filter fun x => x.tag != tag }).fillLine r).done

/-- CRIB_FILTER_WINDOW_RESET: the count of a slice has reached WINDOW. -/
def execCribFilterWindowReset (stack slice : Nat) (s : State) : Host.Outcome State Fault Refusal :=
  let x := tget ⟨[], [], 0⟩ (s.stack stack).slices slice
  if x.misses < 2 ^ s.config.winlg then s.done
  else (s.modStack stack fun t => { t with slices := tput t.slices slice (x.window s.config.winlg) }).done

/-! ## Temperature (R222) -/

/-- A crossing is reported to the Granger's telemetry: the stack, the threshold and the side. -/
def State.crossing (s : State) (stack threshold temp : Nat) (up : Bool) : State :=
  s.grangerLog 3 (BitVec.ofNat 64 (stack + 256 * threshold + (if up then 1024 else 0) + 65536 * temp))

/-- The hottest layer has gone above T1. -/
def execHbmTempAboveT1 (stack temp : Nat) (s : State) : Host.Outcome State Fault Refusal :=
  if 24 ≤ stack ∨ (s.stack stack).t1 ∨ temp ≤ s.config.t1 then s.done else ((s.modStack stack fun t => { t with t1 := true }).crossing stack 1 temp true).done

def execHbmTempBelowT1 (stack temp : Nat) (s : State) : Host.Outcome State Fault Refusal :=
  if 24 ≤ stack ∨ !(s.stack stack).t1 ∨ s.config.t1 - 3 ≤ temp then s.done
  else ((s.modStack stack fun t => { t with t1 := false }).crossing stack 1 temp false).done

def execHbmTempAboveT2 (stack temp : Nat) (s : State) : Host.Outcome State Fault Refusal :=
  if 24 ≤ stack ∨ (s.stack stack).t2 ∨ temp ≤ s.config.t2 then s.done else ((s.modStack stack fun t => { t with t2 := true }).crossing stack 2 temp true).done

def execHbmTempBelowT2 (stack temp : Nat) (s : State) : Host.Outcome State Fault Refusal :=
  if 24 ≤ stack ∨ !(s.stack stack).t2 ∨ s.config.t2 - 3 ≤ temp then s.done
  else ((s.modStack stack fun t => { t with t2 := false }).crossing stack 2 temp false).done

/-- The shutdown signal is asserted, and stays so (R222). -/
def execHbmTempAboveT3 (stack temp : Nat) (s : State) : Host.Outcome State Fault Refusal :=
  if 24 ≤ stack ∨ (s.stack stack).t3 ∨ temp ≤ 105 then s.done else ((s.modStack stack fun t => { t with t3 := true }).crossing stack 3 temp true).done

end Sys2Proof.Machine
end

