-- ==== Sys2Proof/Machine/Check.lean ====
section
/-! DEFINITION. Software checks and signatures, CHK (21_yoke.md R412, R413). -/

namespace Sys2Proof.Machine

/-- DUPMIS with its code above the bundle's address (R413). -/
def State.dupmis (s : State) (code : Nat) : State := s.raise cDUPMIS (BitVec.ofNat 64 (code * 2 ^ 56 + s.issue.addr.toNat % 2 ^ 56))

def execChkeq (a b : Src) (s : State) : Host.Outcome State Fault Refusal := if s.src a = s.src b then s.done else (s.dupmis 1).done
def execChkv (v w : Fin 16) (s : State) : Host.Outcome State Fault Refusal := if s.getV v = s.getV w then s.done else (s.dupmis 2).done

/-- The fold of a value into SIGREG. -/
def foldSig (old v : Word) : Word := old.rotateLeft 7 ^^^ v

/-- sig folds onto what the slots before it in the bundle leave. -/
def execSig (a : Src) (s : State) : Host.Outcome State Fault Refusal :=
  (s.put (.sys rSIGREG (foldSig (s.cur.latestSys rSIGREG) (s.src a))) 1).done

def execSigrd (d : SReg) (s : State) : Host.Outcome State Fault Refusal := (s.putS d (s.getSys rSIGREG) 1).done
def execSigclr (s : State) : Host.Outcome State Fault Refusal := (s.put (.sys rSIGREG 0) 1).done

end Sys2Proof.Machine
end

