-- ==== Sys2Proof/Machine/Guest.lean ====
section
/-! DEFINITION. Guest queues and the class GST (20_link.md R400 to R405). -/

namespace Sys2Proof.Machine

/-! ## Queues (R400) -/

/-- The address of a guest queue's descriptor. -/
def State.guestDesc (s : State) (q : Fin 8) : Nat := s.config.gqtab + 64 * q.val

/-- The descriptor as it stands in memory. -/
def State.guestWords (s : State) (q : Fin 8) : List Word := s.physWords (s.guestDesc q) 8

def gqCidx (w : List Word) : Nat := recBits w 511 480
def gqPidx (w : List Word) : Nat := recBits w 479 448
def gqKid (w : List Word) : BitVec 8 := BitVec.ofNat 8 (recBits w 327 320)
def gqLg (w : List Word) : Nat := recBits w 315 312
def gqEn (w : List Word) : Bool := recBits w 256 256 == 1
def gqBase (w : List Word) : Nat := recBits w 55 0

/-- Packets posted and not taken by the guest. -/
def gqUsed (w : List Word) : Nat := (gqPidx w + 2 ^ 32 - gqCidx w) % 2 ^ 32

/-- The Cribs meet the read of a guest queue's descriptor (R219). -/
def State.meetGuest (s : State) (q : Fin 8) : State := s.meetPhys (s.guestDesc q) 64

/-- A guest queue. -/
def State.guestQueue (s : State) (q : Fin 8) : GuestQueue := tget default s.guest.queues q.val

/-- Changes a guest queue. -/
def State.modGuestQueue (s : State) (q : Fin 8) (f : GuestQueue → GuestQueue) : State :=
  { s with guest := { s.guest with queues := tput s.guest.queues q.val (f (s.guestQueue q)) } }

/-- TRAPINFO of GUEST: the breach code (R405). -/
def State.breachInfo (s : State) : Word :=
  match s.guest.breach with
  | some b => b.setWidth 64
  | none => 0

/-! ## Instructions (R402, R403) -/

def execGpost (q : Fin 8) (a : Src) (t : Fin 64) (s : State) : Host.Outcome State Fault Refusal :=
  if s.guest.breach.isSome then (s.raise cGUEST s.breachInfo).done
  else if !gqEn (s.guestWords q) || gqKid (s.guestWords q) != s.cur.kid then (s.raise47 cPPROT).done
  else
    match (s.meetGuest q).readTable (s.src a) 64 8 with
    | (.trap v, s) => (s.raise v.cause v.info).done
    | (.wait, s) => s.wait.done
    | (.ok ws, s) => (s.defer (.guest ⟨q, t, s.cur.kid, ws⟩)).done

/-- The open region holds a gpost that names a token. -/
def Region.posts (r : Region) (t : Fin 64) : Bool := r.deferred.any fun e => match e with
  | .guest g => g.tok == t
  | _ => false

def execGwait (q : Fin 8) (t : Fin 64) (s : State) : Host.Outcome State Fault Refusal :=
  let x := s.cur.tokens[t]
  if s.cur.region.posts t then s.illop.done
  else
    match x.state with
    | .idle => s.done
    | y =>
      if x.kind ≠ .guest q then s.illop.done
      else
        match y with
        | .done st v => (s.finishToken x st v).done
        | _ => s.wait.done

/-- The queue word of gstat. -/
def State.guestWord (s : State) (q : Fin 8) : Word :=
  let w := s.guestWords q
  let st := if s.guest.breach.isSome then 3 else if !gqEn w then 0 else if (s.guestQueue q).paused then 2 else 1
  BitVec.ofNat 64 (st * 2 ^ 62 + (2 ^ gqLg w - gqUsed w) % 2 ^ 13 * 2 ^ 32 + gqPidx w)

/-- The status of a token for gstat; the spec names no code for a status that only engine commands end with (log 20). -/
def State.tokenCode (s : State) (x : Token) : Word :=
  match x.state with
  | .idle => 0
  | .pending => 1
  | .done .ok _ => 2
  | .done .saved _ => 3
  | .done .fault _ => 4
  | .done .quar _ => 5
  | .done _ _ => Config.freeWord s.draws

def execGstat (q : Fin 8) (a : Src) (d : SReg) (s : State) : Host.Outcome State Fault Refusal :=
  let item := (s.src a).toNat
  if h : 64 < item then s.illop.done
  else if hz : item = 0 then ((s.meetGuest q).flyS .other d (s.guestWord q) 1).done
  else (s.drawn.flyS .other d (s.tokenCode s.cur.tokens[(⟨item - 1, by omega⟩ : Fin 64)]) 1).done

/-- gpre sends its request once and waits for its own acknowledgement; on a queue that is PAUSED already nothing is pending. -/
def execGpre (q : Fin 8) (s : State) : Host.Outcome State Fault Refusal :=
  let w := s.guestWords q
  if s.guest.breach.isSome then (s.raise cGUEST s.breachInfo).done
  else if gqKid w != s.cur.kid && !s.cur.super then (s.raise47 cPPROT).done
  else
    match s.asked with
    | some true => s.done
    | some false => s.wait.done
    | none =>
      if !gqEn w || (s.guestQueue q).paused then (s.meetGuest q).done
      else ((s.meetGuest q).modGuestQueue q fun x => { x with gpre := x.gpre ++ [⟨s.now, x.posted, s.issue.core, s.issue.slot, s.serial⟩] }).ask.wait.done

/-! ## The guest's events as operations -/

/-- Every PENDING token of a guest packet completes QUAR (R405). -/
def quarTokens (info : Word) (ts : Vector Token 64) : Vector Token 64 :=
  vecMap (fun (x : Token) => if x.state = .pending then (match x.kind with
    | .guest _ => { x with state := .done .quar ⟨cGUEST, info⟩ }
    | _ => x) else x) ts

/-- Quarantine of the socket (R405); a socket that is QUARANTINED already keeps its first code. -/
def State.quarantine (s : State) (code : BitVec 4) : State :=
  if s.guest.breach.isSome then s
  else
    let qs := s.guest.queues.map fun (x : Nat × GuestQueue) => (x.1, { x.2 with posted := [], gpre := [] })
    let s : State := { s with guest := { s.guest with breach := some code, invs := [], held := [], refused := [], queues := qs } }
    let s := s.liveCores.foldl (fun s k => s.modCore k fun c =>
      { c with ctx := vecMap (fun (x : Context) => { x with tokens := quarTokens (code.setWidth 64) x.tokens }) c.ctx }) s
    (s.modLink leanTo fun l => { l with state := .quarantined }).grangerLog 0x02 (code.setWidth 64)

/-- The context that a packet's CTX tag names, by its number. -/
def State.guestIdent (s : State) (ctx : BitVec 11) : Nat := (s.ctxAt (ctx.toNat / 4) ⟨ctx.toNat % 4, Nat.mod_lt _ (by decide)⟩).ident

/-- A packet has been completed: no request waits for it any more. -/
def GuestQueue.without (x : GuestQueue) (p : BitVec 11 × Fin 64) : GuestQueue :=
  { x with posted := x.posted.erase p, gpre := x.gpre.map fun r => { r with owed := r.owed.erase p } }

/-- A packet that the guest has not completed ends: its token completes; any other completion is a breach (R401, R404). -/
def State.endPacket (s : State) (q : Fin 8) (ctx : BitVec 11) (tok : Fin 64) (st : Status) (trap : TrapVal) : State :=
  if (s.guestQueue q).posted.contains (ctx, tok) then
    (s.modGuestQueue q fun x => x.without (ctx, tok)).completeToken (s.guestIdent ctx) tok st trap
  else s.quarantine 5

end Sys2Proof.Machine
end

