-- ==== Sys2Proof/Machine/GuestEvents.lean ====
section
/-! DEFINITION. Events of the Lean-to: packets, what the guest answers, translations, and breaches (20_link.md R400 to R405). -/

namespace Sys2Proof.Machine

/-- A guest queue by number. -/
def guestNum (n : Nat) : Fin 8 := ⟨n % 8, Nat.mod_lt _ (by decide)⟩

/-! ## Packets (R402) -/

/-- The CTX tag of a slot. -/
def ctxTag (k : Nat) (j : Fin 4) : BitVec 11 := BitVec.ofNat 11 (k * 4 + j.val)

/-- Word 0 of a packet as it is written. -/
def packetHead (w : Word) (kid : BitVec 8) (ctx : BitVec 11) (tok : Fin 64) (phase : Bool) : Word :=
  (w &&& 0xFFFF#64) ||| BitVec.ofNat 64 (tok.val * 2 ^ 31 + ctx.toNat * 2 ^ 37 + kid.toNat * 2 ^ 48 + (if phase then 2 ^ 63 else 0))

/-- A packet is written to its queue's ring, and PIDX advances as a release at HOST scope. -/
def State.writePacket (s : State) (k : Nat) (j : Fin 4) (g : GuestPacket) : State :=
  let w := s.guestWords g.q
  let n := 2 ^ gqLg w
  let head := packetHead (wordAt g.words 0) g.kid (ctxTag k j) g.tok (gqPidx w / n % 2 == 0)
  let s := s.physWrite (gqBase w + 64 * (gqPidx w % n)) ((g.words.set 0 head).flatMap fun x => leBytes 8 x.toNat)
  let s := (s.release k .host).physWrite (s.guestDesc g.q + 56) (leBytes 4 ((gqPidx w + 1) % 2 ^ 32))
  s.modGuestQueue g.q fun x => { x with paused := false, posted := x.posted ++ [(ctxTag k j, g.tok)] }

/-- GUEST_PACKET_WRITE: a committed gpost, once what precedes it has performed and its ring has room; on a quarantined socket its token
completes QUAR. -/
def execGuestPacketWrite (core slot tok : Nat) (s : State) : Host.Outcome State Fault Refusal :=
  let j := slotNum slot
  let c := s.ctxAt core j
  match c.outbox with
  | .effect (.guest g) :: rest =>
    if g.tok.val ≠ tok ∨ c.returning ∨ c.pushesOut then s.done
    else
      let pop := fun (s : State) => s.modCtx core j fun c => { c with outbox := rest }
      if s.guest.breach.isSome then ((pop s).completeToken c.ident g.tok .quar ⟨cGUEST, s.breachInfo⟩).done
      else if gqUsed (s.guestWords g.q) = 2 ^ gqLg (s.guestWords g.q) then s.done
      else ((pop s).writePacket core j g).done
  | _ => s.done

/-- GUEST_COMPLETION: OK or SAVED (R401). A quarantined guest is not heard. -/
def execGuestCompletion (q : Nat) (ctx : BitVec 11) (tok : Fin 64) (saved : Bool) (s : State) : Host.Outcome State Fault Refusal :=
  (if s.guest.breach.isSome then s else s.endPacket (guestNum q) ctx tok (if saved then .saved else .ok) ⟨0, 0⟩).done

/-- A refusal's fault packet is late: 10 µs have passed (R401). -/
def Refused.late (r : Refused) (now : Nat) : Bool := decide (r.at_ + 22500 < now)

/-- GUEST_FAULT_PACKET: it answers a refused translation, which it names by CTX, cause and address, within 10 µs (R401, R402); one that answers
none is malformed (log 91). -/
def execGuestFaultPacket (q : Nat) (ctx : BitVec 11) (tok : Fin 64) (cause : BitVec 8) (va : BitVec 56) (s : State) :
    Host.Outcome State Fault Refusal :=
  (if s.guest.breach.isSome then s
   else
     match s.guest.refused.find? fun r => r.queue == guestNum q && r.ctx == ctx && r.page == va.toNat / 4096 && r.cause == cause with
     | none => s.quarantine 5
     | some r =>
       let s : State := { s with guest := { s.guest with refused := s.guest.refused.erase r } }
       if r.late s.now then s.quarantine 2 else s.endPacket (guestNum q) ctx tok .fault ⟨cause, info249 0 5 va.toNat⟩).done

/-! ## Acknowledgements (R401, R403) -/

/-- Cycles within which a gpre and an invalidation are acknowledged: 20 µs and 10 µs. -/
def preLimit : Nat := 45000
def invLimit : Nat := 22500

/-- The oldest gpre of a queue is late. -/
def GuestQueue.late (x : GuestQueue) (now : Nat) : Bool :=
  match x.gpre with
  | r :: _ => decide (r.sent + preLimit < now)
  | [] => false

/-- The oldest invalidation is late. -/
def Guest.late (g : Guest) (now : Nat) : Bool :=
  match g.invs with
  | t :: _ => decide (t + invLimit < now)
  | [] => false

/-- GUEST_PREEMPT_ACK: the oldest request of a queue is acknowledged and the queue becomes PAUSED; a late acknowledgement, or one before the
packets asked for are complete, is a breach. -/
def execGuestPreemptAck (q : Nat) (s : State) : Host.Outcome State Fault Refusal :=
  let i := guestNum q
  let x := s.guestQueue i
  match x.gpre with
  | [] => s.done
  | r :: rest =>
    if s.guest.breach.isSome then s.done
    else if x.late s.now ∨ r.owed ≠ [] then (s.quarantine 3).done
    else ((s.modGuestQueue i fun x => { x with paused := true, gpre := rest }).modCtx r.core r.slot fun c => c.answer r.id).done

/-- GUEST_INVALIDATION_ACK: the oldest invalidations have been acknowledged. -/
def execGuestInvalidationAck (count : Nat) (s : State) : Host.Outcome State Fault Refusal :=
  if s.guest.breach.isSome ∨ count = 0 then s.done
  else if s.guest.late s.now then (s.quarantine 4).done
  else ({ s with guest := { s.guest with invs := s.guest.invs.drop count } } : State).done

/-! ## Translations (R401) -/

/-- Who a guest queue is to translation: U is needed (R401). -/
def State.guestWho (s : State) (q : Fin 8) : Who := ⟨gqKid (s.guestWords q), false, false⟩

/-- The agent refuses a translation: a fault packet is to come (R401). -/
def State.refuseGuest (s : State) (r : Refused) : State := { s with guest := { s.guest with refused := s.guest.refused ++ [r] } }

/-- GUEST_TRANSLATION_REQUEST: the agent grants a page, which the guest then holds, or refuses it. -/
def execGuestTranslationRequest (q : Nat) (ctx : BitVec 11) (va : Nat) (write : Bool) (s : State) : Host.Outcome State Fault Refusal :=
  let i := guestNum q
  if s.guest.breach.isSome ∨ !(s.guestQueue i).posted.any (fun x => x.1 == ctx) then s.done
  else
    match s.copyHeld (s.guestWho i) va (if write then 1 else 0) with
    | some e => (s.dropGuest e.covers).done
    | none =>
    let s := (s.meetGuest i).meetWalk (s.guestWho i).kid va
    let s := match s.translate (s.guestWho i) (if write then .write else .read) va with
      | .copy e => s.ckptCopy e
      | _ => s
    match s.translate (s.guestWho i) (if write then .write else .read) va with
    | .ok _ _ => ({ s.drawn with guest := { s.guest with held := (i, va / 4096) :: s.guest.held } } : State).done
    | .fault c => (s.refuseGuest ⟨i, ctx, va / 4096, c, s.now⟩).done
    | _ => s.done

/-! ## Breaches (R404, R405) -/

/-- GUEST_BREACH: the socket is quarantined under a code of R404; a late acknowledgement is one that is late. -/
def execGuestBreach (code : BitVec 4) (s : State) : Host.Outcome State Fault Refusal :=
  let may := match code.toNat with
    | 0 => false
    | 2 => s.guest.refused.any fun r => r.late s.now
    | 3 => s.guest.queues.any fun x => x.2.late s.now
    | 4 => s.guest.late s.now
    | n => decide (n < 8)
  (if may then s.quarantine code else s).done

/-! ## What the guest does to memory (R401) -/

/-- The guest writes bytes within a page that it holds a translation of; it takes packets from its ring. -/
def State.guestWrite (s : State) (q : Fin 8) (va : Nat) (bs : List Byte) : State :=
  if s.guest.breach.isSome ∨ !s.guest.held.contains (q, va / 4096) ∨ 4096 < va % 4096 + bs.length then s
  else
    match s.copyHeld (s.guestWho q) va bs.length with
    | some e => s.dropGuest e.covers
    | none =>
    match s.vaWrite (s.guestWho q) va bs with
    | .ok s => s
    | .error _ => s

/-- The guest advances CIDX. -/
def State.guestTake (s : State) (q : Fin 8) : State :=
  let w := s.guestWords q
  if s.guest.breach.isSome ∨ !gqEn w ∨ (s.guestQueue q).paused ∨ gqUsed w = 0 then s
  else s.physWrite (s.guestDesc q + 60) (leBytes 4 ((gqCidx w + 1) % 2 ^ 32))

end Sys2Proof.Machine
end

