-- ==== Sys2Proof/Machine/HostRing.lean ====
section
/-! DEFINITION. Host rings: posts, drops and interrupts (15_queue.md R330 to R334). -/

namespace Sys2Proof.Machine

/-! ## Descriptors (R330) -/

def hrBase (w : List Word) : Nat := recBits w 503 448
def hrCidx (w : List Word) : Nat := recBits w 447 416
def hrPidx (w : List Word) : Nat := recBits w 415 384
def hrVec (w : List Word) : Nat := recBits w 351 341
def hrCoalt (w : List Word) : Nat := recBits w 340 331
def hrCoaln (w : List Word) : Nat := recBits w 330 323
def hrLg (w : List Word) : Nat := recBits w 322 318

/-- A descriptor that is not valid (R332). -/
def ringInvalid (w : List Word) : Bool :=
  recBits w 0 0 == 0 || decide (hrLg w < 2) || decide (16 < hrLg w) || hrBase w % 64 != 0 || recBits w 511 504 != 0 || recBits w 317 1 != 0

/-- A ring with no room (R331). -/
def ringHasNoRoom (w : List Word) : Bool := (hrPidx w + 2 ^ 32 - hrCidx w) % 2 ^ 32 == 2 ^ hrLg w

/-- The descriptor as it stands in memory. -/
def State.ringWords (s : State) (h : Fin 16) : List Word := s.physWords (s.ringDesc h.val) 8

/-- A host ring's pending count. -/
def State.hostRing (s : State) (h : Fin 16) : HostRing := tget default s.rings h.val

/-- The mask bit of a vector's entry in the MSI-X table, as PCI places it (R394; log 28). -/
def State.masked (s : State) (vec : Nat) : Bool := (tget 0 s.msixTable (2 * vec + 1)).getLsbD 32

/-- An MSI-X write, or the pending bit of a masked vector (R394; log 28). -/
def State.sendVector (s : State) (vec : Nat) : State :=
  if s.masked vec then (if s.pba.contains vec then s else { s with pba := vec :: s.pba }) else { s with msix := vec :: s.msix }

/-- The MSI-X write of a ring: Pending goes to 0 (R334). -/
def State.interrupt (s : State) (h : Fin 16) (vec : Nat) : State := { s.sendVector vec with rings := tput s.rings h.val ⟨0, 0⟩ }

/-- An entry that the ring can take, or cannot: it is written and PIDX advances, or it is dropped (R331, R332, R334). -/
def State.postEntry (s : State) (h : Fin 16) (words : List Word) : State :=
  let w := s.ringWords h
  let e := hrBase w + 64 * (hrPidx w % 2 ^ hrLg w)
  if ringInvalid w ∨ s.paKind e = .nothing ∨ (s.lineError (physTrans e)).isSome then s.ringLost h.val
  else
    let ph : Word := if hrPidx w / 2 ^ hrLg w % 2 = 0 then 0x8000000000000000#64 else 0
    let entry := words.set 0 (wordAt words 0 ||| ph)
    let s := s.physWrite e (entry.flatMap fun x => leBytes 8 x.toNat)
    let s := s.physWrite (s.ringDesc h.val + 48) (leBytes 4 ((hrPidx w + 1) % 2 ^ 32))
    let r := s.hostRing h
    let s := { s with rings := tput s.rings h.val ⟨r.pending + 1, if r.pending = 0 then s.now else r.oldest⟩ }
    if hrCoaln w ≠ 0 ∧ hrCoaln w ≤ r.pending + 1 then s.interrupt h (hrVec w) else s

/-- A post to a valid ring without room waits (R332). -/
def State.postWaits (s : State) (h : Fin 16) : Bool := !ringInvalid (s.ringWords h) && ringHasNoRoom (s.ringWords h)

/-! ## Events -/

/-- Takes the first record whose post does not wait. -/
def takeRecord (waits : Fin 16 → Bool) : List HostRecord → Option (HostRecord × List HostRecord)
  | [] => none
  | r :: rs => if waits r.ring then (takeRecord waits rs).map fun x => (x.1, r :: x.2) else some (r, rs)

/-- HOST_RING_POST: the oldest record of a field's buffer that can be posted leaves it; records for one ring keep their order (R331, R332). -/
def execHostRingPost (field : Nat) (s : State) : Host.Outcome State Fault Refusal :=
  match takeRecord s.postWaits (s.field field).records with
  | none => s.done
  | some (r, rest) => ((s.modField field fun f => { f with records := rest }).postEntry r.ring r.words).done

/-- Cycles of the arithmetic clock in a microsecond (R401: 20 µs are 45,000 cycles). -/
def cyclesPerMicro : Nat := 2250

/-- HOST_RING_COALESCE_TIMER: the oldest pending entry has reached the age of COALT (R334). -/
def execHostRingCoalesceTimer (ring : Nat) (s : State) : Host.Outcome State Fault Refusal :=
  let h : Fin 16 := ⟨ring % 16, Nat.mod_lt _ (by decide)⟩
  let w := s.ringWords h
  let r := s.hostRing h
  if hrCoalt w = 0 ∨ r.pending = 0 ∨ s.now < r.oldest + cyclesPerMicro * hrCoalt w then s.done
  else ((s.meetPhys (s.ringDesc h.val) 64).interrupt h (hrVec w)).done

end Sys2Proof.Machine
end

