-- ==== Sys2Proof/Machine/LinkEvents.lean ====
section
/-! DEFINITION. Links, flits and routes (20_link.md R388 to R392). -/

namespace Sys2Proof.Machine

/-! ## Link states (R389) -/

/-- A link goes DOWN and loses the packets in flight, which telemetry counts; those it has not taken yet wait on. A field link puts the package into
fatal error. -/
def State.linkDown (s : State) (n : Nat) : State :=
  if n < 6 then s.freeze 1
  else (s.modLink n fun l => { l with state := .down, lost := l.lost ++ l.flits, flits := [] }).grangerLog 1 (BitVec.ofNat 64 n)

/-- Spare lanes of a link, and the narrower widths that it can fall back to (R388). The Lean-to's lane repair is UCIe's own. -/
def spareLanes (link : Nat) : Nat := if link < 6 then 16 else if link < 22 then 1 else 0
def widths (link : Nat) : Nat := if link = hostLink then 2 else 1

/-- LINK_TRAINING_START. -/
def execLinkTrainingStart (link : Nat) (s : State) : Host.Outcome State Fault Refusal :=
  (if link < 24 ∧ (s.linkAt link).state = .down then s.modLink link fun l => { l with state := .training, attempts := 0 } else s).done

/-- The size of its memory that the guest reports as the Lean-to trains (R393; log 24). -/
def State.reportSize (s : State) (link : Nat) : State :=
  if link = leanTo then { s.drawn with guest := { s.guest with size := (Config.freeWord s.draws).toNat % (2 ^ 40 + 1) } } else s

/-- Training succeeds: at full width with no spare in use, or with lanes lost, as many as a run has it (R388, R389). -/
def State.trained (s : State) (link : Nat) (full : Bool) : State :=
  let worn := if full then 0 else if link = leanTo then Config.latency s.draws % 2 else Config.latency s.draws % (spareLanes link + widths link) + 1
  ((if full then s else s.drawn).modLink link fun l =>
    ({ Link.reset with state := if full then .active else .degraded, attempts := l.attempts, full := full, worn := worn, lost := l.lost,
                       queue := l.queue } : Link).intake).reportSize link

/-- LINK_TRAINING_RESULT: after the third attempt that fails the link goes DOWN. -/
def execLinkTrainingResult (link : Nat) (ok full : Bool) (s : State) : Host.Outcome State Fault Refusal :=
  let l := s.linkAt link
  (if l.state ≠ .training then s
   else if ok then s.trained link full
   else if l.attempts + 1 < 3 then s.modLink link fun l => { l with attempts := l.attempts + 1 }
   else if link < 6 then s.freeze 1
   else (s.modLink link fun l => { l with state := .down, attempts := 3 }).grangerLog 7 (BitVec.ofNat 64 link)).done

/-- LANE_FAILURE: an ACTIVE link is DEGRADED; a DEGRADED one with no spare and no width left goes DOWN. A lane that the Lean-to's own repair takes
changes nothing more. Flits in flight are replayed (R388 to R390). -/
def execLaneFailure (link : Nat) (widthLeft : Bool) (s : State) : Host.Outcome State Fault Refusal :=
  let l := s.linkAt link
  let worse := fun (s : State) => s.modLink link fun l => { l with state := .degraded, full := false, worn := if link = leanTo ∧ widthLeft then l.worn else l.worn + 1, wire := l.txAcked }
  (if l.state = .active then worse s
   else if l.state ≠ .degraded ∨ (link = leanTo ∧ widthLeft) then s
   else if l.worn < spareLanes link + widths link then worse s
   else s.linkDown link).done

/-- FLIT_REPLAY_LIMIT. -/
def execFlitReplayLimit (link : Nat) (s : State) : Host.Outcome State Fault Refusal :=
  (if (s.linkAt link).up then s.linkDown link else s).done

/-- LINK_DRAIN_REQUEST. -/
def execLinkDrainRequest (link : Nat) (s : State) : Host.Outcome State Fault Refusal :=
  (if (s.linkAt link).up then s.modLink link fun l => { l with state := .draining } else s).done

/-- LINK_DRAIN_COMPLETE: every flit sent has been acknowledged, and nothing is in flight. -/
def execLinkDrainComplete (link : Nat) (s : State) : Host.Outcome State Fault Refusal :=
  let l := s.linkAt link
  (if l.state ≠ .draining ∨ l.txAcked ≠ l.txSeq then s
   else if link < 6 then s.freeze 1
   else s.modLink link fun l => { l with state := .down }).done

/-! ## Flits (R390) -/

/-- The 256 bytes of a flit with the sequence number that it acknowledges: header, payload and CRC-64 (R390). -/
def Flit.bytes (x : Flit) (acked : BitVec 12) : List Byte :=
  let body := leBytes 8 (x.seq.toNat + acked.toNat * 2 ^ 12 + x.cls.toNat * 2 ^ 24 + x.hops.toNat * 2 ^ 28) ++ (x.payload ++ List.replicate 240 0).take 240
  body ++ leBytes 8 (Config.crc64 body).toNat

/-- The header of a flit as it is received. -/
def flitHead (bs : List Byte) : Nat := leNat (bs.take 8)

/-- Whether a flit's length, CRC, hop count and zeros are right. -/
def flitOk (bs : List Byte) : Bool :=
  bs.length == 256 && leNat (bs.drop 248) == (Config.crc64 (bs.take 248)).toNat && decide (flitHead bs / 2 ^ 28 % 256 ≤ 16) && flitHead bs / 2 ^ 36 == 0

/-- Flits that an acknowledgement covers leave the replay buffer, and flits that waited for their numbers go into flight. -/
def Link.acknowledge (l : Link) (acked : BitVec 12) : Link :=
  if acked - l.txAcked ≤ l.txSeq - l.txAcked then
    ({ l with txAcked := acked, wire := if l.wire - l.txAcked < acked - l.txAcked then acked else l.wire,
              flits := l.flits.drop (acked - l.txAcked).toNat } : Link).intake
  else l

/-- FLIT_RECEIVE: a flit of a Jozer link whose CRC fails, or that is not the next in sequence, is dropped; the next one is taken, with its
acknowledgement of flits that were sent. -/
def execFlitReceive (link : Nat) (seq acked : BitVec 12) (cls : BitVec 4) (crcOk : Bool) (s : State) : Host.Outcome State Fault Refusal :=
  let l := s.linkAt link
  if link < 6 ∨ 21 < link ∨ !(l.up || l.state == .draining) ∨ !crcOk ∨ seq ≠ l.rxSeq ∨ 4#4 < cls then s.done
  else (s.modLink link fun l => { l.acknowledge acked with rxSeq := l.rxSeq + 1 }).done

/-- The bytes of a flit arrive: its header and its CRC decide. -/
def State.takeFlit (s : State) (link : Nat) (bs : List Byte) : Host.Outcome State Fault Refusal :=
  let h := flitHead bs
  execFlitReceive link (BitVec.ofNat 12 h) (BitVec.ofNat 12 (h / 2 ^ 12)) (BitVec.ofNat 4 (h / 2 ^ 24)) (flitOk bs) s

/-- The next flit of a Jozer link goes on the wire. -/
def State.putFlit (s : State) (link : Nat) : State :=
  let l := s.linkAt link
  if l.up || l.state == .draining then (if l.wire = l.txSeq then s else s.modLink link fun l => { l with wire := l.wire + 1 }) else s

/-- The receiver has dropped a flit: the link replays from its sequence number (R390). -/
def State.replayFlit (s : State) (link : Nat) (seq : BitVec 12) : State :=
  let l := s.linkAt link
  if (l.up || l.state == .draining) && decide (seq - l.txAcked < l.wire - l.txAcked) then s.modLink link fun l => { l with wire := seq } else s

/-! ## Routes (R391, R392) -/

/-- An exchange that has stopped, and not well: what becomes of its packets changes nothing more. -/
def EngineRun.failed (r : EngineRun) : Bool :=
  match r.status with
  | none => false
  | some (.ok, _) => false
  | _ => true

/-- Commands whose packets were lost complete LOST, those too that have written their DST and wait for their SRC to be delivered (R392, R399). -/
def State.loseCommands (s : State) (lost : EngineRun → Bool) : State :=
  s.engineRuns.foldl (fun s x =>
    if lost x.2 ∧ !x.2.failed then s.modEngine x.1 x.2.id fun r => { r with status := some (.lost, r.cmd.lostTrap) } else s) s

/-- The kernel of a SYS group of several packages faults with FCAUSE 0x30 (R392). -/
def State.loseGroup (s : State) (f run : Nat) : State :=
  match s.findRun f run with
  | some l => if l.remote then s.kernelFault f run cUCE 0 else s
  | none => s

/-- A SYS group's kernel faults in another package: its members here see FLT, those that are saved or start later too, and their exits name nothing
(R341). -/
def State.peerFault (s : State) (f run : Nat) : State :=
  match s.findRun f run with
  | some l => if l.remote then (s.modRun f run fun l => { l with faulted := true }).setFlt run else s
  | none => s

/-- The kernels of the SYS groups whose arrivals were lost. -/
def State.loseGroups (s : State) (lost : Nat → Bool) : State :=
  (List.range 4).foldl (fun s f => ((s.field f).lbs.filter fun l => lost l.run).foldl (fun s l => s.loseGroup f l.run) s) s

/-- Whether a packet of a run or command that used a route was lost beyond the package's own link: a free choice (log 24). -/
def State.lostBeyond (s : State) (id : Nat) : Bool := (Config.freeWord (s.draws + id)).getLsbD 0

/-- A flit of a route. -/
def Flit.of (f : Flit) (dest cls : Nat) : Bool := f.dest == dest && f.cls == BitVec.ofNat 4 cls

/-- Flits of a route that were lost with a link of the package. -/
def State.lostFlits (s : State) (dest cls : Nat) : List Flit := s.links.flatMap fun x => x.2.lost.filter fun f => f.of dest cls

/-- A route takes its alternate where one is given, with the flits that no link has taken yet. -/
def State.switchRoute (s : State) (dest cls : Nat) : State :=
  let r := s.route dest cls
  if r.alt.isNone then s
  else
    let waits := s.links.flatMap fun x => x.2.queue.filter fun f => f.of dest cls
    let t : State := { s with links := s.links.map fun (x : Nat × Link) => (x.1, { x.2 with queue := x.2.queue.filter fun f => !f.of dest cls }),
                              routes := tput s.routes (5 * dest + cls) { r with onAlt := true } }
    t.modLink (t.routeLink dest cls) fun l => ({ l with queue := l.queue ++ waits } : Link).intake

/-- ROUTE_SWITCH: a route that lost packets takes its alternate, where one is given; what they carried is accounted by their class. They were lost
with the package's own link, or, with that link up, further along the route. -/
def execRouteSwitch (dest cls : Nat) (s : State) : Host.Outcome State Fault Refusal :=
  let own := s.lostFlits dest cls
  let far := s.routeUp dest cls
  if 8192 ≤ dest ∨ 4 < cls ∨ dest = ownPackage ∨ (own.isEmpty ∧ (s.linkAt (s.routeLink dest cls)).state ≠ .down ∧ !far) then s.done
  else
    let lost := fun (id : Nat) => own.any fun f => f.owner == some id
    let lostRun := fun (r : EngineRun) => r.posted && r.dest == dest && (lost r.id || (r.status.isNone && far && s.lostBeyond r.id))
    let t : State := { s with links := s.links.map fun (x : Nat × Link) => (x.1, { x.2 with lost := x.2.lost.filter fun f => !f.of dest cls }) }
    let t := (t.drawn.switchRoute dest cls).grangerLog 5 (BitVec.ofNat 64 (5 * dest + cls))
    (match cls with
     | 0 => t.loseCommands fun x => x.cmd.kind == CmdKind.halo && lostRun x
     | 1 => t.loseCommands fun x => x.cmd.kind == CmdKind.red && lostRun x
     | 2 => t.loseGroups fun run => lost run || (far && s.lostBeyond run)
     | _ => t).done

end Sys2Proof.Machine
end

