-- ==== Sys2Proof/Machine/MatrixEvents.lean ====
section
/-! DEFINITION. Events of the matrix engine (07_tile.md R161, R168, R175). -/

namespace Sys2Proof.Machine

/-- A command is the oldest of its bank, no call or clear of the bank runs, and its time has come (R168). -/
def Core.eligible (c : Core) (now : Nat) (x : MatrixCmd) : Bool :=
  !(c.calls.any fun m => m.cmd.bank == x.bank) && (match x.op with
    | .call _ _ => decide (x.since + 2 ≤ now)
    | _ => true)

/-- The oldest command of the queue whose bank has no call running. -/
def Core.nextCommand (c : Core) : Option MatrixCmd := c.mq.find? fun x => !(c.calls.any fun m => m.cmd.bank == x.bank)

/-- A waiting call whose slots are present, or that the engine cannot serve: it resumes, and the error is met then (R168, R192). -/
def State.resumes (s : State) (k : Nat) (m : MatrixCall) : Bool :=
  let x := m.param
  let op := ((tget [] (s.core k).store m.routine.toNat).getD m.pc 0).extractLsb' 12 4
  let a := !s.engineBound k m.cmd.slot x.rba || s.slotPresent k m.cmd.slot x.rba 0
  let b := !s.engineBound k m.cmd.slot x.rbb || s.slotPresent k m.cmd.slot x.rbb (if op = 15 ∧ x.rba = x.rbb then 1 else 0)
  m.waits && (if op = 1 then a else if op = 2 then b else
    (a && b) || !s.engineBound k m.cmd.slot x.rba || !s.engineBound k m.cmd.slot x.rbb)

/-- The array, when free, goes to a waiting call whose slots have come, or takes the oldest eligible command (R168, R169). -/
def execMatrixCommandStart (k : Nat) (s : State) : Host.Outcome State Fault Refusal :=
  let c := s.core k
  if c.array.isSome ∨ c.clearing.isSome ∨ s.now < c.arrayAt then s.done
  else
    match c.calls.find? fun m => s.resumes k m with
    | some m => (s.modCore k fun c => { c with array := some m.cmd.bank }).done
    | none =>
      match c.nextCommand with
      | none => s.done
      | some x =>
        if !c.eligible s.now x then s.done
        else
          let s := s.modCore k fun c => { c with mq := c.mq.erase x }
          match x.op with
          | .call _ _ =>
            let m : MatrixCall := ⟨x, 0, false, false, 15, none, none, 0, 0, false, none, []⟩
            (s.modCore k fun c => { c with calls := c.calls ++ [m], array := some x.bank }).done
          | .zero => (s.modCore k fun c => { c with clearing := some (x.bank, true, s.now + 8), arrayAt := s.now + 8 }).done
          | .clear => (s.modCore k fun c => { c with clearing := some (x.bank, false, s.now + 8), arrayAt := s.now + 8 }).done

/-- The terms of the oldest MAC of a bank's call land; a call whose END ran in an earlier cycle completes with its last (R168, R170). -/
def execMacLand (k bank : Nat) (s : State) : Host.Outcome State Fault Refusal :=
  let a : Fin 4 := ⟨bank % 4, Nat.mod_lt _ (by decide)⟩
  match (s.core k).callOf a with
  | none => s.done
  | some m =>
    match m.macs with
    | [] => s.done
    | t :: ts =>
      if s.now < t.land then s.done
      else
        let s := s.modBank k a fun b => b.accumulate m.param t
        let m := { m with macs := ts }
        let s := s.setCall k a m
        (if m.over s.now && ts.isEmpty then s.completeCall k a m else s).done

/-- The bank's cursors are 0, in the checkpoint of its owner's region too: a discard finds them as the clear left them (R161, R176). -/
def Context.clearedCursors (c : Context) (a : Fin 4) : Context :=
  { c with region := { c.region with check := { c.region.check with cursors := c.region.check.cursors.set a (0, 0) } } }

/-- An mzero or a clear completes (R161, R173). -/
def execClearComplete (k bank : Nat) (s : State) : Host.Outcome State Fault Refusal :=
  let a : Fin 4 := ⟨bank % 4, Nat.mod_lt _ (by decide)⟩
  match (s.core k).clearing with
  | none => s.done
  | some (b, _, e) =>
    if b ≠ a ∨ s.now < e then s.done
    else
      let s := s.releaseHeld k a
      let s := match (s.core k).banks[a].owner with
        | some j => s.modCtx k j fun c => c.clearedCursors a
        | none => s
      let more := (s.core k).mq.any fun x => x.bank == a
      ((s.modBank k a fun b => b.cleared (if more then .busy else .empty)).modCore k fun c => { c with clearing := none }).done

/-- An uncorrectable error of a cell (R160, R171): a running call of the bank records it and stops. -/
def State.badCell (s : State) (k : Nat) (a : Fin 4) (n : Nat) : State :=
  if numCores ≤ k then s
  else
    let s := s.modBank k a fun b => { b with poisoned := n :: b.poisoned, uce := true }
    match (s.core k).callOf a with
    | some m => s.callError k a m cUCE
    | none => s

end Sys2Proof.Machine
end

