-- ==== Sys2Proof/Machine/MemoryEvents.lean ====
section
/-! DEFINITION. Walks, copies of CKPT pages, windrow fetches and merges, and the end of a Loft step (06_windrow.md R138, R151, 09_storage.md
R206 to R211, 11_page.md R248, R249, R260). -/

namespace Sys2Proof.Machine

/-! ## Walks and copies -/

/-- A KID by number. -/
def kidNum (n : Nat) : BitVec 8 := BitVec.ofNat 8 n

/-- Whether a context of a core translates under a KID. -/
def Core.translates (c : Core) (kid : BitVec 8) : Bool := c.ctx.toList.any fun x => x.state != .free && x.kid == kid

/-- PAGE_WALK_COMPLETE: a walk that succeeds for its access is cached; one that fails is not (R248). -/
def execPageWalkComplete (core kid va : Nat) (write : Bool) (s : State) : Host.Outcome State Fault Refusal :=
  let k := kidNum kid
  if 2 ^ 56 ≤ va ∨ loftBase ≤ va ∨ !(s.core core).translates k ∨ (s.kidEntry k).state ≠ .live then s.done
  else
    match s.walk k va with
    | .error _ => (s.meetWalk k va).done
    | .ok e =>
      let s := s.meetWalk k va
      match s.useLeaf (superWho k) (if write then .write else .read) va e with
      | .fault _ => s.done
      | _ => (s.drawn.modCore core fun c => { c with tlb := e :: c.tlb }).done

/-- CKPT_COPY_COMPLETE: the copy that a first write to a CLEAN page asked for, once the drop of the page's translations is complete (R258, R260).
Another write may have made it by then. -/
def execCkptCopyComplete (core kid va : Nat) (s : State) : Host.Outcome State Fault Refusal :=
  let q := (kidNum kid, va / 4096)
  if !(s.core core).copies.contains q then s.done
  else
    let s' := s.modCore core fun c => { c with copies := c.copies.filter fun x => x != q }
    match s.walk q.1 va with
    | .error _ => s'.done
    | .ok e =>
      if ptePr e.leaf ≠ 3 ∨ (s.frameError e).isSome then s'.done
      else if s.guestHolds e.covers then (s.dropGuest e.covers).done
      else if !s.dropDone e.kid e.covers then s.done
      else (s'.ckptCopy e).done

/-! ## Windrow fetches (R136, R138) -/

/-- A windrow number. -/
def winNum (n : Nat) : Fin 16 := ⟨n % 16, Nat.mod_lt _ (by decide)⟩

/-- Replaces a windrow of a slot. -/
def State.putWin (s : State) (k : Nat) (j : Fin 4) (w : Fin 16) (x : Windrow) : State :=
  s.modCtx k j fun c => { c with windrows := c.windrows.set w x }

/-- Bytes that a windrow reads for an element vector: a misaligned one is ALIGN at its address (R135). -/
def State.fetchBytes (s : State) (k : Nat) (j : Fin 4) (w : Fin 16) (d : WinDesc) (as : List Nat) : ReadResult × State :=
  if as.headD 0 % d.align ≠ 0 then (.trap ⟨cALIGN, info249 w.val 4 (as.headD 0)⟩, s)
  else State.readRunsFor k j w.val 4 false (lineRuns as) [] true s

/-- An element vector with its scale byte; none while its fetch waits. -/
def State.fetchElem (s : State) (k : Nat) (j : Fin 4) (w : Fin 16) (x : Windrow) (bytes : Nat) : Option (WinEntry × State) :=
  match s.fetchBytes k j w x.desc (x.addrs bytes) with
  | (.wait, _) => none
  | (.trap v, s) => some (⟨false, 0, 0, some v, [], false⟩, s)
  | (.ok bs _, s) =>
    let data := x.desc.load bs
    if !x.desc.scen then some (⟨false, data, 0, none, bs, false⟩, s)
    else
      match State.readRunsFor k j w.val 4 false [(x.desc.scaleAddr x.n, 1)] [] true s with
      | (.wait, _) => none
      | (.trap v, s) => some (⟨false, data, 0, some v, bs, false⟩, s)
      | (.ok b _, s) => some (⟨false, data, b.headD 0, none, bs, false⟩, s)

/-- Whether a slot holds a context that runs its windrows. -/
def Context.resident (c : Context) : Bool := c.state != .free && c.state != .loading

/-- WINDROW_FETCH: the next element vector of a read windrow that is ACTIVE, or BUSY with a merge, and has a fetch width, at most LA ahead of the
cursor; none while an atomic is out, which is an acquire (R231). -/
def execWindrowFetch (core slot w : Nat) (s : State) : Host.Outcome State Fault Refusal :=
  let j := slotNum slot
  let i := winNum w
  let c := s.ctxAt core j
  let x := c.windrows[i]
  let n := x.buf.length
  match x.width with
  | none => s.done
  | some bytes =>
    if !c.resident ∨ (x.state ≠ .active ∧ x.state ≠ .busy) ∨ c.atomicOut ∨ x.desc.dir ∨ x.desc.la.toNat ≤ n ∨ x.desc.total ≤ x.n + n then s.done
    else
      match s.fetchElem core j i (x.ahead n) bytes with
      | none => s.done
      | some (e, s) => (s.putWin core j i { x with buf := x.buf ++ [e] }).done

/-- An element vector as its fetch ends: granules that a run picks are read as the fetch ends, the others were read as it began; one that a wset has
made too old begins anew (R139, R227). -/
def Windrow.mixEntry (x : Windrow) (bytes : Nat) (pick : Nat → BitVec 8) (old new : WinEntry) : WinEntry :=
  if old.fault.isSome then { old with arrived := true }
  else if old.stale then new
  else if new.fault.isSome then { old with arrived := true }
  else
    let raw := ((x.addrs bytes).zip (old.raw.zip new.raw)).map fun y => if (pick (y.1 / 64)).getLsbD (y.1 % 64 / 8) then y.2.2 else y.2.1
    let scale := if (pick (x.desc.scaleAddr x.n / 64)).getLsbD (x.desc.scaleAddr x.n % 64 / 8) then new.scale else old.scale
    ⟨true, x.desc.load raw, scale, none, raw, false⟩

/-- WINDROW_FETCH_COMPLETE: the oldest fetch lands in the buffer; the cursor takes element vectors in order, so their landings do too. -/
def execWindrowFetchComplete (core slot w : Nat) (s : State) : Host.Outcome State Fault Refusal :=
  let j := slotNum slot
  let i := winNum w
  let x := (s.ctxAt core j).windrows[i]
  let n := (x.buf.takeWhile fun e => e.arrived).length
  match x.buf[n]?, x.width with
  | some e, some bytes =>
    match s.fetchElem core j i (x.ahead n) bytes with
    | none => s.done
    | some (y, t) => (t.drawn.putWin core j i { x with buf := x.buf.set n ((x.ahead n).mixEntry bytes s.pickGranules e y) }).done
  | _, _ => s.done

/-! ## Merges and counts (R151) -/

/-- The element at a cursor: the buffered one, or one fetched now; none while its fetch waits. -/
def State.mergeElem (s : State) (k : Nat) (j : Fin 4) (w : Fin 16) (x : Windrow) : Option (Except TrapVal Nat × Windrow × State) :=
  let give := fun (e : WinEntry) (x : Windrow) (s : State) => match e.fault with
    | some v => (Except.error v, x, s)
    | none => (Except.ok (e.data.toNat % 2 ^ 32), x, s)
  match x.buf.head?.filter fun e => !e.stale with
  | some e => some (give e x s)
  | none => (s.fetchElem k j w x 4).map fun r => give r.1 { x with buf := r.1 :: x.buf.drop 1 } r.2

/-- The cursor passes an element. -/
def Windrow.pass (x : Windrow) : Windrow := ({ x with buf := x.buf.drop 1 } : Windrow).advance

/-- How a merge ends. -/
inductive Merged where
  | ok (a b : Windrow) (cnt : Nat) (s : State)
  | fault (second : Bool) (v : TrapVal) (a b : Windrow) (s : State)
  | wait

/-- The loop of wisect, the windrows being ACTIVE or DONE (R151). -/
def State.mergeLoop (k : Nat) (j : Fin 4) (w : Fin 16) : Nat → Windrow → Windrow → Nat → State → Merged
  | 0, a, b, cnt, s => .ok a b cnt s
  | fuel + 1, a, b, cnt, s =>
    if a.state ≠ .active ∨ b.state ≠ .active then .ok a b cnt s
    else
      match s.mergeElem k j w a with
      | none => .wait
      | some (.error v, a, s) => .fault false v a b s
      | some (.ok x, a, s) =>
        match s.mergeElem k j (w + 1) b with
        | none => .wait
        | some (.error v, b, s) => .fault true v a b s
        | some (.ok y, b, s) =>
          if x < y then State.mergeLoop k j w fuel a.pass b cnt s
          else if y < x then State.mergeLoop k j w fuel a b.pass cnt s
          else State.mergeLoop k j w fuel a.pass b.pass (cnt + 1) s

/-- The loop of wicnt (R151). -/
def State.countLoop (k : Nat) (j : Fin 4) (w : Fin 16) (lo : Nat) : Nat → Windrow → Nat → State → Merged
  | 0, a, c, s => .ok a a c s
  | fuel + 1, a, c, s =>
    if a.state ≠ .active then .ok a a c s
    else
      match s.mergeElem k j w a with
      | none => .wait
      | some (.error v, a, s) => .fault false v a a s
      | some (.ok x, a, s) => if x < lo then State.countLoop k j w lo fuel a.pass (c + 1) s else .ok a a c s

/-- The state a windrow has outside a merge. -/
def Windrow.unbusy (x : Windrow) : Windrow := { x with merge := none, state := if x.n < x.desc.total then .active else .done }

/-- A merged windrow goes to its end, its elements passed unread. -/
def Windrow.toDone (x : Windrow) : Windrow := x.seek x.desc.total

/-- Element vectors that a windrow has still to deliver. -/
def Windrow.remaining (x : Windrow) : Nat := x.desc.total - x.n

/-- A step of a wisect or wicnt: the elements at its cursors are compared; a fault waits for its end. After an atomic it waits until that has
returned (R231, R240). -/
def State.mergeStep (s : State) (core slot w : Nat) : State :=
  let j := slotNum slot
  let i := winNum w
  let c := s.ctxAt core j
  let a := c.windrows[i]
  if !c.resident ∨ c.atomicOut then s
  else
    match a.merge with
    | some (.isect n) =>
      (match State.mergeLoop core j i 1 a.unbusy (c.windrows[i + 1]).unbusy n s with
       | .ok a b n s => (s.putWin core j i (a.begin (.isect n))).putWin core j (i + 1) (b.begin .partner)
       | _ => s)
    | some (.count lo n) =>
      (match State.countLoop core j i lo.toNat 1 a.unbusy n s with
       | .ok a _ n s => s.putWin core j i (a.begin (.count lo n))
       | _ => s)
    | _ => s

/-- WINDROW_MERGE_COMPLETE: a wisect or wicnt ends, after what it waits for as a step does; a fault it met is recorded on the windrow that met it,
and no count is written. -/
def execWindrowMergeComplete (core slot w : Nat) (s : State) : Host.Outcome State Fault Refusal :=
  let j := slotNum slot
  let i := winNum w
  let c := s.ctxAt core j
  let a := c.windrows[i]
  if !c.resident ∨ c.atomicOut then s.done
  else
    match a.merge with
    | some (.isect n) =>
      let b := c.windrows[i + 1]
      (match State.mergeLoop core j i (a.remaining + b.remaining + 1) a.unbusy b.unbusy n s with
       | .wait => s
       | .ok a b cnt s =>
         (s.putWin core j i { a.toDone with icnt := a.icnt + BitVec.ofNat 32 cnt }).putWin core j (i + 1) b.toDone
       | .fault second v a b s =>
         let a := a.unbusy
         let b := b.unbusy
         if second then (s.putWin core j i a).putWin core j (i + 1) { b with mergeFault := some v }
         else (s.putWin core j i { a with mergeFault := some v }).putWin core j (i + 1) b).done
    | some (.count lo seen) =>
      (match State.countLoop core j i lo.toNat (a.remaining + 1) a.unbusy seen s with
       | .wait => s
       | .ok a _ n s => s.putWin core j i { a with skc := BitVec.ofNat 32 n }
       | .fault _ v a _ s => s.putWin core j i { a.unbusy with mergeFault := some v }).done
    | _ => s.done

/-! ## Loft steps (R206, R210, R211) -/

/-- Bytes of a Loft step. -/
def loftStep : Nat := 0x40000

/-- Removes the bytes of a step: it reads as zero. -/
def dropStep (step : Nat) (m : Bytes) : Bytes := m.filter fun x => x.1 / loftStep != step

/-- The L1 loses the lines of its choice (R210, R224). -/
def State.loseLines (s : State) (k : Nat) : List CacheLine → State
  | [] => s
  | x :: xs => ((if Config.keepsLine s.draws then s else s.evict k x).drawn).loseLines k xs

/-- LOFT_STEP_GROW_COMPLETE: the step's dirty lines are written back, the step is zeroed, and SCR rises. -/
def execLoftStepGrowComplete (core : Nat) (s : State) : Host.Outcome State Fault Refusal :=
  match (s.core core).move with
  | some ⟨true, step, ends⟩ =>
    if s.now < ends then s.done
    else
      ((s.loseLines core (s.core core).l1).modCore core fun c =>
        { c with loft := dropStep step c.loft, scr := c.scr + 1, move := none }).done
  | _ => s.done

/-- LOFT_STEP_SHRINK_COMPLETE: the step's contents are discarded, and SCR falls. -/
def execLoftStepShrinkComplete (core : Nat) (s : State) : Host.Outcome State Fault Refusal :=
  match (s.core core).move with
  | some ⟨false, step, ends⟩ =>
    if (s.core core).scr ≤ s.loftFloor core then (s.modCore core fun c => { c with move := none }).done
    else if s.now < ends then s.done
    else (s.modCore core fun c => { c with loft := dropStep step c.loft, scr := c.scr - 1, move := none }).done
  | _ => s.done

end Sys2Proof.Machine
end

