-- ==== Sys2Proof/Machine/MicroOps.lean ====
section
/-! DEFINITION. The micro-operations of the matrix engine, run by the call that has the core's array (07_tile.md R166, R168, R169). -/

namespace Sys2Proof.Machine

/-- Runs a micro-operation of the call that has the array, once the array is free. -/
def State.micro (s : State) (f : Nat → Fin 4 → MatrixCall → State → State) : Host.Outcome State Fault Refusal :=
  let k := s.issue.core
  let c := s.core k
  match c.array with
  | none => s.done
  | some a =>
    match c.callOf a with
    | none => s.done
    | some m => if s.now < c.arrayAt then s.done else (f k a m s).done

/-- The call goes on with its next micro-operation after some array cycles. -/
def State.goOn (s : State) (k : Nat) (a : Fin 4) (m : MatrixCall) (cycles : Nat) : State :=
  (s.setCall k a { m with pc := m.pc + 1, waits := false }).modCore k fun c => { c with arrayAt := s.now + cycles }

/-- The call waits for a slot and gives the array up (R168). -/
def State.callWaits (s : State) (k : Nat) (a : Fin 4) (m : MatrixCall) : State :=
  (s.setCall k a { m with waits := true }).modCore k fun c => { c with array := none }

/-- The owner of a call. -/
def MatrixCall.slot (m : MatrixCall) : Fin 4 := m.cmd.slot

/-- The size of the A slot, and its kept positions where sparse. -/
def MxParam.sizeA (x : MxParam) : Nat := layoutSize x.fa x.rows x.sp

/-- The size of the B slot. -/
def MxParam.sizeB (x : MxParam) : Nat := layoutSize x.fb 64 0

/-- END: both slots are released; the call completes once its last MAC has landed. -/
def execUEnd (s : State) : Host.Outcome State Fault Refusal :=
  s.micro fun k a m s =>
    let dr := m.param.dr
    let s := (s.callRelease k a dr m.curA).callRelease k a dr m.curB
    (s.setCall k a { m with curA := none, curB := none, ended := some s.now }).modCore k fun c => { c with array := none, arrayAt := s.now + 1 }

/-- GETA: releases the current A slot and acquires the next, or waits. -/
def execUGeta (s : State) : Host.Outcome State Fault Refusal :=
  s.micro fun k a m s =>
    let x := m.param
    let s := s.callRelease k a x.dr m.curA
    let m := { m with curA := none }
    if !s.engineBound k m.slot x.rba then s.callError k a m cRINGERR
    else if !s.slotPresent k m.slot x.rba 0 then s.callWaits k a m
    else
      let (ok, h, s) := s.acquireSlot k m.slot x.rba x.sizeA (if x.sp = 0 then 0 else sparseN x.sp)
      let m := { m with curA := some h }
      if ok then s.goOn k a m 1 else s.callError k a m cRINGERR

/-- GETB. -/
def execUGetb (s : State) : Host.Outcome State Fault Refusal :=
  s.micro fun k a m s =>
    let x := m.param
    let s := s.callRelease k a x.dr m.curB
    let m := { m with curB := none }
    if !s.engineBound k m.slot x.rbb then s.callError k a m cRINGERR
    else if !s.slotPresent k m.slot x.rbb 0 then s.callWaits k a m
    else
      let (ok, h, s) := s.acquireSlot k m.slot x.rbb x.sizeB 0
      let m := { m with curB := some h }
      if ok then s.goOn k a m 1 else s.callError k a m cRINGERR

/-- GETAB: both at once. -/
def execUGetab (s : State) : Host.Outcome State Fault Refusal :=
  s.micro fun k a m s =>
    let x := m.param
    let s := (s.callRelease k a x.dr m.curA).callRelease k a x.dr m.curB
    let m := { m with curA := none, curB := none }
    if !s.engineBound k m.slot x.rba || !s.engineBound k m.slot x.rbb then s.callError k a m cRINGERR
    else if !s.slotPresent k m.slot x.rba 0 || !s.slotPresent k m.slot x.rbb (if x.rba = x.rbb then 1 else 0) then s.callWaits k a m
    else
      let (okA, h, s) := s.acquireSlot k m.slot x.rba x.sizeA (if x.sp = 0 then 0 else sparseN x.sp)
      let (okB, g, s) := s.acquireSlot k m.slot x.rbb x.sizeB 0
      let m := { m with curA := some h, curB := some g }
      if okA && okB then s.goOn k a m 1 else s.callError k a m cRINGERR

/-- MAC: the terms of the current slot pair land 12 cycles after the MAC's last array cycle. -/
def execUMac (s : State) : Host.Outcome State Fault Refusal :=
  s.micro fun k a m s =>
    let x := m.param
    match m.curA, m.curB with
    | some h, some g =>
      let t : MacTerms := ⟨0, s.slotData k h x.sizeA, s.slotData k g x.sizeB, m.km, m.neg, m.cs⟩
      let n := t.cycles x
      s.goOn k a { m with macs := m.macs ++ [{ t with land := s.now + n - 1 + 12 }] } n
    | _, _ => s.callError k a m cRINGERR

/-- RELA. -/
def execURela (s : State) : Host.Outcome State Fault Refusal :=
  s.micro fun k a m s => (s.callRelease k a m.param.dr m.curA).goOn k a { m with curA := none } 1

/-- RELB. -/
def execURelb (s : State) : Host.Outcome State Fault Refusal :=
  s.micro fun k a m s => (s.callRelease k a m.param.dr m.curB).goOn k a { m with curB := none } 1

/-- LOOPK: the loop starts after it and runs KSL passes. -/
def execULoopk (s : State) : Host.Outcome State Fault Refusal :=
  s.micro fun k a m s => s.goOn k a { m with top := m.pc + 1, left := m.param.ksl } 1

/-- ENDL: back to the loop's start while passes are left. -/
def execUEndl (s : State) : Host.Outcome State Fault Refusal :=
  s.micro fun k a m s =>
    if 1 < m.left then
      (s.setCall k a { m with left := m.left - 1, pc := m.top }).modCore k fun c => { c with arrayAt := s.now + 1 }
    else s.goOn k a { m with left := m.left - 1 } 1

/-- CSON. -/
def execUCson (s : State) : Host.Outcome State Fault Refusal := s.micro fun k a m s => s.goOn k a { m with cs := true } 1

/-- CSOFF. -/
def execUCsoff (s : State) : Host.Outcome State Fault Refusal := s.micro fun k a m s => s.goOn k a { m with cs := false } 1

/-- ZERO: cells and checksums are +0 after the MACs before it. -/
def execUZero (s : State) : Host.Outcome State Fault Refusal :=
  s.micro fun k a m s =>
    let s := (s.landAll k a m).modBank k a fun b => { b with cells := [], rp := [], cp := [] }
    s.goOn k a { m with macs := m.macs.map fun t => { t with km := 0, cs := false } } 8

/-- SUB: later MACs subtract, or add. -/
def execUSub (z : Bool) (s : State) : Host.Outcome State Fault Refusal := s.micro fun k a m s => s.goOn k a { m with neg := z } 1

/-- KMASK: the K-blocks of later MACs. -/
def execUKmask (z : BitVec 4) (s : State) : Host.Outcome State Fault Refusal := s.micro fun k a m s => s.goOn k a { m with km := z } 1

/-- TAG: the bank's TAG. -/
def execUTag (t : BitVec 8) (s : State) : Host.Outcome State Fault Refusal :=
  s.micro fun k a m s => (s.modBank k a fun b => { b with tag := t }).goOn k a m 1

/-- NOP. -/
def execUNop (s : State) : Host.Outcome State Fault Refusal := s.micro fun k a m s => s.goOn k a m 1

end Sys2Proof.Machine
end

