-- ==== Sys2Proof/Machine/Permute.lean ====
section
/-! DEFINITION. Permutes and masks VPM (05_vector.md R123 to R125). -/

namespace Sys2Proof.Machine

def execVmov (w : Width) (d a : VOp) (s : State) : Host.Outcome State Fault Refusal := s.vec1 w d a id 2

/-- Byte i of the result is the byte of a that byte i of b names, or zero. -/
def permBytes (bits : Nat) (a b : Vec) : Vec :=
  ofLanes 8 ((lanes 8 (bits / 8) b).map fun x => if x.getLsbD 7 then 0 else a.extractLsb' (8 * (x.toNat % (bits / 8))) 8)

/-- Elements of a and b in turn, for the lower half of each. -/
def zipLanes (bits : Nat) (a b : Vec) : Vec :=
  ofLanes 32 ((List.range (bits / 32)).map fun i => (if i % 2 = 0 then a else b).extractLsb' (32 * (i / 2)) 32)

/-- The even elements of a, then those of b. -/
def unzipLanes (bits : Nat) (a b : Vec) : Vec :=
  let n := bits / 32
  ofLanes 32 ((List.range n).map fun i => if i < n / 2 then a.extractLsb' (64 * i) 32 else b.extractLsb' (64 * (i - n / 2)) 32)

/-- Element i goes to place (i + c) mod n. -/
def rotLanes (c bits : Nat) (a : Vec) : Vec :=
  let n := bits / 32
  ofLanes 32 ((List.range n).map fun i => a.extractLsb' (32 * ((i + n - c % n) % n)) 32)

/-- Byte i from a where bit i of the mask is 1, else from b. -/
def selBytes (k : Mask) (bits : Nat) (a b : Vec) : Vec :=
  ofLanes 8 ((List.range (bits / 8)).map fun i => (if k.getLsbD i then a else b).extractLsb' (8 * i) 8)

def execVperm (w : Width) (d a b : VOp) (s : State) : Host.Outcome State Fault Refusal := s.vec2 w d a b (permBytes w.bits) 3
def execVzip (w : Width) (d a b : VOp) (s : State) : Host.Outcome State Fault Refusal := s.vec2 w d a b (zipLanes w.bits) 2
def execVunzip (w : Width) (d a b : VOp) (s : State) : Host.Outcome State Fault Refusal := s.vec2 w d a b (unzipLanes w.bits) 2
def execVrotl (w : Width) (d a : VOp) (c : BitVec 5) (s : State) : Host.Outcome State Fault Refusal := s.vec1 w d a (rotLanes c.toNat w.bits) 2
def execVsel (w : Width) (j : Fin 8) (d a b : VOp) (s : State) : Host.Outcome State Fault Refusal :=
  s.vec2 w d a b (selBytes (s.getK j) w.bits) 2

def execViota (w : Width) (d : VOp) (s : State) : Host.Outcome State Fault Refusal :=
  (s.writeV d w.bits (ofLanes 32 ((List.range (w.bits / 32)).map (BitVec.ofNat 32))) 2).done

/-- The scalar's low e bits in every e-bit element (R124). -/
def spread (e bits : Nat) (x : Word) : Vec := ofLanes e (List.replicate (bits / e) (x.setWidth e))

/-- idx 0 to 3 select elements of 8, 16, 32 and 64 bits; another idx is illegal (R124). -/
def execVbc (w : Width) (d : VOp) (i : BitVec 4) (a : Src) (s : State) : Host.Outcome State Fault Refusal :=
  if 4 ≤ i.toNat then s.illop.done else (s.writeV d w.bits (spread (8 * 2 ^ i.toNat) w.bits (s.src a)) 2).done

/-- Replaces 64-bit lane j of the old destination (R124). -/
def execVins (w : Width) (d : VOp) (j : BitVec 4) (a : Src) (s : State) : Host.Outcome State Fault Refusal :=
  match d with
  | .win _ => s.illop.done
  | .reg r =>
    if w.bits / 64 ≤ j.toNat then s.illop.done
    else (s.writeV d w.bits (ofLanes 64 ((lanes 64 (w.bits / 64) (s.getV r)).set j.toNat (s.src a))) 2).done

/-- 64-bit lane j to a scalar register (R124). -/
def execVext (w : Width) (d : SReg) (a : VOp) (j : BitVec 4) (s : State) : Host.Outcome State Fault Refusal :=
  if w.bits / 64 ≤ j.toNat then s.illop.done
  else
    match s.readV a w.bits with
    | .stop t => t.done
    | .ok x t => (t.putS d (x.extractLsb' (64 * j.toNat) 64) 2).done

/-! ## Masks (R125) -/

def execKand (k a b : Fin 8) (s : State) : Host.Outcome State Fault Refusal := (s.put (.k k (s.getK a &&& s.getK b)) 2).done
def execKor (k a b : Fin 8) (s : State) : Host.Outcome State Fault Refusal := (s.put (.k k (s.getK a ||| s.getK b)) 2).done
def execKxor (k a b : Fin 8) (s : State) : Host.Outcome State Fault Refusal := (s.put (.k k (s.getK a ^^^ s.getK b)) 2).done
def execKnot (k a : Fin 8) (s : State) : Host.Outcome State Fault Refusal := (s.put (.k k (~~~ s.getK a)) 2).done
def execKfroms (k : Fin 8) (h : Bool) (a : Src) (s : State) : Host.Outcome State Fault Refusal :=
  (s.put (.k k ((s.src a).setWidth 128 <<< (if h then 64 else 0))) 2).done
def execKtos (a : Fin 8) (h : Bool) (d : SReg) (s : State) : Host.Outcome State Fault Refusal :=
  (s.putS d ((s.getK a).extractLsb' (if h then 64 else 0) 64) 2).done

end Sys2Proof.Machine
end

