-- ==== Sys2Proof/Machine/Sequencer.lean ====
section
/-! DEFINITION. The Step Sequencer: its nodes, its doorbell, its waits and the takeover (18_step.md R353 to R369). -/

namespace Sys2Proof.Machine

/-! ## Parts -/

/-- Who the SSQ is to translation (R353). -/
def State.ssqWho (s : State) : Who := superWho s.ssq.kid

/-- The node in progress ends, and the next lies at node + 32 (R360). -/
def State.ssqNext (s : State) : State := s.nodeEnds s.ssq.cur (s.ssq.cur + 32)

/-- The node waits (R355). -/
def State.ssqWait (s : State) (w : SsqWait) : State := { s with ssq := { s.ssq with state := .waiting, waiting := some w } }

/-- The node's step registers are written to every copy before it ends (R358). -/
def State.ssqWrites (s : State) (ws : List (Fin 17 × Word)) : State :=
  { s with ssq := { s.ssq.beginWrites ws with ending := some s.ssq.cur, cur := s.ssq.cur + 32 } }

/-- The address of a step's schedule row. -/
def State.rowAddr (s : State) (step : Nat) : Nat := (s.ssq.sched.toNat + 32 * step) % 2 ^ 64

/-- The schedule row of a step: the writes it makes, or the cause with the row's address (R359). -/
def State.scheduleRow (s : State) (step : Nat) : Except (Cause × Nat) (List (Fin 17 × Word)) :=
  let a := s.rowAddr step
  match s.vaWords s.ssqWho a 4 with
  | .error (c, _) => .error (c, a)
  | .ok w =>
    if recBits w 127 96 ≠ 0 ∨ recBits w 63 56 ≠ 0 then .error (cILLOP, a)
    else
      let f := fun hi lo => BitVec.ofNat 64 (recBits w hi lo)
      .ok [(2, f 63 0), (3, f 95 64), (5, f 159 128), (6, f 191 160), (7, f 223 192), (8, f 255 224)]

/-- The Cribs meet the read of a schedule row that a step below STEPS makes (R219). -/
def State.meetRow (s : State) (steps step : Nat) : State := if step < steps then s.meetVa s.ssqWho (s.rowAddr step) 32 else s

/-- The low 32 bits of a step register. -/
def Ssq.low (q : Ssq) (r : Fin 17) : Nat := q.step[r].toNat % 2 ^ 32

/-! ## LAUNCH (R362) -/

/-- LB STATE codes that RE waits for. -/
def rearmable (code : Nat) : Bool := code == 0 || code == 7 || code == 8 || code == 9

/-- A launch block joins the launch list and the node ends. -/
def State.launched (s : State) (grp : Fin 16) (lb : BitVec 56) : State :=
  ({ s with ssq := { s.ssq with launch := s.ssq.launch ++ [(lb, grp)] } } : State).ssqNext

/-- Writes the word of JOIN and STATE; the cause with the launch block's address where it cannot be written. -/
def State.ssqPutWord (s : State) (lb : BitVec 56) (w : Word) (f : State → State) : State :=
  match s.vaWrite s.ssqWho (lb.toNat + lbWordOff) (leBytes 8 w.toNat) with
  | .error (c, _) => s.ssqFault c lb.toNat
  | .ok s => f s

/-- The enq of LAUNCH: the WRITTEN row of R309 on the word as the re-arm leaves it. DEDUCED: a full launch list faults with the launch block's
address, as R362's other faults (log 37). -/
def State.ssqEnq (s : State) (q : Fin 64) (grp : Fin 16) (lb : BitVec 56) (ws : List Word) (w : Word) : State :=
  if 9 < wordState w then s.ssqFault cILLOP lb.toNat
  else if 1024 ≤ s.ssq.launch.length then s.ssqFault cILLOP lb.toNat
  else if wordState w ≠ 0 then s.launched grp lb
  else if wordJoin w ≠ 0 then
    s.ssqPutWord lb ((joinWord w (wordJoin w) 1 &&& ~~~ 0x3F00000000#64) ||| BitVec.ofNat 64 (q.val * 2 ^ 32)) fun s => s.launched grp lb
  else
    match s.openQueue (lbQf ws) q with
    | none => s.ssqFault cILLOP lb.toNat
    | some t =>
      let w := joinWord w 0 2
      match t.vaWrite t.ssqWho (lb.toNat + lbWordOff) (leBytes 8 w.toNat) with
      | .error (c, _) => s.ssqFault c lb.toNat
      | .ok t => (t.arrive (lbWith ws w) lb.toNat t.ssq.kid q .ssq).ssqWait (.arrival grp lb (wordAt ws 10))

/-- LAUNCH, tried until the launch block can be re-armed. A node that would add a 1,025th entry faults before it has any effect (R368). -/
def State.ssqLaunch (s : State) (q : Fin 64) (grp : Fin 16) (re : Bool) (lb : BitVec 56) (join : BitVec 16) : State :=
  match s.vaWords s.ssqWho lb.toNat 16 with
  | .error (c, _) => s.ssqFault c lb.toNat
  | .ok ws =>
    let w := wordAt ws 10
    let s := s.meetVa s.ssqWho lb.toNat 128
    if re && !rearmable (wordState w) then s.ssqWait (.launch q grp re lb join)
    else if re && wordState w == 9 then s.ssqFault (BitVec.ofNat 8 (recBits ws 671 664)) lb.toNat
    else if lbInvalid ws then s.ssqFault cILLOP lb.toNat
    else
      let w := if re && wordState w != 0 then joinWord w join.toNat 0 else w
      s.ssqEnq q grp lb ws w

def execNodeLaunch (q : Fin 64) (grp : Fin 16) (re : Bool) (lb : BitVec 56) (join : BitVec 16) (s : State) : Host.Outcome State Fault Refusal :=
  (s.ssqLaunch q grp re lb join).done

/-! ## WAITK (R363) -/

/-- The first entry of the launch list that WAITK faults on or waits for: none when every one has finished. -/
def State.waitkTest (s : State) (mask : BitVec 16) : List (BitVec 56 × Fin 16) → Except (Cause × Nat) Bool
  | [] => .ok true
  | (lb, grp) :: rest =>
    if mask ≠ 0 ∧ !mask.getLsbD grp.val then s.waitkTest mask rest
    else
      match s.vaWord s.ssqWho (lb.toNat + lbWordOff) with
      | .error (c, _) => .error (c, lb.toNat)
      | .ok w =>
        if wordState w = 9 then .error (BitVec.ofNat 8 (w.toNat / 2 ^ 24), lb.toNat)
        else
          match s.waitkTest mask rest with
          | .error e => .error e
          | .ok b => .ok (b && (wordState w == 7 || wordState w == 8))

/-- The Cribs meet the reads of WAITK (R219). -/
def State.meetWaitk (s : State) (mask : BitVec 16) : State :=
  s.ssq.launch.foldl (fun s x => if mask ≠ 0 ∧ !mask.getLsbD x.2.val then s else s.meetVa s.ssqWho (x.1.toNat + lbWordOff) 8) s

/-- WAITK, tried until every entry has finished. -/
def State.ssqWaitk (s : State) (mask : BitVec 16) : State :=
  match s.waitkTest mask s.ssq.launch with
  | .error (c, a) => s.ssqFault c a
  | .ok true => (s.meetWaitk mask).ssqNext
  | .ok false => (s.meetWaitk mask).ssqWait (.waitk mask)

def execNodeWaitk (gmask : BitVec 16) (s : State) : Host.Outcome State Fault Refusal := (s.ssqWaitk gmask).done

/-! ## STEP, COND, SETR, FENCE and STOP (R364, R365, R367) -/

def execNodeStep (s : State) : Host.Outcome State Fault Refusal :=
  let n := (s.ssq.low 0 + 1) % 2 ^ 32
  let row : Except (Cause × Nat) (List (Fin 17 × Word)) := if n < s.ssq.low 1 then s.scheduleRow n else .ok []
  match row with
  | .error (c, a) => (s.ssqFault c a).done
  | .ok ws => (({ s.meetRow (s.ssq.low 1) n with ssq := { s.ssq with launch := [] } } : State).ssqWrites ((0, BitVec.ofNat 64 n) :: ws)).done

/-- The comparisons of COND. -/
def condHolds (op : Fin 8) (x b : Word) : Bool :=
  let fx := fp32.unpack (x.toNat % 2 ^ 32)
  let fb := fp32.unpack (b.toNat % 2 ^ 32)
  match op.val with
  | 0 => x == b
  | 1 => x != b
  | 2 => decide (x.toNat < b.toNat)
  | 3 => decide (b.toNat ≤ x.toNat)
  | 4 => !fx.isNan && !fb.isNan && fLess fx fb
  | 5 => !fx.isNan && !fb.isNan && !fLess fx fb
  | 6 => x &&& b == 0
  | _ => x &&& b != 0

/-- A step register named by a number in a word. -/
def Ssq.byNumber (q : Ssq) (n : Nat) : Word := if h : n < 17 then q.step[(⟨n, h⟩ : Fin 17)] else 0

def execNodeCond (src : Bool) (sreg : Fin 17) (op : Fin 8) (breg : Bool) (mem b : BitVec 64) (target : BitVec 56) (s : State) :
    Host.Outcome State Fault Refusal :=
  let x : Except (Cause × Nat) Word := if src then s.vaWord s.ssqWho mem.toNat else .ok s.ssq.step[sreg]
  match x with
  | .error (c, _) => (s.ssqFault c s.ssq.cur.toNat).done
  | .ok x =>
    let b := if breg then s.ssq.byNumber b.toNat else b
    let s := if src then s.meetVa s.ssqWho mem.toNat 8 else s
    if condHolds op x b then (s.nodeEnds s.ssq.cur target).done else s.ssqNext.done

def execNodeSetr (sreg : Fin 17) (value : BitVec 64) (s : State) : Host.Outcome State Fault Refusal :=
  (s.ssqWrites [(sreg, stepValue sreg value)]).done

/-- The SSQ's writes go to their homes as it makes them, and it keeps no copies: FENCE finds nothing to wait for (R367). -/
def execNodeFence (_scope : Scope) (s : State) : Host.Outcome State Fault Refusal := s.ssqNext.done

def execNodeStop (code : BitVec 16) (s : State) : Host.Outcome State Fault Refusal := (s.ssqNext.ssqStop code).done

/-! ## POST (R366) -/

/-- POST, tried until the ring has room. -/
def State.ssqPost (s : State) (ring : Fin 16) (tag : BitVec 16) (payload : BitVec 64) : State :=
  let data : Except (Cause × Nat) (List Word) := if payload = 0 then .ok (List.replicate 7 0) else s.vaWords s.ssqWho payload.toNat 7
  match data with
  | .error (c, _) => s.ssqFault c payload.toNat
  | .ok ws =>
    let s := if payload = 0 then s else s.meetVa s.ssqWho payload.toNat 56
    if s.postWaits ring then s.ssqWait (.post ring tag payload)
    else (s.postEntry ring (BitVec.ofNat 64 (2 ^ 48 + tag.toNat * 2 ^ 32 + s.ssq.low 0) :: ws)).ssqNext

def execNodePost (ring : Fin 16) (tag : BitVec 16) (payload : BitVec 64) (s : State) : Host.Outcome State Fault Refusal :=
  (s.ssqPost ring tag payload).done

/-! ## The doorbell (R354 to R356) -/

/-- Ranges of the control block that are zero. -/
def ssqReserved : List (Nat × Nat) := [(511, 448), (383, 376), (319, 304), (279, 276), (271, 266), (127, 120), (63, 56)]

/-- A block that R355 finds invalid. -/
def State.ssqBlockBad (s : State) (w : List Word) : Bool :=
  ssqReserved.any (fun r => recBits w r.1 r.2 != 0) || recBits w 55 0 % 32 != 0 || recBits w 119 64 % 32 != 0 ||
  (s.kidEntry (BitVec.ofNat 8 (recBits w 263 256))).state != .live

/-- The start (R356): the registers of step 1 are written whether or not the row of step 2 can be read, and the launch list is emptied after it. -/
def State.ssqStart (s : State) (w : List Word) : State :=
  let word := fun hi lo => BitVec.ofNat 64 (recBits w hi lo)
  let q := { s.ssq with cur := BitVec.ofNat 56 (recBits w 55 0), sched := BitVec.ofNat 56 (recBits w 119 64),
                        kid := BitVec.ofNat 8 (recBits w 263 256), ending := none }
  let s := ({ s with ssq := q } : State).ssqTo .running
  let first : List (Fin 17 × Word) := [(0, word 191 160), (1, word 159 128), (4, word 255 192), (9, 0), (10, 0), (11, 0), (12, 0), (13, 0), (14, 0), (15, 0), (16, 0)]
  let row : Except (Cause × Nat) (List (Fin 17 × Word)) :=
    if recBits w 191 160 < recBits w 159 128 then s.scheduleRow (recBits w 191 160) else .ok [(2, 0), (3, 0), (5, 0), (6, 0), (7, 0), (8, 0)]
  match row with
  | .error (c, a) => ({ s with ssq := s.ssq.beginWrites first } : State).ssqFault c a
  | .ok ws => { s.meetRow (recBits w 159 128) (recBits w 191 160) with ssq := { s.ssq.beginWrites (first ++ ws) with launch := [] } }

/-- An arrival of the SSQ is of a launch block. -/
def Arrival.ofSsq (a : Arrival) (lb : BitVec 56) : Bool :=
  match a.sender with
  | .ssq => a.addr == lb.toNat
  | _ => false

/-- An arrival of the SSQ still waits at its queue. -/
def State.ssqArrivalWaits (s : State) (lb : BitVec 56) : Bool := allFields.any fun f => (s.field f).arrivals.any fun a => a.ofSsq lb

/-- The wait of the running node is abandoned with no effect (R355): an arrival at a full queue is withdrawn, and its launch block's word is what
the LAUNCH found. A LAUNCH whose arrival has been taken completes its effect. -/
def State.ssqAbandon (s : State) : State :=
  match s.ssq.waiting with
  | some (.arrival grp lb w) =>
    if !s.ssqArrivalWaits lb then s.launched grp lb
    else allFields.foldl (fun s f =>
      match (s.field f).arrivals.find? fun a => a.ofSsq lb with
      | none => s
      | some a =>
        let s := (s.modField f fun fd => { fd with arrivals := fd.arrivals.erase a }).closeQueue f a.queue
        match s.vaWrite s.ssqWho (lb.toNat + lbWordOff) (leBytes 8 w.toNat) with
        | .ok s => s
        | .error _ => s) s
  | _ => s

/-- The SSQ doorbell rings (R355). A write of step registers in progress completes before the SSQ starts or stops. -/
def State.ssqRung (s : State) : State :=
  if s.granger.state ≠ .ready then s
  else
    let w := s.physWords s.config.sqblk 8
    let s := s.meetPhys s.config.sqblk 64
    let go := recBits w 264 264 == 1
    let runs := s.ssq.state == .running || s.ssq.state == .waiting
    let settle := fun (s : State) => if s.ssq.writes = [] then s else s.copyAllSteps.endWrites
    if go && !runs then
      if s.ssqBlockBad w then s.ssqFault cILLOP s.config.sqblk else (settle s).ssqStart w
    else if !go && runs then (settle s).ssqAbandon.ssqStop 0xFFFF
    else s

/-- SSQ_DOORBELL. -/
def execSsqDoorbell (s : State) : Host.Outcome State Fault Refusal := s.ssqRung.done

/-- SSQ_WAIT_SATISFIED: the waiting node is tried again (R355). -/
def execSsqWaitSatisfied (s : State) : Host.Outcome State Fault Refusal :=
  match s.ssq.waiting with
  | none => s.done
  | some (.launch q grp re lb join) => (s.ssqLaunch q grp re lb join).done
  | some (.waitk mask) => (s.ssqWaitk mask).done
  | some (.post ring tag payload) => (s.ssqPost ring tag payload).done
  | some (.arrival grp lb _) =>
    if s.ssqArrivalWaits lb then s.done else (s.launched grp lb).done

/-- SSQ_TAKEOVER: the standby of an SSQ that runs or waits (R355), with the step registers of its own field's copy (R369). A swr that the active
SSQ had begun is received again. -/
def execSsqTakeover (s : State) : Host.Outcome State Fault Refusal :=
  if s.ssq.second ∨ s.granger.state ≠ .ready ∨ (s.ssq.state ≠ .running ∧ s.ssq.state ≠ .waiting) then s.done
  else
    let again := match s.ssq.asker with
      | some a => a :: s.ssq.asks
      | none => s.ssq.asks
    let q := { s.ssq with step := (s.field 2).step, writes := [], oldCores := [], oldFields := [], ending := none, asker := none,
                          asks := again, second := true }
    (({ s with ssq := q } : State).ssqTo .taken).done

end Sys2Proof.Machine
end

