-- ==== Sys2Proof/Machine/Platform.lean ====
section
/-! DEFINITION. The Granger and the host: boot, power, mailboxes, BAR0, CXL.mem, COH requests and the dump (10_line.md R243, 20_link.md R393 to
R395, 21_yoke.md R411, 22_platform.md R416 to R423). -/

namespace Sys2Proof.Machine

/-! ## Boot (R416 to R418) -/

/-- The areas that the record places, with their sizes: base and bytes (R417). -/
def ConfigRecord.areas (c : ConfigRecord) : List (Nat × Nat) :=
  [(c.qtab, 0x4000), (c.hrtab, 0x400), (c.sqblk, 64), (c.gqtab, 512), (c.dmbxpn * 4096, 4096), (c.psave, 0xA00000), (c.dump, 0x100000000),
   (c.cxlbase, c.cxllen)]

/-- An area of HBM: within one field's HBM. -/
def inHbm (a : Nat × Nat) : Bool :=
  decide (a.1 / 0x10000000000 < 4 ∧ a.1 % 0x10000000000 + a.2 ≤ 0x9000000000)

/-- Areas that do not meet. -/
def apart (a b : Nat × Nat) : Bool := decide (a.2 = 0 ∨ b.2 = 0 ∨ a.1 + a.2 ≤ b.1 ∨ b.1 + b.2 ≤ a.1)

/-- Every two areas of a list are apart. -/
def allApart : List (Nat × Nat) → Bool
  | [] => true
  | a :: as => as.all (apart a) && allApart as

/-- The record's checks (R417). -/
def ConfigRecord.valid (c : ConfigRecord) : Bool :=
  c.magic == 0x47464E43#32 && c.ver == 1 && c.rsv == 0 && decide (300 ≤ c.plim ∧ c.plim ≤ 3000) && (!c.form || c.plim == 3000) &&
  decide (4 ≤ c.gcarve ∧ c.gcarve ≤ 32) && decide (16 ≤ c.winlg ∧ c.winlg ≤ 24) && decide (70 ≤ c.t1 ∧ c.t1 ≤ 100) &&
  decide (c.t1 + 5 ≤ c.t2 ∧ c.t2 ≤ 104) && c.qtab % 64 == 0 && c.hrtab % 64 == 0 && c.sqblk % 64 == 0 && c.gqtab % 64 == 0 &&
  c.psave % 8192 == 0 && c.dump % 0x40000000 == 0 && c.cxlbase % 0x40000000 == 0 && c.cxllen % 0x40000000 == 0 &&
  decide (c.hostoff * 2 ^ 30 + 2 ^ 41 - 1 ≤ 2 ^ 64 - 1) && c.areas.all inHbm && allApart c.areas

/-- The record as its 96 bytes give it (R417). -/
def ConfigRecord.ofNat (x : Nat) : ConfigRecord where
  rtoff := BitVec.ofNat 64 (x / 2 ^ 704)
  cxllen := x / 2 ^ 640 % 2 ^ 64
  cxlbase := x / 2 ^ 576 % 2 ^ 64
  dump := x / 2 ^ 512 % 2 ^ 64
  psave := x / 2 ^ 448 % 2 ^ 64
  gqtab := x / 2 ^ 384 % 2 ^ 64
  sqblk := x / 2 ^ 320 % 2 ^ 64
  hrtab := x / 2 ^ 256 % 2 ^ 64
  qtab := x / 2 ^ 192 % 2 ^ 64
  hostoff := x / 2 ^ 158 % 2 ^ 34
  dmbxpn := x / 2 ^ 127 % 2 ^ 31
  t2 := x / 2 ^ 94 % 2 ^ 7
  t1 := x / 2 ^ 87 % 2 ^ 7
  winlg := x / 2 ^ 82 % 2 ^ 5
  gcarve := x / 2 ^ 76 % 2 ^ 6
  plim := x / 2 ^ 64 % 2 ^ 12
  form := x / 2 ^ 40 % 2 == 1
  ver := BitVec.ofNat 8 (x / 2 ^ 32)
  magic := BitVec.ofNat 32 x
  rsv := x / 2 ^ 101 % 2 ^ 26 * 2 ^ 23 + x / 2 ^ 41 % 2 ^ 23

/-- The 96 bytes of a record. -/
def ConfigRecord.bytes (c : ConfigRecord) : List Byte :=
  leBytes 96 (c.rtoff.toNat * 2 ^ 704 + c.cxllen * 2 ^ 640 + c.cxlbase * 2 ^ 576 + c.dump * 2 ^ 512 + c.psave * 2 ^ 448 + c.gqtab * 2 ^ 384 +
    c.sqblk * 2 ^ 320 + c.hrtab * 2 ^ 256 + c.qtab * 2 ^ 192 + c.hostoff * 2 ^ 158 + c.dmbxpn * 2 ^ 127 + c.rsv / 2 ^ 23 * 2 ^ 101 + c.t2 * 2 ^ 94 +
    c.t1 * 2 ^ 87 + c.winlg * 2 ^ 82 + c.gcarve * 2 ^ 76 + c.plim * 2 ^ 64 + c.rsv % 2 ^ 23 * 2 ^ 41 + (if c.form then 2 ^ 40 else 0) +
    c.ver.toNat * 2 ^ 32 + c.magic.toNat)

/-- The route table's bytes, by their places in it (R418): 8,192 × 5 entries of 4 bytes at RTOFF. -/
def Granger.routeBytes (g : Granger) : List (Nat × Byte) :=
  g.table.filterMap fun x => if g.record.rtoff.toNat ≤ x.1 ∧ x.1 < g.record.rtoff.toNat + 4 * 40960 then some (x.1 - g.record.rtoff.toNat, x.2) else none

/-- Bits [31:9] of every entry are zero. -/
def Granger.tableOk (g : Granger) : Bool :=
  g.routeBytes.all fun x => if x.1 % 4 = 0 then true else if x.1 % 4 = 1 then decide (x.2.toNat ≤ 1) else x.2 == 0

/-- A route as its entry gives it (R418). -/
def Route.ofEntry (e : Nat) : Route := ⟨BitVec.ofNat 4 e, if e / 2 ^ 8 % 2 = 1 then some (BitVec.ofNat 4 (e / 2 ^ 4)) else none, false⟩

/-- The routes of a table that are not all zero, by 5p + c. -/
def Granger.routes (g : Granger) : Table Route :=
  let bs := g.routeBytes
  (bs.map fun x => x.1 / 4).foldl (fun t k => tput t k (Route.ofEntry (((List.range 4).map fun i =>
    ((bs.filter fun x => x.1 == 4 * k + i).map fun x => x.2.toNat * 2 ^ (8 * i)).sum).sum))) []

/-- Stage 3: the record and the route table in flash pass their checks (R416 to R418). -/
def Granger.recordOk (g : Granger) : Bool := g.record.valid && g.tableOk

/-- The record and the routes come from flash. -/
def State.loadRecord (s : State) : State := { s with config := s.granger.record, routes := s.granger.routes }

/-- Flash is written from outside: the configuration blob, and whether its signature is right (R416 to R418). -/
def State.flashBlob (s : State) (record : List Byte) (table : List (Nat × Byte)) (good : Bool) : State :=
  s.modGranger fun g => { g with record := ConfigRecord.ofNat (leNat record), table := table.foldl (fun t x => tput t x.1 x.2) [], blob := good }

/-- The bytes of the blob: the record, then the route table (R417, R418; log 25). -/
def Granger.blobBytes (g : Granger) : List Byte :=
  g.record.bytes ++ (List.range (4 * 40960)).map fun i => tget 0 g.table (g.record.rtoff.toNat + i)

/-- A boot that fails: STATUS is BOOTFAIL with its code, and of all links the host's trains. -/
def State.bootFail (s : State) (code : BitVec 8) : State :=
  ({ s with links := [] } : State).modGranger (fun g => { g with state := .bootfail, code := code }) |>.trained hostLink true

/-- Stages 1 and 2: the image of firmware that runs, then the blob (R416). -/
def State.readFirmware (s : State) : State := s.modGranger fun g => { g with booted := if g.imageA then g.flashA else g.flashB }
def State.readBlob (s : State) : State := s.modGranger fun g => { g with bootBlob := g.blobBytes }

/-- How a training in the boot ends: a free choice of success, width and failure. -/
def State.bootLink (s : State) (n : Nat) : State :=
  match Config.latency s.draws % 3 with
  | 0 => s.drawn.trained n true
  | 1 => s.drawn.trained n false
  | _ => (s.drawn.modLink n fun l => { l with state := .down, attempts := 3 }).grangerLog 7 (BitVec.ofNat 64 n)

/-- Stages 4 to 6: memories are cleared by the reset itself; KID 0 becomes LIVE, the links train, and the agents are released. -/
def State.bootLate (s : State) : State :=
  if Config.latency s.draws % 2 = 1 then s.drawn.bootFail 4
  else
    let s : State := { s.drawn with kids := tput s.kids 0 { KidEntry.reset with state := .live } }
    let s := (List.range 24).foldl State.bootLink s
    if (List.range 6).any fun n => !(s.linkAt n).up then s.bootFail 5
    else (s.modGranger fun g => { g with state := .ready, code := 0 }).ssqTo .idle

/-- The machine that power-on reset leaves: flash stays. -/
def State.powerOn (s : State) : State :=
  { State.reset with
    draws := s.draws,
    granger := { Granger.reset with imageA := s.granger.imageA, imageB := s.granger.imageB, blob := s.granger.blob, flashA := s.granger.flashA,
                                    flashB := s.granger.flashB, record := s.granger.record, table := s.granger.table } }

/-- POWER_ON_RESET: the boot, from power-on, whatever the machine was doing. -/
def execPowerOnReset (s : State) : Host.Outcome State Fault Refusal :=
  let s := if s.granger.state = .booting then s else s.powerOn
  (if !s.granger.imageA ∧ !s.granger.imageB then s.bootFail 1
   else if !s.granger.blob then s.readFirmware.bootFail 2
   else if !s.granger.recordOk then s.readFirmware.readBlob.bootFail 3
   else s.readFirmware.readBlob.loadRecord.bootLate).done

/-! ## Power (R419) -/

/-- Samples of a 1 ms average. -/
def powerSamples : Nat := 100

/-- POWER_SAMPLE: bubbles go in above PLIM and come out below 95 % of it. -/
def execPowerSample (watts : Nat) (s : State) : Host.Outcome State Fault Refusal :=
  (s.modGranger fun g =>
    let xs := (watts :: g.samples).take powerSamples
    { g with samples := xs, throttled := if s.config.plim * xs.length < xs.sum then true
                                          else if 100 * xs.sum < 95 * s.config.plim * xs.length then false else g.throttled }).done

/-! ## BAR0 and CXL.mem (R394, R395, R423) -/

/-- A byte of BAR0 is written: one of the MSI-X table, or one that changes nothing. -/
def State.barWrite (s : State) (o : Nat) (b : Byte) : State :=
  if 0x10000 ≤ o ∧ o < 0x18000 then
    let k := (o - 0x10000) / 8
    let bs := (leBytes 8 (tget 0 s.msixTable k).toNat).set (o % 8) b
    { s with msixTable := tput s.msixTable k (BitVec.ofNat 64 (leNat bs)) }
  else s

/-- Pending vectors that are no longer masked are sent (R394; log 28). -/
def State.sendPending (s : State) : State :=
  let go := s.pba.filter fun v => !s.masked v
  { s with pba := s.pba.filter s.masked, msix := go ++ s.msix }

/-- The host reaches the package: its link is trained, which it is from boot on (R394, R416). -/
def State.hostUp (s : State) : Bool := (s.linkAt hostLink).up && s.granger.state != .booting

/-- Bytes of BAR0 reach one of its registers of eight bytes. -/
def touches (offset : Nat) (bs : List Byte) (reg : Nat) : Bool := decide (offset < reg + 8 ∧ reg < offset + bs.length ∧ bs ≠ [])

/-- The host writes bytes of BAR0: any write of SSQDB rings the SSQ doorbell, any of GRDB the Granger's mailbox, and one of the MSI-X table changes its
bytes; a write elsewhere is ignored. Under BOOTFAIL only the mailbox answers (R394, R416). -/
def State.barStore (s : State) (offset : Nat) (bs : List Byte) : State :=
  if !s.hostUp then s
  else
    let s := if touches offset bs 8 then s.modGranger fun g => { g with rung := true } else s
    if s.granger.state = .bootfail then s
    else
      let s := if touches offset bs 0 then s.ssqRung else s
      (((List.range bs.length).zip bs).foldl (fun s x => s.barWrite (offset + x.1) x.2) s).sendPending

/-- HOST_REGISTER_WRITE: a write of eight bytes. -/
def execHostRegisterWrite (offset : Nat) (value : BitVec 64) (s : State) : Host.Outcome State Fault Refusal :=
  (s.barStore offset (leBytes 8 value.toNat)).done

/-- A byte of BAR0 as the host reads it (R394): the MSI-X table, its pending bits, and zero elsewhere. -/
def State.barByte (s : State) (o : Nat) : Byte :=
  if 0x10000 ≤ o ∧ o < 0x18000 then BitVec.ofNat 8 ((tget 0 s.msixTable ((o - 0x10000) / 8)).toNat / 2 ^ (8 * (o % 8)))
  else if 0x30000 ≤ o ∧ o < 0x30100 then
    BitVec.ofNat 8 ((List.range 8).map fun i => if s.pba.contains (8 * (o - 0x30000) + i) then 2 ^ i else 0).sum
  else 0

/-- The host reads bytes of BAR0; under BOOTFAIL nothing answers. -/
def State.barRead (s : State) (offset n : Nat) : State :=
  if !s.hostUp ∨ s.granger.state = .bootfail then s else { s with bar := (List.range n).map fun i => s.barByte (offset + i) }

/-- The host stores to its memory behind the host window, or the guest to its own: an access to the window finds the bytes (R393). -/
def State.windowWrite (s : State) (pa : Nat) (bs : List Byte) : State :=
  let inside := fun (a : Nat) => match s.paKind a with
    | .host => true
    | .guest => true
    | _ => false
  if (List.range bs.length).all fun i => inside (pa + i) then { s with mem := bsetN s.mem pa bs } else s

/-- Another package writes a line of its own memory that COH pages of this one may name (R243). -/
def State.peerWrite (s : State) (pkg line : Nat) (kid : BitVec 8) (mask : BitVec 64) (data : Line) : State :=
  if pkg = ownPackage ∨ 8192 ≤ pkg ∨ 2 ^ 37 ≤ line then s
  else
    let n := pkg * 2 ^ 37 + line
    { s with remote := tput s.remote n ⟨s.keysOf kid, mergeLine (s.remoteLine kid n) data mask⟩ }

/-- Ranges of HBM that the configuration gives to the host (R330, R354, R394; log 28). -/
def State.hostRanges (s : State) : List (Nat × Nat) :=
  let c := s.config
  [(c.cxlbase, c.cxllen), (c.qtab, 0x4000), (c.hrtab, 0x400), (c.sqblk, 64), (c.gqtab, 512), (c.dump, 0x100000000)]

/-- Bytes lie in a range. -/
def within (pa n : Nat) (r : Nat × Nat) : Bool := decide (r.1 ≤ pa ∧ pa + n ≤ r.1 + r.2)

/-- CXL_MEM_REQUEST: a host read or write of HBM that is exposed is made, under KID 0 (R458); a write to the dump area is dropped while STATUS is
FROZEN or DUMPED. A read is of as many bytes as the request names, and the host holds them (State.bar). -/
def execCxlMemRequest (write : Bool) (pa : Nat) (data : List (BitVec 8)) (s : State) : Host.Outcome State Fault Refusal :=
  let frozen := s.granger.state == .frozen || s.granger.state == .dumped
  let live := s.granger.state == .ready || frozen
  (if !live ∨ !(s.linkAt hostLink).up ∨ !(s.hostRanges.any (within pa data.length)) then s
   else if !write then { s.meetPhys pa data.length with bar := s.physRead pa data.length }
   else if frozen ∧ within pa data.length (s.config.dump, 0x100000000) then s
   else s.physWrite pa data).done

/-- The KID that a line was last written under, else 0 (log 26). -/
def State.lineKid (s : State) (line : Nat) : BitVec 8 := ((tfind s.keys line).map LineKeys.kid).getD 0

/-- COH_REQUEST: a fetch makes the asking package a holder that may modify the line; a write-back performs at the home, and a LOST line takes
none (R243, R411). The reply, the line's bytes or an acknowledgement, is a packet of class 3 (R391). -/
def execCohRequest (line : Nat) (write : Bool) (pkg : Nat) (mask : BitVec 64) (data : BitVec 512) (s : State) : Host.Outcome State Fault Refusal :=
  let home := match s.paKind (64 * line) with
    | .hbm _ => true
    | _ => false
  if !home ∨ pkg = ownPackage ∨ 8192 ≤ pkg ∨ s.lostLine line then s.done
  else
    let rest := s.coh.filter fun x => x.line != line
    if write then
      let t : Trans := ⟨.phys, 64 * line, s.lineKid line, true, false, false, false, ownPackage⟩
      (({ s.writeHome t mask data with coh := ⟨line, none, false⟩ :: rest } : State).sendPacket pkg 3 none []).done
    else
      let t : Trans := { physTrans (64 * line) with kid := s.lineKid line, coh := true }
      (({ s.meet t with coh := ⟨line, some pkg, false⟩ :: rest } : State).sendPacket pkg 3 none (lineBytes (s.homeLine t.kid line))).done

/-- Every copy of a line in the package's caches and write queues is gone. -/
def State.forgetLine (s : State) (n : Nat) : State :=
  let s := s.liveCores.foldl (fun s k => s.modCore k fun c => { c with l1 := c.l1.filter fun x => x.line != n }) s
  let s := s.modField (64 * n / 0x10000000000) fun f => { f with l2 := f.l2.filter fun x => x.line != n }
  s.modStack (stackOfPa (64 * n)) fun t => { t with writes := t.writes.filter fun x => x.line != n }

/-- PACKAGE_LOSS: lines whose only modified copy a failed package held are LOST, and the Granger logs each; copies here are older (R411). -/
def execPackageLoss (lines : List Nat) (s : State) : Host.Outcome State Fault Refusal :=
  (lines.foldl (fun (s : State) n =>
    if s.coh.any fun x => x.line == n && x.owner.isSome && !x.lost then
      ({ s.forgetLine n with coh := s.coh.map fun (x : CohLine) => if x.line = n then { x with owner := none, lost := true } else x } : State).grangerLog 4
        (BitVec.ofNat 64 (64 * n))
    else s) s).done

/-! ## Requests (R372, R389, R411, R420 to R422) -/

/-- What an attestation's response holds, in the order that R421 lists it: hashes of the firmware and of the blob that booted, the versions of images A and B,
the hash of each registered header, and the nonce; then the signature over all of it (log 25). -/
def State.attestation (s : State) (nonce : BitVec 256) : List Byte :=
  let g := s.granger
  let body := leBytes 32 (Config.sm3 g.booted).toNat ++ leBytes 32 (Config.sm3 g.bootBlob).toNat ++
    leBytes 4 (Config.imageVersion g.flashA).toNat ++ leBytes 4 (Config.imageVersion g.flashB).toNat ++
    (g.headers.flatMap fun h => leBytes 32 (Config.sm3 h).toNat) ++ leBytes 32 nonce.toNat
  body ++ leBytes 64 (Config.signature2 body).toNat

/-- ATTEST: the request carries the nonce behind its request word, as in the device mailbox (R421; log 25). -/
def execAttest (nonce : BitVec 256) (s : State) : Host.Outcome State Fault Refusal :=
  if !s.mailboxAnswers ∨ !s.hostAsks 1 ∨ leNat (s.hostRequest 8 32) ≠ nonce.toNat then s.done
  else ((s.modGranger fun g => { g with attested := nonce :: g.attested }).hostAnswer (s.attestation nonce)).done

/-- WRITE_FLASH_IMAGE: false writes image A, true image B; whether the new image passes its checks is a free choice. -/
def execWriteFlashImage (which : Bool) (image : List (BitVec 8)) (s : State) : Host.Outcome State Fault Refusal :=
  if !s.mailboxAnswers ∨ !s.hostAsks 2 then s.done
  else
    let ok := (Config.freeWord s.draws).getLsbD 0
    (s.drawn.modGranger fun g => if which then { g with flashB := image, imageB := ok } else { g with flashA := image, imageA := ok }).hostDone.done

/-- RESET_TRT_ENTRIES: reset values, and every reuse entry that names the tile is displaced (R372, R373, R380). -/
def execResetTrtEntries (tiles : List (BitVec 20)) (s : State) : Host.Outcome State Fault Refusal :=
  (s.serve 3 fun s => tiles.foldl (fun s t => (s.displaceTile t none).modTile t fun _ => TileEntry.reset) s).done

/-- UNPIN_CRIB_LINES: every pinned line of a range. -/
def execUnpinCribLines (pa bytes : Nat) (s : State) : Host.Outcome State Fault Refusal :=
  let unpin := fun (l : CribLine) => if pa ≤ 64 * l.line + 63 ∧ 64 * l.line < pa + bytes then { l with pinned := false } else l
  (s.serve 4 fun s =>
    { s with stackTab := s.stackTab.map fun (x : Nat × Stack) =>
        (x.1, { x.2 with slices := x.2.slices.map fun (y : Nat × CribSlice) => (y.1, { y.2 with lines := y.2.lines.map unpin }) }) }).done

/-- A LOST line is cleared: its home writes zeros (R411). -/
def State.clearLost (s : State) (n : Nat) : State :=
  if s.lostLine n then
    ({ s.forgetLine n with coh := s.coh.filter fun x => x.line != n } : State).homeWrite { physTrans (64 * n) with kid := s.lineKid n } n
      (BitVec.allOnes 64) 0
  else s

/-- CLEAR_LOST_LINES. -/
def execClearLostLines (lines : List Nat) (s : State) : Host.Outcome State Fault Refusal :=
  (s.serve 5 fun s => lines.foldl State.clearLost s).done

/-- RELEASE_LEAN_TO: a QUARANTINED Lean-to goes DOWN (R389, R405). -/
def execReleaseLeanTo (s : State) : Host.Outcome State Fault Refusal :=
  (s.serve 6 fun s =>
    if (s.linkAt leanTo).state ≠ .quarantined then s
    else { s.modLink leanTo fun l => { l with state := .down } with guest := { s.guest with breach := none } }).done

/-- A ring entry becomes UNINIT: its epoch advances, bindings to it are STALE, its streams end RESET and its slots are lost (R194, R422). -/
def State.quiesce (s : State) (h : Nat) (rid : Fin 64) : State :=
  let s := s.resetStreams h rid
  let s := s.modRing h rid.val fun e => { RingEntry.reset with epoch := e.epoch + 1 }
  s.modSheafCtx h fun _ _ c => c.mapRings fun r => if r.state = .bound ∧ r.desc.rid = rid then { r with state := .stale } else r

/-- The operand word of the device's request. -/
def State.deviceOperand (s : State) : Word := s.physWord (s.devicePage + 8)

/-- QUIESCE_RING_ENTRY: the device mailbox names field, sheaf and RID. -/
def execQuiesceRingEntry (field sheaf rid : Nat) (s : State) : Host.Outcome State Fault Refusal :=
  let w := s.deviceOperand
  match s.granger.device with
  | none => s.done
  | some (r, _) =>
    if s.deviceCode ≠ 7 ∨ (w.extractLsb' 0 2).toNat ≠ field ∨ (w.extractLsb' 4 4).toNat ≠ sheaf ∨ (w.extractLsb' 8 6).toNat ≠ rid then s.done
    else if 10 ≤ sheaf then (s.deviceDone r 1).done
    else ((s.quiesce (10 * field + sheaf) ⟨rid % 64, Nat.mod_lt _ (by decide)⟩).deviceDone r 0).done

/-- MAGIC and VER of a kernel image header (R54). -/
def headerOk (ws : List Word) : Bool := (wordAt ws 0).extractLsb' 0 40 == 0x014B5A4E45#40

/-- REGISTER_KERNEL_HEADER: the header is read under the requester's KID; its 64 bytes, whose hash an attestation gives, are recorded. -/
def execRegisterKernelHeader (kid va : Nat) (s : State) : Host.Outcome State Fault Refusal :=
  match s.granger.device with
  | none => s.done
  | some (r, k) =>
    if s.deviceCode ≠ 8 ∨ k.toNat ≠ kid ∨ s.deviceOperand.toNat ≠ va then s.done
    else
      match s.vaWords (superWho k) va 8 with
      | .error _ => (s.deviceDone r 1).done
      | .ok ws =>
        if !headerOk ws then (s.deviceDone r 1).done
        else (((s.meetVa (superWho k) va 64).modGranger fun g => { g with headers := g.headers ++ [ws.flatMap fun w => leBytes 8 w.toNat] }).deviceDone r 0).done

/-! ## The dump (R423) -/

/-- FATAL_FREEZE. -/
def execFatalFreeze (cause : BitVec 8) (s : State) : Host.Outcome State Fault Refusal := (s.freeze cause).done

/-- The bytes of a TRT entry (R372). -/
def TileEntry.bytes (e : TileEntry) : List Byte :=
  leBytes 16 (e.wcnt.toNat * 2 ^ 112 + e.rv.toNat * 2 ^ 111 + e.rkey.toNat * 2 ^ 79 + e.d.toNat * 2 ^ 32 + e.ver.toNat)

/-- The dump area is emptied of what it held. -/
def State.clearDump (s : State) : State :=
  let hit := fun (line : Nat) => decide (s.config.dump ≤ 64 * line ∧ 64 * line < s.config.dump + 0x100000000)
  { s with mem := s.mem.filter fun x => !hit (x.1 / 64), keys := s.keys.filter fun x => !hit x.1,
           fields := s.fields.map fun (x : Nat × Field) => (x.1, { x.2 with l2 := x.2.l2.filter fun l => !hit l.line }),
           stackTab := s.stackTab.map fun (x : Nat × Stack) => (x.1, { x.2 with writes := x.2.writes.filter fun w => !hit w.line }) }

/-- Bytes written into the dump area. -/
def State.dumpAt (s : State) (off : Nat) (bs : List Byte) : State := s.physWrite (s.config.dump + off) bs

/-- Bytes of a record whose layout is not published (log 25). -/
def State.freeBytes (s : State) (n : Nat) : List Byte := (List.range n).map (Config.grangerByte s.draws)

/-- The image of a context slot that is not FREE. -/
def State.dumpSlot (s : State) (k : Nat) (j : Fin 4) : State :=
  if (s.ctxAt k j).state = .free then s
  else
    let c := (s.ctxAt k j).settleAll
    let n := s.serial
    let a := 0x1000000 + 8192 * (4 * k + j.val)
    let bs := leBytes 8 (imageHead 2 c.super j k c.lreq).toNat ++ imageTail (s.core k) j c.regs n
    ({ s with sealed := c.sealed j n :: s.sealed, serial := n + 1 } : State).dumpAt a bs

/-- The header (log 25): MAGIC, the field mask, the cycle count and the causes. -/
def State.dumpHead (s : State) : List Byte :=
  leBytes 4 0x504D5544 ++ leBytes 4 ((Config.grangerByte s.draws 0).toNat % 16) ++ leBytes 8 s.now ++
  (leBytes 8 s.granger.causes.length ++ s.granger.causes).take 4080

/-- A queue (log 25): state, grant, ring counts and its descriptor. -/
def Queue.bytes (q : Queue) : List Byte :=
  let st := match q.state with
    | .off => 0
    | .open_ => 1
    | .spill => 2
    | .held => 3
  leBytes 16 st ++ leBytes 16 q.grant ++ leBytes 16 q.ringIn ++ leBytes 16 q.ringOut ++ (q.desc.flatMap fun w => leBytes 8 w.toNat).take 64

/-- A Stook entry (log 25), its items in the order of R374. -/
def ReuseEntry.bytes (e : ReuseEntry) : List Byte :=
  let st := match e.state with
    | .invalid => 0
    | .pending => 1
    | .valid => 2
  leBytes 1 st ++ leBytes 1 (if e.kill then 1 else 0) ++ leBytes 1 (if e.rr then 1 else 0) ++ leBytes 1 e.age.toNat ++ leBytes 4 e.key.toNat ++
  leBytes 4 e.step.toNat ++ leBytes 4 e.ins.length ++ ((e.ins.flatMap fun (t : BitVec 20) => leBytes 4 t.toNat) ++ List.replicate 24 0).take 24 ++
  ((e.snaps.flatMap fun (d : BitVec 32) => leBytes 4 d.toNat) ++ List.replicate 24 0).take 24 ++ ((e.outs.flatMap fun (t : BitVec 20) => leBytes 4 t.toNat) ++ List.replicate 8 0).take 8

/-- A list of members: their number and their indices. -/
def memberBytes (ms : List Nat) : List Byte := leBytes 4 ms.length ++ ms.flatMap (leBytes 4)

/-- The barrier slots of one copy of a run (log 25): phase, generations, the members that have arrived, and those that have retired. -/
def Group.bytes (g : Group) : List Byte :=
  leBytes 4 g.phase.toNat ++ (g.gen.toList.flatMap fun x => leBytes 2 x.toNat) ++ memberBytes g.arrived ++ g.met.toList.flatMap memberBytes ++
  memberBytes g.retired

/-- A field's queues, Stook and barrier slots, in its quarter of their 16 MiB (log 25). -/
def State.dumpField (s : State) (f : Nat) : State :=
  let fd := s.field f
  let base := 0x3000000 + 0x400000 * f
  let s := fd.queues.foldl (fun s x => s.dumpAt (base + 128 * x.1) x.2.bytes) s
  let s := fd.reuse.foldl (fun s x => s.dumpAt (base + 0x10000 + 128 * x.1) x.2.bytes) s
  let groups := fd.lbs.flatMap fun l => l.group.bytes ++ (if lbDup l.words then l.dupGroup.bytes else [])
  s.dumpAt (base + 0x300000) (groups.take 0x100000)

/-- A core's Loft: its scratchpad, and the lines that its L1 holds in the steps above (log 25). -/
def State.dumpLoft (s : State) (k : Nat) : State :=
  let c := s.core k
  let base := 0x4000000 + 0x400000 * k
  let s := c.loft.foldl (fun s x => s.dumpAt (base + x.1) [x.2]) s
  ((List.range c.l1.length).zip c.l1).foldl (fun s x => s.dumpAt (base + 0x40000 * c.scr + 64 * x.1) (lineBytes x.2.data)) s

/-- The dump, then STATUS DUMPED and MSI-X vector 0. -/
def State.dump (s : State) : State :=
  if s.granger.state ≠ .frozen then s
  else
    let t := s.clearDump
    let t := t.drawn.dumpAt 0 t.dumpHead
    let t := t.drawn.dumpAt 0x1000 (t.freeBytes (min 0xFFF000 (16 * t.granger.log.length)))
    let t := t.liveCores.foldl (fun t k => (List.finRange 4).foldl (fun t j => t.dumpSlot k j) t) t
    let t := (List.range 4).foldl (fun t f => (t.field f).tiles.foldl (fun t x => t.dumpAt (0x2000000 + 0x400000 * f + 16 * x.1) x.2.bytes) t) t
    let t := (List.range 4).foldl State.dumpField t
    let t := t.liveCores.foldl State.dumpLoft t
    (t.modGranger fun g => { g with state := .dumped }).sendVector 0

/-! ## Physical errors and the host's configuration space -/

/-- A line of HBM takes an uncorrectable error, or holds poison (R226). -/
def State.badLine (s : State) (line : Nat) (poisoned : Bool) : State :=
  if poisoned then { s with poison := line :: s.poison } else { s with badLines := line :: s.badLines }

/-- The host writes MBOX in its configuration space (R420). -/
def State.writeMbox (s : State) (addr : Word) : State := s.modGranger fun g => { g with mbox := addr }

end Sys2Proof.Machine
end

