-- ==== Sys2Proof/Machine/Predicate.lean ====
section
/-! DEFINITION. Compares and predicate forms, SCP (04_scalar.md R91, R92). -/

namespace Sys2Proof.Machine

/-- t to pd, and with C its complement to pd + 1 (R91). -/
def State.putT (s : State) (p : Fin 16) (c : Bool) (t : Bool) : State :=
  let s := s.putP p t 1
  if c then s.putP (p + 1) (!t) 1 else s

/-- A floating compare with its NV (R92). -/
def State.putFT (s : State) (p : Fin 16) (c : Bool) (r : Bool × BitVec 5) : Host.Outcome State Fault Refusal :=
  ((s.putT p c r.1).flagged s r.2).done

def execCeq (p : Fin 16) (cflag : Bool) (a b : Src) (s : State) : Host.Outcome State Fault Refusal := (s.putT p cflag (s.src a == s.src b)).done
def execCne (p : Fin 16) (cflag : Bool) (a b : Src) (s : State) : Host.Outcome State Fault Refusal := (s.putT p cflag (s.src a != s.src b)).done
def execClt (p : Fin 16) (cflag : Bool) (a b : Src) (s : State) : Host.Outcome State Fault Refusal := (s.putT p cflag ((s.src a).slt (s.src b))).done
def execCge (p : Fin 16) (cflag : Bool) (a b : Src) (s : State) : Host.Outcome State Fault Refusal := (s.putT p cflag ((s.src b).sle (s.src a))).done
def execCltn (p : Fin 16) (cflag : Bool) (a b : Src) (s : State) : Host.Outcome State Fault Refusal := (s.putT p cflag ((s.src a).ult (s.src b))).done
def execCgen (p : Fin 16) (cflag : Bool) (a b : Src) (s : State) : Host.Outcome State Fault Refusal := (s.putT p cflag ((s.src b).ule (s.src a))).done
def execCtst (p : Fin 16) (cflag : Bool) (a b : Src) (s : State) : Host.Outcome State Fault Refusal := (s.putT p cflag (s.src a &&& s.src b != 0)).done
def execFceq (p : Fin 16) (cflag : Bool) (a b : Src) (s : State) : Host.Outcome State Fault Refusal := s.putFT p cflag (fEq (s.srcF a) (s.srcF b))
def execFclt (p : Fin 16) (cflag : Bool) (a b : Src) (s : State) : Host.Outcome State Fault Refusal := s.putFT p cflag (fLt (s.srcF a) (s.srcF b))
def execFcle (p : Fin 16) (cflag : Bool) (a b : Src) (s : State) : Host.Outcome State Fault Refusal := s.putFT p cflag (fLe (s.srcF a) (s.srcF b))
def execFcun (p : Fin 16) (cflag : Bool) (a b : Src) (s : State) : Host.Outcome State Fault Refusal := s.putFT p cflag (fUn (s.srcF a) (s.srcF b))
def execPand (p : Fin 16) (cflag : Bool) (q r : Fin 16) (s : State) : Host.Outcome State Fault Refusal := (s.putT p cflag (s.getP q && s.getP r)).done
def execPor (p : Fin 16) (cflag : Bool) (q r : Fin 16) (s : State) : Host.Outcome State Fault Refusal := (s.putT p cflag (s.getP q || s.getP r)).done
def execPxor (p : Fin 16) (cflag : Bool) (q r : Fin 16) (s : State) : Host.Outcome State Fault Refusal := (s.putT p cflag (s.getP q != s.getP r)).done
def execPandn (p : Fin 16) (cflag : Bool) (q r : Fin 16) (s : State) : Host.Outcome State Fault Refusal := (s.putT p cflag (s.getP q && !s.getP r)).done
def execPset (p : Fin 16) (cflag : Bool) (v : Bool) (s : State) : Host.Outcome State Fault Refusal := (s.putT p cflag v).done
def execKany (p : Fin 16) (cflag : Bool) (k : Fin 8) (s : State) : Host.Outcome State Fault Refusal := (s.putT p cflag (s.getK k != 0)).done
def execKall (p : Fin 16) (cflag : Bool) (k : Fin 8) (s : State) : Host.Outcome State Fault Refusal :=
  (s.putT p cflag (s.getK k == BitVec.allOnes 128)).done
def execKnone (p : Fin 16) (cflag : Bool) (k : Fin 8) (s : State) : Host.Outcome State Fault Refusal := (s.putT p cflag (s.getK k == 0)).done

end Sys2Proof.Machine
end

