-- ==== Sys2Proof/Machine/QueueEvents.lean ====
section
/-! DEFINITION. Events of a Thresher's queues: namings, arrivals, slots, overflow rings and the deadlock promise (14_kernel.md R307 to R310,
15_queue.md R322 to R328, R459). -/

namespace Sys2Proof.Machine

/-! ## Namings (R309, R319, R459) -/

/-- The word of JOIN and STATE with a naming's change, and whether the launch block becomes ENQUEUED; none where it stays as it is. -/
def namedWord (w : Word) : Option (Word × Bool) :=
  if 1 < wordState w ∨ wordJoin w = 0 then none
  else if wordJoin w = 1 then some (joinWord w 0 2, true)
  else some (joinWord w (wordJoin w - 1) 1, false)

/-- A naming or arrival of a skip. -/
def Sender.isSkip : Sender → Bool
  | .skip _ => true
  | _ => false

/-- A naming that cannot be made is reported; one of a skip is also counted (R315, R459). -/
def State.reportNaming (s : State) (f : Nat) (n : Naming) (c : Cause) (a : Nat) : State :=
  let t := s.addRecord f n.fring (accessRecord c f n.byQueue 1 a n.byLb n.kid)
  if n.sender.isSkip then t.grangerLog 8 (BitVec.ofNat 64 n.byLb) else t

/-- A naming is made, or reported where it cannot be. -/
def State.makeNaming (s : State) (f : Nat) (n : Naming) : State :=
  match s.vaWords (superWho n.kid) n.addr 16 with
  | .error (c, a) => s.reportNaming f n c a
  | .ok ws =>
    match namedWord (wordAt ws 10) with
    | none => s
    | some (w, full) =>
      let s := s.meetVa (superWho n.kid) n.addr 128
      match s.vaWrite (superWho n.kid) (n.addr + lbWordOff) (leBytes 8 w.toNat) with
      | .error (c, a) => s.reportNaming f n c a
      | .ok s => if full then s.arrive (lbWith ws w) n.addr n.kid (queueNum (lbQue ws)) n.sender else s

/-- LB_NAMING: the oldest naming that a field's Thresher has received. -/
def execLbNaming (field : Nat) (s : State) : Host.Outcome State Fault Refusal :=
  match (s.field field).namings with
  | [] => s.done
  | n :: rest => ((s.modField field fun f => { f with namings := rest }).makeNaming field n).done

/-! ## Arrivals (R307, R323, R324) -/

/-- An arrival at its queue: into a slot, to the ring's tail, or refused; it waits at a queue that it finds full as it opens it (R325). -/
def State.takeArrival (s : State) (f : Nat) (a : Arrival) : State :=
  match s.openQueue f a.queue with
  | none => s.refuseArrival f a 0
  | some s =>
    let q := s.queue f a.queue
    if lbInvalid a.words then (s.refuseInvalid f a).closeQueue f a.queue
    else if q.state = .spill ∧ q.ringCount ≠ 0 then
      match s.spillOne f a.queue a.addr a.words with
      | .ok s => s.tookArrival f a.queue a
      | .error (c, at_) => s.holdQueue f a.queue c at_ a.addr
    else if s.queueFull f a.queue then s
    else (s.takeSlot f a.queue a.addr a.words).tookArrival f a.queue a

/-- The oldest arrival of a field that can be taken now: the first of its queue. -/
def State.nextArrival (s : State) (f : Nat) : Option Arrival :=
  (s.field f).arrivals.find? fun a => s.takeable f a.queue && (s.arrivalsOf f a.queue).head? == some a

/-- LB_ARRIVAL. -/
def execLbArrival (field : Nat) (s : State) : Host.Outcome State Fault Refusal :=
  match s.nextArrival field with
  | none => s.done
  | some a => (s.takeArrival field a).done

/-! ## Slots (R309, R310, R324) -/

/-- The writers that a launch block's inputs wait for: those that stand when it becomes BLOCKED, by input (R310). -/
def State.inputWriters (s : State) (ws : List Word) : List (BitVec 20 × Nat) :=
  (lbIns ws).flatMap fun t => (s.tile t).writers.map fun r => (t, r)

/-- A launch block becomes BLOCKED: the writer counts of its outputs rise. -/
def State.block (s : State) (f : Nat) (lb : HeldLb) : State :=
  let waits := s.inputWriters lb.words
  let s := (lbOuts lb.words).foldl (fun s t => s.modTile t fun e => { e with writers := e.writers ++ [lb.run] }) s
  s.modRun f lb.run fun l => { l with state := .blocked, raised := true, waits := waits }

/-- The head record of a queue's ring comes into a free slot; a record that cannot be read stays (R324, R326). -/
def State.refill (s : State) (f : Nat) (q : Fin 64) : State :=
  let x := s.queue f q
  match s.vaWords x.who (x.recordAt x.ringOut) 16 with
  | .error _ => s
  | .ok ws =>
    let s := (s.meetVa x.who (x.recordAt x.ringOut) 128).takeSlot f q (x.spilled.headD 0) ws
    s.modQueue f q fun x =>
      { x with ringOut := x.ringOut + 1, spilled := x.spilled.drop 1, retryAt := if x.state = .held then s.now else x.retryAt,
               state := if x.state = .spill ∧ x.ringIn = x.ringOut + 1 then .open_ else x.state }

/-- LB_ENTER_SLOT: the oldest ENQUEUED launch block of a queue's slots becomes BLOCKED; with none, the ring refills a free slot. -/
def execLbEnterSlot (field q : Nat) (s : State) : Host.Outcome State Fault Refusal :=
  let i := queueNum q
  match (s.field field).lbs.find? fun l => l.queue == i && l.state == .enqueued with
  | some lb => (s.block field lb).done
  | none => (if (s.queue field i).ringCount ≠ 0 ∧ !s.queueFull field i then s.refill field i else s).done

/-! ## The deadlock promise and retries (R326, R328) -/

/-- The full queue with a waiting arrival that has the fewest on-chip launch blocks; ties go to the lowest q. -/
def State.smallestStuck (s : State) (f : Nat) : List (Fin 64) → Option (Fin 64)
  | [] => none
  | q :: qs =>
    match s.smallestStuck f qs with
    | none => some q
    | some r => some (if s.onChip f r < s.onChip f q then r else q)

/-- A grant from the growth pool, or a spill of the waiting arrivals; a queue that they were the last of goes OFF. -/
def State.relieve (s : State) (f : Nat) (q : Fin 64) : State :=
  if s.pool = 0 then (State.spillArrivals f q (s.arrivalsOf f q) s).closeQueue f q
  else
    let n := min 64 s.pool
    { s.modQueue f q fun x => { x with grant := x.grant + n } with pool := s.pool - n }

/-- FIELD_STUCK_STEP: one step in 4,096 stuck cycles. -/
def execFieldStuckStep (field : Nat) (s : State) : Host.Outcome State Fault Refusal :=
  if (s.field field).stuck < 4096 then s.done
  else
    let t := s.modField field fun f => { f with stuck := 0 }
    match s.smallestStuck field ((List.finRange 64).filter fun q => s.queueFull field q && s.waiting field q != 0) with
    | none => t.done
    | some q => (t.relieve field q).done

/-- QUEUE_HELD_RETRY: the ring write of a HELD queue is tried again, every 65,536 cycles and as a record leaves the ring. -/
def execQueueHeldRetry (field q : Nat) (s : State) : Host.Outcome State Fault Refusal :=
  let i := queueNum q
  let x := s.queue field i
  if x.state ≠ .held ∨ s.now < x.retryAt then s.done
  else if s.waiting field i = 0 then
    ((s.modQueue field i fun x => { x with state := if x.ringCount = 0 then .open_ else .spill, cause := none }).closeQueue field i).done
  else (State.spillArrivals field i (s.arrivalsOf field i) s).done

end Sys2Proof.Machine
end

