-- ==== Sys2Proof/Machine/Reduce.lean ====
section
/-! DEFINITION. The vector reductions VRD (05_vector.md R121, R122, 03_numbers.md R78, R81). -/

namespace Sys2Proof.Machine

/-- One round of PairTree (R81). -/
def pairRound {α : Type} (op : α → α → α) : List α → List α
  | x :: y :: rest => op x y :: pairRound op rest
  | xs => xs

/-- PairTree over a power of two of values: `fuel` rounds (R81). -/
def pairTree {α : Type} (op : α → α → α) : Nat → List α → List α
  | 0, xs => xs
  | n + 1, xs => pairTree op n (pairRound op xs)

/-- One round of ScanTree at distance d: every read uses the values of the previous round (R81). -/
def scanRound {α : Type} (op : α → α → α) (d : Nat) (xs : List α) : List α := xs.take d ++ List.zipWith op xs (xs.drop d)

/-- ScanTree: distances 1, 2, 4, 8, 16 as long as they are below the number of values (R81). -/
def scanTree {α : Type} (op : α → α → α) (xs : List α) : List α :=
  ([1, 2, 4, 8, 16].filter fun d => d < xs.length).foldl (fun xs d => scanRound op d xs) xs

/-- A value on its way through a tree: a format value with the flags met. -/
def FRes.join (op : FVal → FVal → FRes) (a b : FRes) : FRes :=
  let r := op (fp32.unpack a.bits) (fp32.unpack b.bits)
  { r with flags := r.flags ||| a.flags ||| b.flags }

/-- Elements of a source as encodings; a NaN is the canonical one, and a signalling NaN raises NV (R58). -/
def encodings (n : Nat) (x : Vec) : List FRes :=
  (lanes 32 n x).map fun e => let v := fp32.unpack e.toNat; if v.isNan then nanRes fp32 (snan v) else ⟨e.toNat, 0⟩

/-- A result in every 32-bit lane of the width. -/
def everyLane (bits r : Nat) : Vec := ofLanes 32 (List.replicate (bits / 32) (BitVec.ofNat 32 r))

/-- A floating-point reduction of FP32 values: the result in every lane, its flags (R121). -/
def State.reduceF (s : State) (w : Width) (d a : VOp) (f : Vec → FRes) : Host.Outcome State Fault Refusal :=
  match s.readV a w.bits with
  | .stop t => t.done
  | .ok x t => ((t.writeV d w.bits (everyLane w.bits (f x).bits) 6).withFlags s (f x).flags).done

/-- The tree of an operator over n FP32 elements. -/
def treeF (op : FVal → FVal → FRes) (n : Nat) (x : Vec) : FRes := (pairTree (FRes.join op) 5 (encodings n x)).headD ⟨0, 0⟩

/-- Larger or smaller, a NaN prevailing (R121). -/
def fMinMaxNan (larger : Bool) (a b : FVal) : FRes := if a.isNan ∨ b.isNan then nanRes fp32 (snan a ||| snan b) else fMinMax fp32 larger a b

/-- The largest magnitude of values of a format, as FP32; a NaN prevails (R121, R122). -/
def largestMag (xs : List FVal) : FRes :=
  let fl := xs.foldl (fun f v => f ||| snan v) 0
  if xs.any FVal.isNan then nanRes fp32 fl
  else ⟨xs.foldl (fun m v => max m (fAbsNeg fp32 false v).bits) 0, fl⟩

def execVrsumF32 (w : Width) (d a : VOp) (s : State) : Host.Outcome State Fault Refusal := s.reduceF w d a (treeF (fAdd fp32 .rne) (w.bits / 32))
def execVrmaxF32 (w : Width) (d a : VOp) (s : State) : Host.Outcome State Fault Refusal := s.reduceF w d a (treeF (fMinMaxNan true) (w.bits / 32))
def execVrminF32 (w : Width) (d a : VOp) (s : State) : Host.Outcome State Fault Refusal := s.reduceF w d a (treeF (fMinMaxNan false) (w.bits / 32))

/-- An integer reduction. -/
def State.reduceI (s : State) (w : Width) (d a : VOp) (op : BitVec 32 → BitVec 32 → BitVec 32) : Host.Outcome State Fault Refusal :=
  s.vec1 w d a (fun x => everyLane w.bits ((pairTree op 5 (lanes 32 (w.bits / 32) x)).headD 0).toNat) 6

def execVrsumI32 (w : Width) (d a : VOp) (s : State) : Host.Outcome State Fault Refusal := s.reduceI w d a (· + ·)
def execVrmaxI32 (w : Width) (d a : VOp) (s : State) : Host.Outcome State Fault Refusal := s.reduceI w d a fun x y => if x.slt y then y else x
def execVrminI32 (w : Width) (d a : VOp) (s : State) : Host.Outcome State Fault Refusal := s.reduceI w d a fun x y => if x.slt y then x else y

def execVramaxF32 (w : Width) (d a : VOp) (s : State) : Host.Outcome State Fault Refusal := s.reduceF w d a fun x => largestMag (fp32.elems w.bits x)

/-- The magnitude m_i of a difference, rounded up (R122): a finite difference beyond the largest finite value overflows to infinity and
raises OF alone; an infinity is exact. -/
def deltaMag (a b : FVal) : FRes :=
  let r := fAdd fp32 .rup a b.neg
  let r := if r.bits / fp32.sign % 2 = 1 then fAdd fp32 .rup b a.neg else r
  { r with flags := r.flags &&& (fNV ||| fOF) }

/-- A vdelta: the largest m_i in every lane, every m_i into MAXMAG (R122). -/
def State.delta (s : State) (f : Fmt) (w : Width) (d a b : VOp) : Host.Outcome State Fault Refusal :=
  match s.readV2 a b w.bits with
  | .stop t => t.done
  | .ok (x, y) t =>
    let ms := List.zipWith deltaMag (f.elems w.bits x) (f.elems w.bits y)
    let r := largestMag (ms.map fun m => fp32.unpack m.bits)
    (((t.writeV d w.bits (everyLane w.bits r.bits) 6).putMag (ms.map FRes.bits) 6).withFlags s (flagsOf ms)).done

def execVdeltaF32 (w : Width) (d a b : VOp) (s : State) : Host.Outcome State Fault Refusal := s.delta fp32 w d a b
def execVdeltaBf16 (w : Width) (d a b : VOp) (s : State) : Host.Outcome State Fault Refusal := s.delta bf16 w d a b

/-- A vmaxmag: the largest magnitude in every lane and every magnitude into MAXMAG (R122). -/
def State.maxMagnitude (s : State) (f : Fmt) (w : Width) (d a : VOp) : Host.Outcome State Fault Refusal :=
  match s.readV a w.bits with
  | .stop t => t.done
  | .ok x t =>
    let vs := f.elems w.bits x
    let r := largestMag vs
    (((t.writeV d w.bits (everyLane w.bits r.bits) 6).putMag (vs.map fun v => (fAbsNeg fp32 false v).bits) 6).withFlags s r.flags).done

def execVmaxmagF32 (w : Width) (d a : VOp) (s : State) : Host.Outcome State Fault Refusal := s.maxMagnitude fp32 w d a
def execVmaxmagBf16 (w : Width) (d a : VOp) (s : State) : Host.Outcome State Fault Refusal := s.maxMagnitude bf16 w d a

def execVscanF32 (w : Width) (d a : VOp) (s : State) : Host.Outcome State Fault Refusal :=
  match s.readV a w.bits with
  | .stop t => t.done
  | .ok x t =>
    let rs := scanTree (FRes.join (fAdd fp32 .rne)) (encodings (w.bits / 32) x)
    ((t.writeV d w.bits (fp32.vec rs) 8).withFlags s (flagsOf rs)).done

def execVscanI32 (w : Width) (d a : VOp) (s : State) : Host.Outcome State Fault Refusal :=
  s.vec1 w d a (fun x => ofLanes 32 (scanTree (· + ·) (lanes 32 (w.bits / 32) x))) 8

/-- One bits of the mask's bits [W/8 − 1:0] (R121). -/
def execKcnt (w : Width) (d : VOp) (k : Fin 8) (s : State) : Host.Outcome State Fault Refusal :=
  (s.writeV d w.bits (everyLane w.bits ((List.range (w.bits / 8)).filter fun i => (s.getK k).getLsbD i).length) 6).done

end Sys2Proof.Machine
end

