-- ==== Sys2Proof/Machine/Special.lean ====
section
/-! DEFINITION. The special functions of the SFU (05_vector.md R126 to R128). The spec fixes special results and bounds the error of every
other one; the bits within the bound are a free value (log 10). The exact functions are approximated in integers scaled by 2^400, far closer
than any bound. -/

namespace Sys2Proof.Machine

/-! ## The exact functions, scaled by 2^400 -/

/-- The scale. -/
def fxOne : Int := 2 ^ 400

/-- A value m × 2^e with sign, scaled. -/
def fxOf (neg : Bool) (m : Nat) (e : Int) : Int :=
  let x : Nat := if 0 ≤ e + 400 then m * 2 ^ (e + 400).toNat else m / 2 ^ (-(e + 400)).toNat
  if neg then -Int.ofNat x else Int.ofNat x

/-- e^x for |x| below 256: a Taylor sum of x / 1024, squared ten times. -/
def fxExp (x : Int) : Int :=
  let y := x / 1024
  let s := (List.range 100).foldl (fun (a : Int × Int) n => let t := a.2 * y / fxOne / Int.ofNat (n + 1); (a.1 + t, t)) (fxOne, fxOne)
  (List.range 10).foldl (fun v _ => v * v / fxOne) s.1

/-- ln y for 1 ≤ y < 2. -/
def fxLn (y : Int) : Int :=
  let z := (y - fxOne) * fxOne / (y + fxOne)
  let s := (List.range 280).foldl (fun (a : Int × Int) n => (a.1 + a.2 / Int.ofNat (2 * n + 1), a.2 * z / fxOne * z / fxOne)) (0, z)
  2 * s.1

/-- ln 2 = − ln (1/2) by the same series: 2 atanh (1/3). -/
def fxLn2 : Int :=
  let s := (List.range 280).foldl (fun (a : Int × Int) n => (a.1 + a.2 / Int.ofNat (2 * n + 1), a.2 / 9)) (0, fxOne / 3)
  2 * s.1

/-- arctan (1 / n). -/
def fxArctanInv (n : Int) : Int :=
  let s := (List.range 300).foldl (fun (a : Int × Int) k =>
    (a.1 + (if k % 2 = 0 then a.2 / Int.ofNat (2 * k + 1) else -(a.2 / Int.ofNat (2 * k + 1))), a.2 / (n * n))) (0, fxOne / n)
  s.1

/-- π (Machin). -/
def fxPi : Int := 16 * fxArctanInv 5 - 4 * fxArctanInv 239

/-- cos x and sin x for |x| up to 2^20: Taylor sums of x / 2^24, the angle then doubled 24 times. -/
def fxCosSin (x : Int) : Int × Int :=
  let y := x / 2 ^ 24
  let s := (List.range 80).foldl (fun (a : (Int × Int) × Int) n =>
    let t := a.2 * y / fxOne / Int.ofNat (n + 1)
    match n % 4 with
    | 0 => ((a.1.1, a.1.2 + t), t)
    | 1 => ((a.1.1 - t, a.1.2), t)
    | 2 => ((a.1.1, a.1.2 - t), t)
    | _ => ((a.1.1 + t, a.1.2), t)) ((fxOne, 0), fxOne)
  (List.range 24).foldl (fun (v : Int × Int) _ => ((v.1 * v.1 - v.2 * v.2) / fxOne, 2 * v.1 * v.2 / fxOne)) s.1

/-- erf x for |x| below 10; beyond, ±1. -/
def fxErf (x : Int) : Int :=
  if 10 * fxOne ≤ x then fxOne else if x ≤ -10 * fxOne then -fxOne
  else
    let q := x * x / fxOne
    let s := (List.range 700).foldl (fun (a : Int × Int) n =>
      (a.1 + (if n % 2 = 0 then a.2 / Int.ofNat (2 * n + 1) else -(a.2 / Int.ofNat (2 * n + 1))), a.2 * q / fxOne / Int.ofNat (n + 1))) (0, x)
    let root := Int.ofNat (isqrt (fxPi.toNat * 2 ^ 400) 402 0)
    2 * s.1 * fxOne / root

/-- 1 / (1 + e^−x). -/
def fxSigm (x : Int) : Int :=
  if x < -250 * fxOne then 0 else if 250 * fxOne < x then fxOne
  else
    let t := fxExp (if x < 0 then x else -x)
    if x < 0 then t * fxOne / (fxOne + t) else fxOne * fxOne / (fxOne + t)

/-- tanh x. -/
def fxTanh (x : Int) : Int :=
  if 100 * fxOne ≤ x then fxOne else if x ≤ -100 * fxOne then -fxOne
  else
    let t := fxExp (2 * x)
    (t - fxOne) * fxOne / (t + fxOne)

/-- The function of a form at a finite input (R127), scaled; a form is named by its minor code. -/
def fxSpecial (fn : Fin 12) (neg : Bool) (m : Nat) (e : Int) : Int :=
  let x := fxOf neg m e
  let small := x < -250 * fxOne
  let ln := fxLn (fxOf false m (-Int.ofNat (Nat.log2 m))) + (e + Int.ofNat (Nat.log2 m)) * fxLn2
  match fn.val with
  | 0 => if small then 0 else fxExp (x * fxLn2 / fxOne)
  | 1 => if small then 0 else fxExp x
  | 2 => ln * fxOne / fxLn2
  | 3 => if x = 0 then 0 else fxOne * fxOne / x
  | 4 => if x ≤ 0 then 0 else fxOne * fxOne / Int.ofNat (isqrt (x.toNat * 2 ^ 400) 500 0)
  | 5 => ln
  | 6 => (fxCosSin x).2
  | 7 => (fxCosSin x).1
  | 8 => fxTanh x
  | 9 => fxSigm x
  | 10 => fxErf x
  | _ => x * fxSigm x / fxOne

/-! ## Results -/

/-- The bound of R127 in ulp. -/
def sfuUlps (fn : Fin 12) : Int :=
  match fn.val with
  | 1 => 2
  | 5 => 2
  | 6 => 2
  | 7 => 2
  | 8 => 2
  | 9 => 2
  | 10 => 2
  | 11 => 3
  | _ => 1

/-- The FP32 ulp at a scaled value, the subnormal ulp below 2^−126. -/
def fxUlp (v : Int) : Int := 2 ^ (400 + (max (Int.ofNat (Nat.log2 v.natAbs) - 400) (-126) - 23)).toNat

/-- Whether an encoding lies within the bound of a form around the exact result. -/
def withinBound (fn : Fin 12) (v : Int) (bits : BitVec 32) : Bool :=
  match fp32.unpack bits.toNat with
  | .fin n m e =>
    let bound := sfuUlps fn * fxUlp v
    let bound := if fn.val = 6 ∨ fn.val = 7 then max bound (2 ^ 376) else bound
    decide ((fxOf n m e - v).natAbs ≤ (bound + 2 ^ 100).toNat)
  | _ => false

/-- Whether |x| is beyond 2^20, where vsin and vcos promise only a result in [−1, 1]. -/
def beyondTrig (bits : BitVec 32) : Bool := 0x49800000 < bits.toNat % 2 ^ 31

/-- The free result of a form at an input with an ordinary result: the free bits where they meet R127, else the nearest encoding. -/
def sfuFree (fn : Fin 12) (x : BitVec 32) (neg : Bool) (m : Nat) (e : Int) : Nat :=
  let free := Config.sfu fn x
  if (fn.val = 6 ∨ fn.val = 7) ∧ beyondTrig x then if free.toNat % 2 ^ 31 ≤ 0x3F800000 then free.toNat else 0
  else
    let v := fxSpecial fn neg m e
    if withinBound fn v free then free.toNat else (roundPack fp32 .rne (v < 0) v.natAbs (-400)).bits

/-- FP32 one. -/
def fOne : Nat := 0x3F800000

/-- Whether a finite value is an integer. -/
def isIntegral (m : Nat) (e : Int) : Bool := 0 ≤ e || m % 2 ^ (-e).toNat == 0

/-- The result of an SFU form on one element (R126 to R128). -/
def sfuElem (fn : Fin 12) (x : BitVec 32) : FRes :=
  let v := fp32.unpack x.toNat
  let nv := nanRes fp32 fNV
  let dz := fun (n : Bool) => ({ infRes fp32 n with flags := fDZ } : FRes)
  let ov := fun (n : Bool) => ({ infRes fp32 n with flags := fOF } : FRes)
  let zero := fun (n : Bool) => (⟨fp32.signed n 0, 0⟩ : FRes)
  let one := fun (n : Bool) => (⟨fp32.signed n fOne, 0⟩ : FRes)
  match v with
  | .nan s => nanRes fp32 (if s then fNV else 0)
  | .inf n =>
    match fn.val with
    | 0 => if n then zero false else infRes fp32 false
    | 1 => if n then zero false else infRes fp32 false
    | 2 => if n then nv else infRes fp32 false
    | 3 => zero n
    | 4 => if n then nv else zero false
    | 5 => if n then nv else infRes fp32 false
    | 6 => nv
    | 7 => nv
    | 8 => one n
    | 9 => if n then zero false else one false
    | 10 => one n
    | _ => if n then zero true else infRes fp32 false
  | .fin n m e =>
    if m = 0 then
      match fn.val with
      | 0 => one false
      | 1 => one false
      | 2 => dz true
      | 3 => dz n
      | 4 => dz n
      | 5 => dz true
      | 7 => one false
      | 9 => ⟨0x3F000000, 0⟩
      | _ => zero n
    else
      let free : FRes := ⟨sfuFree fn x n m e, 0⟩
      match fn.val with
      | 0 =>
        if !n ∧ 0x43000000 ≤ x.toNat then ov false
        else if isIntegral m e ∧ (!n ∨ x.toNat % 2 ^ 31 ≤ 0x43150000) then
          roundPack fp32 .rne false 1 ((if n then -1 else 1) * Int.ofNat (if 0 ≤ e then m * 2 ^ e.toNat else m / 2 ^ (-e).toNat))
        else free
      | 1 => if !n ∧ 0x42B17218 ≤ x.toNat then ov false else free
      | 2 => if n then nv else if m = 2 ^ Nat.log2 m then fOfInt fp32 .rne (e + Int.ofNat (Nat.log2 m)) else free
      | 3 => if x.toNat % 2 ^ 31 ≤ 0x00200000 then ov n else free
      | 4 => if n then nv else free
      | 5 => if n then nv else if x.toNat = fOne then zero false else free
      | _ => free

/-- An SFU slot: latency 8 (R126). -/
def State.sfuSlot (s : State) (fn : Fin 12) (w : Bool) (d a : VOp) : Host.Outcome State Fault Refusal :=
  let bits := if w then 512 else 256
  match s.readV a bits with
  | .stop t => t.done
  | .ok x t =>
    let rs := (lanes 32 (bits / 32) x).map (sfuElem fn)
    ((t.writeV d bits (fp32.vec rs) 8).withFlags s (flagsOf rs)).done

def execVexp2 (w : Bool) (d a : VOp) (s : State) : Host.Outcome State Fault Refusal := s.sfuSlot 0 w d a
def execVexp (w : Bool) (d a : VOp) (s : State) : Host.Outcome State Fault Refusal := s.sfuSlot 1 w d a
def execVlog2 (w : Bool) (d a : VOp) (s : State) : Host.Outcome State Fault Refusal := s.sfuSlot 2 w d a
def execVrcp (w : Bool) (d a : VOp) (s : State) : Host.Outcome State Fault Refusal := s.sfuSlot 3 w d a
def execVrsqrt (w : Bool) (d a : VOp) (s : State) : Host.Outcome State Fault Refusal := s.sfuSlot 4 w d a
def execVlog (w : Bool) (d a : VOp) (s : State) : Host.Outcome State Fault Refusal := s.sfuSlot 5 w d a
def execVsin (w : Bool) (d a : VOp) (s : State) : Host.Outcome State Fault Refusal := s.sfuSlot 6 w d a
def execVcos (w : Bool) (d a : VOp) (s : State) : Host.Outcome State Fault Refusal := s.sfuSlot 7 w d a
def execVtanh (w : Bool) (d a : VOp) (s : State) : Host.Outcome State Fault Refusal := s.sfuSlot 8 w d a
def execVsigm (w : Bool) (d a : VOp) (s : State) : Host.Outcome State Fault Refusal := s.sfuSlot 9 w d a
def execVerf (w : Bool) (d a : VOp) (s : State) : Host.Outcome State Fault Refusal := s.sfuSlot 10 w d a
def execVsilu (w : Bool) (d a : VOp) (s : State) : Host.Outcome State Fault Refusal := s.sfuSlot 11 w d a

end Sys2Proof.Machine
end

