-- ==== Sys2Proof/Machine/Dispatch.lean ====
section
/-! DEFINITION. The meaning of every instruction: one arm for each constructor. -/

namespace Sys2Proof.Machine

def exec (i : Instr) (s : State) : Host.Outcome State Fault Refusal :=
  match i with
  | .bc stall y lend rm brk run => Sys2Proof.Machine.execBc stall y lend rm brk run s
  | .add d a b => Sys2Proof.Machine.execAdd d a b s
  | .sub d a b => Sys2Proof.Machine.execSub d a b s
  | .mul d a b => Sys2Proof.Machine.execMul d a b s
  | .mulh d a b => Sys2Proof.Machine.execMulh d a b s
  | .mulhn d a b => Sys2Proof.Machine.execMulhn d a b s
  | .and d a b => Sys2Proof.Machine.execAnd d a b s
  | .or d a b => Sys2Proof.Machine.execOr d a b s
  | .xor d a b => Sys2Proof.Machine.execXor d a b s
  | .andn d a b => Sys2Proof.Machine.execAndn d a b s
  | .shl d a b => Sys2Proof.Machine.execShl d a b s
  | .shr d a b => Sys2Proof.Machine.execShr d a b s
  | .sar d a b => Sys2Proof.Machine.execSar d a b s
  | .min d a b => Sys2Proof.Machine.execMin d a b s
  | .max d a b => Sys2Proof.Machine.execMax d a b s
  | .minn d a b => Sys2Proof.Machine.execMinn d a b s
  | .maxn d a b => Sys2Proof.Machine.execMaxn d a b s
  | .addi d a imm => Sys2Proof.Machine.execAddi d a imm s
  | .andi d a imm => Sys2Proof.Machine.execAndi d a imm s
  | .ori d a imm => Sys2Proof.Machine.execOri d a imm s
  | .xori d a imm => Sys2Proof.Machine.execXori d a imm s
  | .shli d a imm => Sys2Proof.Machine.execShli d a imm s
  | .shri d a imm => Sys2Proof.Machine.execShri d a imm s
  | .sari d a imm => Sys2Proof.Machine.execSari d a imm s
  | .rsubi d a imm => Sys2Proof.Machine.execRsubi d a imm s
  | .div d a b => Sys2Proof.Machine.execDiv d a b s
  | .divn d a b => Sys2Proof.Machine.execDivn d a b s
  | .rem d a b => Sys2Proof.Machine.execRem d a b s
  | .remn d a b => Sys2Proof.Machine.execRemn d a b s
  | .clz d a => Sys2Proof.Machine.execClz d a s
  | .ctz d a => Sys2Proof.Machine.execCtz d a s
  | .popc d a => Sys2Proof.Machine.execPopc d a s
  | .brev d a => Sys2Proof.Machine.execBrev d a s
  | .bswap d a => Sys2Proof.Machine.execBswap d a s
  | .sext d a b => Sys2Proof.Machine.execSext d a b s
  | .zext d a b => Sys2Proof.Machine.execZext d a b s
  | .bfx d a b => Sys2Proof.Machine.execBfx d a b s
  | .bfi d a b => Sys2Proof.Machine.execBfi d a b s
  | .abs d a => Sys2Proof.Machine.execAbs d a s
  | .neg d a => Sys2Proof.Machine.execNeg d a s
  | .fadd d a b => Sys2Proof.Machine.execFadd d a b s
  | .fsub d a b => Sys2Proof.Machine.execFsub d a b s
  | .fmul d a b => Sys2Proof.Machine.execFmul d a b s
  | .fdiv d a b => Sys2Proof.Machine.execFdiv d a b s
  | .fsqrt d a => Sys2Proof.Machine.execFsqrt d a s
  | .fmin d a b => Sys2Proof.Machine.execFmin d a b s
  | .fmax d a b => Sys2Proof.Machine.execFmax d a b s
  | .fabs d a => Sys2Proof.Machine.execFabs d a s
  | .fneg d a => Sys2Proof.Machine.execFneg d a s
  | .fitof d a => Sys2Proof.Machine.execFitof d a s
  | .ftoi d a => Sys2Proof.Machine.execFtoi d a s
  | .fround d a => Sys2Proof.Machine.execFround d a s
  | .ceq p cflag a b => Sys2Proof.Machine.execCeq p cflag a b s
  | .cne p cflag a b => Sys2Proof.Machine.execCne p cflag a b s
  | .clt p cflag a b => Sys2Proof.Machine.execClt p cflag a b s
  | .cge p cflag a b => Sys2Proof.Machine.execCge p cflag a b s
  | .cltn p cflag a b => Sys2Proof.Machine.execCltn p cflag a b s
  | .cgen p cflag a b => Sys2Proof.Machine.execCgen p cflag a b s
  | .ctst p cflag a b => Sys2Proof.Machine.execCtst p cflag a b s
  | .fceq p cflag a b => Sys2Proof.Machine.execFceq p cflag a b s
  | .fclt p cflag a b => Sys2Proof.Machine.execFclt p cflag a b s
  | .fcle p cflag a b => Sys2Proof.Machine.execFcle p cflag a b s
  | .fcun p cflag a b => Sys2Proof.Machine.execFcun p cflag a b s
  | .pand p cflag q r => Sys2Proof.Machine.execPand p cflag q r s
  | .por p cflag q r => Sys2Proof.Machine.execPor p cflag q r s
  | .pxor p cflag q r => Sys2Proof.Machine.execPxor p cflag q r s
  | .pandn p cflag q r => Sys2Proof.Machine.execPandn p cflag q r s
  | .pset p cflag v => Sys2Proof.Machine.execPset p cflag v s
  | .kany p cflag k => Sys2Proof.Machine.execKany p cflag k s
  | .kall p cflag k => Sys2Proof.Machine.execKall p cflag k s
  | .knone p cflag k => Sys2Proof.Machine.execKnone p cflag k s
  | .br o => Sys2Proof.Machine.execBr o s
  | .call o => Sys2Proof.Machine.execCall o s
  | .bi a => Sys2Proof.Machine.execBi a s
  | .calli a => Sys2Proof.Machine.execCalli a s
  | .ret a => Sys2Proof.Machine.execRet a s
  | .bk k o => Sys2Proof.Machine.execBk k o s
  | .bkn k o => Sys2Proof.Machine.execBkn k o s
  | .loop a o => Sys2Proof.Machine.execLoop a o s
  | .loopi n o => Sys2Proof.Machine.execLoopi n o s
  | .lexit l => Sys2Proof.Machine.execLexit l s
  | .rdlp d x l => Sys2Proof.Machine.execRdlp d x l s
  | .wrlp a x l => Sys2Proof.Machine.execWrlp a x l s
  | .replay a n => Sys2Proof.Machine.execReplay a n s
  | .stgset p n => Sys2Proof.Machine.execStgset p n s
  | .ldb d b m e => Sys2Proof.Machine.execLdb d b m e s
  | .ldh d b m e => Sys2Proof.Machine.execLdh d b m e s
  | .ldw d b m e => Sys2Proof.Machine.execLdw d b m e s
  | .ldd d b m e => Sys2Proof.Machine.execLdd d b m e s
  | .ldv256 v b m e => Sys2Proof.Machine.execLdv256 v b m e s
  | .ldv512 v b m e => Sys2Proof.Machine.execLdv512 v b m e s
  | .ldv1k v b m e => Sys2Proof.Machine.execLdv1k v b m e s
  | .ldbc v b m e => Sys2Proof.Machine.execLdbc v b m e s
  | .stb a b m e => Sys2Proof.Machine.execStb a b m e s
  | .sth a b m e => Sys2Proof.Machine.execSth a b m e s
  | .stw a b m e => Sys2Proof.Machine.execStw a b m e s
  | .std a b m e => Sys2Proof.Machine.execStd a b m e s
  | .stv256 v b m e => Sys2Proof.Machine.execStv256 v b m e s
  | .stv512 v b m e => Sys2Proof.Machine.execStv512 v b m e s
  | .stv1k v b m e => Sys2Proof.Machine.execStv1k v b m e s
  | .stvk v b k e => Sys2Proof.Machine.execStvk v b k e s
  | .aswap d a b y z => Sys2Proof.Machine.execAswap d a b y z s
  | .aadd d a b y z => Sys2Proof.Machine.execAadd d a b y z s
  | .aand d a b y z => Sys2Proof.Machine.execAand d a b y z s
  | .aor d a b y z => Sys2Proof.Machine.execAor d a b y z s
  | .amax d a b y z => Sys2Proof.Machine.execAmax d a b y z s
  | .amin d a b y z => Sys2Proof.Machine.execAmin d a b y z s
  | .acas d a b y z => Sys2Proof.Machine.execAcas d a b y z s
  | .afadd d a b z => Sys2Proof.Machine.execAfadd d a b z s
  | .fence z o => Sys2Proof.Machine.execFence z o s
  | .drain => Sys2Proof.Machine.execDrain s
  | .lda d b y z => Sys2Proof.Machine.execLda d b y z s
  | .strl a b y z => Sys2Proof.Machine.execStrl a b y z s
  | .waiteng t => Sys2Proof.Machine.execWaiteng t s
  | .arrive b => Sys2Proof.Machine.execArrive b s
  | .waitb b => Sys2Proof.Machine.execWaitb b s
  | .rdv b => Sys2Proof.Machine.execRdv b s
  | .gphase => Sys2Proof.Machine.execGphase s
  | .vaddI8 w d a b => Sys2Proof.Machine.execVaddI8 w d a b s
  | .vaddI16 w d a b => Sys2Proof.Machine.execVaddI16 w d a b s
  | .vaddI32 w d a b => Sys2Proof.Machine.execVaddI32 w d a b s
  | .vsubI8 w d a b => Sys2Proof.Machine.execVsubI8 w d a b s
  | .vsubI16 w d a b => Sys2Proof.Machine.execVsubI16 w d a b s
  | .vsubI32 w d a b => Sys2Proof.Machine.execVsubI32 w d a b s
  | .vmulI16 w d a b => Sys2Proof.Machine.execVmulI16 w d a b s
  | .vmulI32 w d a b => Sys2Proof.Machine.execVmulI32 w d a b s
  | .vmulhI32 w d a b => Sys2Proof.Machine.execVmulhI32 w d a b s
  | .vminI32 w d a b => Sys2Proof.Machine.execVminI32 w d a b s
  | .vmaxI32 w d a b => Sys2Proof.Machine.execVmaxI32 w d a b s
  | .vminnN32 w d a b => Sys2Proof.Machine.execVminnN32 w d a b s
  | .vmaxnN32 w d a b => Sys2Proof.Machine.execVmaxnN32 w d a b s
  | .vand w d a b => Sys2Proof.Machine.execVand w d a b s
  | .vor w d a b => Sys2Proof.Machine.execVor w d a b s
  | .vxor w d a b => Sys2Proof.Machine.execVxor w d a b s
  | .vandn w d a b => Sys2Proof.Machine.execVandn w d a b s
  | .vshlI32 w d a b => Sys2Proof.Machine.execVshlI32 w d a b s
  | .vshrN32 w d a b => Sys2Proof.Machine.execVshrN32 w d a b s
  | .vsarI32 w d a b => Sys2Proof.Machine.execVsarI32 w d a b s
  | .vaddsI8 w d a b => Sys2Proof.Machine.execVaddsI8 w d a b s
  | .vaddsI16 w d a b => Sys2Proof.Machine.execVaddsI16 w d a b s
  | .vsubsI8 w d a b => Sys2Proof.Machine.execVsubsI8 w d a b s
  | .vsubsI16 w d a b => Sys2Proof.Machine.execVsubsI16 w d a b s
  | .vceqI32 w k a b => Sys2Proof.Machine.execVceqI32 w k a b s
  | .vcltI32 w k a b => Sys2Proof.Machine.execVcltI32 w k a b s
  | .vcltnN32 w k a b => Sys2Proof.Machine.execVcltnN32 w k a b s
  | .vabsI32 w d a => Sys2Proof.Machine.execVabsI32 w d a s
  | .vmadI16 w d a b => Sys2Proof.Machine.execVmadI16 w d a b s
  | .vdot4I8 w d a b => Sys2Proof.Machine.execVdot4I8 w d a b s
  | .vclzI32 w d a => Sys2Proof.Machine.execVclzI32 w d a s
  | .vpopcI32 w d a => Sys2Proof.Machine.execVpopcI32 w d a s
  | .vfaddF32 w d a b => Sys2Proof.Machine.execVfaddF32 w d a b s
  | .vfsubF32 w d a b => Sys2Proof.Machine.execVfsubF32 w d a b s
  | .vfmulF32 w d a b => Sys2Proof.Machine.execVfmulF32 w d a b s
  | .vfmaF32 w d a b => Sys2Proof.Machine.execVfmaF32 w d a b s
  | .vfmsF32 w d a b => Sys2Proof.Machine.execVfmsF32 w d a b s
  | .vfminF32 w d a b => Sys2Proof.Machine.execVfminF32 w d a b s
  | .vfmaxF32 w d a b => Sys2Proof.Machine.execVfmaxF32 w d a b s
  | .vfabsF32 w d a => Sys2Proof.Machine.execVfabsF32 w d a s
  | .vfnegF32 w d a => Sys2Proof.Machine.execVfnegF32 w d a s
  | .vfdivF32 w d a b => Sys2Proof.Machine.execVfdivF32 w d a b s
  | .vfsqrtF32 w d a => Sys2Proof.Machine.execVfsqrtF32 w d a s
  | .vfceqF32 w k a b => Sys2Proof.Machine.execVfceqF32 w k a b s
  | .vfcltF32 w k a b => Sys2Proof.Machine.execVfcltF32 w k a b s
  | .vfcleF32 w k a b => Sys2Proof.Machine.execVfcleF32 w k a b s
  | .vfcunF32 w k a b => Sys2Proof.Machine.execVfcunF32 w k a b s
  | .vfaddBf16 w d a b => Sys2Proof.Machine.execVfaddBf16 w d a b s
  | .vfmulBf16 w d a b => Sys2Proof.Machine.execVfmulBf16 w d a b s
  | .vfmaBf16 w d a b => Sys2Proof.Machine.execVfmaBf16 w d a b s
  | .vfminBf16 w d a b => Sys2Proof.Machine.execVfminBf16 w d a b s
  | .vfmaxBf16 w d a b => Sys2Proof.Machine.execVfmaxBf16 w d a b s
  | .vfsclF32 w d a b => Sys2Proof.Machine.execVfsclF32 w d a b s
  | .vfrndF32 w d a => Sys2Proof.Machine.execVfrndF32 w d a s
  | .vfamaxF32 w d a b => Sys2Proof.Machine.execVfamaxF32 w d a b s
  | .cvtF32Bf16 w d a => Sys2Proof.Machine.execCvtF32Bf16 w d a s
  | .cvtBf16F32 w d a => Sys2Proof.Machine.execCvtBf16F32 w d a s
  | .cvtF32I32 w d a => Sys2Proof.Machine.execCvtF32I32 w d a s
  | .cvtI32F32 w d a => Sys2Proof.Machine.execCvtI32F32 w d a s
  | .cvtMx8F32 d a z => Sys2Proof.Machine.execCvtMx8F32 d a z s
  | .cvtMx6F32 d a z => Sys2Proof.Machine.execCvtMx6F32 d a z s
  | .cvtMx4F32 d a z => Sys2Proof.Machine.execCvtMx4F32 d a z s
  | .cvtF32Mx8 d a z => Sys2Proof.Machine.execCvtF32Mx8 d a z s
  | .cvtF32Mx6 d a z => Sys2Proof.Machine.execCvtF32Mx6 d a z s
  | .cvtF32Mx4 d a z => Sys2Proof.Machine.execCvtF32Mx4 d a z s
  | .cvtF8e4F32 w d a => Sys2Proof.Machine.execCvtF8e4F32 w d a s
  | .cvtF32F8e4 w d a => Sys2Proof.Machine.execCvtF32F8e4 w d a s
  | .cvtF8e5F32 w d a => Sys2Proof.Machine.execCvtF8e5F32 w d a s
  | .cvtF32F8e5 w d a => Sys2Proof.Machine.execCvtF32F8e5 w d a s
  | .bscale d a => Sys2Proof.Machine.execBscale d a s
  | .cvtBf16F32Sr w d a => Sys2Proof.Machine.execCvtBf16F32Sr w d a s
  | .vrsumF32 w d a => Sys2Proof.Machine.execVrsumF32 w d a s
  | .vrmaxF32 w d a => Sys2Proof.Machine.execVrmaxF32 w d a s
  | .vrminF32 w d a => Sys2Proof.Machine.execVrminF32 w d a s
  | .vrsumI32 w d a => Sys2Proof.Machine.execVrsumI32 w d a s
  | .vrmaxI32 w d a => Sys2Proof.Machine.execVrmaxI32 w d a s
  | .vrminI32 w d a => Sys2Proof.Machine.execVrminI32 w d a s
  | .vramaxF32 w d a => Sys2Proof.Machine.execVramaxF32 w d a s
  | .vdeltaF32 w d a b => Sys2Proof.Machine.execVdeltaF32 w d a b s
  | .vdeltaBf16 w d a b => Sys2Proof.Machine.execVdeltaBf16 w d a b s
  | .vmaxmagF32 w d a => Sys2Proof.Machine.execVmaxmagF32 w d a s
  | .vmaxmagBf16 w d a => Sys2Proof.Machine.execVmaxmagBf16 w d a s
  | .vscanF32 w d a => Sys2Proof.Machine.execVscanF32 w d a s
  | .vscanI32 w d a => Sys2Proof.Machine.execVscanI32 w d a s
  | .kcnt w d k => Sys2Proof.Machine.execKcnt w d k s
  | .vmov w d a => Sys2Proof.Machine.execVmov w d a s
  | .vbc w d e z => Sys2Proof.Machine.execVbc w d e z s
  | .vext w d a e => Sys2Proof.Machine.execVext w d a e s
  | .vins w d e z => Sys2Proof.Machine.execVins w d e z s
  | .vperm w d a b => Sys2Proof.Machine.execVperm w d a b s
  | .vzip w d a b => Sys2Proof.Machine.execVzip w d a b s
  | .vunzip w d a b => Sys2Proof.Machine.execVunzip w d a b s
  | .vrotl w d a c => Sys2Proof.Machine.execVrotl w d a c s
  | .vsel w j d a b => Sys2Proof.Machine.execVsel w j d a b s
  | .kand k a b => Sys2Proof.Machine.execKand k a b s
  | .kor k a b => Sys2Proof.Machine.execKor k a b s
  | .kxor k a b => Sys2Proof.Machine.execKxor k a b s
  | .knot k a => Sys2Proof.Machine.execKnot k a s
  | .kfroms k h z => Sys2Proof.Machine.execKfroms k h z s
  | .ktos a h d => Sys2Proof.Machine.execKtos a h d s
  | .viota w d => Sys2Proof.Machine.execViota w d s
  | .vexp2 w d a => Sys2Proof.Machine.execVexp2 w d a s
  | .vexp w d a => Sys2Proof.Machine.execVexp w d a s
  | .vlog2 w d a => Sys2Proof.Machine.execVlog2 w d a s
  | .vrcp w d a => Sys2Proof.Machine.execVrcp w d a s
  | .vrsqrt w d a => Sys2Proof.Machine.execVrsqrt w d a s
  | .vlog w d a => Sys2Proof.Machine.execVlog w d a s
  | .vsin w d a => Sys2Proof.Machine.execVsin w d a s
  | .vcos w d a => Sys2Proof.Machine.execVcos w d a s
  | .vtanh w d a => Sys2Proof.Machine.execVtanh w d a s
  | .vsigm w d a => Sys2Proof.Machine.execVsigm w d a s
  | .verf w d a => Sys2Proof.Machine.execVerf w d a s
  | .vsilu w d a => Sys2Proof.Machine.execVsilu w d a s
  | .wcfg w z => Sys2Proof.Machine.execWcfg w z s
  | .wset w z t => Sys2Proof.Machine.execWset w z t s
  | .wget w z t => Sys2Proof.Machine.execWget w z t s
  | .wrst w => Sys2Proof.Machine.execWrst w s
  | .wskip w z => Sys2Proof.Machine.execWskip w z s
  | .wisect w => Sys2Proof.Machine.execWisect w s
  | .wicnt w z => Sys2Proof.Machine.execWicnt w z s
  | .wstat w z => Sys2Proof.Machine.execWstat w z s
  | .mcall a r m => Sys2Proof.Machine.execMcall a r m s
  | .mset m a => Sys2Proof.Machine.execMset m a s
  | .mget m d => Sys2Proof.Machine.execMget m d s
  | .mzero a => Sys2Proof.Machine.execMzero a s
  | .mdrain a clr v f => Sys2Proof.Machine.execMdrain a clr v f s
  | .mwait a => Sys2Proof.Machine.execMwait a s
  | .mstat a d => Sys2Proof.Machine.execMstat a d s
  | .mcfg a z => Sys2Proof.Machine.execMcfg a z s
  | .rcfg b z e p c n => Sys2Proof.Machine.execRcfg b z e p c n s
  | .racq b => Sys2Proof.Machine.execRacq b s
  | .rpub b => Sys2Proof.Machine.execRpub b s
  | .rwait b => Sys2Proof.Machine.execRwait b s
  | .rrel b => Sys2Proof.Machine.execRrel b s
  | .reos b => Sys2Proof.Machine.execReos b s
  | .rstat b d e => Sys2Proof.Machine.execRstat b d e s
  | .rmask b z => Sys2Proof.Machine.execRmask b z s
  | .ecopy a l z c t => Sys2Proof.Machine.execEcopy a l z c t s
  | .egath a l z c t => Sys2Proof.Machine.execEgath a l z c t s
  | .escat a l z c t => Sys2Proof.Machine.execEscat a l z c t s
  | .esubs a l z c t => Sys2Proof.Machine.execEsubs a l z c t s
  | .ecoll a l z c t => Sys2Proof.Machine.execEcoll a l z c t s
  | .ehalo a l c t => Sys2Proof.Machine.execEhalo a l c t s
  | .ered a l c t => Sys2Proof.Machine.execEred a l c t s
  | .eckpt a l z c t => Sys2Proof.Machine.execEckpt a l z c t s
  | .erolb a l z c t => Sys2Proof.Machine.execErolb a l z c t s
  | .enq q a => Sys2Proof.Machine.execEnq q a s
  | .exit a n => Sys2Proof.Machine.execExit a n s
  | .tid d => Sys2Proof.Machine.execTid d s
  | .tparm d j => Sys2Proof.Machine.execTparm d j s
  | .qstat d q => Sys2Proof.Machine.execQstat d q s
  | .srd d z => Sys2Proof.Machine.execSrd d z s
  | .swr a z => Sys2Proof.Machine.execSwr a z s
  | .tmark a b => Sys2Proof.Machine.execTmark a b s
  | .rrec a => Sys2Proof.Machine.execRrec a s
  | .rprobe d a => Sys2Proof.Machine.execRprobe d a s
  | .rgate a => Sys2Proof.Machine.execRgate a s
  | .mmrd d => Sys2Proof.Machine.execMmrd d s
  | .mmclr => Sys2Proof.Machine.execMmclr s
  | .gpost q a t => Sys2Proof.Machine.execGpost q a t s
  | .gwait q t => Sys2Proof.Machine.execGwait q t s
  | .gstat q a d => Sys2Proof.Machine.execGstat q a d s
  | .gpre q => Sys2Proof.Machine.execGpre q s
  | .chkeq a b => Sys2Proof.Machine.execChkeq a b s
  | .chkv v w => Sys2Proof.Machine.execChkv v w s
  | .sig a => Sys2Proof.Machine.execSig a s
  | .sigrd d => Sys2Proof.Machine.execSigrd d s
  | .sigclr => Sys2Proof.Machine.execSigclr s
  | .trap c => Sys2Proof.Machine.execTrap c s
  | .brk c => Sys2Proof.Machine.execBrk c s
  | .rdsys d r => Sys2Proof.Machine.execRdsys d r s
  | .wrsys a r => Sys2Proof.Machine.execWrsys a r s
  | .lphase n => Sys2Proof.Machine.execLphase n s
  | .rfe => Sys2Proof.Machine.execRfe s
  | .ctxsave a b => Sys2Proof.Machine.execCtxsave a b s
  | .ctxrest a b => Sys2Proof.Machine.execCtxrest a b s
  | .wrsysp a r => Sys2Proof.Machine.execWrsysp a r s
  | .halt => Sys2Proof.Machine.execHalt s
  | .mpld a b => Sys2Proof.Machine.execMpld a b s
  | .tlbinv a b => Sys2Proof.Machine.execTlbinv a b s
  | .kidset a b => Sys2Proof.Machine.execKidset a b s
  | .kidkill a => Sys2Proof.Machine.execKidkill a s
  | .uEnd => Sys2Proof.Machine.execUEnd s
  | .uGeta => Sys2Proof.Machine.execUGeta s
  | .uGetb => Sys2Proof.Machine.execUGetb s
  | .uMac => Sys2Proof.Machine.execUMac s
  | .uRela => Sys2Proof.Machine.execURela s
  | .uRelb => Sys2Proof.Machine.execURelb s
  | .uLoopk => Sys2Proof.Machine.execULoopk s
  | .uEndl => Sys2Proof.Machine.execUEndl s
  | .uCson => Sys2Proof.Machine.execUCson s
  | .uCsoff => Sys2Proof.Machine.execUCsoff s
  | .uZero => Sys2Proof.Machine.execUZero s
  | .uSub z => Sys2Proof.Machine.execUSub z s
  | .uKmask k => Sys2Proof.Machine.execUKmask k s
  | .uTag t => Sys2Proof.Machine.execUTag t s
  | .uNop => Sys2Proof.Machine.execUNop s
  | .uGetab => Sys2Proof.Machine.execUGetab s
  | .bundleIssue core => Sys2Proof.Machine.execBundleIssue core s
  | .contextSelect core => Sys2Proof.Machine.execContextSelect core s
  | .contextWake core slot => Sys2Proof.Machine.execContextWake core slot s
  | .contextLoadComplete core slot => Sys2Proof.Machine.execContextLoadComplete core slot s
  | .preboundExpiry core slot => Sys2Proof.Machine.execPreboundExpiry core slot s
  | .loadReturn core slot id => Sys2Proof.Machine.execLoadReturn core slot id s
  | .divideComplete core slot id => Sys2Proof.Machine.execDivideComplete core slot id s
  | .vectorDivideComplete core slot id => Sys2Proof.Machine.execVectorDivideComplete core slot id s
  | .regionCommitAccept core slot => Sys2Proof.Machine.execRegionCommitAccept core slot s
  | .deferredEffectHandoff core slot => Sys2Proof.Machine.execDeferredEffectHandoff core slot s
  | .quietBoundaryPass core slot => Sys2Proof.Machine.execQuietBoundaryPass core slot s
  | .storePerform core slot => Sys2Proof.Machine.execStorePerform core slot s
  | .atomicExecute core slot => Sys2Proof.Machine.execAtomicExecute core slot s
  | .atomicReturn core slot => Sys2Proof.Machine.execAtomicReturn core slot s
  | .pageWalkComplete core kid va write => Sys2Proof.Machine.execPageWalkComplete core kid va write s
  | .ckptCopyComplete core kid va => Sys2Proof.Machine.execCkptCopyComplete core kid va s
  | .windrowFetch core slot w => Sys2Proof.Machine.execWindrowFetch core slot w s
  | .windrowFetchComplete core slot w => Sys2Proof.Machine.execWindrowFetchComplete core slot w s
  | .windrowMergeComplete core slot w => Sys2Proof.Machine.execWindrowMergeComplete core slot w s
  | .matrixCommandStart core => Sys2Proof.Machine.execMatrixCommandStart core s
  | .macLand core bank => Sys2Proof.Machine.execMacLand core bank s
  | .clearComplete core bank => Sys2Proof.Machine.execClearComplete core bank s
  | .drainDataReady core slot id => Sys2Proof.Machine.execDrainDataReady core slot id s
  | .multicastCopyComplete sheaf rid q => Sys2Proof.Machine.execMulticastCopyComplete sheaf rid q s
  | .gleanerTileStart sheaf rid => Sys2Proof.Machine.execGleanerTileStart sheaf rid s
  | .gleanerTileComplete sheaf rid => Sys2Proof.Machine.execGleanerTileComplete sheaf rid s
  | .gleanerCollect sheaf rid => Sys2Proof.Machine.execGleanerCollect sheaf rid s
  | .gleanerErrorEos sheaf rid => Sys2Proof.Machine.execGleanerErrorEos sheaf rid s
  | .loftStepGrowComplete core => Sys2Proof.Machine.execLoftStepGrowComplete core s
  | .loftStepShrinkComplete core => Sys2Proof.Machine.execLoftStepShrinkComplete core s
  | .engineChunk field cmd => Sys2Proof.Machine.execEngineChunk field cmd s
  | .engineTokenComplete field cmd => Sys2Proof.Machine.execEngineTokenComplete field cmd s
  | .haloMatch cmd peerCount peerLen rows delivered => Sys2Proof.Machine.execHaloMatch cmd peerCount peerLen rows delivered s
  | .reductionRoundMatch cmd agree peers => Sys2Proof.Machine.execReductionRoundMatch cmd agree peers s
  | .rd64 stack addr tag => Sys2Proof.Machine.execRd64 stack addr tag s
  | .rd256 stack addr tag => Sys2Proof.Machine.execRd256 stack addr tag s
  | .wrm stack addr kid mask data => Sys2Proof.Machine.execWrm stack addr kid mask data s
  | .atm stack addr kid tag op four operand compare => Sys2Proof.Machine.execAtm stack addr kid tag op four operand compare s
  | .writeQueueDrain stack => Sys2Proof.Machine.execWriteQueueDrain stack s
  | .packetReply stack tag => Sys2Proof.Machine.execPacketReply stack tag s
  | .cribFilterWindowReset stack slice => Sys2Proof.Machine.execCribFilterWindowReset stack slice s
  | .hbmTempAboveT1 stack temp => Sys2Proof.Machine.execHbmTempAboveT1 stack temp s
  | .hbmTempBelowT1 stack temp => Sys2Proof.Machine.execHbmTempBelowT1 stack temp s
  | .hbmTempAboveT2 stack temp => Sys2Proof.Machine.execHbmTempAboveT2 stack temp s
  | .hbmTempBelowT2 stack temp => Sys2Proof.Machine.execHbmTempBelowT2 stack temp s
  | .hbmTempAboveT3 stack temp => Sys2Proof.Machine.execHbmTempAboveT3 stack temp s
  | .lbArrival field => Sys2Proof.Machine.execLbArrival field s
  | .lbNaming field => Sys2Proof.Machine.execLbNaming field s
  | .lbEnterSlot field q => Sys2Proof.Machine.execLbEnterSlot field q s
  | .lbDispatch field q place => Sys2Proof.Machine.execLbDispatch field q place s
  | .memberRetire core slot => Sys2Proof.Machine.execMemberRetire core slot s
  | .thresherSaveRequest field core slot => Sys2Proof.Machine.execThresherSaveRequest field core slot s
  | .fieldStuckStep field => Sys2Proof.Machine.execFieldStuckStep field s
  | .queueHeldRetry field q => Sys2Proof.Machine.execQueueHeldRetry field q s
  | .hostRingPost field => Sys2Proof.Machine.execHostRingPost field s
  | .hostRingCoalesceTimer ring => Sys2Proof.Machine.execHostRingCoalesceTimer ring s
  | .tmarkApply field => Sys2Proof.Machine.execTmarkApply field s
  | .phaseComplete core slot => Sys2Proof.Machine.execPhaseComplete core slot s
  | .generationComplete core slot b => Sys2Proof.Machine.execGenerationComplete core slot b s
  | .ssqDoorbell => Sys2Proof.Machine.execSsqDoorbell s
  | .nodeLaunch q grp re lb join => Sys2Proof.Machine.execNodeLaunch q grp re lb join s
  | .nodeWaitk gmask => Sys2Proof.Machine.execNodeWaitk gmask s
  | .nodeStep => Sys2Proof.Machine.execNodeStep s
  | .nodeCond src sreg op breg mem b target => Sys2Proof.Machine.execNodeCond src sreg op breg mem b target s
  | .nodePost ring tag payload => Sys2Proof.Machine.execNodePost ring tag payload s
  | .nodeSetr sreg value => Sys2Proof.Machine.execNodeSetr sreg value s
  | .nodeFence scope => Sys2Proof.Machine.execNodeFence scope s
  | .nodeStop code => Sys2Proof.Machine.execNodeStop code s
  | .ssqWaitSatisfied => Sys2Proof.Machine.execSsqWaitSatisfied s
  | .ssqTakeover => Sys2Proof.Machine.execSsqTakeover s
  | .linkTrainingStart link => Sys2Proof.Machine.execLinkTrainingStart link s
  | .linkTrainingResult link ok full => Sys2Proof.Machine.execLinkTrainingResult link ok full s
  | .laneFailure link widthLeft => Sys2Proof.Machine.execLaneFailure link widthLeft s
  | .flitReplayLimit link => Sys2Proof.Machine.execFlitReplayLimit link s
  | .linkDrainRequest link => Sys2Proof.Machine.execLinkDrainRequest link s
  | .linkDrainComplete link => Sys2Proof.Machine.execLinkDrainComplete link s
  | .flitReceive link seq acked cls crcOk => Sys2Proof.Machine.execFlitReceive link seq acked cls crcOk s
  | .routeSwitch dest cls => Sys2Proof.Machine.execRouteSwitch dest cls s
  | .guestPacketWrite core slot tok => Sys2Proof.Machine.execGuestPacketWrite core slot tok s
  | .guestCompletion q ctx tok saved => Sys2Proof.Machine.execGuestCompletion q ctx tok saved s
  | .guestFaultPacket q ctx tok cause va => Sys2Proof.Machine.execGuestFaultPacket q ctx tok cause va s
  | .guestPreemptAck q => Sys2Proof.Machine.execGuestPreemptAck q s
  | .guestInvalidationAck count => Sys2Proof.Machine.execGuestInvalidationAck count s
  | .guestBreach code => Sys2Proof.Machine.execGuestBreach code s
  | .hostRegisterWrite offset value => Sys2Proof.Machine.execHostRegisterWrite offset value s
  | .attest nonce => Sys2Proof.Machine.execAttest nonce s
  | .writeFlashImage which image => Sys2Proof.Machine.execWriteFlashImage which image s
  | .resetTrtEntries tiles => Sys2Proof.Machine.execResetTrtEntries tiles s
  | .unpinCribLines pa bytes => Sys2Proof.Machine.execUnpinCribLines pa bytes s
  | .clearLostLines lines => Sys2Proof.Machine.execClearLostLines lines s
  | .releaseLeanTo => Sys2Proof.Machine.execReleaseLeanTo s
  | .quiesceRingEntry field sheaf rid => Sys2Proof.Machine.execQuiesceRingEntry field sheaf rid s
  | .registerKernelHeader kid va => Sys2Proof.Machine.execRegisterKernelHeader kid va s
  | .powerOnReset => Sys2Proof.Machine.execPowerOnReset s
  | .powerSample watts => Sys2Proof.Machine.execPowerSample watts s
  | .packageLoss lines => Sys2Proof.Machine.execPackageLoss lines s
  | .fatalFreeze cause => Sys2Proof.Machine.execFatalFreeze cause s
  | .thresherRedispatch field q core slot => Sys2Proof.Machine.execThresherRedispatch field q core slot s
  | .cxlMemRequest write pa data => Sys2Proof.Machine.execCxlMemRequest write pa data s
  | .guestTranslationRequest q ctx va write => Sys2Proof.Machine.execGuestTranslationRequest q ctx va write s
  | .cohRequest line write pkg mask data => Sys2Proof.Machine.execCohRequest line write pkg mask data s

end Sys2Proof.Machine
end

