-- ==== Sys2Proof/Machine/Fetch.lean ====
section
/-! DEFINITION. The fetch of a bundle, of a micro-operation and of a node: reading the words, decoding them and the checks that fetch makes
(02_bundle.md R45 to R48, R455, 07_tile.md R166, 18_step.md R360). -/

namespace Sys2Proof.Machine

/-- A slot that only supervisor level may hold (R46). -/
def privileged : Instr → Bool
  | .rfe => true
  | .ctxsave _ _ => true
  | .ctxrest _ _ => true
  | .wrsysp _ _ => true
  | .halt => true
  | .mpld _ _ => true
  | .tlbinv _ _ => true
  | .kidset _ _ => true
  | .kidkill _ => true
  | .enq _ _ => true
  | _ => false

/-- A slot that raises PRIV at a level (R46, R288): wrsys to a supervisor-only register does at every level. -/
def raisesPriv (super : Bool) (i : Instr) : Bool :=
  match i with
  | .wrsys _ r => !userWritable r
  | i => privileged i && !super

/-- The words of a bundle as fetch reads them. -/
def State.frameAt (s : State) (k : Nat) (j : Fin 4) : Framed :=
  let pc := (s.ctxAt k j).pc.toNat
  frame fun i => match s.fetchWord k j pc (pc + 4 * i) with
    | .ok w => some w
    | .error _ => none

/-- The Cribs meet the fetch of n bytes at a context's pc, each line of them that is not in the carve (R219). -/
def State.meetFetch (s : State) (k : Nat) (j : Fin 4) (n : Nat) : State :=
  let c := s.ctxAt k j
  (pieces n c.pc.toNat n).foldl (fun s x => match s.translate c.who .fetch x.1 with
    | .ok t _ => (s.meetWalk c.kid x.1).meet t
    | _ => s) s

/-- The bundle at a context's pc: its slots, or the trap that fetch raises (R46). -/
noncomputable def State.fetchBundle (s : State) (k : Nat) (j : Fin 4) : Fetched :=
  let c := s.ctxAt k j
  let f := s.frameAt k j
  match f.stop with
  | some i =>
    match s.fetchWord k j c.pc.toNat (c.pc.toNat + 4 * i) with
    | .error v => ⟨some v, [], f.words, false, false⟩
    | .ok _ => ⟨none, [], f.words, false, false⟩
  | none =>
    match checkFramed f with
    | .error i => ⟨some ⟨cILLOP, info47 i c.pc⟩, [], f.words, false, false⟩
    | .ok ss =>
      match (indexed ss).find? fun x => raisesPriv c.super x.2.op with
      | some x => ⟨some ⟨cPRIV, info47 x.1 c.pc⟩, ss, f.words, false, false⟩
      | none => ⟨none, ss, f.words, false, false⟩

/-- The micro-operation that the running call of a core is at; a place of the store that holds none reads as END (R179). -/
noncomputable def Core.fetchMicro (c : Core) (m : MatrixCall) : Option Instr :=
  match m.cmd.op with
  | .call r _ =>
    let code := tget [] c.store r.toNat
    (decodeMicro (code.getD m.pc 0).toNat).toOption
  | _ => none

/-- A node as the Step Sequencer reads it (R360, R368): the node, or the cause with the address. -/
noncomputable def State.fetchNode (s : State) : Except (Cause × Nat) Instr :=
  let a := s.ssq.cur.toNat
  if a % 32 ≠ 0 then .error (cALIGN, a)
  else
    match s.vaWords (superWho s.ssq.kid) a 4 with
    | .error (c, _) => .error (c, a)
    | .ok ws =>
      match decodeNode (wordAt ws 0) (wordAt ws 1) (wordAt ws 2) (wordAt ws 3) with
      | .error _ => .error (cILLOP, a)
      | .ok i => .ok i

end Sys2Proof.Machine
end

