-- ==== Sys2Proof/Machine/Turns.lean ====
section
/-! DEFINITION. The moves of the machine's agents as operations (log 1): a core issues a bundle, a matrix engine runs a micro-operation, the
Step Sequencer processes a node, another agent's event happens; and the state that a probe of one instruction starts from. -/

namespace Sys2Proof.Machine

/-- The meaning of an instruction as a change of state. -/
def runInstr (i : Instr) (s : State) : State :=
  match exec i s with
  | .next t => t
  | .fault _ => s
  | .refused _ => s

/-- Rows that are events of their own, neither a slot of a bundle, nor a micro-operation, nor a node (R3). -/
def isEvent (i : Instr) : Bool :=
  i.group == .notSlot &&
  (match i with
   | .uEnd => false | .uGeta => false | .uGetb => false | .uMac => false | .uRela => false | .uRelb => false | .uLoopk => false
   | .uEndl => false | .uCson => false | .uCsoff => false | .uZero => false | .uSub _ => false | .uKmask _ => false | .uTag _ => false
   | .uNop => false | .uGetab => false
   | .nodeLaunch _ _ _ _ _ => false | .nodeWaitk _ => false | .nodeStep => false | .nodeCond _ _ _ _ _ _ _ => false
   | .nodePost _ _ _ => false | .nodeSetr _ _ => false | .nodeFence _ => false | .nodeStop _ => false
   | .bundleIssue _ => false
   | _ => true)

/-- The machine with the bundle at the running context's pc fetched (R46), and what its slots would wait for. -/
noncomputable def State.fetched (s : State) (k : Nat) : State :=
  match (s.core k).running with
  | none => { s with issue := Issue.reset }
  | some j =>
    let s := s.modCtx k j fun c => c.settle s.now
    let f := s.fetchBundle k j
    let s := s.meetFetch k j (4 * f.words)
    let u := s.frameIssue k j f
    { s with issue := { Issue.reset with
        fetched := some { f with waits := u.slotsWait runInstr f.slots, idle := u.issue.y && u.slotsIdle runInstr f.slots } } }

/-- The STALLED contexts of a core whose waits have ended are YIELDED: they are candidates of the next selection (R285). -/
noncomputable def State.wakeCore (s : State) (k : Nat) : State :=
  (List.finRange 4).foldl (fun s j =>
    if (s.ctxAt k j).state = .stalled ∧ !(s.modCtx k j fun c => c.settle s.now).stillWaits runInstr k j
      ((s.modCtx k j fun c => c.settle s.now).fetchBundle k j) then s.modCtx k j fun c => { c with state := .yielded }
    else s) s

/-- The running context of a core issues its next bundle: fetch, BUNDLE_ISSUE, then the slots. -/
noncomputable def State.issueStep (s : State) (k : Nat) : Host.Outcome State Fault Refusal :=
  let s := (s.wakeCore k).fetched k
  match exec (.bundleIssue k) s with
  | .next t =>
    match t.issue.go, s.issue.fetched with
    | true, some f => .next (t.runBundle runInstr f.slots)
    | _, _ => .next t
  | o => o

/-! ## Two events of one object in one cycle (R8) -/

/-- The SSQ's number among the objects whose rows a cycle remembers. -/
def ssqObject : Nat := 24

/-- The row that the SSQ takes as it processes a node (R355). -/
def nodeRow (t : State) : Option (Nat × Nat) :=
  match t.ssq.state with
  | .waiting => some (ssqObject, 3)
  | .stopped => some (ssqObject, 7)
  | .faulted => some (ssqObject, 8)
  | _ => none

/-- The row of a doorbell (R355): a start, an invalid block, none where the SSQ runs already, or a stop. -/
def State.doorbellRow (s : State) : Option (Nat × Nat) :=
  let w := s.physWords s.config.sqblk 8
  let runs := s.ssq.state == .running || s.ssq.state == .waiting
  match recBits w 264 264 == 1, runs with
  | true, false => some (ssqObject, if s.ssqBlockBad w then 2 else 1)
  | true, true => some (ssqObject, 5)
  | false, true => some (ssqObject, 6)
  | false, false => none

/-- The row of a bank's table that a change of its state is (R161): a clear is the newest command where it takes a LIVE bank to BUSY. -/
def bankRow (clear : Bool) (a b : BankState) : Option Nat :=
  match a, b with
  | .empty, .busy => some 1
  | .live, .busy => some (if clear then 7 else 1)
  | .busy, .live => some 3
  | .busy, .empty => some 4
  | .busy, .fault => some 5
  | .live, .fault => some 6
  | .fault, .busy => some 8
  | _, _ => none

/-- The row of a ring slot's table that a change of it is (R189). -/
def slotRow (gleaner init mask : Bool) (a b : RingSlot) : Option Nat :=
  if init then some 8
  else
    match a.state, b.state with
    | .free, .full => some 1
    | .free, .filling => some (if gleaner then 3 else 2)
    | .filling, .full => some 4
    | .full, .free => some (if mask then 7 else 5)
    | .full, .full => if a.pending ≠ b.pending then some 6 else none
    | _, _ => none

/-- The row of a queue's table that a change of its state is (R326). -/
def queueRow (a b : QueueState) : Option Nat :=
  match a, b with
  | .off, .open_ => some 1
  | .open_, .spill => some 2
  | .spill, .open_ => some 3
  | .spill, .held => some 4
  | .held, .spill => some 5
  | .open_, .off => some 6
  | _, _ => none

/-- The rows that banks have taken from one state to the next. -/
def State.bankRows (s t : State) : List (Nat × Nat) :=
  t.liveCores.flatMap fun k => (List.finRange 4).filterMap fun a =>
    let clear := match ((t.core k).mq.filter fun x => x.bank == a).getLast? with
      | some x => x.op == .clear
      | none => false
    (bankRow clear (s.core k).banks[a].state (t.core k).banks[a].state).map fun n => (bankObject k a.val, n)

/-- The rows that ring slots have taken from one state to the next. -/
def State.slotRows (s t : State) : List (Nat × Nat) :=
  t.sheaves.flatMap fun x => x.2.rings.flatMap fun y =>
    let e := s.ringEntry x.1 y.1
    (List.range (max e.desc.nslot.toNat y.2.desc.nslot.toNat)).filterMap fun i =>
      (slotRow y.2.producer.isNone (e.epoch != y.2.epoch) (e.cmask != y.2.cmask) (tget RingSlot.reset e.slots i) (tget RingSlot.reset y.2.slots i)).map
        fun n => (slotObject x.1 y.1 i, n)

/-- The rows that queues have taken from one state to the next. -/
def State.queueRows (s t : State) : List (Nat × Nat) :=
  t.fields.flatMap fun x => x.2.queues.filterMap fun y =>
    (queueRow (s.queue x.1 (queueNum y.1)).state y.2.state).map fun n => (queueObject x.1 y.1, n)

/-- The rows that an event takes of the tables of links (R389) and of the SSQ (R355). -/
def State.rowOf (s : State) (i : Instr) (t : State) : Option (Nat × Nat) :=
  match i with
  | .linkTrainingStart n => some (n, 1)
  | .linkTrainingResult n ok full => some (n, if !ok then 4 else if full then 2 else 3)
  | .laneFailure n _ => some (n, if (s.linkAt n).state = .active then 5 else 6)
  | .flitReplayLimit n => some (n, 7)
  | .linkDrainRequest n => some (n, 8)
  | .linkDrainComplete n => some (n, 9)
  | .guestBreach _ => some (leanTo, 10)
  | .releaseLeanTo => some (leanTo, 11)
  | .ssqDoorbell => s.doorbellRow
  | .hostRegisterWrite n _ => if n < 8 then s.doorbellRow else none
  | .ssqWaitSatisfied => match t.ssq.state with
    | .faulted => some (ssqObject, 8)
    | .waiting => none
    | _ => some (ssqObject, 4)
  | .ssqTakeover => some (ssqObject, 9)
  | _ => none

/-- The rows that a move takes: those named, and the changes of banks, ring slots and queues. -/
def State.rowsTo (s t : State) (row : Option (Nat × Nat)) : List (Nat × Nat) := row.toList ++ s.bankRows t ++ s.slotRows t ++ s.queueRows t

/-- Events that reach an object in one cycle are taken in row order: what would be taken after a later row does not happen in this cycle (R8). An
event whose cycle a rule fixes happens all the same. -/
def State.inRow (s : State) (fixed : Bool) (row : State → Option (Nat × Nat)) (o : Host.Outcome State Fault Refusal) : Host.Outcome State Fault Refusal :=
  match o with
  | .next t => .next (if !fixed && (s.rowsTo t (row t)).any s.tooLate then s else (s.rowsTo t (row t)).foldl State.tookRow t)
  | o => o

/-- Events that no cycle passes over once they are due (R140, R168, R201, R210). -/
def isFixed (i : Instr) : Bool :=
  match i with
  | .macLand _ _ => true | .clearComplete _ _ => true | .multicastCopyComplete _ _ _ => true
  | _ => false

/-- The matrix engine of a core runs the micro-operation that its array's call is at. -/
noncomputable def State.engineStep (s : State) (k : Nat) : Host.Outcome State Fault Refusal :=
  match (s.core k).array with
  | none => .next s
  | some b =>
    match (s.core k).calls.find? fun m => m.cmd.bank == b with
    | none => .next s
    | some m =>
      match (s.core k).fetchMicro m with
      | none => .next s
      | some i => s.inRow false (fun _ => none) (exec i { s with issue := { Issue.reset with core := k } })

/-- The Step Sequencer moves: a copy of step registers still to change first, then a swr received, then the next node. -/
noncomputable def State.ssqStep (s : State) : Host.Outcome State Fault Refusal :=
  if s.ssq.writes ≠ [] ∨ s.ssq.asks ≠ [] ∨ s.ssq.state ≠ .running then .next s.copyMove
  else
    match s.fetchNode with
    | .error (c, a) => s.inRow false (fun _ => some (ssqObject, 8)) (.next (s.ssqFault c a))
    | .ok i =>
      let s := s.meetVa (superWho s.ssq.kid) s.ssq.cur.toNat 32
      s.inRow false nodeRow (exec i s)

/-- The context's fetched bundle would wait still (R285): set before CONTEXT_WAKE, which wakes only a context that would not. -/
noncomputable def State.beforeWake (s : State) (k slot : Nat) : State :=
  let j : Fin 4 := ⟨slot % 4, Nat.mod_lt _ (by decide)⟩
  let t := s.modCtx k j fun c => c.settle s.now
  let w := t.stillWaits runInstr k j (t.fetchBundle k j)
  { s with issue := { Issue.reset with outcome := if w then .wait else .run } }

/-- Events of agents that do not stop with the fields: the Granger and the host, the links and the base dies. -/
def anyTime (i : Instr) : Bool :=
  match i with
  | .powerOnReset => true | .attest _ => true | .writeFlashImage _ _ => true | .hostRegisterWrite _ _ => true
  | .cxlMemRequest _ _ _ => true | .fatalFreeze _ => true | .writeQueueDrain _ => true | .packetReply _ _ => true
  | .hbmTempAboveT1 _ _ => true | .hbmTempBelowT1 _ _ => true | .hbmTempAboveT2 _ _ => true | .hbmTempBelowT2 _ _ => true
  | .hbmTempAboveT3 _ _ => true
  | .resetTrtEntries _ => true | .unpinCribLines _ _ => true | .clearLostLines _ => true | .releaseLeanTo => true
  | _ => false

/-- An event happens. -/
noncomputable def State.eventStep (s : State) (i : Instr) : Host.Outcome State Fault Refusal :=
  if !isEvent i then .next s
  else
    match i with
    | .contextWake k j => exec i (s.beforeWake k j)
    | .contextSelect k => exec i { s.wakeCore k with issue := Issue.reset }
    | i => s.inRow (isFixed i) (s.rowOf i) (exec i { s with issue := Issue.reset })

/-- The move of one step: the turn that is fixed, else a free choice (log 1). -/
def State.nextTurn (s : State) : Turn × State :=
  match s.turn with
  | some t => (t, { s with turn := none })
  | none => (Config.schedule s.draws, s.drawn)

/-! ## An instruction placed where the next step runs it -/

/-- The words of the bundle that holds one slot word last: a BC word before it where the form needs one (R280, R297, R339, R348). -/
def probeWords (w : Nat) : List Nat :=
  let maj := fld w 26 5
  let fn := fld w 18 4
  let bc := if maj = 26 ∧ fld w 19 3 ≤ 1 then [0x1000]
    else if maj = 11 ∧ (fn = 5 ∨ fn = 7 ∨ fn = 8) then [0x2000]
    else []
  let last := w % 2 ^ 31 + 2 ^ 31
  if maj = 0 then [last, 0] else bc ++ [last, 0]

/-- Little-endian bytes of 32-bit words. -/
def bytesOfWords (ws : List Nat) : List Byte := ws.flatMap (leBytes 4)

/-- Core 0's slot 0 runs a supervisor context under KID 1, whose page table maps virtual page 0 of 16 GiB, every right given, to the start of
field 0's HBM; the root lies at 0x100000 and its lower table at 0x104000 (R245, R246). -/
def State.withProgram (s : State) (code : List Byte) : State :=
  let root := 0x100000
  let mid := 0x104000
  let table (next : Nat) : Word := BitVec.ofNat 64 (next + 1)
  let leaf : Word := 0x000008000000001E#64
  let mem := bsetN (bsetN (bsetN s.mem root (leBytes 8 (table mid).toNat)) mid (leBytes 8 leaf.toNat)) 0x10000 code
  let c := { Context.reset 0 with
    state := .running, ident := 1, pc := 0x10000, skipRm := false,
    regs := { Regs.reset 0 with
      p := Vector.replicate 16 true,
      sys := ((sysReset 0).set rSTATUS 1).set rKID 1 } }
  let core := { Core.reset false with ctx := (Core.reset false).ctx.set 0 c, running := some 0 }
  { s with mem := mem, cores := tput s.cores 0 core,
           kids := tput s.kids 1 { KidEntry.reset with state := .live, root := BitVec.ofNat 64 root },
           granger := { s.granger with state := .ready }, turn := some (.issue 0) }

/-- A call of bank 0 that is at micro-operation 0 of routine 0 (R169). -/
def probeCall : MatrixCall :=
  ⟨⟨0, 0, .call 0 0x0001000000000000#64, 0⟩, 0, false, false, 15, none, none, 0, 1, false, none, []⟩

end Sys2Proof.Machine
end

