-- ==== Sys2Proof/Machine/Step.lean ====
section
/-! DEFINITION. One step of the machine: whose move it is, and the move (log 1). A context issues a bundle, a matrix engine runs a
micro-operation, the Step Sequencer processes a node, another agent's event happens, or a cycle passes. -/

namespace Sys2Proof.Machine

/-- One step. -/
noncomputable def step (s : State) : Host.Outcome State Fault Refusal :=
  match s.nextTurn with
  | (.tick, s) => .next s.tick
  | (.issue k, s) => if s.awake then s.issueStep k else .next s
  | (.engine k, s) => if s.awake then s.engineStep k else .next s
  | (.ssq, s) => if s.awake then s.ssqStep else .next s
  | (.event i, s) => if s.awake || anyTime i then s.eventStep i else .next s
  | (.dump, s) => .next s.dump
  | (.badLine n p, s) => .next (s.badLine n p)
  | (.badCell k a n, s) => .next (s.badCell k a n)
  | (.guestWrite q va bs, s) => .next (if s.awake then s.guestWrite q va bs else s)
  | (.guestTake q, s) => .next (if s.awake then s.guestTake q else s)
  | (.mbox a, s) => .next (s.writeMbox a)
  | (.capRead, s) => .next s.capRead
  | (.barRead o n, s) => .next (s.barRead o n)
  | (.barWrite o bs, s) => s.inRow false (fun _ => if touches o bs 0 then s.doorbellRow else none) (.next (s.barStore o bs))
  | (.windowWrite a bs, s) => .next (s.windowWrite a bs)
  | (.peerWrite p n kid m d, s) => .next (s.peerWrite p n kid m d)
  | (.peerFault f r, s) => .next (if s.awake then s.peerFault f r else s)
  | (.arrivalLost f r, s) => .next (if s.awake then s.loseGroup f r else s)
  | (.mergeStep k j w, s) => .next (if s.awake then s.mergeStep k j w else s)
  | (.carveDrop f n kid, s) => .next (s.carveDrop f n kid)
  | (.putFlit l, s) => .next (s.putFlit l)
  | (.takeFlit l bs, s) => s.takeFlit l bs
  | (.replayFlit l n, s) => .next (s.replayFlit l n)
  | (.upset k x, s) => .next (if s.awake ∧ k < numCores then s.modCore k fun c => { c with upset := x } else s)
  | (.flashBlob r t g, s) => .next (s.flashBlob r t g)

/-- The machine whose next step runs the instruction of an opcode-table row, its bits as the table numbers them. A slot word is placed as the
last slot of the bundle at pc, its literal word zero; a micro-operation is placed in routine 0 of core 0, whose array runs that routine. -/
def State.withFetchWord (s : State) (nbits w : Nat) : State :=
  if nbits = 16 then
    let core := { Core.reset false with
      store := [(0, [BitVec.ofNat 16 w])], calls := [probeCall], array := some 0,
      banks := (Core.reset false).banks.set 0 { Bank.reset with owner := some 0, state := .busy } }
    { s with cores := tput s.cores 0 core, granger := { s.granger with state := .ready }, turn := some (.engine 0) }
  else s.withProgram (bytesOfWords (probeWords w))

end Sys2Proof.Machine
end

