-- ==== Sys2Proof/Safety.lean ====
section
/-! DEFINITION. The terms in which claims are stated: safe runs, the results of instructions, what a change leaves alone, and the views of
memory that frames speak of. -/

namespace Sys2Proof.Machine

/-- A step that goes on. -/
def Safe (s : State) : Prop := ∃ t, step s = .next t

/-! ## Results of instructions -/

/-- An instruction goes on to a state of which P holds. -/
def Goes (s : State) (i : Instr) (P : State → Prop) : Prop := ∃ t, exec i s = .next t ∧ P t

/-- An instruction goes on with a scalar result for d, readable after `latency` cycles, of which P holds; nothing else changes. -/
def GivesS (s : State) (i : Instr) (d : SReg) (latency : Nat) (P : Word → Prop) : Prop :=
  ∃ v, exec i s = .next (s.putS d v latency) ∧ P v

/-- An instruction starts an interlocked scalar result for d (R31) of which P holds. -/
def FliesS (s : State) (i : Instr) (kind : FlightKind) (d : SReg) (P : Word → Prop) : Prop :=
  ∃ v, exec i s = .next (s.flyS kind d v 1) ∧ P v

/-- FPX in place of a slot's result (R76): the trap names the slot; where it does not end the context, every register holds what it would hold
without the slot, those apart that a region's entry restores. -/
def TrapsFpx (s : State) (i : Instr) : Prop :=
  ∃ t, exec i s = .next t ∧ t.issue.outcome = .trap ∧ t.issue.trapped = some ⟨cFPX, s.slotInfo⟩ ∧
    (let c := s.cur.settle (s.now + 1)
     c.exl = false → c.sysv rTVEC ≠ 0 → (∀ r : Fin 16, t.cur.regs.v[r] = c.regs.v[r]) ∧ (∀ r : Fin 8, t.cur.regs.k[r] = c.regs.k[r]) ∧
       (∀ r : Fin 63, (∀ x ∈ s.cur.region.check.named, x.1 ≠ r) → t.cur.regs.s[r] = c.regs.s[r]) ∧
       (∀ r : Fin 16, (∀ x ∈ s.cur.region.check.stages, x.1 ≠ r) → t.cur.regs.p[r] = c.regs.p[r]))

/-- The machine with flags added to those of the bundle (R76). -/
def State.joinFlags (t : State) (flags : BitVec 5) : State := { t with issue := { t.issue with flags := t.issue.flags ||| flags } }

/-- A slot that may raise flags, the machine being t once its result is written: it goes on with the flags joined to the bundle's where none of
them is enabled, and else raises FPX (R76). -/
def GoesFlagged (s : State) (i : Instr) (t : State) (flags : BitVec 5) : Prop :=
  (flags &&& t.xe = 0 → exec i s = .next (t.joinFlags flags)) ∧ (flags &&& t.xe ≠ 0 → TrapsFpx s i)

/-- A slot that may raise flags and writes registers only: in every state that enables none it completes. -/
def CompletesFlagged (s : State) (i : Instr) (t : State) (flags : BitVec 5) : Prop :=
  (s.xe = 0 → exec i s = .next (t.joinFlags flags)) ∧ (flags &&& s.xe = 0 → exec i s = .next (t.joinFlags flags)) ∧
    (flags &&& s.xe ≠ 0 → TrapsFpx s i)

/-- A scalar floating-point form: its bits go to d after 4 cycles. -/
def GivesF (s : State) (i : Instr) (d : SReg) (r : FRes) : Prop := CompletesFlagged s i (s.putS d (BitVec.ofNat 64 r.bits) 4) r.flags

/-- An interlocked scalar floating-point form. -/
def FliesF (s : State) (i : Instr) (d : SReg) (r : FRes) : Prop := CompletesFlagged s i (s.flyS .divide d (BitVec.ofNat 64 r.bits) 1) r.flags

/-- A compare goes on with t for predicate p, readable after one cycle, and with C its complement for p + 1 (R91). -/
def GivesP (s : State) (i : Instr) (p : Fin 16) (c : Bool) (t : Prop) : Prop :=
  ∃ b : Bool, (b = true ↔ t) ∧ exec i s = .next (if c then (s.putP p b 1).putP (p + 1) (!b) 1 else s.putP p b 1)

/-- Element i of e bits of a vector. -/
def lane (e : Nat) (x : Vec) (i : Nat) : BitVec e := x.extractLsb' (e * i) e

/-- A vector whose elements of e bits, up to a width, are given, and which is zero above the width (R107). -/
def HasLanes (e bits : Nat) (x : Vec) (f : Nat → BitVec e) : Prop :=
  (∀ i, i < bits / e → lane e x i = f i) ∧ ∀ i, bits ≤ i → x.getLsbD i = false

/-- A slot reads its vector sources a and b as x and y, the machine then being t. -/
def Reads2 (s : State) (a b : VOp) (bits : Nat) (x y : Vec) (t : State) : Prop := ∃ u, s.readV a bits = .ok x u ∧ u.readV b bits = .ok y t

/-- A vector slot of two sources goes on and writes z after `latency` cycles, with the elements given. -/
def GivesV2 (s : State) (i : Instr) (w : Width) (d a b : VOp) (e latency : Nat) (f : BitVec e → BitVec e → BitVec e) : Prop :=
  ∀ x y t, Reads2 s a b w.bits x y t →
    ∃ z, exec i s = .next (t.writeV d w.bits z latency) ∧ HasLanes e w.bits z fun n => f (lane e x n) (lane e y n)

/-- A vector slot of one source. -/
def GivesV1 (s : State) (i : Instr) (w : Width) (d a : VOp) (e latency : Nat) (f : BitVec e → BitVec e) : Prop :=
  ∀ x t, s.readV a w.bits = .ok x t → ∃ z, exec i s = .next (t.writeV d w.bits z latency) ∧ HasLanes e w.bits z fun n => f (lane e x n)

/-- A compare of elements of e bits: bit n of the mask is the outcome for the element that holds byte n, 0 beyond the width (R106, R107, R113). -/
def GivesK (s : State) (i : Instr) (w : Width) (k : Fin 8) (a b : VOp) (e latency : Nat) (f : BitVec e → BitVec e → Prop) : Prop :=
  ∀ x y t, Reads2 s a b w.bits x y t →
    ∃ m : Mask, exec i s = .next (t.put (.k k m) latency) ∧
      ∀ n, m.getLsbD n = true ↔ (n < w.bits / 8 ∧ f (lane e x (n / (e / 8))) (lane e y (n / (e / 8))))

/-- A slot whose vector result has been written, the machine then being u: it goes on as GoesFlagged says where that write takes effect, as into a
register it always does, and else waits or traps with it (R110, R140). -/
def GivesW (s : State) (i : Instr) (u : State) (flags : BitVec 5) : Prop :=
  (u.issue.outcome = s.issue.outcome → GoesFlagged s i u flags) ∧ (u.issue.outcome ≠ s.issue.outcome → exec i s = .next u)

/-- A vector floating-point slot whose elements' results are rs, the machine being t once its sources are read (R76, R110). -/
def GivesVF (t : State) (i : Instr) (s : State) (g : Fmt) (d : VOp) (bits latency : Nat) (rs : List FRes) : Prop :=
  GivesW s i (t.writeV d bits (g.vec rs) latency) (flagsOf rs)

/-- A slot that writes vector register r after `latency` cycles, and may raise flags, completes with some result (R76, R110). -/
def CompletesV (s : State) (i : Instr) (r : Fin 16) (latency : Nat) : Prop :=
  ∃ z flags, exec i s = .next ((s.put (.v r z) latency).joinFlags flags)

/-- The real number that a finite value is. -/
def FVal.Is (a : FVal) (x : ℝ) : Prop :=
  match a with
  | .fin n m e => x = (if n then -1 else 1) * m * 2 ^ e
  | _ => False

/-- A result that is a real number v rounded to a format under a mode (R57, R69, R71): n units, a unit being that of the binade of v or of the
subnormals; the encoding of n units with the sign of v, NX where they are not v; and on overflow the value R71 gives, with OF and NX. -/
def RoundsTo (f : Fmt) (mode : RMode) (v : ℝ) (r : FRes) : Prop :=
  r.bits < 2 * f.sign ∧ (v = 0 → r.bits % f.sign = 0 ∧ r.flags = 0) ∧
  ∀ k : ℤ, 2 ^ k ≤ |v| → |v| < 2 ^ (k + 1) →
    let u : ℝ := 2 ^ max (k - f.fbits) f.unit
    let most := mode = .rtz ∨ (mode = .rup ∧ v < 0) ∨ (mode = .rdn ∧ 0 < v)
    ∃ n : ℤ, |n * u - v| < u ∧
      (mode = .rne → |n * u - v| ≤ u / 2 ∧ (|n * u - v| = u / 2 → n % 2 = 0)) ∧
      (mode = .rna → |n * u - v| ≤ u / 2 ∧ (|n * u - v| = u / 2 → |v| < |n * u|)) ∧
      (mode = .rtz → |n * u| ≤ |v|) ∧ (mode = .rup → v ≤ n * u) ∧ (mode = .rdn → n * u ≤ v) ∧
      (f.sign ≤ r.bits ↔ v < 0) ∧
      (|n * u| < 2 ^ (f.bias + 1) → (f.unpack r.bits).Is (n * u) ∧ (r.flags &&& fNX ≠ 0 ↔ n * u ≠ v) ∧ r.flags &&& fOF = 0) ∧
      (2 ^ (f.bias + 1) ≤ |n * u| → r.flags = fOF ||| fNX ∧ (most → r.bits % f.sign = f.maxFinite) ∧ (¬ most → r.bits % f.sign = f.inf))

/-- The balanced tree of an operation over 2^n values (R81). -/
def treeOf {α : Type} (op : α → α → α) : Nat → (Nat → α) → α
  | 0, f => f 0
  | n + 1, f => op (treeOf op n f) (treeOf op n fun i => f (2 ^ n + i))

/-! ## What a change leaves alone -/

/-- t is s but for the context whose bundle issues and the frame of the bundle: no memory, no cache, no other context, no other agent changes. -/
def OnlyCur (s t : State) : Prop :=
  ∃ c i, t = { s.modCur fun _ => c with issue := i }

/-- t is s but for one context slot. -/
def OnlyCtx (s t : State) (k : Nat) (j : Fin 4) : Prop := ∃ c, t = s.modCtx k j fun _ => c

/-- A context's registers, results on their way included, but for those that a test names: scalar registers, predicates, vectors, masks, md and
mp registers, and system registers, at every later cycle. -/
def SameRegs (c c' : Context) (but : Reg → Bool) : Prop :=
  ∀ n, let r := (c.settle n).regs
    let r' := (c'.settle n).regs
    (∀ i, but (.s i) = false → r'.s[i] = r.s[i]) ∧ (∀ i, but (.p i) = false → r'.p[i] = r.p[i]) ∧
    (∀ i, but (.v i) = false → r'.v[i] = r.v[i]) ∧ (∀ i, but (.k i) = false → r'.k[i] = r.k[i]) ∧
    (∀ i, but (.sys i) = false → r'.sys[i] = r.sys[i]) ∧ (∀ i, but (.mp i) = false → r'.mp[i] = r.mp[i]) ∧
    (∀ i, but (.md i) = false → r'.mb[i] = r.mb[i] ∧ r'.mlen[i] = r.mlen[i] ∧ r'.mstep[i] = r.mstep[i])

/-- A byte as an agent at the home of its line reads it: DRAM under the base die's queue and the L2 carve, the Granary, a link window or a
scratchpad. -/
def State.homeByte (s : State) (t : Trans) : Byte := lineByte (s.readHome t) (t.addr % 64)

end Sys2Proof.Machine
end

