-- ==== Sys2Proof/Certificates/Slice0/Obligations.lean ====
section
/-! DEFINITION. The statements for the provers. -/

open Sys2Proof Sys2Proof.Machine

/-- For every slot whose instruction is well formed and is a form of a bundle slot, with guard 0 on a BC (R26), decoding its encoded word with
its literal word gives the slot: its E bit, its guard and every operand, at every value the encoding admits. (02_bundle.md R20, R22, R23;
02_bundle.md R36 to R45) -/
def Obligations.SlotEncodingRoundTrip : Prop :=
  ∀ x : Slot, x.op.wf = true → x.op.group ≠ .notSlot → (x.op.group = .bc → x.guard = 0) → decodeSlot (encodeSlot x) x.op.litWord = .ok x

/-- For every well-formed micro-operation of the matrix engine, decoding its 16-bit word (the opcode in bits 15:12, the argument below) gives
it. For every well-formed node of the Step Sequencer, its four encoded words decode to it. (07_tile.md R166; 18_step.md R360 to R367) -/
def Obligations.MicroAndNodeRoundTrip : Prop :=
  ((∀ (b : Bool), decodeMicro (0xB000 + b.toNat) = .ok (.uSub b)) ∧
  (∀ (k : BitVec 4), k ≠ 0 → decodeMicro (0xC000 + k.toNat) = .ok (.uKmask k)) ∧
  (∀ (t : BitVec 8), decodeMicro (0xD000 + t.toNat) = .ok (.uTag t)) ∧
  decodeMicro 0x0000 = .ok .uEnd ∧ decodeMicro 0x1000 = .ok .uGeta ∧ decodeMicro 0x2000 = .ok .uGetb ∧ decodeMicro 0x3000 = .ok .uMac ∧
  decodeMicro 0x4000 = .ok .uRela ∧ decodeMicro 0x5000 = .ok .uRelb ∧ decodeMicro 0x6000 = .ok .uLoopk ∧ decodeMicro 0x7000 = .ok .uEndl ∧
  decodeMicro 0x8000 = .ok .uCson ∧ decodeMicro 0x9000 = .ok .uCsoff ∧ decodeMicro 0xA000 = .ok .uZero ∧ decodeMicro 0xE000 = .ok .uNop ∧
  decodeMicro 0xF000 = .ok .uGetab) ∧
  (∀ i : Instr, i.wf = true → ∀ w0 w1 w2 w3 : Word, encodeNode i = [w0, w1, w2, w3] → decodeNode w0 w1 w2 w3 = .ok i)

/-- Words that the spec writes out with their fields, and one word of other classes built from the class's encoding, decode to the instruction
they stand for. A slot word whose major opcode is 28, 29, 30 or 31 is refused, whatever its other bits. (02_bundle.md R36 to R44;
05_vector.md R123; 21_yoke.md R413; 26_prog_sampler.md; 02_bundle.md R22, R45) -/
def Obligations.DecodedWords : Prop :=
  (decodeSlot 0x40258C43#32 0 = .ok ⟨false, 0, .vsel .w1k 3 (.reg 3) (.reg 2) (.reg 3)⟩ ∧
  decodeSlot 0x940A20A2#32 0 = .ok ⟨true, 0, .clt 2 true (.reg 4) (.reg 5)⟩ ∧
  decodeSlot 0x84081C70#32 0 = .ok ⟨true, 0, .add 8 (.reg 7) (.reg 7)⟩ ∧
  decodeSlot 0xAC024000#32 0 = .ok ⟨true, 0, .fence .pkg .rel⟩ ∧
  decodeSlot 0x80000000#32 0 = .ok ⟨true, 0, .bc 0 false 0 0 false 0⟩ ∧
  decodeSlot 0x84091FF0#32 0x000F4240#32 = .ok ⟨true, 0, .add 9 (.reg 7) (.lit 0x000F4240)⟩) ∧
  (∀ w lit : BitVec 32, 28 ≤ w.toNat / 2 ^ 26 % 32 → ∃ e, decodeSlot w lit = .error e)

/-- When the bundle at the running context's pc decodes to slots of which one takes effect, a step whose turn is that core's is BUNDLE_ISSUE,
then exec of that slot's instruction on the state it leaves with the element vectors of the slot's read windrows consumed, then the bundle's
end. Whether the slot waits, traps or raises an enabled flag is found by a trial of exec with every FPX disabled: where it waits, nothing of
it takes effect and the bundle waits; where it traps, its trap is taken; where it raises an enabled flag, FPX is raised with its flags.
Checks that are due behind a wait (R33, R299) are premised to find nothing, and the bundle not to read granules of its loads apart first
(R227, log 76). A step of a matrix engine is exec of the decoded micro-operation, one of the Step Sequencer exec of the decoded node, whose
Crib meets the fetch, and one of any other agent exec of its event, CONTEXT_WAKE after the test whether the context would still wait and
CONTEXT_SELECT after STALLED contexts whose waits have ended are YIELDED (the model's choice, log 67). A move that takes objects by rows of
their state tables is noted with those rows for the rest of the cycle, and does not happen in a cycle in which one of the objects has taken
a later row, but for the events whose cycle a rule fixes (which moves count, and that one that comes too late does not happen in the cycle,
is the model's choice, log 90). (02_bundle.md R33, R46; 07_tile.md R166; 18_step.md R360; 01_device.md R3; 00_scope.md R8) -/
def Obligations.StepRunsDecoded : Prop :=
  (∀ (s t u v : State) (k n : Nat) (j : Fin 4) (x : Slot) (ss : List Slot) (m : Nat) (z y : Bool),
    s.turn = some (.issue k) → s.awake = true → (s.core k).running = some j →
    ((({ s with turn := none } : State).wakeCore k).fetched k).issue.fetched = some ⟨none, ss, m, z, y⟩ →
    exec (.bundleIssue k) ((({ s with turn := none } : State).wakeCore k).fetched k) = .next t →
    t.issue.go = true → t.issue.core = k → t.issue.slot = j → t.active ss = [(n, x)] →
    let p := t.prepareWins [(n, x)]
    let q := p.passBreak.noteIssue
    let slot := fun (y : State) => ({ y with issue := { y.issue with index := n, outcome := .run, trapped := none } } : State)
    p.passBreak.writesBound x.op = false →
    exec x.op (slot p.passBreak.withoutFpx) = .next u →
      (u.issue.outcome = .wait → step s = .next ((p.held u).stallOrWait k j p.issue.y)) ∧
      ((p.issue.due = true → p.earlyTrap ss = none ∧ p.lateTrap ss = none) → p.splitLoads [(n, x)] = none → q.lendMisplaced = false →
        (u.issue.outcome = .run → u.issue.flags &&& q.xe = 0 → exec x.op (slot (q.consumeWins [(n, x)])) = .next v → v.issue.outcome = .run →
          step s = .next (v.endBundle q ss)) ∧
        (u.issue.outcome = .run → u.issue.flags &&& q.xe ≠ 0 → u.issue.index = n → step s = .next (q.sign.raiseFpx u.issue.flags n)) ∧
        (u.issue.outcome = .trap → u.issue.index = n → exec x.op (slot q.sign) = .next v → step s = .next v))) ∧
  (∀ (s t : State) (k : Nat) (b : Fin 4) (m : MatrixCall) (i : Instr),
    s.turn = some (.engine k) → s.awake = true → (s.core k).array = some b → ((s.core k).calls.find? fun m => m.cmd.bank == b) = some m →
    (s.core k).fetchMicro m = some i → exec i { s with turn := none, issue := { Issue.reset with core := k } } = .next t →
      let z := ({ s with turn := none } : State)
      step s = .next (if (z.rowsTo t none).any z.tooLate then z else (z.rowsTo t none).foldl State.tookRow t)) ∧
  (∀ (s t : State) (i : Instr),
    let z := ({ s with turn := none } : State).meetVa (superWho s.ssq.kid) s.ssq.cur.toNat 32
    s.turn = some .ssq → s.awake = true → s.ssq.writes = [] → s.ssq.asks = [] → s.ssq.state = .running →
    ({ s with turn := none } : State).fetchNode = .ok i → exec i z = .next t →
      step s = .next (if (z.rowsTo t (nodeRow t)).any z.tooLate then z else (z.rowsTo t (nodeRow t)).foldl State.tookRow t)) ∧
  (∀ (s t : State) (i : Instr),
    let z := ({ s with turn := none } : State)
    s.turn = some (.event i) → (s.awake = true ∨ anyTime i = true) → isEvent i = true → (∀ k j, i ≠ .contextWake k j) → (∀ k, i ≠ .contextSelect k) →
    exec i { z with issue := Issue.reset } = .next t →
      step s = .next (if isFixed i = false ∧ (z.rowsTo t (z.rowOf i t)).any z.tooLate = true then z else (z.rowsTo t (z.rowOf i t)).foldl State.tookRow t)) ∧
  (∀ (s : State) (k : Nat), s.turn = some (.event (.contextSelect k)) → s.awake = true →
    step s = exec (.contextSelect k) { ({ s with turn := none } : State).wakeCore k with issue := Issue.reset }) ∧
  (∀ (s : State) (k j : Nat), s.turn = some (.event (.contextWake k j)) → s.awake = true →
    step s = exec (.contextWake k j) (({ s with turn := none } : State).beforeWake k j))

/-- From every state a step answers a next state: every error of the spec is a trap, a status, a record or a state of the Granger.
(13_context.md R293; 22_platform.md R423) -/
def Obligations.EveryStepGoesOn : Prop :=
  ∀ s : State, Safe s

/-- Every SAR form completes in every state with its result on its way to d: sums, differences, products and their high halves, bit operations,
shifts by b[5:0], and minima and maxima, as signed or natural integers; latency 1, and 3 for the products. Nothing else changes.
(04_scalar.md R86; 02_bundle.md R31) -/
def Obligations.ScalarArithmetic : Prop :=
  ∀ (s : State) (d : SReg) (a b : Src),
    let x := s.src a
    let y := s.src b
    GivesS s (.add d a b) d 1 (fun v => v.toNat = (x.toNat + y.toNat) % 2 ^ 64) ∧
    GivesS s (.sub d a b) d 1 (fun v => (v.toNat : Int) = ((x.toNat : Int) - y.toNat) % 2 ^ 64) ∧
    GivesS s (.mul d a b) d 3 (fun v => v.toNat = x.toNat * y.toNat % 2 ^ 64) ∧
    GivesS s (.mulh d a b) d 3 (fun v => v.toInt = x.toInt * y.toInt / 2 ^ 64) ∧
    GivesS s (.mulhn d a b) d 3 (fun v => v.toNat = x.toNat * y.toNat / 2 ^ 64) ∧
    GivesS s (.and d a b) d 1 (fun v => ∀ i, v.getLsbD i = (x.getLsbD i && y.getLsbD i)) ∧
    GivesS s (.or d a b) d 1 (fun v => ∀ i, v.getLsbD i = (x.getLsbD i || y.getLsbD i)) ∧
    GivesS s (.xor d a b) d 1 (fun v => ∀ i, v.getLsbD i = (x.getLsbD i != y.getLsbD i)) ∧
    GivesS s (.andn d a b) d 1 (fun v => ∀ i, v.getLsbD i = (x.getLsbD i && !y.getLsbD i)) ∧
    GivesS s (.shl d a b) d 1 (fun v => v.toNat = x.toNat * 2 ^ (y.toNat % 64) % 2 ^ 64) ∧
    GivesS s (.shr d a b) d 1 (fun v => v.toNat = x.toNat / 2 ^ (y.toNat % 64)) ∧
    GivesS s (.sar d a b) d 1 (fun v => v.toInt = x.toInt / 2 ^ (y.toNat % 64)) ∧
    GivesS s (.min d a b) d 1 (fun v => v.toInt = min x.toInt y.toInt) ∧
    GivesS s (.max d a b) d 1 (fun v => v.toInt = max x.toInt y.toInt) ∧
    GivesS s (.minn d a b) d 1 (fun v => v.toNat = min x.toNat y.toNat) ∧
    GivesS s (.maxn d a b) d 1 (fun v => v.toNat = max x.toNat y.toNat)

/-- Every SAI form completes in every state with latency 1: the immediate is sign-extended for addi, andi, ori, xori and rsubi, and is a count
of 6 bits for the shifts. (04_scalar.md R87) -/
def Obligations.ScalarImmediates : Prop :=
  ∀ (s : State) (d : SReg) (a : Src) (m : BitVec 7) (c : BitVec 6),
    let x := s.src a
    GivesS s (.addi d a m) d 1 (fun v => (v.toNat : Int) = ((x.toNat : Int) + m.toInt) % 2 ^ 64) ∧
    GivesS s (.andi d a m) d 1 (fun v => ∀ i < 64, v.getLsbD i = (x.getLsbD i && m.getLsbD (min i 6))) ∧
    GivesS s (.ori d a m) d 1 (fun v => ∀ i < 64, v.getLsbD i = (x.getLsbD i || m.getLsbD (min i 6))) ∧
    GivesS s (.xori d a m) d 1 (fun v => ∀ i < 64, v.getLsbD i = (x.getLsbD i != m.getLsbD (min i 6))) ∧
    GivesS s (.shli d a c) d 1 (fun v => v.toNat = x.toNat * 2 ^ c.toNat % 2 ^ 64) ∧
    GivesS s (.shri d a c) d 1 (fun v => v.toNat = x.toNat / 2 ^ c.toNat) ∧
    GivesS s (.sari d a c) d 1 (fun v => v.toInt = x.toInt / 2 ^ c.toNat) ∧
    GivesS s (.rsubi d a m) d 1 (fun v => (v.toNat : Int) = (m.toInt - x.toNat) % 2 ^ 64)

/-- Every divide form starts an interlocked result: the quotient rounded towards zero and its remainder; a zero divisor gives all ones and the
dividend; the one overflow of the signed quotient gives the dividend and remainder 0. (04_scalar.md R88; 02_bundle.md R31) -/
def Obligations.Divides : Prop :=
  ∀ (s : State) (d : SReg) (a b : Src),
    let x := s.src a
    let y := s.src b
    FliesS s (.div d a b) .divide d (fun v =>
      if y = 0 then v = BitVec.allOnes 64 else if x.toInt = -2 ^ 63 ∧ y.toInt = -1 then v = x else v.toInt = x.toInt.tdiv y.toInt) ∧
    FliesS s (.divn d a b) .divide d (fun v => if y = 0 then v = BitVec.allOnes 64 else v.toNat = x.toNat / y.toNat) ∧
    FliesS s (.rem d a b) .divide d (fun v => if y = 0 then v = x else v.toInt = x.toInt.tmod y.toInt) ∧
    FliesS s (.remn d a b) .divide d (fun v => if y = 0 then v = x else v.toNat = x.toNat % y.toNat)

/-- Every other SMX form completes in every state with latency 1: counts of leading, trailing and one bits (64 for a zero), reversals of bits
and bytes, extensions of the low b[5:0] + 1 bits, field extraction and insertion by start and length, absolute value and negation modulo
2^64. (04_scalar.md R88, R89) -/
def Obligations.BitForms : Prop :=
  ∀ (s : State) (d : SReg) (a b : Src),
    let x := s.src a
    let y := s.src b
    let lo := y.toNat % 64
    let len := y.toNat / 64 % 64 + 1
    GivesS s (.clz d a) d 1 (fun v => v.toNat ≤ 64 ∧ (∀ i, 64 - v.toNat ≤ i → x.getLsbD i = false) ∧ (v.toNat < 64 → x.getLsbD (63 - v.toNat) = true)) ∧
    GivesS s (.ctz d a) d 1 (fun v => v.toNat ≤ 64 ∧ (∀ i < v.toNat, x.getLsbD i = false) ∧ (v.toNat < 64 → x.getLsbD v.toNat = true)) ∧
    GivesS s (.popc d a) d 1 (fun v => v.toNat = ((List.range 64).filter fun i => x.getLsbD i).length) ∧
    GivesS s (.brev d a) d 1 (fun v => ∀ i < 64, v.getLsbD i = x.getLsbD (63 - i)) ∧
    GivesS s (.bswap d a) d 1 (fun v => ∀ i < 8, v.extractLsb' (8 * i) 8 = x.extractLsb' (8 * (7 - i)) 8) ∧
    GivesS s (.sext d a b) d 1 (fun v => v.toInt = (x.toNat : Int).bmod (2 ^ (lo + 1))) ∧
    GivesS s (.zext d a b) d 1 (fun v => v.toNat = x.toNat % 2 ^ (lo + 1)) ∧
    GivesS s (.bfx d a b) d 1 (fun v => v.toNat = x.toNat / 2 ^ lo % 2 ^ len) ∧
    GivesS s (.bfi d a b) d 1 (fun v => ∀ i < 64, v.getLsbD i = if lo ≤ i ∧ i < lo + len then x.getLsbD (i - lo) else (s.getS d).getLsbD i) ∧
    GivesS s (.abs d a) d 1 (fun v => v.toNat = x.toInt.natAbs) ∧
    GivesS s (.neg d a) d 1 (fun v => (v.toNat : Int) = (-(x.toNat : Int)) % 2 ^ 64)

/-- Every SFP form completes in every state whose FPMODE.XE enables no flag, and in any other whose enabled flags it does not raise: fadd to
fneg, conversions and rounding with latency 4, fdiv and fsqrt as interlocked results; the operands are the low 32 bits of the sources, those
of fitof all 64, subtraction adds the negated operand, and the flags join those of the bundle. A form that raises an enabled flag raises FPX
instead of its result: d and every other register keep their values. (04_scalar.md R90; 03_numbers.md R69, R76) -/
def Obligations.ScalarFloat : Prop :=
  ∀ (s : State) (d : SReg) (a b : Src),
    let x := s.srcF a
    let y := s.srcF b
    let m := s.rmArith
    GivesF s (.fadd d a b) d (fAdd fp32 m x y) ∧ GivesF s (.fsub d a b) d (fAdd fp32 m x y.neg) ∧ GivesF s (.fmul d a b) d (fMul fp32 m x y) ∧
    GivesF s (.fmin d a b) d (fMinMax fp32 false x y) ∧ GivesF s (.fmax d a b) d (fMinMax fp32 true x y) ∧
    GivesF s (.fabs d a) d (fAbsNeg fp32 false x) ∧ GivesF s (.fneg d a) d (fAbsNeg fp32 true x) ∧
    GivesF s (.fitof d a) d (fOfInt fp32 m (s.src a).toInt) ∧ GivesF s (.ftoi d a) d (fToInt 64 m x) ∧ GivesF s (.fround d a) d (fRound fp32 m x) ∧
    FliesF s (.fdiv d a b) d (fDiv fp32 m x y) ∧ FliesF s (.fsqrt d a) d (fSqrt fp32 m x)

/-- Every encoding of FP32 and of BF16 that is no NaN is the encoding of its value: packing rounds nothing; and a NaN packs to the canonical
NaN, sign 0, quiet, fraction 0. (03_numbers.md R57, R58) -/
def Obligations.PackIsExact : Prop :=
  (∀ x < 2 ^ 32, (fp32.unpack x).isNan = false → fp32.pack (fp32.unpack x) = x) ∧
  (∀ x < 2 ^ 16, (bf16.unpack x).isNan = false → bf16.pack (bf16.unpack x) = x) ∧
  (∀ x, (fp32.unpack x).isNan = true → fp32.pack (fp32.unpack x) = 0x7FC00000) ∧
  (∀ x, (bf16.unpack x).isNan = true → bf16.pack (bf16.unpack x) = 0x7FC0)

/-- In FP32 and BF16, under every mode but SR, the sum, product, quotient (of a divisor other than 0), square root (of a value not below 0) and
fused multiply-add of finite values are the exact real result rounded: less than one unit of its binade or of the subnormals away, within
half a unit and with ties to even or away from zero to nearest, or to the side of the mode; NX where it is not exact; and on overflow the
value of the mode, with OF and NX (of a zero result the sign is the model's choice, log 95, and is not stated). They rest on this: a
magnitude m × 2^e rounded in units of 2^u gives q units: exact where 2^u divides it; else below one unit away in every mode, at most half a
unit away to nearest, ties to even for RNE and away from zero for RNA, towards zero never up, and up or down by the sign for RUP and RDN.
(Below the cut of tiny operands the unit is cut short by the model; the statement is for shifts within the operand's bits.) (03_numbers.md
R57, R69, R71; 04_scalar.md R90; 05_vector.md R114) -/
def Obligations.RoundingIsCorrect : Prop :=
  (∀ (f : Fmt) (mode : RMode) (a b d : FVal) (x y z : ℝ), f = fp32 ∨ f = bf16 → (∀ w, mode ≠ .sr w) → a.Is x → b.Is y → d.Is z →
    RoundsTo f mode (x + y) (fAdd f mode a b) ∧ RoundsTo f mode (x * y) (fMul f mode a b) ∧ (y ≠ 0 → RoundsTo f mode (x / y) (fDiv f mode a b)) ∧
    (0 ≤ x → RoundsTo f mode (√x) (fSqrt f mode a)) ∧ RoundsTo f mode (z + x * y) (fFma f mode d a b)) ∧
  ∀ (mode : RMode) (neg : Bool) (m sh : Nat) (u : Int), sh ≤ Nat.log2 m + 20 →
    let q := (roundUnits mode neg m u (u + sh)).1
    let inexact := (roundUnits mode neg m u (u + sh)).2
    (inexact = true ↔ m % 2 ^ sh ≠ 0) ∧ (inexact = false → q * 2 ^ sh = m) ∧ q * 2 ^ sh < m + 2 ^ sh ∧ m < q * 2 ^ sh + 2 ^ sh ∧
    (mode = .rne → 2 * (q * 2 ^ sh) ≤ 2 * m + 2 ^ sh ∧ 2 * m ≤ 2 * (q * 2 ^ sh) + 2 ^ sh ∧
      ((2 * (q * 2 ^ sh) = 2 * m + 2 ^ sh ∨ 2 * m = 2 * (q * 2 ^ sh) + 2 ^ sh) → q % 2 = 0)) ∧
    (mode = .rna → 2 * (q * 2 ^ sh) ≤ 2 * m + 2 ^ sh ∧ 2 * m < 2 * (q * 2 ^ sh) + 2 ^ sh) ∧
    (mode = .rtz → q * 2 ^ sh ≤ m) ∧
    (mode = .rup → if neg then q * 2 ^ sh ≤ m else m ≤ q * 2 ^ sh) ∧
    (mode = .rdn → if neg then m ≤ q * 2 ^ sh else q * 2 ^ sh ≤ m)

/-- Every SCP form completes in every state: integer compares as signed or natural integers, the bit test, the logic of predicates (p0 reads as
1), the constant and the three tests of a mask; the bit goes to pd and with C its complement to pd + 1, a write to p0 being discarded, with
latency 1. A floating compare does the same with its outcome in every state whose FPMODE.XE enables no flag, and in any other whose enabled
flags it does not raise; else it raises FPX and writes nothing. For two FP32 encodings of sign 0 that are no NaN, less-than, equal and
less-or-equal are the order of the encodings; +0 and −0 compare equal; a NaN compares neither less, equal nor less-or-equal with anything,
and unordered with everything, less-than and less-or-equal raising NV. (04_scalar.md R84, R91, R92; 04_scalar.md R92; 03_numbers.md R58) -/
def Obligations.Compares : Prop :=
  (∀ (s : State) (p q r : Fin 16) (c v : Bool) (a b : Src) (k : Fin 8),
    let x := s.src a
    let y := s.src b
    GivesP s (.ceq p c a b) p c (x = y) ∧ GivesP s (.cne p c a b) p c (x ≠ y) ∧
    GivesP s (.clt p c a b) p c (x.toInt < y.toInt) ∧ GivesP s (.cge p c a b) p c (y.toInt ≤ x.toInt) ∧
    GivesP s (.cltn p c a b) p c (x.toNat < y.toNat) ∧ GivesP s (.cgen p c a b) p c (y.toNat ≤ x.toNat) ∧
    GivesP s (.ctst p c a b) p c (∃ i, x.getLsbD i = true ∧ y.getLsbD i = true) ∧
    GivesP s (.pand p c q r) p c (s.getP q = true ∧ s.getP r = true) ∧ GivesP s (.por p c q r) p c (s.getP q = true ∨ s.getP r = true) ∧
    GivesP s (.pxor p c q r) p c (s.getP q ≠ s.getP r) ∧ GivesP s (.pandn p c q r) p c (s.getP q = true ∧ s.getP r = false) ∧
    GivesP s (.pset p c v) p c (v = true) ∧
    GivesP s (.kany p c k) p c (∃ i < 128, (s.getK k).getLsbD i = true) ∧ GivesP s (.kall p c k) p c (∀ i < 128, (s.getK k).getLsbD i = true) ∧
    GivesP s (.knone p c k) p c (∀ i < 128, (s.getK k).getLsbD i = false) ∧
    s.getP 0 = true ∧ (∀ w n, s.putP 0 w n = s) ∧
    (∀ (i : Instr) (o : Bool × BitVec 5),
      (i, o) ∈ [(.fceq p c a b, fEq (s.srcF a) (s.srcF b)), (.fclt p c a b, fLt (s.srcF a) (s.srcF b)), (.fcle p c a b, fLe (s.srcF a) (s.srcF b)),
        (.fcun p c a b, fUn (s.srcF a) (s.srcF b))] →
      CompletesFlagged s i (if c then (s.putP p o.1 1).putP (p + 1) (!o.1) 1 else s.putP p o.1 1) o.2)) ∧
  ((∀ x y, x < 2 ^ 31 → y < 2 ^ 31 → (fp32.unpack x).isNan = false → (fp32.unpack y).isNan = false →
    ((fLt (fp32.unpack x) (fp32.unpack y)).1 = true ↔ x < y) ∧ ((fEq (fp32.unpack x) (fp32.unpack y)).1 = true ↔ x = y) ∧
    ((fLe (fp32.unpack x) (fp32.unpack y)).1 = true ↔ x ≤ y)) ∧
  (fEq (fp32.unpack 0) (fp32.unpack 0x80000000)).1 = true ∧
  (∀ a b : FVal, a.isNan = true ∨ b.isNan = true →
    (fLt a b).1 = false ∧ (fEq a b).1 = false ∧ (fLe a b).1 = false ∧ (fUn a b).1 = true ∧ (fLt a b).2 = fNV ∧ (fLe a b).2 = fNV))

/-- Outside a replayed body br and call go to the bundle's address plus four times the offset, the next bundle issuing no earlier than two
cycles on; bi, calli and ret go to an aligned register address after three; call and calli write the address after the bundle to s62. A
register address that is not a multiple of 4 raises ALIGN for bi, calli and ret, the branch not being taken and s62 not written. To the
address that ends a section, with an empty loop stack, bi and ret end the member's section at the bundle's commit. A context that is in no
launch block has no section to end: to it the address is an ordinary one (the model's choice, log 40). Where a target falls outside the
address space the sum is taken modulo 2^64 (the model's choice, log 96). Inside a replayed body a taken br, call, bi, calli, ret, bk or bkn
raises ILLOP. bk is taken when all 128 bits of the mask are 1 and not taken when all are 0; bkn is the reverse; a mixed mask raises NONUNI
with the bundle's address and the slot's index, in place of any effect of the slot's own. (04_scalar.md R94, R96, R97; 14_kernel.md R313,
R314; 04_scalar.md R95, R97; 02_bundle.md R47) -/
def Obligations.Branches : Prop :=
  (∀ (s : State) (o : BitVec 19) (a : Src),
    let goTo := fun (t : Word) (n : Nat) => ({ s with issue := { s.issue with taken := true, target := some (t, n) } } : State)
    let rel : Word := s.issue.addr + 4 * o.signExtend 64
    let ret : Word := s.issue.addr + BitVec.ofNat 64 (4 * s.issue.words)
    let keeps := fun (t : State) => ∀ r : Fin 63, (s.cur.settle (s.now + 1)).exl = false → (s.cur.settle (s.now + 1)).sysv rTVEC ≠ 0 →
      (∀ x ∈ s.cur.region.check.named, x.1 ≠ r) → t.cur.regs.s[r] = (s.cur.settle (s.now + 1)).regs.s[r]
    (s.inBody = false →
      exec (.br o) s = .next (goTo rel 2) ∧ exec (.call o) s = .next ((goTo rel 2).putS 62 ret 1) ∧
      (s.src a &&& 3 = 0 → exec (.calli a) s = .next ((goTo (s.src a) 3).putS 62 ret 1)) ∧
      (s.src a &&& 3 = 0 → (s.src a ≠ secEnd ∨ s.cur.member = none) → exec (.bi a) s = .next (goTo (s.src a) 3) ∧ exec (.ret a) s = .next (goTo (s.src a) 3)) ∧
      (s.src a = secEnd → s.cur.member.isSome = true → s.cur.loop.levels = [] →
        exec (.bi a) s = .next ((goTo secEnd 3).modCur fun c => { c with closing := some .sectionEnd }) ∧
        exec (.ret a) s = .next ((goTo secEnd 3).modCur fun c => { c with closing := some .sectionEnd })) ∧
      (s.src a = secEnd → s.cur.member.isSome = true → s.cur.loop.levels ≠ [] → exec (.bi a) s = .next s.illop ∧ exec (.ret a) s = .next s.illop)) ∧
    (s.src a &&& 3 ≠ 0 → ∀ i ∈ [Instr.bi a, .calli a, .ret a], exec i s = .next (s.raise47 cALIGN) ∧ (s.raise47 cALIGN).issue.outcome = .trap ∧
      (s.raise47 cALIGN).issue.taken = s.issue.taken ∧ keeps (s.raise47 cALIGN)) ∧
    (s.inBody = true → ∀ i ∈ [Instr.br o, .call o], exec i s = .next s.illop) ∧
    (s.inBody = true → s.src a &&& 3 = 0 → ∀ i ∈ [Instr.bi a, .calli a, .ret a], exec i s = .next s.illop)) ∧
  (∀ (s : State) (k : Fin 8) (o : BitVec 16),
    let go := ({ s with issue := { s.issue with taken := true, target := some (s.issue.addr + 4 * o.signExtend 64, 2) } } : State)
    (s.inBody = false →
      (s.getK k = BitVec.allOnes 128 → exec (.bk k o) s = .next go ∧ exec (.bkn k o) s = .next s) ∧
      (s.getK k = 0 → exec (.bk k o) s = .next s ∧ exec (.bkn k o) s = .next go) ∧
      (s.getK k ≠ 0 → s.getK k ≠ BitVec.allOnes 128 →
        exec (.bk k o) s = .next (s.raise cNONUNI (info47 s.issue.index s.issue.addr)) ∧
        exec (.bkn k o) s = .next (s.raise cNONUNI (info47 s.issue.index s.issue.addr)))) ∧
    (s.inBody = true → (s.getK k = BitVec.allOnes 128 → exec (.bk k o) s = .next s.illop) ∧ (s.getK k = 0 → exec (.bkn k o) s = .next s.illop)))

/-- lexit of a level at or above the depth raises ILLOP at issue; else the bundle goes on at that level's EXIT and levels 0 to lvl are popped.
(R102) -/
def Obligations.Lexit : Prop :=
  ∀ (s : State) (l : Fin 6),
    (s.cur.loop.levels.length ≤ l.val → exec (.lexit l) s = .next (s.raise cILLOP (info47 s.issue.index s.issue.addr))) ∧
    (∀ x, s.cur.loop.levels[l.val]? = some x →
      ∃ t, exec (.lexit l) s = .next t ∧ (∃ n, t.issue.target = some (x.exit, n)) ∧
        t.cur.loop.levels = s.cur.loop.levels.drop (l.val + 1) ∧
        t.cur.loop.levels.length + (l.val + 1) = s.cur.loop.levels.length)

/-- A nonzero count pushes a level: START the bundle after, EXIT the bundle's address plus four times the offset, li 0 and lc the count, with
the armed bindings; the seventh level raises ILLOP; a zero count goes to EXIT, pushes nothing and drops what was armed. replay arms the
binding that its delta table gives, and stgset a stage binding, each for the next level pushed; a table whose header is 0 or above 8, or one
of whose entries is none, raises ILLOP with the table's address. rdlp writes li or lc of a level zero-extended with latency 1, and 0 for a
level at or above the depth; wrlp writes the low 32 bits of its source, and raises ILLOP for a level at or above the depth. (04_scalar.md
R103; 04_scalar.md R98 to R100; 06_windrow.md R153 to R156) -/
def Obligations.Loops : Prop :=
  (∀ (s : State) (d : SReg) (a : Src) (x : Bool) (l : Fin 6),
    (s.cur.loop.levels.length ≤ l.val → exec (.rdlp d x l) s = .next (s.putS d 0 1) ∧ exec (.wrlp a x l) s = .next s.illop) ∧
    (∀ y, s.cur.loop.levels[l.val]? = some y →
      GivesS s (.rdlp d x l) d 1 (fun v => v.toNat = (if x then y.lc else y.li).toNat) ∧
      ∃ t y', exec (.wrlp a x l) s = .next t ∧ t.cur.loop.levels[l.val]? = some y' ∧
        (if x then y'.lc else y'.li).toNat = (s.src a).toNat % 2 ^ 32 ∧ (if x then y'.li = y.li else y'.lc = y.lc) ∧
        (∀ n, n ≠ l.val → t.cur.loop.levels[n]? = s.cur.loop.levels[n]?) ∧ OnlyCur s t)) ∧
  (∀ (s : State) (a : Src) (o : BitVec 13) (n : BitVec 9) (o' : BitVec 10),
    (∀ (i : Instr) (cnt : BitVec 32) (off : Nat),
      (i, cnt, off) ∈ [(Instr.loop a o, (s.src a).setWidth 32, o.toNat), (.loopi n o', n.setWidth 32, o'.toNat)] →
      let exit := s.issue.addr + BitVec.ofNat 64 (4 * off)
      (cnt = 0 → ∃ t, exec i s = .next t ∧ t.issue.target = some (exit, 2) ∧ t.cur.loop = ⟨s.cur.loop.levels, none, none⟩) ∧
      (cnt ≠ 0 → s.cur.loop.levels.length < 6 → ∃ t, exec i s = .next t ∧
        t.cur.loop = ⟨⟨s.issue.addr + BitVec.ofNat 64 (4 * s.issue.words), exit, 0, cnt, s.cur.loop.armedReplay, s.cur.loop.armedStage⟩ ::
          s.cur.loop.levels, none, none⟩) ∧
      (cnt ≠ 0 → 6 ≤ s.cur.loop.levels.length → exec i s = .next s.illop)) ∧
    (∀ (p : Fin 16) (m : BitVec 3), exec (.stgset p m) s = .next (s.modCur fun c => { c with loop := { c.loop with armedStage := some (p, m) } })) ∧
    (∀ (m : BitVec 6) (h : List Word) (t : State), s.readTable (s.src a) 8 1 = (.ok h, t) → (wordAt h 0 = 0 ∨ 8 < (wordAt h 0).toNat) →
      exec (.replay a m) s = .next (t.raise cILLOP (info47 t.issue.index (s.src a)))) ∧
    (∀ (m : BitVec 6) (h ws : List Word) (t u : State),
      s.readTable (s.src a) 8 1 = (.ok h, t) → 1 ≤ (wordAt h 0).toNat → (wordAt h 0).toNat ≤ 8 →
      t.readTable (s.src a) 8 (1 + 4 * (wordAt h 0).toNat) = (.ok ws, u) → deltaEntries ws (wordAt h 0).toNat = none →
      exec (.replay a m) s = .next (u.raise cILLOP (info47 u.issue.index (s.src a)))) ∧
    (∀ (m : BitVec 6) (h ws : List Word) (t u : State) (es : List (Fin 63 × List (BitVec 32))),
      s.readTable (s.src a) 8 1 = (.ok h, t) → 1 ≤ (wordAt h 0).toNat → (wordAt h 0).toNat ≤ 8 →
      t.readTable (s.src a) 8 (1 + 4 * (wordAt h 0).toNat) = (.ok ws, u) → deltaEntries ws (wordAt h 0).toNat = some es →
      exec (.replay a m) s = .next (u.modCur fun c => { c with loop := { c.loop with armedReplay := some ⟨es, m⟩ } })))

/-- Every VIA form whose sources can be read completes: each element of the result is the function of the source elements at its place (sums,
differences and products modulo 2^e, high products, minima and maxima, bit operations, shifts by the low 5 bits, saturated sums, counts,
multiply-add and dot product onto the old destination), zero above the width; a form that reads its destination raises ILLOP on a windrow
destination. Compares write each element's outcome to every mask bit of the element and zeros above the width. (05_vector.md R106, R107,
R109, R112, R113) -/
def Obligations.VectorInteger : Prop :=
  ∀ (s : State) (w : Width) (d a b : VOp) (k : Fin 8),
    GivesV2 s (.vaddI8 w d a b) w d a b 8 2 (fun x y => x + y) ∧
    GivesV2 s (.vaddI16 w d a b) w d a b 16 2 (fun x y => x + y) ∧
    GivesV2 s (.vaddI32 w d a b) w d a b 32 2 (fun x y => x + y) ∧
    GivesV2 s (.vsubI8 w d a b) w d a b 8 2 (fun x y => x - y) ∧
    GivesV2 s (.vsubI16 w d a b) w d a b 16 2 (fun x y => x - y) ∧
    GivesV2 s (.vsubI32 w d a b) w d a b 32 2 (fun x y => x - y) ∧
    GivesV2 s (.vmulI16 w d a b) w d a b 16 4 (fun x y => x * y) ∧
    GivesV2 s (.vmulI32 w d a b) w d a b 32 4 (fun x y => x * y) ∧
    GivesV2 s (.vmulhI32 w d a b) w d a b 32 4 (fun x y => BitVec.ofInt 32 (x.toInt * y.toInt / 2 ^ 32)) ∧
    GivesV2 s (.vminI32 w d a b) w d a b 32 2 (fun x y => BitVec.ofInt 32 (min x.toInt y.toInt)) ∧
    GivesV2 s (.vmaxI32 w d a b) w d a b 32 2 (fun x y => BitVec.ofInt 32 (max x.toInt y.toInt)) ∧
    GivesV2 s (.vminnN32 w d a b) w d a b 32 2 (fun x y => BitVec.ofNat 32 (min x.toNat y.toNat)) ∧
    GivesV2 s (.vmaxnN32 w d a b) w d a b 32 2 (fun x y => BitVec.ofNat 32 (max x.toNat y.toNat)) ∧
    GivesV2 s (.vand w d a b) w d a b 8 2 (fun x y => x &&& y) ∧
    GivesV2 s (.vor w d a b) w d a b 8 2 (fun x y => x ||| y) ∧
    GivesV2 s (.vxor w d a b) w d a b 8 2 (fun x y => x ^^^ y) ∧
    GivesV2 s (.vandn w d a b) w d a b 8 2 (fun x y => x &&& ~~~ y) ∧
    GivesV2 s (.vshlI32 w d a b) w d a b 32 2 (fun x y => x <<< (y.toNat % 32)) ∧
    GivesV2 s (.vshrN32 w d a b) w d a b 32 2 (fun x y => x >>> (y.toNat % 32)) ∧
    GivesV2 s (.vsarI32 w d a b) w d a b 32 2 (fun x y => BitVec.ofInt 32 (x.toInt / 2 ^ (y.toNat % 32))) ∧
    GivesV2 s (.vaddsI8 w d a b) w d a b 8 2 (fun x y => BitVec.ofInt 8 (max (-128) (min 127 (x.toInt + y.toInt)))) ∧
    GivesV2 s (.vaddsI16 w d a b) w d a b 16 2 (fun x y => BitVec.ofInt 16 (max (-32768) (min 32767 (x.toInt + y.toInt)))) ∧
    GivesV2 s (.vsubsI8 w d a b) w d a b 8 2 (fun x y => BitVec.ofInt 8 (max (-128) (min 127 (x.toInt - y.toInt)))) ∧
    GivesV2 s (.vsubsI16 w d a b) w d a b 16 2 (fun x y => BitVec.ofInt 16 (max (-32768) (min 32767 (x.toInt - y.toInt)))) ∧
    GivesV1 s (.vabsI32 w d a) w d a 32 2 (fun x => BitVec.ofNat 32 x.toInt.natAbs) ∧
    GivesV1 s (.vclzI32 w d a) w d a 32 2 (fun x => BitVec.ofNat 32 (leadingZeros x)) ∧
    GivesV1 s (.vpopcI32 w d a) w d a 32 2 (fun x => BitVec.ofNat 32 (popCount x)) ∧
    GivesK s (.vceqI32 w k a b) w k a b 32 2 (fun x y => x = y) ∧
    GivesK s (.vcltI32 w k a b) w k a b 32 2 (fun x y => x.toInt < y.toInt) ∧
    GivesK s (.vcltnN32 w k a b) w k a b 32 2 (fun x y => x.toNat < y.toNat) ∧
    (∀ (r : Fin 16) (x y : Vec) (t : State), Reads2 s a b w.bits x y t →
      (∃ z, exec (.vmadI16 w (.reg r) a b) s = .next (t.writeV (.reg r) w.bits z 2) ∧
        HasLanes 16 w.bits z fun n => lane 16 (s.getV r) n + lane 16 x n * lane 16 y n) ∧
      (∃ z, exec (.vdot4I8 w (.reg r) a b) s = .next (t.writeV (.reg r) w.bits z 4) ∧
        HasLanes 32 w.bits z fun n => lane 32 (s.getV r) n + BitVec.ofInt 32
          ((lane 8 x (4 * n)).toInt * (lane 8 y (4 * n)).toInt + (lane 8 x (4 * n + 1)).toInt * (lane 8 y (4 * n + 1)).toInt +
           (lane 8 x (4 * n + 2)).toInt * (lane 8 y (4 * n + 2)).toInt + (lane 8 x (4 * n + 3)).toInt * (lane 8 y (4 * n + 3)).toInt))) ∧
    (∀ v : Fin 16, exec (.vmadI16 w (.win v) a b) s = .next s.illop ∧ exec (.vdot4I8 w (.win v) a b) s = .next s.illop)

/-- Every VFA form with register operands completes in every state whose FPMODE.XE enables no flag. Whatever its operands, once its sources are
read and its write takes effect it completes where it raises no enabled flag, and else raises FPX: element i of the result is the operation
on the elements i, rounded under FPMODE.RM, in FP32 or BF16, multiply-adds with one rounding onto the old destination; divide and square
root are interlocked; compares write masks. The elements of the written vector are the results in order, zero above the width. A
multiply-add of a windrow destination raises ILLOP. (05_vector.md R107, R110, R113 to R116; 03_numbers.md R69, R76) -/
def Obligations.VectorFloat : Prop :=
  ∀ (s : State) (w : Width) (d a b : VOp) (k : Fin 8),
    let m := s.rmArith
    (∀ x y t, Reads2 s a b w.bits x y t →
      (∀ (i : Instr) (op : FVal → FVal → FRes),
        (i, op) ∈ [(Instr.vfaddF32 w d a b, fAdd fp32 m), (.vfsubF32 w d a b, fun x y => fAdd fp32 m x y.neg), (.vfmulF32 w d a b, fMul fp32 m),
          (.vfminF32 w d a b, fMinMax fp32 false), (.vfmaxF32 w d a b, fMinMax fp32 true), (.vfamaxF32 w d a b, fAmax)] →
        GivesVF t i s fp32 d w.bits 4 (List.zipWith op (fp32.elems w.bits x) (fp32.elems w.bits y))) ∧
      (∀ (i : Instr) (op : FVal → FVal → FRes),
        (i, op) ∈ [(Instr.vfaddBf16 w d a b, fAdd bf16 m), (.vfmulBf16 w d a b, fMul bf16 m), (.vfminBf16 w d a b, fMinMax bf16 false),
          (.vfmaxBf16 w d a b, fMinMax bf16 true)] →
        GivesVF t i s bf16 d w.bits 4 (List.zipWith op (bf16.elems w.bits x) (bf16.elems w.bits y))) ∧
      (∀ r : Fin 16,
        let old := s.getV r
        GivesVF t (.vfmaF32 w (.reg r) a b) s fp32 (.reg r) w.bits 4
          ((List.range (w.bits / 32)).map fun n => fFma fp32 m (fp32.unpack (lane 32 old n).toNat) (fp32.unpack (lane 32 x n).toNat) (fp32.unpack (lane 32 y n).toNat)) ∧
        GivesVF t (.vfmsF32 w (.reg r) a b) s fp32 (.reg r) w.bits 4
          ((List.range (w.bits / 32)).map fun n => fFma fp32 m (fp32.unpack (lane 32 old n).toNat) (fp32.unpack (lane 32 x n).toNat).neg (fp32.unpack (lane 32 y n).toNat)) ∧
        GivesVF t (.vfmaBf16 w (.reg r) a b) s bf16 (.reg r) w.bits 4
          ((List.range (w.bits / 16)).map fun n => fFma bf16 m (bf16.unpack (lane 16 old n).toNat) (bf16.unpack (lane 16 x n).toNat) (bf16.unpack (lane 16 y n).toNat))) ∧
      GivesVF t (.vfsclF32 w d a b) s fp32 d w.bits 4
        ((List.range (w.bits / 32)).map fun n => fScale fp32 m (fp32.unpack (lane 32 x n).toNat) (lane 32 y n).toInt) ∧
      (let rs := List.zipWith (fDiv fp32 m) (fp32.elems w.bits x) (fp32.elems w.bits y)
       GivesW s (.vfdivF32 w d a b) (t.flyV .vdivide d w.bits (fp32.vec rs) 1) (flagsOf rs)) ∧
      (∀ (i : Instr) (op : FVal → FVal → Bool × BitVec 5),
        (i, op) ∈ [(Instr.vfceqF32 w k a b, fEq), (.vfcltF32 w k a b, fLt), (.vfcleF32 w k a b, fLe), (.vfcunF32 w k a b, fUn)] →
        let rs := List.zipWith op (fp32.elems w.bits x) (fp32.elems w.bits y)
        let fl := rs.foldl (fun f r => f ||| r.2) 0
        ∃ mk : Mask, (∀ n, mk.getLsbD n = true ↔ n < w.bits / 8 ∧ (rs.getD (n / 4) (false, 0)).1 = true) ∧
          GivesW s i (t.put (.k k mk) 4) fl)) ∧
    (∀ x t, s.readV a w.bits = .ok x t →
      (∀ (i : Instr) (op : FVal → FRes),
        (i, op) ∈ [(Instr.vfabsF32 w d a, fAbsNeg fp32 false), (.vfnegF32 w d a, fAbsNeg fp32 true), (.vfrndF32 w d a, fRound fp32 m)] →
        GivesVF t i s fp32 d w.bits 4 ((fp32.elems w.bits x).map op)) ∧
      (let rs := (fp32.elems w.bits x).map (fSqrt fp32 m)
       GivesW s (.vfsqrtF32 w d a) (t.flyV .vdivide d w.bits (fp32.vec rs) 1) (flagsOf rs))) ∧
    (∀ v : Fin 16, ∀ i ∈ [Instr.vfmaF32 w (.win v) a b, .vfmsF32 w (.win v) a b, .vfmaBf16 w (.win v) a b], exec i s = .next s.illop) ∧
    (s.xe = 0 → ∀ p q r : Fin 16,
      (∀ i ∈ [Instr.vfaddF32 w (.reg r) (.reg p) (.reg q), .vfsubF32 w (.reg r) (.reg p) (.reg q), .vfmulF32 w (.reg r) (.reg p) (.reg q),
          .vfmaF32 w (.reg r) (.reg p) (.reg q), .vfmsF32 w (.reg r) (.reg p) (.reg q), .vfminF32 w (.reg r) (.reg p) (.reg q),
          .vfmaxF32 w (.reg r) (.reg p) (.reg q), .vfamaxF32 w (.reg r) (.reg p) (.reg q), .vfsclF32 w (.reg r) (.reg p) (.reg q),
          .vfaddBf16 w (.reg r) (.reg p) (.reg q), .vfmulBf16 w (.reg r) (.reg p) (.reg q), .vfmaBf16 w (.reg r) (.reg p) (.reg q),
          .vfminBf16 w (.reg r) (.reg p) (.reg q), .vfmaxBf16 w (.reg r) (.reg p) (.reg q), .vfabsF32 w (.reg r) (.reg p), .vfnegF32 w (.reg r) (.reg p),
          .vfrndF32 w (.reg r) (.reg p)], CompletesV s i r 4) ∧
      (∀ i ∈ [Instr.vfdivF32 w (.reg r) (.reg p) (.reg q), .vfsqrtF32 w (.reg r) (.reg p)],
        ∃ z fl, exec i s = .next ((s.fly .vdivide [.v r z] none 1).joinFlags fl)) ∧
      (∀ i ∈ [Instr.vfceqF32 w k (.reg p) (.reg q), .vfcltF32 w k (.reg p) (.reg q), .vfcleF32 w k (.reg p) (.reg q), .vfcunF32 w k (.reg p) (.reg q)],
        ∃ z fl, exec i s = .next ((s.put (.k k z) 4).joinFlags fl))) ∧
    (∀ x, fp32.elems w.bits x = (List.range (w.bits / 32)).map fun n => fp32.unpack (lane 32 x n).toNat) ∧
    (∀ rs : List FRes, rs.length = w.bits / 32 → HasLanes 32 w.bits (fp32.vec rs) fun n => BitVec.ofNat 32 (rs.getD n ⟨0, 0⟩).bits)

/-- Every VCV form with register operands completes in every state whose FPMODE.XE enables no flag. Whatever its operands, once its source is
read and its write takes effect it completes where it raises no enabled flag, and else raises FPX: widenings, which raise no flag but for a
signalling NaN, integer conversions, and block dequantisation under the scale operand; a narrowing form puts the magnitudes of its source
for MAXMAG, draws nothing under a mode other than SR, and under SR one word for each element. bscale writes the block scale in every 64-bit
lane. The block scale is 0xFF where an element is a NaN or an infinity, 0 for a block of zeros, and else the biased exponent of the largest
magnitude, no larger than 254. Under any scale but 0xFF the dequantised zero is +0, without a flag, in all three block formats, and every
MXINT8 element from −127 to 127 dequantises without a flag; under 0xFF every element dequantises to the canonical NaN. (05_vector.md R117 to
R120; 03_numbers.md R60, R66 to R68, R73, R74, R78; 03_numbers.md R66, R67) -/
def Obligations.Conversions : Prop :=
  (∀ (s : State) (w : Width) (d a : VOp) (sc : Src),
    let m := s.rmArith
    let sx := s.scaleOf sc
    (∀ (i : Instr) (rb wb : Nat) (f : Vec → Vec × BitVec 5),
      (i, rb, wb, f) ∈ [(Instr.cvtF32Bf16 w d a, w.bits / 2, w.bits, widen bf16 fp32 (w.bits / 32)),
        (.cvtF32F8e4 w d a, w.bits / 4, w.bits, widen e4m3 fp32 (w.bits / 32)), (.cvtF32F8e5 w d a, w.bits / 4, w.bits, widen e5m2 fp32 (w.bits / 32)),
        (.cvtF32I32 w d a, w.bits, w.bits, fun x => let rs := (lanes 32 (w.bits / 32) x).map fun v => fOfInt fp32 m v.toInt; (fp32.vec rs, flagsOf rs)),
        (.cvtI32F32 w d a, w.bits, w.bits, fun x => let rs := (fp32.elems w.bits x).map (fToInt 32 m); (fp32.vec rs, flagsOf rs)),
        (.cvtF32Mx8 d a sc, 256, 1024, dequantAll sx 8 6), (.cvtF32Mx6 d a sc, 256, 1024, dequantAll sx 6 4),
        (.cvtF32Mx4 d a sc, 128, 1024, dequantAll sx 4 2),
        (.bscale d a, 1024, 1024, fun x => (ofLanes 64 (List.replicate 16 ((blockScale ((lanes 32 32 x).map BitVec.toNat)).setWidth 64)), 0))] →
      ∀ x t, s.readV a rb = .ok x t →
        GivesW s i (t.writeV d wb (f x).1 3) (f x).2) ∧
    (∀ b : BitVec 64, HasLanes 64 1024 (ofLanes 64 (List.replicate 16 b)) fun _ => b) ∧
    (∀ (g : Fmt) (e : Nat), g ∈ [bf16, e4m3, e5m2] → (g.unpack e).isNan = false → (fConvert fp32 .rne (g.unpack e)).flags = 0) ∧
    (∀ (i : Instr) (n wb : Nat) (rm : Nat) (f : List FVal → List RMode → Vec × BitVec 5),
      (i, n, wb, rm, f) ∈ [(Instr.cvtBf16F32 w d a, w.bits / 32, w.bits / 2, s.rmCode, packAll bf16 (fConvert bf16)),
        (.cvtBf16F32Sr w d a, w.bits / 32, w.bits / 2, 5, packAll bf16 (fConvert bf16)),
        (.cvtF8e4F32 w d a, w.bits / 32, w.bits / 4, s.rmCode, packAll e4m3 (fConvert8 e4m3 s.sat8)),
        (.cvtF8e5F32 w d a, w.bits / 32, w.bits / 4, s.rmCode, packAll e5m2 (fConvert8 e5m2 s.sat8)),
        (.cvtMx8F32 d a sc, 32, 256, s.rmCode, quantiseAll sx 8 6 127), (.cvtMx6F32 d a sc, 32, 256, s.rmCode, quantiseAll sx 6 4 31),
        (.cvtMx4F32 d a sc, 32, 128, s.rmCode, quantiseAll sx 4 2 7)] →
      ∀ x t, s.readV a (32 * n) = .ok x t →
        let dr := State.drawModes rm n t
        let u := dr.2.writeV d wb (f (fp32.elems (32 * n) x) dr.1).1 3
        GivesW s i (u.putMag ((lanes 32 n x).map BitVec.toNat) 3) (f (fp32.elems (32 * n) x) dr.1).2 ∧
        (rm ≠ 5 → dr.2 = t) ∧ (rm = 5 → dr.2.getSys rRNGSEED = xorshift^[n] (t.getSys rRNGSEED))) ∧
    (s.xe = 0 → ∀ p r : Fin 16,
      (∀ i ∈ [Instr.cvtF32Bf16 w (.reg r) (.reg p), .cvtF32F8e4 w (.reg r) (.reg p), .cvtF32F8e5 w (.reg r) (.reg p), .cvtF32I32 w (.reg r) (.reg p),
          .cvtI32F32 w (.reg r) (.reg p), .cvtF32Mx8 (.reg r) (.reg p) sc, .cvtF32Mx6 (.reg r) (.reg p) sc, .cvtF32Mx4 (.reg r) (.reg p) sc,
          .bscale (.reg r) (.reg p)], CompletesV s i r 3) ∧
      (∀ (i : Instr) (n rm : Nat),
        (i, n, rm) ∈ [(Instr.cvtBf16F32 w (.reg r) (.reg p), w.bits / 32, s.rmCode), (.cvtBf16F32Sr w (.reg r) (.reg p), w.bits / 32, 5),
          (.cvtF8e4F32 w (.reg r) (.reg p), w.bits / 32, s.rmCode), (.cvtF8e5F32 w (.reg r) (.reg p), w.bits / 32, s.rmCode),
          (.cvtMx8F32 (.reg r) (.reg p) sc, 32, s.rmCode), (.cvtMx6F32 (.reg r) (.reg p) sc, 32, s.rmCode),
          (.cvtMx4F32 (.reg r) (.reg p) sc, 32, s.rmCode)] →
        ∃ z ms fl, exec i s = .next ((((State.drawModes rm n s).2.put (.v r z) 3).putMag ms 3).joinFlags fl)))) ∧
  ((∀ xs : List Nat, (∃ x ∈ xs, ∃ v, fp32.unpack x = .inf v ∨ fp32.unpack x = .nan v) → blockScale xs = 0xFF) ∧
  (∀ xs : List Nat, (∀ x ∈ xs, x % 2 ^ 31 = 0) → blockScale xs = 0) ∧
  (∀ xs : List Nat, (∀ x ∈ xs, x % 2 ^ 31 < 0x7F800000) → (blockScale xs).toNat ≤ 254) ∧
  (∀ (xs : List Nat) (m : Nat), m ∈ xs → (∀ x ∈ xs, x % 2 ^ 31 ≤ m % 2 ^ 31) → 0x00800000 ≤ m % 2 ^ 31 → m % 2 ^ 31 < 0x7F800000 →
    (blockScale xs).toNat = m % 2 ^ 31 / 2 ^ 23) ∧
  (∀ (f : Nat) (x : Byte), f ∈ [6, 4, 2] → x ≠ 0xFF → dequant 0 x f = ⟨0, 0⟩) ∧
  (∀ (q : Int) (x : Byte), x ≠ 0xFF → q.natAbs ≤ 127 → (dequant q x 6).flags = 0) ∧
  (∀ (q : Int) (f : Nat), (dequant q 0xFF f).bits = 0x7FC00000))

/-- A draw steps RNGSEED by the three shifts and gives its bits 63 to 48; n elements under SR draw n words in order, each from the seed that the
one before left; under any other mode nothing is drawn and the state is as it was. With RNGSEED = 1 the first draw leaves 0x40822041 and
gives 0. (03_numbers.md R73, R74) -/
def Obligations.RandomWords : Prop :=
  (∀ x : Word, xorshift x = (let a := x ^^^ x <<< 13; let b := a ^^^ a >>> 7; b ^^^ b <<< 17)) ∧
  xorshift 1 = 0x40822041 ∧
  (∀ (s : State) (n : Nat),
    (State.drawModes 5 n s).1 = (List.range n).map (fun i => RMode.sr ((xorshift^[i + 1] (s.getSys rRNGSEED)).extractLsb' 48 16)) ∧
    (State.drawModes 5 n s).2.getSys rRNGSEED = xorshift^[n] (s.getSys rRNGSEED)) ∧
  (∀ (s : State) (n rm : Nat), rm ≠ 5 → State.drawModes rm n s = (List.replicate n (rmode rm), s))

/-- Every VRD form whose source can be read completes, the floating forms where their write takes effect and raises no enabled flag, and so in
every state that enables none with register operands: integer sums modulo 2^32, extremes and prefix sums over the lanes; the floating
reductions combine the lanes through a balanced tree, every addition rounding to nearest even, whatever FPMODE.RM; vmaxmag and vdelta give
their magnitudes to MAXMAG too; kcnt counts the mask bits of the width. But for the prefix sums the result stands in every 32-bit lane. An
enabled flag raises FPX. (03_numbers.md R81; 05_vector.md R121, R122) -/
def Obligations.ReductionTrees : Prop :=
  (∀ {α : Type} (op : α → α → α) (n : Nat) (xs : List α) (z : α), n ≤ 5 → xs.length = 2 ^ n →
    (pairTree op 5 xs).headD z = treeOf op n fun i => xs.getD i z) ∧
  (∀ (s : State) (w : Width) (d a b : VOp) (k : Fin 8),
    let n := w.bits / 32
    (∀ x t, s.readV a w.bits = .ok x t →
      (∃ z, exec (.vrsumI32 w d a) s = .next (t.writeV d w.bits z 6) ∧
        HasLanes 32 w.bits z fun _ => BitVec.ofNat 32 (((List.range n).map fun i => (lane 32 x i).toNat).sum)) ∧
      (∃ z v, exec (.vrmaxI32 w d a) s = .next (t.writeV d w.bits z 6) ∧ HasLanes 32 w.bits z (fun _ => v) ∧
        (∀ i < n, (lane 32 x i).toInt ≤ v.toInt) ∧ ∃ i < n, lane 32 x i = v) ∧
      (∃ z v, exec (.vrminI32 w d a) s = .next (t.writeV d w.bits z 6) ∧ HasLanes 32 w.bits z (fun _ => v) ∧
        (∀ i < n, v.toInt ≤ (lane 32 x i).toInt) ∧ ∃ i < n, lane 32 x i = v) ∧
      (∃ z, exec (.vscanI32 w d a) s = .next (t.writeV d w.bits z 8) ∧
        HasLanes 32 w.bits z fun i => BitVec.ofNat 32 (((List.range (i + 1)).map fun j => (lane 32 x j).toNat).sum)) ∧
      (∀ (i : Instr) (r : FRes),
        (i, r) ∈ [(Instr.vrsumF32 w d a, treeF (fAdd fp32 .rne) n x), (.vrmaxF32 w d a, treeF (fMinMaxNan true) n x),
          (.vrminF32 w d a, treeF (fMinMaxNan false) n x), (.vramaxF32 w d a, largestMag (fp32.elems w.bits x))] →
        GivesW s i (t.writeV d w.bits (everyLane w.bits r.bits) 6) r.flags) ∧
      (let rs := scanTree (FRes.join (fAdd fp32 .rne)) (encodings n x)
       GivesW s (.vscanF32 w d a) (t.writeV d w.bits (fp32.vec rs) 8) (flagsOf rs)) ∧
      (∀ (i : Instr) (f : Fmt), (i, f) ∈ [(Instr.vmaxmagF32 w d a, fp32), (.vmaxmagBf16 w d a, bf16)] →
        let vs := f.elems w.bits x
        GivesW s i ((t.writeV d w.bits (everyLane w.bits (largestMag vs).bits) 6).putMag (vs.map fun v => (fAbsNeg fp32 false v).bits) 6)
          (largestMag vs).flags)) ∧
    (∀ x y t, Reads2 s a b w.bits x y t →
      ∀ (i : Instr) (f : Fmt), (i, f) ∈ [(Instr.vdeltaF32 w d a b, fp32), (.vdeltaBf16 w d a b, bf16)] →
        let ms := List.zipWith deltaMag (f.elems w.bits x) (f.elems w.bits y)
        GivesW s i ((t.writeV d w.bits (everyLane w.bits (largestMag (ms.map fun m => fp32.unpack m.bits)).bits) 6).putMag (ms.map FRes.bits) 6)
          (flagsOf ms)) ∧
    (∀ x : Nat, HasLanes 32 w.bits (everyLane w.bits x) fun _ => BitVec.ofNat 32 x) ∧
    (s.xe = 0 → ∀ p q r : Fin 16,
      (∀ i ∈ [Instr.vrsumF32 w (.reg r) (.reg p), .vrmaxF32 w (.reg r) (.reg p), .vrminF32 w (.reg r) (.reg p), .vramaxF32 w (.reg r) (.reg p)],
        CompletesV s i r 6) ∧ CompletesV s (.vscanF32 w (.reg r) (.reg p)) r 8 ∧
      (∀ i ∈ [Instr.vmaxmagF32 w (.reg r) (.reg p), .vmaxmagBf16 w (.reg r) (.reg p), .vdeltaF32 w (.reg r) (.reg p) (.reg q),
          .vdeltaBf16 w (.reg r) (.reg p) (.reg q)], ∃ z ms fl, exec i s = .next (((s.put (.v r z) 6).putMag ms 6).joinFlags fl))) ∧
    (∃ z, exec (.kcnt w d k) s = .next (s.writeV d w.bits z 6) ∧
      HasLanes 32 w.bits z fun _ => BitVec.ofNat 32 ((List.range (w.bits / 8)).filter fun i => (s.getK k).getLsbD i).length))

/-- Every VPM form completes where its sources can be read and its index is one the width has: moves, byte permutes, interleaves, gathers of
even elements, rotations, selection by mask bytes, lane indexes, broadcast, insertion and extraction; an index beyond the width and a
windrow destination of vins raise ILLOP. Mask forms write all 128 bits. (05_vector.md R123 to R125) -/
def Obligations.Permutes : Prop :=
  ∀ (s : State) (w : Width) (d a b : VOp) (sc : Src) (sd : SReg) (j k k' k'' : Fin 8) (c : BitVec 5) (i : BitVec 4) (h : Bool),
    let n := w.bits / 32
    GivesV1 s (.vmov w d a) w d a 8 2 (fun x => x) ∧
    (∀ x y t, Reads2 s a b w.bits x y t →
      (∃ z, exec (.vperm w d a b) s = .next (t.writeV d w.bits z 3) ∧
        HasLanes 8 w.bits z fun i => if (lane 8 y i).getLsbD 7 then 0 else lane 8 x ((lane 8 y i).toNat % (w.bits / 8))) ∧
      (∃ z, exec (.vzip w d a b) s = .next (t.writeV d w.bits z 2) ∧ HasLanes 32 w.bits z fun i => lane 32 (if i % 2 = 0 then x else y) (i / 2)) ∧
      (∃ z, exec (.vunzip w d a b) s = .next (t.writeV d w.bits z 2) ∧
        HasLanes 32 w.bits z fun i => if i < n / 2 then lane 32 x (2 * i) else lane 32 y (2 * (i - n / 2))) ∧
      (∃ z, exec (.vsel w j d a b) s = .next (t.writeV d w.bits z 2) ∧ HasLanes 8 w.bits z fun i => lane 8 (if (s.getK j).getLsbD i then x else y) i)) ∧
    (∀ x t, s.readV a w.bits = .ok x t →
      (∃ z, exec (.vrotl w d a c) s = .next (t.writeV d w.bits z 2) ∧ ∀ i < n, lane 32 z ((i + c.toNat) % n) = lane 32 x i) ∧
      (i.toNat < w.bits / 64 → exec (.vext w sd a i) s = .next (t.putS sd (lane 64 x i.toNat) 2))) ∧
    (w.bits / 64 ≤ i.toNat → exec (.vext w sd a i) s = .next s.illop) ∧
    (∃ z, exec (.viota w d) s = .next (s.writeV d w.bits z 2) ∧ HasLanes 32 w.bits z fun i => BitVec.ofNat 32 i) ∧
    (∀ e : Fin 4, i.toNat = e.val → ∃ z, exec (.vbc w d i sc) s = .next (s.writeV d w.bits z 2) ∧
      HasLanes (8 * 2 ^ e.val) w.bits z fun _ => (s.src sc).setWidth (8 * 2 ^ e.val)) ∧
    (4 ≤ i.toNat → exec (.vbc w d i sc) s = .next s.illop) ∧
    (∀ r : Fin 16, i.toNat < w.bits / 64 → ∃ z, exec (.vins w (.reg r) i sc) s = .next (s.writeV (.reg r) w.bits z 2) ∧
      HasLanes 64 w.bits z fun m => if m = i.toNat then s.src sc else lane 64 (s.getV r) m) ∧
    (∀ r : Fin 16, w.bits / 64 ≤ i.toNat → exec (.vins w (.reg r) i sc) s = .next s.illop) ∧
    (∀ v : Fin 16, exec (.vins w (.win v) i sc) s = .next s.illop) ∧
    exec (.kand k k' k'') s = .next (s.put (.k k (s.getK k' &&& s.getK k'')) 2) ∧
    exec (.kor k k' k'') s = .next (s.put (.k k (s.getK k' ||| s.getK k'')) 2) ∧
    exec (.kxor k k' k'') s = .next (s.put (.k k (s.getK k' ^^^ s.getK k'')) 2) ∧
    exec (.knot k k') s = .next (s.put (.k k (~~~ s.getK k')) 2) ∧
    (∃ m : Mask, exec (.kfroms k h sc) s = .next (s.put (.k k m) 2) ∧
      ∀ i < 128, m.getLsbD i = (decide (i / 64 = h.toNat) && (s.src sc).getLsbD (i % 64))) ∧
    GivesS s (.ktos k h sd) sd 2 (fun v => ∀ i < 64, v.getLsbD i = (s.getK k).getLsbD (64 * h.toNat + i))

/-- Every SFU form with register operands completes in every state whose FPMODE.XE enables no flag, with latency 8. Whatever its operands, once
its source is read and its write takes effect it completes where it raises no enabled flag, and else raises FPX: each element is its
function of the source's; a NaN gives the canonical NaN; the results the spec fixes are as it says, with their flags; and a result that it
leaves within an error bound is within it or the encoding nearest to the exact value (the bits are the model's free value, log 10).
(05_vector.md R126 to R128) -/
def Obligations.SpecialFunctions : Prop :=
  (∀ (s : State) (w : Bool) (d a : VOp) (fn : Fin 12) (i : Instr) (x : Vec) (t : State),
    (fn, i) ∈ [((0 : Fin 12), Instr.vexp2 w d a), (1, .vexp w d a), (2, .vlog2 w d a), (3, .vrcp w d a), (4, .vrsqrt w d a), (5, .vlog w d a),
      (6, .vsin w d a), (7, .vcos w d a), (8, .vtanh w d a), (9, .vsigm w d a), (10, .verf w d a), (11, .vsilu w d a)] →
    let bits := if w then 512 else 256
    (s.readV a bits = .ok x t → GivesVF t i s fp32 d bits 8 ((lanes 32 (bits / 32) x).map (sfuElem fn))) ∧
    (∀ p r : Fin 16, a = .reg p → d = .reg r → s.xe = 0 → CompletesV s i r 8)) ∧
  (∀ (fn : Fin 12) (x : BitVec 32), (fp32.unpack x.toNat).isNan = true → (sfuElem fn x).bits = 0x7FC00000) ∧
  sfuElem 0 0x00000000 = ⟨0x3F800000, 0⟩ ∧ sfuElem 0 0x40400000 = ⟨0x41000000, 0⟩ ∧ sfuElem 0 0xFF800000 = ⟨0, 0⟩ ∧
  sfuElem 1 0x80000000 = ⟨0x3F800000, 0⟩ ∧ sfuElem 2 0x41000000 = ⟨0x40400000, 0⟩ ∧ sfuElem 2 0x00000000 = ⟨0xFF800000, fDZ⟩ ∧
  sfuElem 2 0xBF800000 = ⟨0x7FC00000, fNV⟩ ∧ sfuElem 3 0x80000000 = ⟨0xFF800000, fDZ⟩ ∧ sfuElem 3 0x7F800000 = ⟨0, 0⟩ ∧
  sfuElem 4 0x00000000 = ⟨0x7F800000, fDZ⟩ ∧ sfuElem 4 0xBF800000 = ⟨0x7FC00000, fNV⟩ ∧ sfuElem 5 0x3F800000 = ⟨0, 0⟩ ∧
  sfuElem 6 0x7F800000 = ⟨0x7FC00000, fNV⟩ ∧ sfuElem 7 0x00000000 = ⟨0x3F800000, 0⟩ ∧ sfuElem 8 0xFF800000 = ⟨0xBF800000, 0⟩ ∧
  sfuElem 9 0x00000000 = ⟨0x3F000000, 0⟩ ∧ sfuElem 10 0x7F800000 = ⟨0x3F800000, 0⟩ ∧ sfuElem 11 0xFF800000 = ⟨0x80000000, 0⟩ ∧
  (∀ (fn : Fin 12) (x : BitVec 32) (n : Bool) (m : Nat) (e : Int),
    ¬ ((fn.val = 6 ∨ fn.val = 7) ∧ beyondTrig x = true) →
    let v := fxSpecial fn n m e
    withinBound fn v (BitVec.ofNat 32 (sfuFree fn x n m e)) = true ∨ sfuFree fn x n m e = (roundPack fp32 .rne (v < 0) v.natAbs (-400)).bits)

/-- A vector source that is a register gives its low bits, zero above the width. A read of a windrow in use gives the element vector at the
cursor once its fetch has landed without a fault, and moves the cursor on; a second read of the bundle gives the same element again and
moves nothing; a DONE windrow gives zeros and sets OVR; a recorded fault traps; an IDLE one, a write windrow, IDX32 (as every windrow is
that a run makes BUSY, R151; a BUSY one of another format would wait) and MXINT6 at another width than 256 raise ILLOP; an element that has
not landed makes the slot wait, and so does an accepted atomic that has not returned (the model's choice, log 50); a read at another width
than the buffer's, and one of a windrow whose width is not known yet, take the width of the slot, empty the buffer and wait. The other
windrows stay as they are. (02_bundle.md R24; 05_vector.md R107; 06_windrow.md R134, R136 to R138, R141, R151; 10_line.md R231, R240) -/
def Obligations.WindrowReads : Prop :=
  ∀ (s : State) (w : Fin 16) (r : Fin 16) (bits : Nat),
    let x := s.win w
    s.readV (.reg r) bits = .ok (lowBits bits (s.getV r)) s ∧
    (∀ v, (∃ l l', s.issue.elems = l ++ (w, v) :: l' ∧ ∀ y ∈ l, y.1 ≠ w) → s.readWin w bits = .ok v s) ∧
    ((∀ y ∈ s.issue.elems, y.1 ≠ w) →
      (x.state = .idle ∨ x.desc.dir = true ∨ x.desc.fmt = 2 ∨ (x.desc.fmt = 1 ∧ bits ≠ 256) → s.readWin w bits = .stop s.illop) ∧
      (x.misused false bits = false → s.cur.atomics ≠ [] → s.readWin w bits = .stop s.wait) ∧
      (x.state ≠ .idle → x.desc.dir = false → x.desc.fmt ≠ 2 → (x.desc.fmt = 1 → bits = 256) → s.cur.atomics = [] →
        (x.state = .busy → s.readWin w bits = .stop s.wait) ∧
        (x.state = .done → ∃ t, s.readWin w bits = .ok 0 t ∧ t.win w = { x with ovr := true } ∧ (∀ v, v ≠ w → t.win v = s.win v) ∧
          t.readWin w bits = .ok 0 t) ∧
        (∀ (e : WinEntry) (rest : List WinEntry), x.state = .active → x.width = some (x.desc.bytes bits) → x.buf = e :: rest →
          (e.arrived = false → s.readWin w bits = .stop s.wait) ∧
          (∀ v, e.arrived = true → e.fault = some v → s.readWin w bits = .stop (s.raise v.cause v.info)) ∧
          (e.arrived = true → e.fault = none →
            ∃ t, s.readWin w bits = .ok e.data t ∧ (t.win w).n = x.n + 1 ∧ (t.win w).buf = rest ∧
              (t.win w).state = (if x.n + 1 = x.desc.total then .done else .active) ∧
              (t.win w).scale = (if x.desc.scen then e.scale else x.scale) ∧ (∀ v, v ≠ w → t.win v = s.win v) ∧
              t.readWin w bits = .ok e.data t)) ∧
        (x.state = .active → x.width = some (x.desc.bytes bits) → x.buf = [] → s.readWin w bits = .stop s.wait) ∧
        (x.state = .active → x.width ≠ some (x.desc.bytes bits) →
          s.readWin w bits = .stop (s.setWin w { x with width := some (x.desc.bytes bits), buf := [] }).wait)))

/-- wcfg of a descriptor that can be read and is valid makes the windrow ACTIVE at its first element vector. On a windrow that is neither IDLE
nor BUSY wrst starts over, wskip moves the cursor on by the low 32 bits of its source, at most to the end, wset of items 0, 2 to 5 and 7
writes cursor, bases, modulus length and counts, wget reads items, an item that is not one raising ILLOP; a seek to an ordinal below T sets
the indices to its digits under the counts, one to T or above makes it DONE at the first indices, and OVR stays; a modulus length empties
the buffer and a count outdates it (the model's choices, log 56); on an IDLE one they raise ILLOP, on a BUSY one they and wcfg wait. wset
and wget of items 0x10 to 0x27 with w0 write and read the md registers, with another windrow they raise ILLOP. wisect and wicnt of IDX32
read windrows make them BUSY, wait while one is, and raise ILLOP for others. wstat gives the windrow's status, and waits while it is BUSY.
(06_windrow.md R132, R133, R137; 06_windrow.md R146 to R152) -/
def Obligations.WindrowForms : Prop :=
  ∀ (s : State) (w : Fin 16) (a t : Src) (d : SReg),
    let x := s.win w
    (∀ (ws : List Word) (u : State), x.state ≠ .busy → s.readTable (s.src a) 64 8 = (.ok ws, u) →
      (winReservedZero (wordsNat ws) && (WinDesc.ofNat (wordsNat ws)).valid) = true →
      exec (.wcfg w a) s = .next (u.setWin w (Windrow.configured (WinDesc.ofNat (wordsNat ws))))) ∧
    (x.state ≠ .idle → x.state ≠ .busy →
      exec (.wrst w) s = .next (s.setWin w { x with buf := [], width := x.desc.fixedWidth, n := 0, idx := Vector.replicate 6 0, ovr := false, state := .active }) ∧
      (∃ y : Windrow, exec (.wskip w a) s = .next (s.setWin w y) ∧ y.n = min (x.n + (s.src a).toNat % 2 ^ 32) x.desc.total ∧ y.buf = [] ∧
        y.desc = x.desc ∧ (y.state = .done ↔ y.n = x.desc.total) ∧ (y.state ≠ .done → y.state = .active)) ∧
      (s.src t = 0 → ∃ y : Windrow, exec (.wset w a t) s = .next (s.setWin w y) ∧ y.n = min (s.src a).toNat x.desc.total ∧ y.buf = [] ∧ y.desc = x.desc ∧
        y.ovr = x.ovr ∧ (y.state = .done ↔ x.desc.total ≤ (s.src a).toNat) ∧ (y.state ≠ .done → y.state = .active) ∧
        (x.desc.total ≤ (s.src a).toNat → ∀ l : Fin 6, y.idx[l] = 0) ∧
        ((s.src a).toNat < x.desc.total → ∀ l : Fin 6, y.idx[l] = if x.desc.nlev.toNat ≤ l.val then 0
          else (s.src a).toNat / ((((List.finRange 6).take l.val).map fun j => (x.desc.cnt[j]).toNat).prod) % (x.desc.cnt[l]).toNat)) ∧
      (s.src t = 2 → (s.src a).toNat < 2 ^ 56 →
        ∃ y : Windrow, exec (.wset w a t) s = .next (s.setWin w y) ∧ y.desc = { x.desc with base := (s.src a).setWidth 56 } ∧ y.buf = [] ∧ y.n = x.n) ∧
      (s.src t = 3 → (s.src a).toNat < 2 ^ 56 →
        ∃ y : Windrow, exec (.wset w a t) s = .next (s.setWin w y) ∧ y.desc = { x.desc with scbase := (s.src a).setWidth 56 } ∧ y.buf = [] ∧ y.n = x.n) ∧
      (s.src t = 4 → (s.src a).toNat < 2 ^ 32 → (s.src a).toNat % 8 = 0 →
        ∃ y : Windrow, exec (.wset w a t) s = .next (s.setWin w y) ∧ y.desc = { x.desc with modlen := (s.src a).setWidth 32 } ∧ y.buf = [] ∧ y.n = x.n) ∧
      (s.src t = 5 → exec (.wset w a t) s = .next (s.setWin w { x with icnt := (s.src a).setWidth 32, buf := x.buf.map WinEntry.outdate })) ∧
      (s.src t = 7 → exec (.wset w a t) s = .next (s.setWin w { x with skc := (s.src a).setWidth 32, buf := x.buf.map WinEntry.outdate })) ∧
      (∀ e : WinEntry, e.fault = none → e.outdate = { e with arrived := false, stale := true }) ∧
      ((s.src t).toNat < 14 → ∃ v, x.getItem (s.src t).toNat = some v ∧ FliesS s (.wget w d t) .other d (fun u => u = v)) ∧
      ((s.src t).toNat ∈ [1, 6, 8, 9, 10, 11, 12, 13, 14, 15] → exec (.wset w a t) s = .next s.illop) ∧
      ((s.src t).toNat ∈ [14, 15] ∨ 0x28 ≤ (s.src t).toNat → exec (.wget w d t) s = .next s.illop)) ∧
    (x.state = .idle → exec (.wrst w) s = .next s.illop ∧ exec (.wskip w a) s = .next s.illop ∧
      (mdItem (s.src t).toNat = none → exec (.wset w a t) s = .next s.illop ∧ exec (.wget w d t) s = .next s.illop)) ∧
    (x.state = .busy → exec (.wcfg w a) s = .next s.wait ∧ exec (.wrst w) s = .next s.wait ∧ exec (.wskip w a) s = .next s.wait ∧
      exec (.wstat w d) s = .next s.wait ∧
      (mdItem (s.src t).toNat = none → exec (.wset w a t) s = .next s.wait ∧ exec (.wget w d t) s = .next s.wait)) ∧
    (mdItem (s.src t).toNat = none ↔ (s.src t).toNat < 0x10 ∨ 0x28 ≤ (s.src t).toNat) ∧
    (0x10 ≤ (s.src t).toNat → (s.src t).toNat < 0x28 → w ≠ 0 → exec (.wset w a t) s = .next s.illop ∧ exec (.wget w d t) s = .next s.illop) ∧
    (∀ (kind : Nat) (i : Fin 8), kind < 3 → (s.src t).toNat = 0x10 + 8 * kind + i.val →
      exec (.wset 0 a t) s = .next (s.modCur fun c => { c with regs := c.regs.setMd kind i (s.src a) }) ∧
      FliesS s (.wget 0 d t) .other d (fun u => u = s.cur.regs.getMd kind i) ∧ (s.cur.regs.setMd kind i (s.src a)).getMd kind i = s.src a) ∧
    (w.val % 2 = 0 → x.mergeable = true → (s.win (w + 1)).mergeable = true → x.state ≠ .busy → (s.win (w + 1)).state ≠ .busy →
      exec (.wisect w) s = .next ((s.setWin w { x with state := .busy, merge := some (.isect 0) }).setWin (w + 1)
        { s.win (w + 1) with state := .busy, merge := some .partner })) ∧
    (w.val % 2 = 1 ∨ x.mergeable = false ∨ (s.win (w + 1)).mergeable = false → exec (.wisect w) s = .next s.illop) ∧
    (w.val % 2 = 0 → x.mergeable = true → (s.win (w + 1)).mergeable = true → x.state = .busy ∨ (s.win (w + 1)).state = .busy →
      exec (.wisect w) s = .next s.wait) ∧
    (x.mergeable = false → exec (.wicnt w a) s = .next s.illop) ∧ (x.mergeable = true → x.state = .busy → exec (.wicnt w a) s = .next s.wait) ∧
    (x.mergeable = true ↔ x.state ≠ .idle ∧ x.desc.fmt = 2 ∧ x.desc.dir = false) ∧
    (x.mergeable = true → x.state ≠ .busy →
      exec (.wicnt w a) s = .next (s.setWin w { x with state := .busy, merge := some (.count ((s.src a).setWidth 32) 0) })) ∧
    (x.state ≠ .busy → x.buf.length ≤ 8 → FliesS s (.wstat w d) .other d fun v =>
      v.extractLsb' 32 32 = x.icnt ∧ v.getLsbD 7 = x.desc.scen ∧ v.getLsbD 6 = (x.buf.any fun e => e.arrived && e.fault.isSome) ∧ v.getLsbD 5 = x.ovr ∧
      (v.extractLsb' 8 8).toNat = (if x.state = .idle ∨ x.width = none then 0 else (x.buf.filter fun e => e.arrived).length) ∧ v.extractLsb' 3 2 = x.desc.fmt ∧ v.getLsbD 2 = x.desc.dir ∧
      (v.extractLsb' 0 2).toNat = (match x.state with | .idle => 0 | .active => 1 | .done => 2 | .busy => 3))

/-- A load whose bytes can be read writes them zero-extended to its register, or its vector, a vector form to the widths of 256, 512 and 1,024
bits and ldbc a 4-byte value in every lane; from the scratchpad with latency 5, else as an interlocked result; into a write windrow they are
pushed when they arrive (from the scratchpad as a result of the fixed kind, log 83; which latency a post-increment has, and that it lands
with a load that is none of the scratchpad, is the model's choice, log 9). A nonzero increment adds its size units to the base register, and
code 8 adds the md register's step, modulo its length about its base where the length is not 0. (02_bundle.md R31, R39; 06_windrow.md R140,
R143, R145, R146) -/
def Obligations.Loads : Prop :=
  ∀ (s : State) (d : SReg) (b : Src) (m : Fin 8) (inc : BitVec 4),
    (∀ (i : Instr) (n : Nat) (bs : List Byte) (loft : Bool) (t : State),
      (i, n) ∈ [(Instr.ldb d b m inc, 1), (.ldh d b m inc, 2), (.ldw d b m inc, 4), (.ldd d b m inc, 8)] →
      s.loadBytes b n n = .ok (bs, loft) t →
      exec i s = .next (t.finishLoad (.s d (BitVec.ofNat 64 (leNat bs))) loft b m inc n)) ∧
    (∀ (r : Fin 16) (i : Instr) (n al : Nat) (bs : List Byte) (loft : Bool) (t : State),
      (i, n, al) ∈ [(Instr.ldv256 (.reg r) b m inc, 32, 32), (.ldv512 (.reg r) b m inc, 64, 32), (.ldv1k (.reg r) b m inc, 128, 32)] →
      s.loadBytes b n al = .ok (bs, loft) t →
      exec i s = .next (t.finishLoad (.v r (BitVec.ofNat 1024 (leNat bs))) loft b m inc n)) ∧
    (∀ (r : Fin 16) (bs : List Byte) (loft : Bool) (t : State), s.loadBytes b 4 4 = .ok (bs, loft) t →
      ∃ x : Vec, exec (.ldbc (.reg r) b m inc) s = .next (t.finishLoad (.v r x) loft b m inc 4) ∧
        HasLanes 32 1024 x fun _ => BitVec.ofNat 32 (leNat bs)) ∧
    (∀ (w : Fin 16) (i : Instr) (n al bits : Nat) (value : List Byte → Vec) (bs : List Byte) (loft : Bool) (t u : State) (ps : Option (List Trans)),
      (i, n, al, bits, value) ∈ [(Instr.ldv256 (.win w) b m inc, 32, 32, 256, vecOfBytes), (.ldv512 (.win w) b m inc, 64, 32, 512, vecOfBytes),
        (.ldv1k (.win w) b m inc, 128, 32, 1024, vecOfBytes), (.ldbc (.win w) b m inc, 4, 4, 1024, broadcast4)] →
      s.loadBytes b n al = .ok (bs, loft) t → t.startPush w bits = .ok ps u →
      let push := ps.map fun x => (⟨w, x, (t.win w).desc.store bits (value bs), (t.win w).pushAddrs bits⟩ : HeldPush)
      (loft = true → exec i s = .next ((u.fly .fixed [] push 5).advance b m inc n)) ∧
      (loft = false → inc = 0 → exec i s = .next (u.fly .load [] push 1)) ∧
      (loft = false → ∀ r v, u.advanced b m inc n = some (r, v) → exec i s = .next (u.fly .load [.s r v] push 1))) ∧
    (∀ bs, vecOfBytes bs = BitVec.ofNat 1024 (leNat bs) ∧ HasLanes 32 1024 (broadcast4 bs) fun _ => BitVec.ofNat 32 (leNat bs)) ∧
    (∀ (v : Word) (x : Vec) (r : Fin 16) (n : Nat), s.finishLoad (.s d v) true b m inc n = (s.putS d v 5).advance b m inc n ∧
      s.finishLoad (.v r x) true b m inc n = (s.put (.v r x) 5).advance b m inc n ∧
      (inc = 0 → d ≠ 0 → s.finishLoad (.s d v) false b m inc n = s.fly .load [.s d v] none 1) ∧
      (inc = 0 → s.finishLoad (.v r x) false b m inc n = s.fly .load [.v r x] none 1) ∧
      (∀ q y, s.advanced b m inc n = some (q, y) → d ≠ 0 → s.finishLoad (.s d v) false b m inc n = s.fly .load [.s d v, .s q y] none 1 ∧
        s.finishLoad (.v r x) false b m inc n = s.fly .load [.v r x, .s q y] none 1)) ∧
    (∀ (r : Fin 63) (n : Nat), b = .reg r → r ≠ 0 →
      (inc = 0 → s.advance b m inc n = s) ∧
      (inc ≠ 0 → inc ≠ 8 → s.advance b m inc n = s.putS r (s.getS r + BitVec.ofInt 64 (inc.toInt * n)) 1) ∧
      (inc = 8 → s.cur.regs.mlen[m] = 0 → s.advance b m inc n = s.putS r (s.getS r + s.cur.regs.mstep[m]) 1) ∧
      (inc = 8 → s.cur.regs.mlen[m] ≠ 0 →
        ∃ v : Word, s.advance b m inc n = s.putS r v 1 ∧
          (v - s.cur.regs.mb[m]).toNat = (((s.getS r).toNat - (s.cur.regs.mb[m]).toNat + (s.cur.regs.mstep[m]).toInt : Int) % ((s.cur.regs.mlen[m]).toNat : Int)).toNat))

/-- An aligned access that lies in the context's own scratchpad, in steps that belong to it, reads the bytes there, little-endian, and changes
nothing, where no store of the context is buffered or on its way, no push and no atomic is under way and no granule was read early (R227,
log 76); so every load into a register, lda, and every read of a descriptor or table from there completes. Beyond 56 bits a load raises
PFAULT and misaligned ALIGN. (01_device.md R2; 06_windrow.md R143; 09_storage.md R206, R210) -/
def Obligations.LoftLoads : Prop :=
  ∀ (s : State) (b : Src) (d : SReg) (r : Fin 16) (m : Fin 8) (inc : BitVec 4) (z : Scope),
    let ea := (s.src b).toNat
    let own := fun (n : Nat) => loftBase ≤ ea ∧ ea + n ≤ 2 ^ 56 ∧ ∀ i < n, s.myCore.stepAccess ((ea + i - loftBase) / 0x40000) = .go
    let there := fun (n : Nat) => bgetN s.myCore.loft (ea - loftBase) n
    let value := fun (n : Nat) => BitVec.ofNat 64 (leNat (there n))
    (∀ (n al : Nat), (n, al) ∈ [(1, 1), (2, 2), (4, 4), (8, 8), (32, 32), (64, 32), (128, 32)] →
      (2 ^ 56 ≤ ea → s.loadBytes b n al = .stop (s.raise cPFAULT (info249 0 0 ea))) ∧
      (ea < 2 ^ 56 → ea % al ≠ 0 → s.loadBytes b n al = .stop (s.raise cALIGN s.slotInfo))) ∧
    (s.cur.outbox = [] → s.cur.flights = [] → s.cur.atomics = [] → s.issue.loads = [] → s.cur.early = [] →
      (∀ (n al : Nat), (n, al) ∈ [(1, 1), (2, 2), (4, 4), (8, 8), (32, 32), (64, 32), (128, 32)] → ea % al = 0 → own n →
        s.loadBytes b n al = .ok (there n, true) s) ∧
      (∀ (i : Instr) (n : Nat), (i, n) ∈ [(Instr.ldb d b m inc, 1), (.ldh d b m inc, 2), (.ldw d b m inc, 4), (.ldd d b m inc, 8)] → ea % n = 0 → own n →
        exec i s = .next ((s.putS d (value n) 5).advance b m inc n)) ∧
      (∀ (i : Instr) (n : Nat), (i, n) ∈ [(Instr.ldv256 (.reg r) b m inc, 32), (.ldv512 (.reg r) b m inc, 64), (.ldv1k (.reg r) b m inc, 128)] →
        ea % 32 = 0 → own n → exec i s = .next ((s.put (.v r (BitVec.ofNat 1024 (leNat (there n)))) 5).advance b m inc n)) ∧
      (ea % 4 = 0 → own 4 → exec (.ldbc (.reg r) b m inc) s = .next ((s.put (.v r (broadcast4 (there 4))) 5).advance b m inc 4) ∧
        exec (.lda d b z false) s = .next ((s.flyS .load d (value 4) 1).acquire s.issue.core s.issue.slot z)) ∧
      (ea % 8 = 0 → own 8 → exec (.lda d b z true) s = .next ((s.flyS .load d (value 8) 1).acquire s.issue.core s.issue.slot z)) ∧
      (∀ align words, ea % align = 0 → own (8 * words) → s.readTable (s.src b) align words = (.ok (wordsOf (there (8 * words))), s)))

/-- A store whose address is aligned and whose bytes the region's buffer takes completes with its post-increment: stb to std the low bytes of
their source, the vector forms the low bits of their register, stvk only the bytes that its mask selects; nothing is written to memory
before the region's commit. In the context's own scratchpad, while no 30 lines are buffered or on their way, they take them in every state.
A misaligned address raises ALIGN and one beyond 56 bits PFAULT, in place of any effect. (02_bundle.md R39; 06_windrow.md R143 to R145;
12_region.md R271) -/
def Obligations.Stores : Prop :=
  ∀ (s : State) (a b : Src) (m : Fin 8) (inc : BitVec 4) (k : Fin 8) (r : Fin 16),
    let ea := (s.src b).toNat
    (∀ (i : Instr) (n : Nat), (i, n) ∈ [(Instr.stb a b m inc, 1), (.sth a b m inc, 2), (.stw a b m inc, 4), (.std a b m inc, 8)] →
      (∀ t, ea < 2 ^ 56 → ea % n = 0 → s.storeVa ea (leBytes n (s.src a).toNat) (fun _ => true) none = (.ok, t) → exec i s = .next (t.advance b m inc n)) ∧
      (ea < 2 ^ 56 → ea % n ≠ 0 → exec i s = .next (s.raise cALIGN s.slotInfo)) ∧
      (2 ^ 56 ≤ ea → exec i s = .next (s.raise cPFAULT (info249 0 1 ea)))) ∧
    (∀ (i : Instr) (n : Nat) (t : State),
      (i, n) ∈ [(Instr.stv256 (.reg r) b m inc, 32), (.stv512 (.reg r) b m inc, 64), (.stv1k (.reg r) b m inc, 128)] →
      ea < 2 ^ 56 → ea % 32 = 0 → s.storeVa ea (leBytes n (s.getV r).toNat) (fun _ => true) none = (.ok, t) → exec i s = .next (t.advance b m inc n)) ∧
    (∀ t, ea < 2 ^ 56 → ea % 32 = 0 → s.storeVa ea (leBytes 128 (s.getV r).toNat) (fun n => (s.getK k).getLsbD n) none = (.ok, t) →
      exec (.stvk (.reg r) b k inc) s = .next (t.advance b 0 inc 128)) ∧
    (∀ (bs : List Byte) (keep : Nat → Bool) (z : Option Scope), loftBase ≤ ea → 0 < bs.length → bs.length ≤ 128 → ea + bs.length ≤ 2 ^ 56 →
      (∀ i < bs.length, s.myCore.stepAccess ((ea + i - loftBase) / 0x40000) = .go) → s.cur.region.buffer.length + s.cur.outStores.length < 30 →
      ∃ t, s.storeVa ea bs keep z = (.ok, t) ∧ OnlyCur s t ∧ t.issue = s.issue) ∧
    (∀ (i : Instr) (n : Nat), (i, n) ∈ [(Instr.stv256 (.reg r) b m inc, 32), (.stv512 (.reg r) b m inc, 64), (.stv1k (.reg r) b m inc, 128),
        (.stvk (.reg r) b k inc, 128)] →
      (ea < 2 ^ 56 → ea % 32 ≠ 0 → exec i s = .next (s.raise cALIGN s.slotInfo)) ∧ (2 ^ 56 ≤ ea → exec i s = .next (s.raise cPFAULT (info249 0 1 ea))))

/-- A scalar store to the scratchpad, its buffer having room, completes without an increment; a load of the same size and address in a later
bundle of the region then gives the bytes stored, whatever the buffer held before. (02_bundle.md R25; 12_region.md R271) -/
def Obligations.StoreThenLoad : Prop :=
  ∀ (s : State) (a b : Src) (m : Fin 8) (i : Instr) (n : Nat),
    (i, n) ∈ [(Instr.stb a b m 0, 1), (.sth a b m 0, 2), (.stw a b m 0, 4), (.std a b m 0, 8)] →
    let ea := (s.src b).toNat
    loftBase ≤ ea → ea < 2 ^ 56 → ea % n = 0 → s.myCore.stepAccess ((ea - loftBase) / 0x40000) = .go →
    s.coh = [] → s.cur.region.buffer.length + s.cur.outStores.length < 32 → s.cur.flights = [] → s.cur.atomics = [] → s.cur.early = [] →
    ∃ t, exec i s = .next t ∧
      ∃ u, ({ t with issue := { t.issue with loads := t.cur.region.buffer } } : State).loadBytes b n n = .ok (leBytes n (s.src a).toNat, true) u

/-- An ATM slot whose address is aligned, translates for writing and lies outside the host window completes: its region holds the atomic with
its operation, size, scope, operand, compare value and destination, to execute after the commit. So it does in every state for an aligned
address in the context's own scratchpad. A misaligned address raises ALIGN, one beyond 56 bits PFAULT; the host window raises PPROT. The new
value of an atomic of n bytes on their old value: the operand, the sum modulo 2^(8n), the bitwise and, or, the larger and the smaller as
signed integers; the FP32 sum rounded to nearest even; a compare-and-swap writes the operand where the old value equals the compare value,
and else nothing. (10_line.md R240 to R242; 20_link.md R393; 10_line.md R240) -/
def Obligations.Atomics : Prop :=
  (∀ (s t : State) (d a b : Fin 32) (x : Scope) (z : Bool),
    let ea := (s.getS (d32 a)).toNat
    (∀ (i : Instr) (op : Fin 8) (four : Bool),
      (i, op, four) ∈ [(Instr.aswap d a b x z, 0, z), (.aadd d a b x z, 1, z), (.aand d a b x z, 2, z), (.aor d a b x z, 3, z), (.amax d a b x z, 4, z),
        (.amin d a b x z, 5, z), (.acas d a b x z, 6, z), (.afadd d a b x, 7, true)] →
      (ea < 2 ^ 56 → ea % (if four then 4 else 8) ≠ 0 → exec i s = .next (s.raise cALIGN s.slotInfo)) ∧
      (2 ^ 56 ≤ ea → exec i s = .next (s.raise cPFAULT (info249 0 3 ea))) ∧
      (loftBase ≤ ea → ea < 2 ^ 56 → ea % (if four then 4 else 8) = 0 → s.myCore.stepAccess ((ea - loftBase) / 0x40000) = .go →
        ∃ p : Trans, p.place = .loft s.issue.core ∧ p.addr = ea - loftBase ∧ exec i s = .next (s.modCur fun c => { c with region := { c.region with
          atomic := some ⟨op, four, x, p, ea / 4096, s.cur.kid, d, s.getS (d32 b), s.getS (d32 d)⟩ } })) ∧
      (∀ p : Trans, ea < 2 ^ 56 → ea % (if four then 4 else 8) = 0 → s.locate .write ea 0 3 = (.ok p, t) →
        (¬ (p.place = .phys ∧ t.paKind p.addr = .host) →
          exec i s = .next (t.modCur fun c => { c with region := { c.region with
            atomic := some ⟨op, four, x, p, ea / 4096, t.cur.kid, d, t.getS (d32 b), t.getS (d32 d)⟩ } })) ∧
        (p.place = .phys → t.paKind p.addr = .host → exec i s = .next (t.raise cPPROT (info249 0 3 ea)))))) ∧
  (∀ (n : Nat) (old operand compare : Word), n = 4 ∨ n = 8 → old.toNat < 2 ^ (8 * n) →
    let b := operand.toNat % 2 ^ (8 * n)
    let low := fun (v : Option Word) => v.map fun x => x.toNat % 2 ^ (8 * n)
    let signed := fun (x : Nat) => (x : Int).bmod (2 ^ (8 * n))
    low (atomicNew 0 n old operand compare) = some b ∧
    low (atomicNew 1 n old operand compare) = some ((old.toNat + operand.toNat) % 2 ^ (8 * n)) ∧
    (∃ v, atomicNew 2 n old operand compare = some v ∧ ∀ i < 8 * n, v.getLsbD i = (old.getLsbD i && operand.getLsbD i)) ∧
    (∃ v, atomicNew 3 n old operand compare = some v ∧ ∀ i < 8 * n, v.getLsbD i = (old.getLsbD i || operand.getLsbD i)) ∧
    (n = 4 → atomicNew 7 n old operand compare = some (BitVec.ofNat 64 (fAdd fp32 .rne (fp32.unpack old.toNat) (fp32.unpack b)).bits)) ∧
    (∃ v, low (atomicNew 4 n old operand compare) = some v ∧ signed v = max (signed old.toNat) (signed b)) ∧
    (∃ v, low (atomicNew 5 n old operand compare) = some v ∧ signed v = min (signed old.toNat) (signed b)) ∧
    low (atomicNew 6 n old operand compare) = (if old.toNat = compare.toNat % 2 ^ (8 * n) then some b else none))

/-- An acquire fence completes in every state: it empties the read windrows' buffers and, at FIELD scope and wider, leaves the core's L1 empty.
A release fence waits for what has not performed, then writes the L1 back at FIELD scope and wider and divides the region's store buffer; an
acquire-release fence does both. drain makes the next bundle wait. lda gives an interlocked result of 4 or 8 bytes and acquires at its
scope. strl takes a sealed entry of its own, that no later store joins; its misaligned address raises ALIGN, one beyond 56 bits PFAULT.
(10_line.md R230, R231, R234 to R237) -/
def Obligations.OrderedAccesses : Prop :=
  ∀ (s : State) (z : Scope) (d : SReg) (a b : Src) (e : Bool),
    let acquired := fun (t : State) => t.acquire t.issue.core t.issue.slot z
    let released := (s.release s.issue.core z).modCur fun c => { c with region := { c.region with
      buffer := c.region.buffer.map fun x => { x with sealed := true }, fences := c.region.fences ++ [z] } }
    exec (.fence z .acq) s = .next (acquired s) ∧
    (s.cur.unperformed = true → exec (.fence z .rel) s = .next s.wait) ∧
    (s.cur.unperformed = false → exec (.fence z .rel) s = .next released) ∧
    (s.cur.unperformed = true → exec (.fence z .ar) s = .next s.wait) ∧
    (s.cur.unperformed = false → exec (.fence z .ar) s = .next (acquired released)) ∧
    (let t := acquired s
     (∀ w : Fin 16, (t.cur.windrows[w]).buf = if (s.cur.windrows[w]).desc.dir then (s.cur.windrows[w]).buf else []) ∧
     (3 ≤ scopeRank z → t.myCore.l1 = [])) ∧
    exec .drain s = .next (s.modCur fun c => { c with draining := true }) ∧
    (∀ (bs : List Byte) (loft : Bool) (t : State), s.loadBytes b (if e then 8 else 4) (if e then 8 else 4) = .ok (bs, loft) t →
      exec (.lda d b z e) s = .next (acquired (t.flyS .load d (BitVec.ofNat 64 (leNat bs)) 1))) ∧
    (∀ t, (s.src b).toNat < 2 ^ 56 → (s.src b).toNat % (if e then 8 else 4) = 0 →
      s.storeVa (s.src b).toNat (leBytes (if e then 8 else 4) (s.src a).toNat) (fun _ => true) (some z) = (.ok, t) →
        exec (.strl a b z e) s = .next t ∧ ∃ x ∈ t.cur.region.buffer, x.strl = some z ∧ x.sealed = true) ∧
    ((s.src b).toNat < 2 ^ 56 → (s.src b).toNat % (if e then 8 else 4) ≠ 0 → exec (.strl a b z e) s = .next (s.raise cALIGN s.slotInfo)) ∧
    (2 ^ 56 ≤ (s.src b).toNat → exec (.strl a b z e) s = .next (s.raise cPFAULT (info249 0 1 (s.src b).toNat)))

/-- waiteng waits for a PENDING token; on an IDLE one it does nothing; on one that completed OK it acquires where the command asked for it, and
with another status it traps. arrive waits for the context's accesses and ring effects still out (that it waits for ring effects is the
model's choice, log 52), releases at the LEVEL scope, and counts one arrival and position; a context of no launch block is a group of its
own (the model's choice, log 40); where its region was entered again after the arrival it counts the position alone. waitb acquires once the
generation of its position has completed, and waits before; under FLT it goes on at once. rdv arrives once, in its first try, and then waits
as waitb does. gphase counts an arrival at the group's phase, after its release, once, and goes on to the next phase with an acquire once it
has completed, at once under FLT, and waits before. (10_line.md R238, R239; 16_group.md R339, R340, R341; 17_barrier.md R346, R349) -/
def Obligations.Rendezvous : Prop :=
  ∀ (s : State) (t : Fin 64) (b : Fin 16),
    let x := s.cur.tokens[t]
    let level := levelScope ((s.getSys rDOMAIN).extractLsb' 0 3)
    (s.cur.region.sets t = false →
      (x.state = .idle → exec (.waiteng t) s = .next s) ∧ (x.state = .pending → exec (.waiteng t) s = .next s.wait) ∧
      (∀ st v, x.state = .done st v → (∀ q, x.kind ≠ .guest q) →
        let u := s.waitOn s.issue.core s.cur.ident t
        (st = .ok → exec (.waiteng t) s = .next (if x.a then u.acquire s.issue.core s.issue.slot x.scope else u)) ∧
        (st ≠ .ok → exec (.waiteng t) s = .next (u.raiseAt (u.tokenTrap v) false)))) ∧
    (s.cur.region.sets t = true → exec (.waiteng t) s = .next s.illop) ∧
    (s.cur.cnt[b] ≠ s.cur.pos[b] → exec (.arrive b) s = .next (s.modCur fun c => { c with pos := c.pos.set b (c.pos[b] + 1) })) ∧
    (s.cur.cnt[b] = s.cur.pos[b] → s.cur.unsettled = true → exec (.arrive b) s = .next s.wait) ∧
    (s.cur.unsettled = true ↔ s.cur.unperformed = true ∨ ∃ e ∈ s.cur.effectsOut, e.ring.isSome = true) ∧
    (s.cur.member = none → s.cur.cnt[b] = s.cur.pos[b] → s.cur.unsettled = false →
      exec (.arrive b) s = .next ((s.release s.issue.core level).modCur fun c =>
        { c with cnt := c.cnt.set b (c.cnt[b] + 1), pos := c.pos.set b (c.pos[b] + 1) })) ∧
    (∀ m, s.cur.member = some m → s.cur.cnt[b] = s.cur.pos[b] → m.seenGen[b] = s.cur.cnt[b] → s.flt = false → s.cur.unsettled = false →
      exec (.arrive b) s = .next (((s.release s.issue.core level).arriveGen m b).modCur fun c =>
        { c with cnt := c.cnt.set b (c.cnt[b] + 1), pos := c.pos.set b (c.pos[b] + 1) })) ∧
    (∀ m, s.cur.member = some m → s.cur.cnt[b] = s.cur.pos[b] → m.seenGen[b] ≠ s.cur.cnt[b] → s.flt = false → exec (.arrive b) s = .next s.wait) ∧
    (s.flt = true → exec (.waitb b) s = .next s) ∧
    (s.flt = false → s.genSeen b = s.cur.pos[b] → exec (.waitb b) s = .next (s.acquire s.issue.core s.issue.slot level)) ∧
    (s.flt = false → s.genSeen b ≠ s.cur.pos[b] → exec (.waitb b) s = .next s.wait) ∧
    (s.asked = some false →
      (s.flt = true → exec (.rdv b) s = .next s) ∧
      (s.flt = false → s.genSeen b = s.cur.pos[b] → exec (.rdv b) s = .next (s.acquire s.issue.core s.issue.slot level)) ∧
      (s.flt = false → s.genSeen b ≠ s.cur.pos[b] → exec (.rdv b) s = .next s.wait)) ∧
    (s.asked = none → s.cur.cnt[b] ≠ s.cur.pos[b] → s.flt = true →
      exec (.rdv b) s = .next (s.modCur fun c => { c with pos := c.pos.set b (c.pos[b] + 1) }).ask) ∧
    (s.asked = none → s.cur.cnt[b] = s.cur.pos[b] → s.cur.unsettled = true → exec (.rdv b) s = .next s.wait) ∧
    (s.asked = none → ∀ u, exec (.arrive b) s = .next u → u.issue.outcome ≠ .wait →
      let v := u.ask
      (v.flt = true → exec (.rdv b) s = .next v) ∧
      (v.flt = false → v.genSeen b = v.cur.pos[b] → exec (.rdv b) s = .next (v.acquire v.issue.core v.issue.slot v.levelMine)) ∧
      (v.flt = false → v.genSeen b ≠ v.cur.pos[b] → exec (.rdv b) s = .next v.wait)) ∧
    (let arrived := (s.phaseArrival s.gph)
     let goes := fun (t : State) => t.modCur fun c => c.setGph (s.gph + 1)
     (s.cur.arr = s.gph → s.cur.unsettled = true → exec .gphase s = .next s.wait) ∧
     (s.cur.arr ≠ s.gph →
       (s.flt = true → exec .gphase s = .next (goes s)) ∧
       (s.flt = false → s.phaseSeen ≠ s.gph → exec .gphase s = .next (goes (s.acquire s.issue.core s.issue.slot level))) ∧
       (s.flt = false → s.phaseSeen = s.gph → exec .gphase s = .next s.wait)) ∧
     (s.cur.arr = s.gph → s.cur.unsettled = false →
       (arrived.flt = true → exec .gphase s = .next (goes arrived)) ∧
       (arrived.flt = false → arrived.phaseSeen = s.gph → exec .gphase s = .next arrived.wait) ∧
       (s.cur.member = none → arrived.flt = false →
         exec .gphase s = .next (goes (arrived.acquire arrived.issue.core arrived.issue.slot arrived.levelMine)))))

/-- mset writes an mp register and mget returns it; mcfg writes DRM, an undefined code as 0, or DSAT. For a bank that the context owns: mcall of
a loaded routine with valid parameters and mzero are deferred to the commit, and mcall of another routine or value raises ILLOP; mwait and
mdrain raise ILLOP with a command of the bank pending in the region, else wait while the bank is BUSY, then raise a recorded error, and else
mwait goes on. mdrain into a register then starts an interlocked result of 1,024 bits from the cells at the cursor, ready 6 cycles after, or
70 on a compare, moves the cursor on modulo the tile, joins its flags or raises FPX, and under CLR defers a clear; into a write windrow it
makes the push take its place. Where the rows are to be compared and differ it raises MXMIS, and where a cell is poisoned UCE with the
TRAPINFO that R171 gives a bank's error (the model's choice, log 57); a windrow of the wrong sort raises ILLOP. mstat returns the bank's
status, and 0 for a bank owned by another. mcall, mzero, mwait and mdrain of a bank that the context does not own raise ILLOP. (07_tile.md
R160, R162, R171; 07_tile.md R172 to R178, R180) -/
def Obligations.MatrixForms : Prop :=
  ∀ (s : State) (a : Fin 4) (m : Fin 8) (d : SReg) (c : Src) (r : BitVec 8) (z : Bool) (v g : Fin 16) (f : Fin 6),
    let b := s.bank a
    let k := s.issue.core
    let compared := b.compare && b.state == .live
    exec (.mset m c) s = .next (s.put (.mp m (s.src c)) 1) ∧
    exec (.mget m d) s = .next (s.flyS .other d s.cur.regs.mp[m] 2) ∧
    (∃ x : BitVec 3, exec (.mcfg c false) s = .next (s.modCur fun y => { y with regs := { y.regs with drm := x } }) ∧
      x.toNat = (if 5 < (s.src c).toNat % 8 then 0 else (s.src c).toNat % 8)) ∧
    exec (.mcfg c true) s = .next (s.modCur fun y => { y with regs := { y.regs with dsat := (s.src c).getLsbD 0 } }) ∧
    (b.owner = some s.issue.slot →
      (tget [] s.myCore.store r.toNat ≠ [] → mpValid s.cur.regs.mp[m] = true → exec (.mcall a r m) s = .next (s.defer (.mcall a r s.cur.regs.mp[m]))) ∧
      (tget [] s.myCore.store r.toNat = [] ∨ mpValid s.cur.regs.mp[m] = false → exec (.mcall a r m) s = .next s.illop) ∧
      exec (.mzero a) s = .next (s.defer (.mzero a)) ∧
      (s.bankPending a = true → exec (.mwait a) s = .next s.illop ∧ exec (.mdrain a z (.reg v) f) s = .next s.illop ∧
        exec (.mdrain a z (.win g) f) s = .next s.illop) ∧
      ((s.win g).misused true 1024 = true → exec (.mdrain a z (.win g) f) s = .next s.illop) ∧
      (s.bankPending a = false → s.bankBusy a = true → exec (.mwait a) s = .next s.wait ∧ exec (.mdrain a z (.reg v) f) s = .next s.wait ∧
        ((s.win g).misused true 1024 = false → exec (.mdrain a z (.win g) f) s = .next s.wait)) ∧
      (s.bankPending a = false → s.bankBusy a = false →
        (∀ e, b.error = some e → exec (.mwait a) s = .next (s.raiseBank a e) ∧ exec (.mdrain a z (.reg v) f) s = .next (s.raiseBank a e) ∧
          ((s.win g).misused true 1024 = false → exec (.mdrain a z (.win g) f) s = .next (s.raiseBank a e))) ∧
        (b.error = none →
          exec (.mwait a) s = .next s ∧
          (∀ n, compared = true → b.mismatch = some n → exec (.mdrain a z (.reg v) f) s = .next (s.mismatchTrap a n) ∧
            ((s.win g).misused true 1024 = false → exec (.mdrain a z (.win g) f) s = .next (s.mismatchTrap a n))) ∧
          ((compared = true → b.mismatch = none) →
            ((∃ n ∈ b.drainCells (drainCount f), n ∈ b.poisoned) →
              exec (.mdrain a z (.reg v) f) s = .next (s.raiseAt ⟨cUCE, engineInfo a b.lrtn b.calln 0⟩ false)) ∧
            (∀ (x : Vec) (fl : BitVec 5) (t : State), (∀ n ∈ b.drainCells (drainCount f), n ∉ b.poisoned) → s.drainData b f = (x, fl, t) →
              let t' := if compared then (t.releaseHeld k a).modBank k a fun y => { y with compare := false } else t
              let u := t'.modBank k a fun y => y.drained f
              let w := if z then u.defer (.clear a) else u
              let n := if compared then 70 else 6
              CompletesFlagged s (.mdrain a z (.reg v) f) (w.flyV .drain (.reg v) 1024 x n) fl ∧
              ((s.win g).misused true 1024 = false →
                (∀ q, s.pushStops (.win g) = some q → exec (.mdrain a z (.win g) f) s = .next q) ∧
                (s.pushStops (.win g) = none → GivesW s (.mdrain a z (.win g) f) (w.flyV .drain (.win g) 1024 x n) fl)))))) ∧
      (∃ x : Word, exec (.mstat a d) s = .next (s.flyS .other d x 2) ∧ x.extractLsb' 48 16 = b.calln ∧ x.extractLsb' 40 8 = b.lrtn ∧
        (x.extractLsb' 35 5).toNat = min (s.bankCommands k a).length 16 ∧
        x.extractLsb' 32 3 = b.ccur ∧ x.extractLsb' 19 13 = b.dcur ∧ x.extractLsb' 11 8 = b.tag ∧ x.getLsbD 10 = b.uce ∧ x.getLsbD 9 = b.ck ∧
        x.getLsbD 8 = b.dr ∧ x.getLsbD 7 = b.nan ∧ x.getLsbD 6 = b.inf ∧ x.getLsbD 5 = b.rerr ∧ x.getLsbD 4 = b.mis ∧ x.getLsbD 3 = true ∧
        x.getLsbD 2 = false ∧ (x.extractLsb' 0 2).toNat = (s.myCore.bankState a).code)) ∧
    (b.owner ≠ some s.issue.slot →
      exec (.mcall a r m) s = .next s.illop ∧ exec (.mzero a) s = .next s.illop ∧ exec (.mwait a) s = .next s.illop ∧
      exec (.mdrain a z (.reg v) f) s = .next s.illop ∧ exec (.mdrain a z (.win g) f) s = .next s.illop ∧
      exec (.mstat a d) s = .next (s.flyS .other d 0 2)) ∧
    (∃ x, s.drainData b 4 = (x, 0, s) ∧ HasLanes 128 1024 x fun i => (b.cell ((b.dcur.toNat + i) % b.tileCells)).setWidth 128) ∧
    (f.val ≠ 5 → b.dcur.toNat < b.tileCells → (b.drained f).dcur.toNat = (b.dcur.toNat + drainCount f) % b.tileCells)

/-- With the array free and a call running in it, each micro-operation takes its effect and the call goes on with the next after its array
cycles: MAC of the two current slots adds terms that land 12 cycles after its last array cycle, without them it records RINGERR; GETA, GETB
and GETAB give back the current slots and acquire the next, wait without the array while they are not FULL, and record RINGERR without a
binding of the E role, and for an acquired slot that is EOS, too small or holds a wrong sparse mask (that EQ moves past such a slot, and
that GETAB meets an error of either ring at once, is the model's choice, log 54); RELA and RELB give back; LOOPK starts a loop of KSL
passes, and ENDL goes back to its start while passes are left; CSON, CSOFF, SUB and KMASK set what later MACs use, and TAG the bank's TAG;
ZERO clears cells and checksums; END ends the call. (07_tile.md R159, R165, R166, R168, R169, R192) -/
def Obligations.MicroOperations : Prop :=
  ∀ (s : State) (k : Nat) (a : Fin 4) (m : MatrixCall) (z : Bool) (km : BitVec 4) (tag : BitVec 8),
    s.issue.core = k → (s.core k).array = some a → (s.core k).callOf a = some m → (s.core k).arrayAt ≤ s.now →
    let x := m.param
    let noA := s.callRelease k a x.dr m.curA
    let noB := s.callRelease k a x.dr m.curB
    let noAB := noA.callRelease k a x.dr m.curB
    let keptA := if x.sp = 0 then 0 else sparseN x.sp
    (∀ n, ((s.goOn k a m n).core k).callOf a = some { m with pc := m.pc + 1, waits := false } ∧ ((s.goOn k a m n).core k).arrayAt = s.now + n) ∧
    exec .uNop s = .next (s.goOn k a m 1) ∧ exec .uCson s = .next (s.goOn k a { m with cs := true } 1) ∧
    exec .uCsoff s = .next (s.goOn k a { m with cs := false } 1) ∧ exec (.uSub z) s = .next (s.goOn k a { m with neg := z } 1) ∧
    exec (.uKmask km) s = .next (s.goOn k a { m with km := km } 1) ∧
    exec (.uTag tag) s = .next ((s.modBank k a fun b => { b with tag := tag }).goOn k a m 1) ∧
    exec .uLoopk s = .next (s.goOn k a { m with top := m.pc + 1, left := x.ksl } 1) ∧
    (1 < m.left → Goes s .uEndl fun t => (t.core k).callOf a = some { m with left := m.left - 1, pc := m.top } ∧ (t.core k).arrayAt = s.now + 1) ∧
    (m.left ≤ 1 → exec .uEndl s = .next (s.goOn k a { m with left := m.left - 1 } 1)) ∧
    exec .uRela s = .next (noA.goOn k a { m with curA := none } 1) ∧ exec .uRelb s = .next (noB.goOn k a { m with curB := none } 1) ∧
    (∀ h g, m.curA = some h → m.curB = some g → ∃ t : MacTerms, t.slotA = s.slotData k h x.sizeA ∧ t.slotB = s.slotData k g x.sizeB ∧
      t.km = m.km ∧ t.neg = m.neg ∧ t.cs = m.cs ∧ t.land + 1 = s.now + t.cycles x + 12 ∧
      exec .uMac s = .next (s.goOn k a { m with macs := m.macs ++ [t] } (t.cycles x))) ∧
    (m.curA = none ∨ m.curB = none → exec .uMac s = .next (s.callError k a m cRINGERR)) ∧
    Goes s .uZero (fun t => (t.core k).banks[a].cells = [] ∧ (t.core k).banks[a].rp = [] ∧ (t.core k).banks[a].cp = [] ∧ (t.core k).arrayAt = s.now + 8) ∧
    (∀ (t : State) (rb : Fin 16) (size n : Nat),
      let r := (t.ctxAt k m.slot).rings[rb]
      let e := t.boundEntry k m.slot r
      ((t.acquireSlot k m.slot rb size n).1 = true ↔ (e.slot r.eq).eos = false ∧ size ≤ e.desc.slotBytes ∧
        (n = 0 ∨ popCount (BitVec.ofNat 128 (leNat (t.loftRead k (e.desc.slotOff r.eq) 16))) = n)) ∧
      (t.acquireSlot k m.slot rb size n).2.1 = ⟨rb, r.desc.rid, r.eq, r.epoch⟩ ∧
      (t.acquireSlot k m.slot rb size n).2.2 = t.modCtx k m.slot fun c => { c with rings := c.rings.set rb { c.rings[rb] with eq := r.eq + 1 } }) ∧
    (noA.engineBound k m.slot x.rba = false → exec .uGeta s = .next (noA.callError k a { m with curA := none } cRINGERR)) ∧
    (noA.engineBound k m.slot x.rba = true → noA.slotPresent k m.slot x.rba 0 = false →
      exec .uGeta s = .next (noA.callWaits k a { m with curA := none })) ∧
    (∀ ok h t, noA.engineBound k m.slot x.rba = true → noA.slotPresent k m.slot x.rba 0 = true →
      noA.acquireSlot k m.slot x.rba x.sizeA keptA = (ok, h, t) →
      exec .uGeta s = .next (if ok then t.goOn k a { m with curA := some h } 1 else t.callError k a { m with curA := some h } cRINGERR)) ∧
    (noB.engineBound k m.slot x.rbb = false → exec .uGetb s = .next (noB.callError k a { m with curB := none } cRINGERR)) ∧
    (noB.engineBound k m.slot x.rbb = true → noB.slotPresent k m.slot x.rbb 0 = false →
      exec .uGetb s = .next (noB.callWaits k a { m with curB := none })) ∧
    (∀ ok h t, noB.engineBound k m.slot x.rbb = true → noB.slotPresent k m.slot x.rbb 0 = true →
      noB.acquireSlot k m.slot x.rbb x.sizeB 0 = (ok, h, t) →
      exec .uGetb s = .next (if ok then t.goOn k a { m with curB := some h } 1 else t.callError k a { m with curB := some h } cRINGERR)) ∧
    (noAB.engineBound k m.slot x.rba = false ∨ noAB.engineBound k m.slot x.rbb = false →
      exec .uGetab s = .next (noAB.callError k a { m with curA := none, curB := none } cRINGERR)) ∧
    (noAB.engineBound k m.slot x.rba = true → noAB.engineBound k m.slot x.rbb = true →
      (noAB.slotPresent k m.slot x.rba 0 = false ∨ noAB.slotPresent k m.slot x.rbb (if x.rba = x.rbb then 1 else 0) = false →
        exec .uGetab s = .next (noAB.callWaits k a { m with curA := none, curB := none })) ∧
      (∀ okA h t okB g u, noAB.slotPresent k m.slot x.rba 0 = true → noAB.slotPresent k m.slot x.rbb (if x.rba = x.rbb then 1 else 0) = true →
        noAB.acquireSlot k m.slot x.rba x.sizeA keptA = (okA, h, t) → t.acquireSlot k m.slot x.rbb x.sizeB 0 = (okB, g, u) →
        exec .uGetab s = .next (if okA && okB then u.goOn k a { m with curA := some h, curB := some g } 1
          else u.callError k a { m with curA := some h, curB := some g } cRINGERR))) ∧
    Goes s .uEnd (fun t => (t.core k).callOf a = some { m with curA := none, curB := none, ended := some s.now } ∧ (t.core k).array = none)

/-- A load, a divide, a vector divide or a drain in flight whose time has come and which pushes nothing writes its registers, drops the older
fixed-latency results still pending for them (R32), and leaves the flight list; nothing else of the machine changes, but for a scalar value
that an armed INJECT of kind 3 awaits. With the array free and no waiting call to resume, the oldest command whose bank runs no call starts
once it is eligible: a call, an mzero or a clear. The terms of the oldest MAC of a call are added to the bank once they land, and the call
completes with the last of them where its END ran in an earlier cycle. An mzero or clear that ends leaves the bank with its cells zero and
its owner. (02_bundle.md R31, R32, R33; 07_tile.md R161, R168, R170, R175) -/
def Obligations.ResultsReturn : Prop :=
  ∀ (s : State) (k id : Nat) (j : Fin 4) (a : Fin 4),
    (∀ (i : Instr) (kind : FlightKind) (f : Flight),
      (i, kind) ∈ [(Instr.loadReturn k j.val id, .load), (.loadReturn k j.val id, .other), (.divideComplete k j.val id, .divide),
        (.vectorDivideComplete k j.val id, .vdivide), (.drainDataReady k j.val id, .drain)] →
      ((s.ctxAt k j).flights.find? fun f => f.id == id) = some f → f.kind = kind → f.ready ≤ s.now → f.push = none →
      exec i s = .next (s.modCtx k j fun c => { c.landInjected f.vals with flights := c.flights.filter fun g => !(g.id == id) })) ∧
    (∀ (c : Context) (vs : List RegVal), (c.sysv rINJECT).getLsbD 63 = false → (∀ v ∈ vs, v.reg ≠ some (.sys rINJECT)) →
      c.landInjected vs = { c with regs := vs.foldl (fun r v => r.land v) c.regs,
                                   pend := c.pend.filter fun w => !(vs.any fun v => w.val.reg.isSome && w.val.reg == v.reg) }) ∧
    ((s.core k).array = none → (s.core k).clearing = none → (s.core k).arrayAt ≤ s.now → (∀ m ∈ (s.core k).calls, s.resumes k m = false) →
      (∀ x, (s.core k).nextCommand = some x → (s.core k).eligible s.now x = true →
        (∀ r p, x.op = .call r p → Goes s (.matrixCommandStart k) fun t =>
          (t.core k).array = some x.bank ∧ (∃ m, (t.core k).calls = (s.core k).calls ++ [m] ∧ m.cmd = x ∧ m.pc = 0 ∧ m.km = 15 ∧ m.curA = none ∧ m.curB = none) ∧
            (t.core k).mq = (s.core k).mq.erase x) ∧
        (x.op = .zero ∨ x.op = .clear → Goes s (.matrixCommandStart k) fun t =>
          (t.core k).clearing = some (x.bank, x.op == .zero, s.now + 8) ∧ (t.core k).mq = (s.core k).mq.erase x))) ∧
    (∀ (m : MatrixCall) (t : MacTerms) (ts : List MacTerms), (s.core k).callOf a = some m → m.macs = t :: ts → t.land ≤ s.now →
      (m.ended = none ∨ ts ≠ [] → Goes s (.macLand k a.val) fun u => (u.core k).banks[a] = ((s.core k).banks[a]).accumulate m.param t ∧
        (u.core k).callOf a = some { m with macs := ts }) ∧
      (∀ e, m.ended = some e → e < s.now → ts = [] → Goes s (.macLand k a.val) fun u => (u.core k).callOf a = none ∧
        (u.core k).banks[a].calln = (s.core k).banks[a].calln + 1 ∧ (u.core k).banks[a].lrtn = m.routine ∧
        ((s.core k).mq = [] → (u.core k).banks[a].state = .live))) ∧
    (∀ (z : Bool) (e : Nat), (s.core k).clearing = some (a, z, e) → e ≤ s.now →
      Goes s (.clearComplete k a.val) fun t => (t.core k).banks[a].cells = [] ∧ (t.core k).banks[a].owner = (s.core k).banks[a].owner ∧
        (t.core k).banks[a].held = [] ∧ (t.core k).clearing = none ∧ ((s.core k).mq = [] → (t.core k).banks[a].state = .empty))

/-- On a binding that is BOUND with the role they need: racq acquires once the producer's next slot is FREE and waits before; rpub and reos
defer the publish of the slot and move PQ on, reos once the slot is FREE; rwait acquires once the consumer's next slot is FULL for it, waits
before, and raises ILLOP where the region itself has published it; rrel defers the release and moves CQ on; rmask defers the new mask, one
that breaks the layout raising RINGERR. Another role, a slot held or not held, and a register that is UNBOUND or STALE raise RINGERR. rstat
returns its items. rcfg of a valid descriptor whose steps the core holds binds the register with the descriptor and its roles: with init in
the entry's next epoch, the entry's initialisation deferred; without init to the entry as it stands, at its oldest slot, once the context's
own effects on the ring have taken place (that wait is the model's choice, log 52). rcfg traps: ALIGN for its descriptor's address, ILLOP
for both consuming roles or a bad descriptor, RINGERR for a role that the entry does not give or an entry that is not there. (08_ring.md
R186, R187, R191; 08_ring.md R194 to R198, R204) -/
def Obligations.RingForms : Prop :=
  ∀ (s : State) (n : Fin 16) (a : Src) (d : SReg) (item : Fin 7),
    let r := s.rb n
    let k := s.issue.core
    let set := fun (t : State) (x : RingReg) => t.modCur fun c => { c with rings := c.rings.set n x }
    let acquired := s.acquire k s.issue.slot .sheaf
    (s.bindState k s.issue.slot r = .bound →
      (r.p = true → r.pcur = false → s.slotFree r = true → exec (.racq n) s = .next (set acquired { r with pcur := true })) ∧
      (r.p = true → r.pcur = false → s.slotFree r = false → exec (.racq n) s = .next s.wait ∧ exec (.reos n) s = .next s.wait) ∧
      (r.p = true → r.pcur = true →
        exec (.rpub n) s = .next (set (s.defer (.publish n r.pq r.epoch r.desc.rid false)) { r with pq := r.pq + 1, pcur := false })) ∧
      (r.p = true → r.pcur = false → s.slotFree r = true →
        exec (.reos n) s = .next (set (s.defer (.publish n r.pq r.epoch r.desc.rid true)) { r with pq := r.pq + 1 })) ∧
      (r.c = true → r.ccur = false → s.cur.region.publishes r.desc.rid r.cq = true → exec (.rwait n) s = .next s.illop) ∧
      (r.c = true → r.ccur = false → s.cur.region.publishes r.desc.rid r.cq = false →
        ((s.entryOf r).fullFor s.now r.cq (meBit k s.issue.slot) = true → exec (.rwait n) s = .next (set acquired { r with ccur := true })) ∧
        ((s.entryOf r).fullFor s.now r.cq (meBit k s.issue.slot) = false → exec (.rwait n) s = .next s.wait)) ∧
      (r.c = true → r.ccur = true →
        exec (.rrel n) s = .next (set (s.defer (.release n r.cq r.epoch r.desc.rid)) { r with cq := r.cq + 1, ccur := false })) ∧
      (r.desc.maskOk k ((s.src a).setWidth 32) = true → exec (.rmask n a) s = .next (s.defer (.mask n r.epoch r.desc.rid ((s.src a).setWidth 32)))) ∧
      (r.desc.maskOk k ((s.src a).setWidth 32) = false → exec (.rmask n a) s = .next (s.ringErr n)) ∧
      (r.p = false ∨ r.pcur = true → exec (.racq n) s = .next (s.ringErr n) ∧ exec (.reos n) s = .next (s.ringErr n)) ∧
      (r.p = false ∨ r.pcur = false → exec (.rpub n) s = .next (s.ringErr n)) ∧
      (r.c = false ∨ r.ccur = true → exec (.rwait n) s = .next (s.ringErr n)) ∧
      (r.c = false ∨ r.ccur = false → exec (.rrel n) s = .next (s.ringErr n))) ∧
    (s.bindState k s.issue.slot r ≠ .bound →
      ∀ i ∈ [Instr.racq n, .rpub n, .rwait n, .rrel n, .reos n, .rmask n a], exec i s = .next (s.ringErr n)) ∧
    (r.state ≠ .bound → s.bindState k s.issue.slot r ≠ .bound) ∧
    FliesS s (.rstat n d item) .other d (fun v => v = s.ringItem r item) ∧
    (let e := s.entryOf r
     let x := s.ringItem r 0
     x.extractLsb' 10 6 = BitVec.ofNat 6 r.desc.rid.val ∧ x.getLsbD 9 = (r.ccur && (e.slot r.cq).err) ∧ x.getLsbD 8 = (r.ccur && (e.slot r.cq).eos) ∧
     x.getLsbD 7 = r.ccur ∧ x.getLsbD 6 = r.pcur ∧ x.getLsbD 5 = r.e ∧ x.getLsbD 4 = r.c ∧ x.getLsbD 3 = r.p ∧ x.getLsbD 2 = r.desc.mcast ∧
     (x.extractLsb' 0 2).toNat = (s.bindState k s.issue.slot r).code ∧
     s.ringItem r 1 = BitVec.ofNat 64 (r.desc.slotAddr r.pq) ∧ s.ringItem r 2 = BitVec.ofNat 64 (r.desc.slotAddr r.cq) ∧
     s.ringItem r 3 = r.pq.setWidth 64 ∧ s.ringItem r 4 = r.cq.setWidth 64 ∧ s.ringItem r 5 = r.eq.setWidth 64 ∧
     (r.state ≠ .unbound → s.ringItem r 6 = BitVec.ofNat 64 e.freeCount)) ∧
    (∀ (i p : Bool), exec (.rcfg n a i p true true) s = .next s.illop) ∧
    (∀ (i p c e : Bool), (c && e) = false → (s.src a).toNat % 32 ≠ 0 →
      exec (.rcfg n a i p c e) s = .next (s.raise cALIGN (info47 s.issue.index (s.src a)))) ∧
    (∀ (ws : List Word) (t : State) (i p c e : Bool), (c && e) = false → (s.src a).toNat % 32 = 0 → s.readTable (s.src a) 32 4 = (.ok ws, t) →
      let desc := RingDesc.ofNat (wordsNat ws)
      let y := t.ringEntry (sheafOf t.issue.core) desc.rid.val
      let mask := if i then desc.cmask else y.cmask
      let refused := (p = true ∧ (i = false ∨ desc.prod = true)) ∨
        ((c = true ∨ e = true) ∧ (desc.cons = true ∨ mask.getLsbD (meBit t.issue.core t.issue.slot) = false)) ∨
        (i = false ∧ (y.ready = false ∨ { y.desc with cmask := desc.cmask } ≠ desc))
      let waits := i = false ∧ ∃ x ∈ t.cur.effectsOut, x.ring = some desc.rid
      (desc.valid (wordsNat ws) t.issue.core = false → exec (.rcfg n a i p c e) s = .next (t.badTable (s.src a))) ∧
      (desc.valid (wordsNat ws) t.issue.core = true → (∀ x ∈ desc.steps, t.myCore.stepAccess x = .go) →
        (waits → exec (.rcfg n a i p c e) s = .next t.wait) ∧
        (¬waits → refused → exec (.rcfg n a i p c e) s = .next (t.ringErr n)) ∧
        (¬waits → ¬refused → Goes s (.rcfg n a i p c e) fun u =>
          let q := u.rb n
          let start := if i then 0 else y.oldest
          q.desc = { desc with cmask := mask } ∧ q.state = .bound ∧ q.p = p ∧ q.c = c ∧ q.e = e ∧ q.pq = 0 ∧ q.cq = start ∧ q.eq = start ∧
          q.pcur = false ∧ q.ccur = false ∧ q.core = t.issue.core ∧ q.epoch = (if i then y.epoch + 1 else y.epoch) ∧
          u.cur.region.deferred = t.cur.region.deferred ++ (if i then [.init n desc p] else []))))

/-- The hand-off of a publish or release of a slot is first a release at SHEAF scope; with the entry as it stands then, a publish in its epoch
makes the FREE slot FULL with its tag, the ring's mask pending, and advances NEXT, visibly from two cycles on; a consumer's release clears
its bit, and with the last bit the slot is FREE again, visibly from two cycles on; a release of a slot that is not FULL, or without its bit
set, changes nothing. Other slots stay as they are. (08_ring.md R185, R189, R190, R195, R196, R200, R201, R456; 10_line.md R230;
12_region.md R274) -/
def Obligations.RingLifecycle : Prop :=
  ∀ (s : State) (k : Nat) (j : Fin 4) (rb : Fin 16) (q : BitVec 32) (epoch : BitVec 8) (rid : Fin 64) (rest : List Handed),
    let h := sheafOf k
    let z := (s.modCtx k j fun c => { c with outbox := rest }).release k .sheaf
    let e := z.ringEntry h rid.val
    e.ready = true → e.epoch = epoch → (s.ctxAt k j).returning = false → (s.ctxAt k j).pushesOut = false →
    (∀ eos, (s.ctxAt k j).outbox = .effect (.publish rb q epoch rid eos) :: rest → e.desc.mcast = false → e.desc.cons = false → e.cmask ≠ 0 →
      (e.slot q).state = .free →
      Goes s (.deferredEffectHandoff k j.val) fun t =>
        let y := t.ringEntry h rid.val
        (y.slot q).state = .full ∧ (y.slot q).tag = q ∧ (y.slot q).pending = e.cmask ∧ (y.slot q).eos = eos ∧ (y.slot q).err = false ∧
        (y.slot q).visible = z.now + 2 ∧ y.next = e.next + 1 ∧ (t.ctxAt k j).outbox = (z.ctxAt k j).outbox ∧
        (∀ q', e.desc.index q' ≠ e.desc.index q → y.slot q' = e.slot q')) ∧
    ((s.ctxAt k j).outbox = .effect (.release rb q epoch rid) :: rest →
      ((e.slot q).state = .full → (e.slot q).pending.getLsbD (meBit k j) = true →
        Goes s (.deferredEffectHandoff k j.val) fun t =>
          let y := t.ringEntry h rid.val
          let left := (e.slot q).pending &&& ~~~ (1#32 <<< meBit k j)
          (left = 0 → (e.slot q).gpend = false → (y.slot q).state = .free ∧ (y.slot q).visible = z.now + 2) ∧
          (left ≠ 0 → (y.slot q).state = .full ∧ (y.slot q).pending = left ∧ (y.slot q).tag = (e.slot q).tag) ∧ y.next = e.next ∧
          (∀ q', e.desc.index q' ≠ e.desc.index q → y.slot q' = e.slot q')) ∧
      ((e.slot q).state ≠ .full ∨ (e.slot q).pending.getLsbD (meBit k j) = false →
        Goes s (.deferredEffectHandoff k j.val) fun t => t.ringEntry h rid.val = e))

/-- An engine command whose block can be read and is valid, and whose handles are good, is deferred to its region's commit with its token,
flags, scope, issuer and the block as read, the Crib meeting the read of its handles. A bad block of a memory command or exchange raises
ILLOP, a bad handle of a copy, gather or scatter HANDLE; esubs and ecoll leave the block's faults to the token. ehalo and ered need LEVEL
SYS. (That a COUNT, an IDX, a LEN or an unused field out of its range raises ILLOP here, and that an indexed operand's handle is checked for
an extent of 0 bytes, is the model's choice, log 11.) (08_ring.md R202, R203; 10_line.md R239; 11_page.md R257, R261; 20_link.md R396 to
R398) -/
def Obligations.EngineForms : Prop :=
  ∀ (s t : State) (c : Src) (b : List Word) (a l : Bool) (x : Scope) (tok : Fin 64),
    s.readTable (s.src c) 64 8 = (.ok b, t) →
    let sends := fun (kind : CmdKind) (y : Scope) => t.sendEngine kind tok a l y b
    let met := (t.meetHandle t.cur.kid (cbSrc b) (cbSh b)).meetHandle t.cur.kid (cbDst b) (cbDh b)
    let copies := fun (kind : CmdKind) => met.sendEngine kind tok a l x b
    let good := fun (src dst : Nat) => (cbSh b = true → t.handleBad t.cur.kid (cbSrc b) src false = false) ∧ (cbDh b = true → t.handleBad t.cur.kid (cbDst b) dst true = false)
    (copyBlockBad b = false → cbCount b = 0 → cbIdx b = 0 →
      (good (cbLen b) (cbLen b) → exec (.ecopy a l x c tok) s = .next (copies .copy)) ∧
      (¬good (cbLen b) (cbLen b) → exec (.ecopy a l x c tok) s = .next (t.raise47 cHANDLE))) ∧
    (copyBlockBad b = false → indexBad b = false →
      (good 0 (cbCount b * cbLen b) → exec (.egath a l x c tok) s = .next (copies .gath)) ∧
      (¬good 0 (cbCount b * cbLen b) → exec (.egath a l x c tok) s = .next (t.raise47 cHANDLE)) ∧
      (good (cbCount b * cbLen b) 0 → exec (.escat a l x c tok) s = .next (copies .scat)) ∧
      (¬good (cbCount b * cbLen b) 0 → exec (.escat a l x c tok) s = .next (t.raise47 cHANDLE))) ∧
    (pagesBad b = false → exec (.eckpt a l x c tok) s = .next (sends .ckpt x) ∧ exec (.erolb a l x c tok) s = .next (sends .rolb x)) ∧
    exec (.esubs a l x c tok) s = .next (sends .subs x) ∧ exec (.ecoll a l x c tok) s = .next (sends .coll x) ∧
    (copyBlockBad b = true ∨ cbCount b ≠ 0 ∨ cbIdx b ≠ 0 → exec (.ecopy a l x c tok) s = .next t.illop) ∧
    (copyBlockBad b = true ∨ indexBad b = true → exec (.egath a l x c tok) s = .next t.illop ∧ exec (.escat a l x c tok) s = .next t.illop) ∧
    (pagesBad b = true → exec (.eckpt a l x c tok) s = .next t.illop ∧ exec (.erolb a l x c tok) s = .next t.illop) ∧
    (s.levelSys = true → haloBad b = false → exec (.ehalo a l c tok) s = .next (sends .halo .sys)) ∧
    (s.levelSys = true → haloBad b = true → exec (.ehalo a l c tok) s = .next t.illop) ∧
    (s.levelSys = true → reduceBad b = false → exec (.ered a l c tok) s = .next (sends .red .sys)) ∧
    (s.levelSys = true → reduceBad b = true → exec (.ered a l c tok) s = .next t.illop) ∧
    (s.levelSys = false → exec (.ehalo a l c tok) s = .next s.illop ∧ exec (.ered a l c tok) s = .next s.illop) ∧
    (∀ (kind : CmdKind) (y : Scope) (v : State), (v.sendEngine kind tok a l y b).cur.region.deferred = v.cur.region.deferred ++ [.engine ⟨kind, tok, a, l, y, v.cur.kid, v.cur.super,
      (match v.cur.member with | some m => if m.dup then some (m.field, m.run) else none | none => none), b, 0⟩])

/-- exit reads its list of at most four addresses and closes the region with them; an entry that is not 128-byte aligned or beyond 56 bits
raises ILLOP. tid gives the member's index, tparm a parameter word, an address that is not a word's trapping, qstat the queue's status. enq
at supervisor level of a valid launch block in state WRITTEN arms it while JOIN is not 0, and else enters it into its queue and waits until
it is taken, a queue that cannot open raising ILLOP; a block in a later state stays as it is; an invalid block raises ILLOP, one in the Loft
window PPROT. In user mode enq raises PRIV. (09_storage.md R457; 13_context.md R288; 14_kernel.md R309, R319 to R321; 15_queue.md R329) -/
def Obligations.TaskForms : Prop :=
  ∀ (s : State) (a : Src) (n : Fin 5) (d : SReg) (j q : Fin 64),
    (∀ (ws : List Word) (t : State), s.readTable (s.src a) 8 n.val = (.ok ws, t) →
      (ws.any badEntry = false → exec (.exit a n) s = .next (t.modCur fun c => { c with closing := some (.exit (ws.map BitVec.toNat)) })) ∧
      (ws.any badEntry = true → exec (.exit a n) s = .next t.illop)) ∧
    (∀ m, s.cur.member = some m →
      GivesS s (.tid d) d 1 (fun v => v.toNat = m.index.toNat) ∧
      (∀ (bs : List Byte) (loft : Bool) (t : State), m.parm.toNat % 8 = 0 → m.parm.toNat + 8 * j.val < 2 ^ 56 →
        s.readVa (m.parm.toNat + 8 * j.val) 8 0 = (.ok bs loft, t) → exec (.tparm d j) s = .next (t.flyS .load d (BitVec.ofNat 64 (leNat bs)) 1)) ∧
      (∀ v, s.badAddress (BitVec.ofNat 64 (m.parm.toNat + 8 * j.val)) 8 0 = some v → exec (.tparm d j) s = .next (s.raise v.cause v.info))) ∧
    FliesS s (.qstat d q) .other d (fun v => v = s.queueWord (fieldOf s.issue.core) q) ∧
    (s.cur.super = false → exec (.enq q a) s = .next (s.raise cPRIV s.slotInfo)) ∧
    (∀ (ws : List Word) (t : State), s.cur.super = true → s.asked = none → (s.src a).toNat < loftBase →
      s.readTable (s.src a) 128 16 = (.ok ws, t) →
      (lbInvalid ws = true ∨ 9 < lbStateCode ws → exec (.enq q a) s = .next t.illop) ∧
      (lbInvalid ws = false → lbStateCode ws ≤ 9 →
        (t.cur.unperformed = true → exec (.enq q a) s = .next t.wait) ∧
        (∀ (u : State) (p : Trans) (old : Word), t.cur.unperformed = false →
          t.locate .write ((s.src a).toNat + 80) 0 3 = (.ok p, u) → u.lineError p = none →
          let v := (u.releaseMine .pkg).acquireMine .pkg
          let put := fun (x : State) (w : Word) => x.writeHome p (byteMask (p.addr % 64) 8) (placeBytes (p.addr % 64) (leBytes 8 w.toNat))
          old = BitVec.ofNat 64 (leNat (((lineBytes (v.readHome p)).drop (p.addr % 64)).take 8)) →
          (wordState old = 0 → wordJoin old ≠ 0 → ∃ w : Word, wordState w = 1 ∧ wordJoin w = wordJoin old ∧ w.toNat / 2 ^ 32 % 64 = q.val ∧
            exec (.enq q a) s = .next (put v w)) ∧
          (wordState old = 0 → wordJoin old = 0 →
            (v.openQueue (lbQf ws) q = none → exec (.enq q a) s = .next v.illop) ∧
            (∀ x, v.openQueue (lbQf ws) q = some x → ∃ w : Word, wordState w = 2 ∧ wordJoin w = 0 ∧
              exec (.enq q a) s = .next ((put x w).arrive (lbWith ws w) (s.src a).toNat x.cur.kid q (.enq x.issue.core x.issue.slot x.serial)).ask.wait)) ∧
          (0 < wordState old → wordState old ≤ 9 → exec (.enq q a) s = .next v)))) ∧
    (s.cur.super = true → s.asked = none → (s.src a).toNat % 128 = 0 → loftBase ≤ (s.src a).toNat → (s.src a).toNat < 2 ^ 56 →
      exec (.enq q a) s = .next (s.raise cPPROT (info249 0 0 (s.src a).toNat))) ∧
    (s.cur.super = true → s.asked = some true → exec (.enq q a) s = .next (s.acquire s.issue.core s.issue.slot .pkg)) ∧
    (s.cur.super = true → s.asked = some false → exec (.enq q a) s = .next s.wait)

/-- srd reads the core's copy of a step register. swr of a register from 4 on, with SWREN set, hands its value to the Step Sequencer, its
block's read meeting the Crib, and waits; it goes on once every copy holds the value; without SWREN or below 4 it raises ILLOP. tmark and
rrec are deferred to the commit, the seventeenth of a region raising REGOVF; rrec needs the address of the member's own keyed launch block
and else raises ILLOP; rprobe of a launch block returns the probe's word; rgate invalidates the key's entry, if there is one; for both an
invalid block raises ILLOP and one in the Loft window PPROT. mmrd reads MAXMAG and mmclr clears it at issue. (09_storage.md R457; 18_step.md
R358, R370; 19_reuse.md R383 to R387) -/
def Obligations.StepAndReuseForms : Prop :=
  ∀ (s : State) (d : SReg) (a b : Src) (x : Fin 17),
    GivesS s (.srd d x) d 1 (fun v => v = s.myCore.step[x]) ∧
    (s.asked = some true → exec (.swr a x) s = .next s) ∧ (s.asked = some false → exec (.swr a x) s = .next s.wait) ∧
    (s.asked = none → 4 ≤ x.val → s.swren = true → exec (.swr a x) s = .next
      (({ s with ssq := { s.ssq with asks := s.ssq.asks ++ [⟨s.issue.core, s.issue.slot, s.serial, x, stepValue x (s.src a)⟩] } } : State).meetPhys
        (s.ssqBlock 33) 1).ask.wait) ∧
    (∀ v : State, v.ask.wait.issue.outcome = .wait ∧ (v.asked = none → v.ask.wait.asked = some false)) ∧
    (s.asked = none → x.val < 4 ∨ s.swren = false → exec (.swr a x) s = .next s.illop) ∧
    ((s.src a).toNat < 2 ^ 20 →
      (s.cur.region.marks < 16 → Goes s (.tmark a b) fun t => t.cur.region.marks = s.cur.region.marks + 1 ∧
        t.cur.region.deferred = s.cur.region.deferred ++ [.tmark ((s.src a).setWidth 20) ((s.src b).setWidth 32) ((s.src b).getLsbD 32)] ∧ OnlyCur s t) ∧
      (16 ≤ s.cur.region.marks → exec (.tmark a b) s = .next (s.raise cREGOVF s.slotInfo))) ∧
    (2 ^ 20 ≤ (s.src a).toNat → exec (.tmark a b) s = .next s.illop) ∧
    (∀ m, s.cur.member = some m →
      ((s.src a).toNat = m.lb → m.key.isSome = true → s.cur.region.marks < 16 → Goes s (.rrec a) fun t =>
        t.cur.region.deferred = s.cur.region.deferred ++ [.rrec m.lb m.kid] ∧ t.cur.region.marks = s.cur.region.marks + 1 ∧ OnlyCur s t) ∧
      ((s.src a).toNat = m.lb → m.key.isSome = true → 16 ≤ s.cur.region.marks → exec (.rrec a) s = .next (s.raise cREGOVF s.slotInfo)) ∧
      ((s.src a).toNat ≠ m.lb ∨ m.key = none → exec (.rrec a) s = .next s.illop)) ∧
    ((s.src a).toNat % 128 = 0 → loftBase ≤ (s.src a).toNat → (s.src a).toNat < 2 ^ 56 →
      exec (.rprobe d a) s = .next (s.raise cPPROT (info249 0 0 (s.src a).toNat)) ∧ exec (.rgate a) s = .next (s.raise cPPROT (info249 0 0 (s.src a).toNat))) ∧
    (∀ (ws : List Word) (t : State), (s.src a).toNat < loftBase → s.readTable (s.src a) 128 16 = (.ok ws, t) →
      (lbInvalid ws = false →
        exec (.rprobe d a) s = .next (t.flyS .other d (t.probeWord ws) 1) ∧
        (t.keyWay (lbQf ws) (lbKey ws) = none → exec (.rgate a) s = .next t) ∧
        (∀ w, t.keyWay (lbQf ws) (lbKey ws) = some w → exec (.rgate a) s = .next (t.reuseDisplace (lbQf ws) (reuseSet (lbKey ws)) w))) ∧
      (lbInvalid ws = true → exec (.rprobe d a) s = .next t.illop ∧ exec (.rgate a) s = .next t.illop)) ∧
    GivesS s (.mmrd d) d 1 (fun v => v = s.getSys rMAXMAG) ∧ exec .mmclr s = .next (s.put (.sys rMAXMAG 0) 0)

/-- gpost to an enabled queue of the context's KID defers the packet as read to the commit; gwait waits for a PENDING token of the queue, goes
on at an IDLE one, on a packet completed OK acquires at HOST scope, and ends as the packet did otherwise; it raises ILLOP for a token of
another command and for one that the region's own gpost names; gstat returns the queue's word or a token's code; gpre sends the guest a
request of its own to give the queue back and waits for its answer (that each gpre has its own request is the model's choice, log 45), and
does nothing on a queue that is disabled or PAUSED. A quarantined socket raises GUEST with the breach code; another KID raises PPROT with
the TRAPINFO of R47 (this TRAPINFO and the order of the checks are the model's choice, log 46). The Crib meets the reads of the queue's
descriptor. (20_link.md R400, R402, R403, R405) -/
def Obligations.GuestForms : Prop :=
  ∀ (s : State) (q : Fin 8) (a : Src) (d : SReg) (t : Fin 64),
    let w := s.guestWords q
    let x := s.cur.tokens[t]
    let m := s.meetGuest q
    (∀ code, s.guest.breach = some code →
      exec (.gpost q a t) s = .next (s.raise cGUEST (code.setWidth 64)) ∧ exec (.gpre q) s = .next (s.raise cGUEST (code.setWidth 64))) ∧
    (s.guest.breach = none →
      (gqEn w = false ∨ gqKid w ≠ s.cur.kid → exec (.gpost q a t) s = .next (s.raise cPPROT s.slotInfo)) ∧
      (∀ (ws : List Word) (u : State), gqEn w = true → gqKid w = s.cur.kid → m.readTable (s.src a) 64 8 = (.ok ws, u) →
        exec (.gpost q a t) s = .next (u.defer (.guest ⟨q, t, u.cur.kid, ws⟩))) ∧
      (gqKid w ≠ s.cur.kid → s.cur.super = false → exec (.gpre q) s = .next (s.raise cPPROT s.slotInfo)) ∧
      (gqKid w = s.cur.kid ∨ s.cur.super = true →
        (s.asked = some true → exec (.gpre q) s = .next s) ∧ (s.asked = some false → exec (.gpre q) s = .next s.wait) ∧
        (s.asked = none → gqEn w = false ∨ (s.guestQueue q).paused = true → exec (.gpre q) s = .next m) ∧
        (s.asked = none → gqEn w = true → (s.guestQueue q).paused = false → Goes s (.gpre q) fun u =>
          (u.guestQueue q).gpre = (m.guestQueue q).gpre ++ [⟨s.now, (m.guestQueue q).posted, s.issue.core, s.issue.slot, s.serial⟩] ∧
          u.issue.outcome = .wait ∧ (m.asked = none → u.asked = some false)))) ∧
    (s.cur.region.posts t = true → exec (.gwait q t) s = .next s.illop) ∧
    (s.cur.region.posts t = false →
      (x.state = .idle → exec (.gwait q t) s = .next s) ∧
      (x.kind = .guest q → x.state = .pending → exec (.gwait q t) s = .next s.wait) ∧
      (∀ v, x.kind = .guest q → x.state = .done .ok v → exec (.gwait q t) s = .next (s.acquire s.issue.core s.issue.slot .host)) ∧
      (∀ st v, x.kind = .guest q → x.state = .done st v → exec (.gwait q t) s = .next (s.finishToken x st v)) ∧
      (x.state ≠ .idle → x.kind ≠ .guest q → exec (.gwait q t) s = .next s.illop)) ∧
    (s.src a = 0 → exec (.gstat q a d) s = .next (m.flyS .other d (s.guestWord q) 1)) ∧
    (s.src a = BitVec.ofNat 64 (t.val + 1) → ∃ v : Word, exec (.gstat q a d) s = .next (s.drawn.flyS .other d v 1) ∧
      (x.state = .idle → v = 0) ∧ (x.state = .pending → v = 1) ∧ (∀ y, x.state = .done .ok y → v = 2) ∧ (∀ y, x.state = .done .saved y → v = 3) ∧
      (∀ y, x.state = .done .fault y → v = 4) ∧ (∀ y, x.state = .done .quar y → v = 5)) ∧
    (64 < (s.src a).toNat → exec (.gstat q a d) s = .next s.illop)

/-- chkeq and chkv go on where their operands are equal and raise DUPMIS otherwise, TRAPINFO holding code 1 or 2 above the bundle's address. sig
rotates SIGREG left by 7 bits and XORs its source in, sigrd reads it and sigclr clears it. trap and brk raise SYSCALL and BREAK with the
slot's code in TRAPINFO. rdsys reads a system register with latency 1. wrsys writes the five registers that user level may write, and wrsysp
at supervisor level every register but REGENT; the value keeps read-only fields and leaves reserved bits 0. lphase sets LREQ. A BC sets the
bundle's control fields. (21_yoke.md R412, R413; 02_bundle.md R26; 09_storage.md R209; 13_context.md R288 to R292, R297) -/
def Obligations.SystemForms : Prop :=
  (∀ (s : State) (a b : Src) (v w : Fin 16) (d : SReg),
    (s.src a = s.src b → exec (.chkeq a b) s = .next s) ∧
    (s.src a ≠ s.src b → exec (.chkeq a b) s = .next (s.raise cDUPMIS (BitVec.ofNat 64 (2 ^ 56 + s.issue.addr.toNat % 2 ^ 56)))) ∧
    (s.getV v = s.getV w → exec (.chkv v w) s = .next s) ∧
    (s.getV v ≠ s.getV w → exec (.chkv v w) s = .next (s.raise cDUPMIS (BitVec.ofNat 64 (2 * 2 ^ 56 + s.issue.addr.toNat % 2 ^ 56)))) ∧
    (∃ x : Word, exec (.sig a) s = .next (s.put (.sys rSIGREG x) 1) ∧
      ∀ i < 64, x.getLsbD i = ((s.cur.latestSys rSIGREG).getLsbD ((i + 57) % 64) != (s.src a).getLsbD i)) ∧
    GivesS s (.sigrd d) d 1 (fun x => x = s.getSys rSIGREG) ∧ exec .sigclr s = .next (s.put (.sys rSIGREG 0) 1)) ∧
  (∀ (s : State) (a : Src) (d : SReg) (r : Fin 20) (c : BitVec 12) (n : Fin 15) (st : BitVec 4) (y : Bool) (l : Fin 7) (rm : BitVec 2) (brk : Bool) (run : BitVec 11),
    let level := (match s.cur.member with | some m => m.level | none => (0 : BitVec 3))
    let written := s.put (.sys r (sysStore r (s.cur.latestSys r) (s.src a) level fun b => s.myCore.banks[b].owner == some s.issue.slot)) 1
    exec (.trap c) s = .next (s.raise cSYSCALL (c.setWidth 64)) ∧ exec (.brk c) s = .next (s.raise cBREAK (c.setWidth 64)) ∧
    GivesS s (.rdsys d r) d 1 (fun v => v = s.cur.regs.sys[r]) ∧
    (r ∈ [rSBCHK, rFPMODE, rFPFLAGS, rRNGSEED, rMAXMAG] → exec (.wrsys a r) s = .next written) ∧
    (r ∉ [rSBCHK, rFPMODE, rFPFLAGS, rRNGSEED, rMAXMAG] → exec (.wrsys a r) s = .next (s.raise cPRIV s.slotInfo)) ∧
    (s.cur.super = true → r ≠ rREGENT → exec (.wrsysp a r) s = .next written) ∧
    (s.cur.super = true → exec (.wrsysp a rREGENT) s = .next s.illop) ∧
    exec (.lphase n) s = .next (s.modCur fun x => { x with lreq := BitVec.ofNat 4 n.val }) ∧
    exec (.bc st y l rm brk run) s = .next { s with issue := { s.issue with stall := st, y := y, lend := l.val, rm := rm, brk := brk, run := run } } ∧
    (∀ (old v : Word) (o : Fin 4 → Bool) (lev : BitVec 3),
      sysStore rSBCHK old v lev o = v &&& 1 ∧ sysStore rTVEC old v lev o = v &&& 0x00FFFFFFFFFFFFFC ∧ sysStore rEPC old v lev o = v &&& 0x00FFFFFFFFFFFFFC ∧
      sysStore rREGENT old v lev o = old ∧ sysStore rKID old v lev o = v &&& 0xFF ∧ sysStore rCAUSE old v lev o = v &&& 0xFF ∧
      sysStore rTRAPINFO old v lev o = v ∧ sysStore rREGCNT old v lev o = v &&& 0xFF ∧ sysStore rREGLIM old v lev o = v &&& 0xFF ∧
      sysStore rFPFLAGS old v lev o = v &&& 0x1F ∧ sysStore rRNGSEED old v lev o = v ∧ sysStore rSIGREG old v lev o = v ∧
      sysStore rRANK old v lev o = v &&& 7 ∧ sysStore rSLICE old v lev o = v &&& 0x7FF ∧
      sysStore rSTATUS old v lev o = (old &&& 0xC1) ||| (v &&& 0x16) ∧
      (sysStore rPREBOUND old v lev o).toNat = (if v.toNat % 2 ^ 25 = 0 ∨ 2 ^ 24 < v.toNat % 2 ^ 25 then 2 ^ 24 else v.toNat % 2 ^ 25) ∧
      (sysStore rDOMAIN old v lev o).extractLsb' 3 40 = (old &&& 0x000007FF80007FF8).extractLsb' 3 40 ∧
      (sysStore rFPMODE old v lev o).toNat % 8 = (if 5 < v.toNat % 8 then 0 else v.toNat % 8)))

/-- Every privileged slot raises PRIV at user level. At supervisor level: rfe and halt close the region; ctxsave of another resident context
records the request with its two pages and its issuer, and the same request again changes nothing, as a ctxrest that is repeated (the order
of these rows is the model's choice, log 71); ctxrest of an image that its checks pass installs it in a FREE slot; mpld of a routine that
can be read and is well formed, its first word holding 1 to 32 (that LEN is the whole word is the model's choice, log 82), loads it once the
engine is idle, and waits before; tlbinv of a legal range drops its translations, raises ILLOP for another and PFAULT above 56 bits (the
model's choice, log 89); kidset, which waits where its KID has taken a later row of R252 in the cycle (log 90), makes a KID LIVE, and for
one that is LIVE already replaces its roots and drops its translations where the keys are kept; kidkill makes it DEAD, one that was LIVE
with its lines and translations dropped, one that was FREE with no other effect, and one that is DEAD already unchanged, and then waits for
the guest's acknowledgement of what it gives back (that it waits is the model's choice, log 44). (07_tile.md R179; 11_page.md R250, R252,
R255; 13_context.md R288, R296, R298, R300, R304) -/
def Obligations.Privileged : Prop :=
  ∀ (s : State) (a b : Src) (r : Fin 20) (q : Fin 64),
    (s.cur.super = false → ∀ i ∈ [Instr.rfe, .halt, .ctxsave a b, .ctxrest a b, .wrsysp a r, .mpld a b, .tlbinv a b, .kidset a b, .kidkill a, .enq q a],
      exec i s = .next (s.raise cPRIV s.slotInfo)) ∧
    (s.cur.super = true →
      exec .rfe s = .next (s.modCur fun c => { c with closing := some .rfe }) ∧
      exec .halt s = .next (s.modCur fun c => { c with closing := some .halt }) ∧
      (∀ (j : Fin 4) (t u : State) (p0 p1 : Trans), s.src b = BitVec.ofNat 64 j.val → (s.src a).toNat % 8192 = 0 → (s.src a).toNat + 4096 < loftBase →
        s.imagePage (s.src a).toNat = (.ok p0, t) → t.imagePage ((s.src a).toNat + 4096) = (.ok p1, u) →
        j ≠ u.issue.slot → (u.ctxAt u.issue.core j).state ∈ [SlotState.ready, .yielded, .stalled] →
        let last : LastImage := ⟨j, (s.src a).setWidth 56⟩
        ((u.core u.issue.core).lastSave = some last → exec (.ctxsave a b) s = .next u) ∧
        ((u.core u.issue.core).lastSave ≠ some last → (u.ctxAt u.issue.core j).save.isSome = true → exec (.ctxsave a b) s = .next u.illop) ∧
        ((u.core u.issue.core).lastSave ≠ some last → (u.ctxAt u.issue.core j).save = none →
          Goes s (.ctxsave a b) fun v => (v.ctxAt u.issue.core j).save = some ⟨p0, p1, none, u.cur.ident, (s.src a).toNat⟩ ∧ (v.core u.issue.core).lastSave = some last)) ∧
      (∀ (j : Fin 4) (t : State) (ws : List Word), s.src b = BitVec.ofNat 64 j.val → (s.src a).toNat < loftBase →
        s.readTable (s.src a) 8192 1024 = (.ok ws, t) →
        let x := t.unseal ws
        let last : LastImage := ⟨j, (s.src a).setWidth 56⟩
        ((t.ctxAt t.issue.core j).state = .free → imageOk ws = true → t.banksTaken t.issue.core j ws = false →
          Goes s (.ctxrest a b) fun v => (v.ctxAt t.issue.core j).state = .loading ∧ (v.ctxAt t.issue.core j).loadAt = t.now + 512 ∧
            (v.ctxAt t.issue.core j).tokens = x.tokens ∧ (v.ctxAt t.issue.core j).windrows = x.windrows ∧
            (∀ r : Fin 63, (v.ctxAt t.issue.core j).regs.s[r] = imageWord ws (0x40 + 8 * r.val)) ∧
            (v.core t.issue.core).lastRest = some last) ∧
        ((t.ctxAt t.issue.core j).state ≠ .free → (t.core t.issue.core).lastRest = some last → exec (.ctxrest a b) s = .next t) ∧
        ((t.ctxAt t.issue.core j).state ≠ .free → (t.core t.issue.core).lastRest ≠ some last → exec (.ctxrest a b) s = .next t.illop) ∧
        ((t.ctxAt t.issue.core j).state = .free → imageOk ws = false ∨ t.banksTaken t.issue.core j ws = true → exec (.ctxrest a b) s = .next t.illop)) ∧
      ((s.src b).toNat < 256 → s.engineIdle s.issue.core = false → exec (.mpld a b) s = .next s.wait) ∧
      (∀ (h : List Word) (t u : State) (bs : List Byte) (loft : Bool), (s.src b).toNat < 256 → s.engineIdle s.issue.core = true →
        s.readTable (s.src a) 64 1 = (.ok h, t) → 1 ≤ (wordAt h 0).toNat → (wordAt h 0).toNat ≤ 32 →
        t.readVa ((s.src a).toNat % 2 ^ 56 + 8) (2 * (wordAt h 0).toNat) 0 = (.ok bs loft, u) → routineOk (halves bs) = true →
        exec (.mpld a b) s = .next (u.modCore u.issue.core fun c => { c with store := tput c.store (s.src b).toNat (halves bs) })) ∧
      ((s.src a).toNat % 4096 = 0 → (s.src b).toNat < 2 ^ 32 → ((s.src b).toNat / 256 = 0 → s.src a = 0) →
        ((s.src a).toNat < 2 ^ 56 →
          exec (.tlbinv a b) s = .next (s.invalidate ⟨(s.src b).setWidth 8, (s.src a).toNat / 4096, (s.src b).toNat / 256⟩)) ∧
        (2 ^ 56 ≤ (s.src a).toNat → exec (.tlbinv a b) s = .next (s.raise cPFAULT (info249 0 0 (s.src a).toNat)))) ∧
      ((s.src a).toNat % 4096 ≠ 0 ∨ 2 ^ 32 ≤ (s.src b).toNat ∨ ((s.src b).toNat / 256 = 0 ∧ s.src a ≠ 0) →
        exec (.tlbinv a b) s = .next s.illop) ∧
      (∀ (r : PageRange) (k : Nat) (e : TlbEntry), k ∈ s.liveCores → e ∈ ((s.dropTlb r.drops).core k).tlb → r.drops e = false) ∧
      (∀ (w : List Word) (t : State), 0 < (s.src b).toNat → (s.src b).toNat < 256 → s.asked = none → s.readTable (s.src a) 64 8 = (.ok w, t) →
        let kid : BitVec 8 := (s.src b).setWidth 8
        let old := t.kidEntry kid
        let row := (kidObject kid, t.kidRow kid w)
        (kidInvalid w = true → exec (.kidset a b) s = .next t.illop) ∧
        (kidInvalid w = false → t.tooLate row = true → exec (.kidset a b) s = .next t.wait) ∧
        (kidInvalid w = false → t.tooLate row = false →
          (old.state ≠ .live → kdKeep w = false →
            Goes s (.kidset a b) fun v => let e := v.kidEntry kid
              e.state = .live ∧ e.root.toNat = recBits w 127 64 ∧ e.htab.toNat = recBits w 191 128 ∧ e.hcnt.toNat = recBits w 211 192 ∧
              e.key1 = kdKey1 w ∧ e.key2 = kdKey2 w) ∧
          (old.state ≠ .live → kdKeep w = true → exec (.kidset a b) s = .next (t.tookRow row).illop) ∧
          (old.state = .live → kdKeep w = true ∨ (old.key1 = kdKey1 w ∧ old.key2 = kdKey2 w) →
            let e : KidEntry := { old with
              root := BitVec.ofNat 64 (recBits w 127 64)
              htab := BitVec.ofNat 64 (recBits w 191 128)
              hcnt := BitVec.ofNat 20 (recBits w 211 192) }
            exec (.kidset a b) s = .next (((t.tookRow row).setKid kid e).invalidate ⟨kid, 0, 0⟩)) ∧
          (old.state = .live → kdKeep w = false → ¬(old.key1 = kdKey1 w ∧ old.key2 = kdKey2 w) → exec (.kidset a b) s = .next (t.tookRow row).illop))) ∧
      (0 < (s.src b).toNat → (s.src b).toNat < 256 → s.asked.isSome = true →
        exec (.kidset a b) s = .next (s.invalidate ⟨(s.src b).setWidth 8, 0, 0⟩)) ∧
      (0 < (s.src a).toNat → (s.src a).toNat < 256 →
        let kid : BitVec 8 := (s.src a).setWidth 8
        let v := s.endKid kid
        (s.asked = none → exec (.kidkill a) s = .next (if v.guestAcked then v else v.ask.wait)) ∧
        (s.asked.isSome = true → exec (.kidkill a) s = .next (if s.guestAcked then s else s.wait)) ∧
        (v.kidEntry kid).state = .dead ∧
        ((s.kidEntry kid).state = .live → (∀ k x, x ∈ (v.core k).l1 → k ∈ s.liveCores → x.kid ≠ kid) ∧
          (∀ k e, e ∈ (v.core k).tlb → k ∈ s.liveCores → e.kid ≠ kid)) ∧
        ((s.kidEntry kid).state = .free → v = (s.setKid kid { s.kidEntry kid with state := .dead }).tookRow (kidObject kid, 5)) ∧
        ((s.kidEntry kid).state = .dead → v = s)))

/-- SETR and STEP write their step registers, which every copy takes before the node ends; STEP raises STEP by one, reads the schedule's row
while steps are left and empties the launch list. COND goes to its target where the comparison holds and else to the next node. LAUNCH, once
RE's wait is over, re-arms the block where RE asks for it and enters it into its queue: a WRITTEN one with JOIN is armed and one without
sends its arrival and waits, any other is left as it is; then it appends to the launch list. WAITK ends once every entry has finished, and
waits before. POST writes its record or waits. FENCE ends at once and STOP stops. A cause met on the way faults the SSQ (DETAIL is the
node's address for a COND whose word cannot be read and the launch block's for a 1,025th LAUNCH: the model's reading, log 37; that FENCE
finds nothing to wait for is its choice, log 72). The Crib meets what a node reads. A doorbell with GO starts the SSQ at its first node, or
faults on a bad block or row; without GO it stops it. A waiting node is tried again; the standby takes over once from a running or waiting
SSQ, with the step registers of its own field's copy (the model's choice, log 39). (18_step.md R353 to R369) -/
def Obligations.Nodes : Prop :=
  ∀ (s : State) (q : Fin 64) (grp ring : Fin 16) (lb target : BitVec 56) (join gmask tag code : BitVec 16) (src breg : Bool) (r : Fin 17) (op : Fin 8)
    (mem b value : BitVec 64) (x : Scope),
    let z := s.ssq
    let n := (z.low 0 + 1) % 2 ^ 32
    (s.ssqNext.ssq = { z with last := z.cur, cur := z.cur + 32, state := .running, waiting := none, ending := none }) ∧
    exec (.nodeFence x) s = .next s.ssqNext ∧
    Goes s (.nodeStop code) (fun t => t.ssq.state = .stopped ∧ t.ssq.last = z.cur) ∧
    Goes s (.nodeSetr r value) (fun t => t.ssq.step = z.step.set r (stepValue r value) ∧ t.ssq.writes = [(r, stepValue r value)] ∧
      t.ssq.oldCores = List.range 320 ∧ t.ssq.oldFields = [0, 1, 2, 3] ∧ t.ssq.ending = some z.cur ∧ t.ssq.cur = z.cur + 32) ∧
    (z.low 1 ≤ n → Goes s .nodeStep fun t => t.ssq.writes = [(0, BitVec.ofNat 64 n)] ∧ t.ssq.launch = [] ∧ t.ssq.ending = some z.cur) ∧
    (∀ ws, n < z.low 1 → s.scheduleRow n = .ok ws → Goes s .nodeStep fun t => t.ssq.writes = (0, BitVec.ofNat 64 n) :: ws ∧ t.ssq.launch = [] ∧
      t.ssq.ending = some z.cur ∧ t.fields = (s.meetVa s.ssqWho (s.rowAddr n) 32).fields) ∧
    (∀ c a, n < z.low 1 → s.scheduleRow n = .error (c, a) → exec .nodeStep s = .next (s.ssqFault c a)) ∧
    (∀ y, (if src then s.vaWord s.ssqWho mem.toNat else .ok z.step[r]) = .ok y →
      let m := if src then s.meetVa s.ssqWho mem.toNat 8 else s
      exec (.nodeCond src r op breg mem b target) s =
        .next (m.nodeEnds m.ssq.cur (if condHolds op y (if breg then z.byNumber b.toNat else b) then target else m.ssq.cur + 32))) ∧
    (∀ (v : State) (x y : BitVec 56), (v.nodeEnds x y).ssq.last = x ∧ (v.nodeEnds x y).ssq.cur = y) ∧
    (∀ c a, src = true → s.vaWord s.ssqWho mem.toNat = .error (c, a) →
      exec (.nodeCond src r op breg mem b target) s = .next (s.ssqFault c z.cur.toNat)) ∧
    (∀ y c : Word, (condHolds 0 y c = true ↔ y = c) ∧ (condHolds 1 y c = true ↔ y ≠ c) ∧ (condHolds 2 y c = true ↔ y.toNat < c.toNat) ∧
      (condHolds 3 y c = true ↔ c.toNat ≤ y.toNat) ∧
      (let p := fp32.unpack (y.toNat % 2 ^ 32)
       let q := fp32.unpack (c.toNat % 2 ^ 32)
       (condHolds 4 y c = true ↔ p.isNan = false ∧ q.isNan = false ∧ fLess p q = true) ∧
       (condHolds 5 y c = true ↔ p.isNan = false ∧ q.isNan = false ∧ fLess p q = false)) ∧ (condHolds 6 y c = true ↔ ∀ i, (y.getLsbD i && c.getLsbD i) = false) ∧
      (condHolds 7 y c = true ↔ ∃ i, (y.getLsbD i && c.getLsbD i) = true)) ∧
    (let i := Instr.nodeLaunch q grp src lb join
     (∀ c a, s.vaWords s.ssqWho lb.toNat 16 = .error (c, a) → exec i s = .next (s.ssqFault c lb.toNat)) ∧
     (∀ ws, s.vaWords s.ssqWho lb.toNat 16 = .ok ws →
      let m := s.meetVa s.ssqWho lb.toNat 128
      let y := m.ssq
      let w0 := wordAt ws 10
      let w := if src = true ∧ wordState w0 ≠ 0 then joinWord w0 join.toNat 0 else w0
      (src = true → wordState w0 ∉ [0, 7, 8, 9] → exec i s = .next (m.ssqWait (.launch q grp src lb join))) ∧
      (src = true → wordState w0 = 9 → exec i s = .next (m.ssqFault (BitVec.ofNat 8 (recBits ws 671 664)) lb.toNat)) ∧
      (src = false ∨ wordState w0 ∈ [0, 7, 8] →
        (lbInvalid ws = true ∨ 9 < wordState w → exec i s = .next (m.ssqFault cILLOP lb.toNat)) ∧
        (lbInvalid ws = false → wordState w ≤ 9 →
          (1024 ≤ y.launch.length → exec i s = .next (m.ssqFault cILLOP lb.toNat)) ∧
          (y.launch.length < 1024 →
            (wordState w ≠ 0 → Goes s i fun t => t.ssq.launch = y.launch ++ [(lb, grp)] ∧ t.ssq.cur = y.cur + 32 ∧ t.ssq.state = .running) ∧
            (wordState w = 0 → wordJoin w ≠ 0 → ∃ w' : Word, wordState w' = 1 ∧ wordJoin w' = wordJoin w ∧ w'.toNat / 2 ^ 32 % 64 = q.val ∧
              (∀ v, m.vaWrite m.ssqWho (lb.toNat + lbWordOff) (leBytes 8 w'.toNat) = .ok v → exec i s = .next (v.launched grp lb)) ∧
              (∀ c a, m.vaWrite m.ssqWho (lb.toNat + lbWordOff) (leBytes 8 w'.toNat) = .error (c, a) → exec i s = .next (m.ssqFault c lb.toNat))) ∧
            (wordState w = 0 → wordJoin w = 0 → m.openQueue (lbQf ws) q = none → exec i s = .next (m.ssqFault cILLOP lb.toNat)) ∧
            (∀ u v, wordState w = 0 → wordJoin w = 0 → m.openQueue (lbQf ws) q = some u →
              u.vaWrite u.ssqWho (lb.toNat + lbWordOff) (leBytes 8 (joinWord w 0 2).toNat) = .ok v →
              Goes s i fun t => t.ssq.state = .waiting ∧ t.ssq.waiting = some (.arrival grp lb w0) ∧
                let f := lbQf (lbWith ws (joinWord w 0 2))
                ∃ a, (t.field f).arrivals = (v.field f).arrivals ++ [a] ∧ a.addr = lb.toNat ∧ a.queue = q)))))) ∧
    (∀ (w : Word) (jn st : Nat), jn < 2 ^ 16 → st < 16 → wordJoin (joinWord w jn st) = jn ∧ wordState (joinWord w jn st) = st) ∧
    (s.waitkTest gmask z.launch = .ok true → exec (.nodeWaitk gmask) s = .next (s.meetWaitk gmask).ssqNext) ∧
    (s.waitkTest gmask z.launch = .ok false → exec (.nodeWaitk gmask) s = .next ((s.meetWaitk gmask).ssqWait (.waitk gmask))) ∧
    (∀ c a, s.waitkTest gmask z.launch = .error (c, a) → exec (.nodeWaitk gmask) s = .next (s.ssqFault c a)) ∧
    (∀ ws, (if b = 0 then .ok (List.replicate 7 0) else s.vaWords s.ssqWho b.toNat 7) = .ok ws →
      let m := if b = 0 then s else s.meetVa s.ssqWho b.toNat 56
      (m.postWaits ring = false → exec (.nodePost ring tag b) s =
        .next (m.postEntry ring (BitVec.ofNat 64 (2 ^ 48 + tag.toNat * 2 ^ 32 + m.ssq.low 0) :: ws)).ssqNext) ∧
      (m.postWaits ring = true → exec (.nodePost ring tag b) s = .next (m.ssqWait (.post ring tag b)))) ∧
    (∀ c a, b ≠ 0 → s.vaWords s.ssqWho b.toNat 7 = .error (c, a) → exec (.nodePost ring tag b) s = .next (s.ssqFault c b.toNat)) ∧
    (let w := s.physWords s.config.sqblk 8
     let m := s.meetPhys s.config.sqblk 64
     let z := m.ssq
     s.granger.state = .ready → z.writes = [] →
      (recBits w 264 264 = 1 → z.state ≠ .running → z.state ≠ .waiting →
        (m.ssqBlockBad w = true → Goes s .ssqDoorbell fun t => t.ssq.state = .faulted) ∧
        (m.ssqBlockBad w = false →
          let x := ({ m with ssq := { z with cur := BitVec.ofNat 56 (recBits w 55 0), sched := BitVec.ofNat 56 (recBits w 119 64),
                                             kid := BitVec.ofNat 8 (recBits w 263 256), ending := none } } : State).ssqTo .running
          let more := decide (recBits w 191 160 < recBits w 159 128)
          (∀ ws, (if more then x.scheduleRow (recBits w 191 160) else .ok [(2, 0), (3, 0), (5, 0), (6, 0), (7, 0), (8, 0)]) = .ok ws →
            Goes s .ssqDoorbell fun t => t.ssq.state = .running ∧
              t.ssq.cur.toNat = recBits w 55 0 ∧ t.ssq.sched.toNat = recBits w 119 64 ∧ t.ssq.kid.toNat = recBits w 263 256 ∧ t.ssq.launch = [] ∧
              t.ssq.step[(0 : Fin 17)] = BitVec.ofNat 64 (recBits w 191 160) ∧ t.ssq.step[(1 : Fin 17)] = BitVec.ofNat 64 (recBits w 159 128) ∧
              t.ssq.step[(4 : Fin 17)] = BitVec.ofNat 64 (recBits w 255 192) ∧ (∀ r : Fin 17, 9 ≤ r.val → t.ssq.step[r] = 0) ∧
              t.ssq.writes.length = 11 + ws.length ∧ t.ssq.writes.drop 11 = ws) ∧
          (∀ c a, more = true → x.scheduleRow (recBits w 191 160) = .error (c, a) → Goes s .ssqDoorbell fun t => t.ssq.state = .faulted ∧
            t.ssq.launch = z.launch ∧ t.ssq.step[(0 : Fin 17)] = BitVec.ofNat 64 (recBits w 191 160)))) ∧
      (recBits w 264 264 = 1 → z.state = .running ∨ z.state = .waiting → exec .ssqDoorbell s = .next m) ∧
      (recBits w 264 264 = 0 → z.state = .running ∨ z.state = .waiting → Goes s .ssqDoorbell fun t => t.ssq.state = .stopped)) ∧
    (z.waiting = some (.waitk gmask) → exec .ssqWaitSatisfied s = exec (.nodeWaitk gmask) s) ∧
    (z.waiting = some (.launch q grp src lb join) → exec .ssqWaitSatisfied s = exec (.nodeLaunch q grp src lb join) s) ∧
    (z.waiting = some (.post ring tag b) → exec .ssqWaitSatisfied s = exec (.nodePost ring tag b) s) ∧
    (∀ w, z.waiting = some (.arrival grp lb w) → (∀ f < 4, ∀ a ∈ (s.field f).arrivals, a.sender = .ssq → a.addr ≠ lb.toNat) →
      Goes s .ssqWaitSatisfied fun t => t.ssq.launch = z.launch ++ [(lb, grp)] ∧ t.ssq.state = .running) ∧
    (z.state ≠ .running → z.state ≠ .waiting → exec .ssqTakeover s = .next s) ∧
    (∀ (v : State) (who : Who) (va n : Nat), (v.meetVa who va n).ssq = v.ssq ∧ (v.meetPhys va n).ssq = v.ssq ∧ (v.meetVa who va n).granger = v.granger) ∧
    (z.second = false → s.granger.state = .ready → z.state = .running ∨ z.state = .waiting → Goes s .ssqTakeover fun t => t.ssq.second = true ∧ t.ssq.state = .taken ∧
      t.ssq.step = (s.field 2).step ∧ t.ssq.writes = [])

/-- A bundle without a region marker or a yield point issues where fetch raised no trap and none of the waits and checks before its slots holds;
one that fetch found trapped traps, and so does one with BRK whose break is not suppressed; one with nothing active only moves pc. A core
without a running context takes the one that the selection names, after a bubble where another ran before. A STALLED context that would no
longer wait is YIELDED. A loaded member is READY at its prologue, or at its kernel with s61 zero; a restored context is YIELDED with a new
span (the model's choice, log 64). The PREBOUND count past its bound is noted. A closing bundle whose region can be accepted hands it off
and exits, returns or halts. A quiet boundary that holds restarts the count and the span. A context that has exited leaves a FREE slot once
its names and its tmarks have been applied; one that is in no launch block leaves at once (the model's choice, log 40); a member counts as
RETIRED in its copy's group with its SIGREG, and then its launch block, where it is held, faults with DUPMIS if the two copies of the member
differ, and is RETIRED if every member is, once a change over of shadow pages has been waited for. (02_bundle.md R27, R33, R35, R46;
12_region.md R273, R274, R281, R282; 13_context.md R285 to R287, R296, R299, R304; 14_kernel.md R313, R314, R316, R317, R319) -/
def Obligations.ContextEvents : Prop :=
  ∀ (s : State) (k : Nat) (j : Fin 4),
    let c := s.ctxAt k j
    let u := fun (f : Fetched) => (s.modCtx k j fun c => c.settle s.now).frameIssue k j f
    (∀ f, (s.core k).running = some j → s.issue.fetched = some f → c.state = .running → c.notBefore ≤ s.now → (s.core k).bubble ≤ s.now →
      c.quiet = false →
      (∀ v, f.trap = some v → Goes s (.bundleIssue k) fun t => t.issue.outcome = .trap ∧ t.issue.trapped = some v) ∧
      (∀ lend brk stall run, f.trap = none → bcFields f.slots = (lend, 0, brk, stall, false, run) →
        ((u f).nullified f.slots = true → Goes s (.bundleIssue k) fun t => (t.ctxAt k j).pc = c.pc + BitVec.ofNat 64 (4 * f.words) ∧ t.issue.go = false) ∧
        ((u f).nullified f.slots = false → (∀ i, c.lastIssue = some i → i + 1 + stall.toNat ≤ s.now) → (u f).mustWait f.slots = false →
          brk = true → (u f).cur.bsup = false → f.waits = false → c.signed = none →
          Goes s (.bundleIssue k) fun t => t.issue.outcome = .trap ∧ t.issue.trapped = some ⟨cBREAK, info47 0 c.pc⟩) ∧
        ((u f).nullified f.slots = false → (∀ i, c.lastIssue = some i → i + 1 + stall.toNat ≤ s.now) → (u f).mustWait f.slots = false →
          (brk = true → (u f).cur.bsup = true) → (u f).getSys rSBCHK ≠ 1 → lend.val ≤ c.loop.levels.length →
          c.preHit = false → c.running ≤ ((u f).getSys rPREBOUND).toNat → (u f).recorded f.slots = none → (u f).regill f.slots = none →
          Goes s (.bundleIssue k) fun t => t.issue.go = true ∧ t.issue.core = k ∧ t.issue.slot = j ∧ t.issue.addr = c.pc ∧ t.issue.loads = c.region.buffer))) ∧
    ((s.core k).running = none →
      (∀ x fallback, s.selectSlot k (s.candidates k) = some (x, fallback) → Goes s (.contextSelect k) fun t =>
        (t.core k).running = some x ∧ (t.ctxAt k x).state = .running ∧ (t.ctxAt k x).passed = 0 ∧ 
        (t.core k).bubble = (if (s.core k).ran = 0 ∨ (s.core k).ran = (s.ctxAt k x).ident then (s.core k).bubble else s.now + 1) ∧
        (∀ i ∈ s.candidates k, i ≠ x → (t.ctxAt k i).passed = (s.ctxAt k i).passed + 1)) ∧
      (s.candidates k = [j] → Goes s (.contextSelect k) fun t => (t.core k).running = some j)) ∧
    (c.state = .stalled → s.issue.outcome = .run → exec (.contextWake k j.val) s = .next (s.modCtx k j fun c => { c with state := .yielded })) ∧
    (c.state = .loading → c.loadAt ≤ s.now →
      (c.restore = false → c.pc ≠ 0 → Goes s (.contextLoadComplete k j.val) fun t => (t.ctxAt k j).state = .ready ∧ (t.ctxAt k j).pc = c.pc ∧
        (t.ctxAt k j).sysv rREGENT = c.pc ∧ (t.ctxAt k j).region.buffer = []) ∧
      (∀ m, c.restore = false → c.pc = 0 → c.member = some m → m.sect = .prologue → m.trip ≠ 0 → Goes s (.contextLoadComplete k j.val) fun t =>
        (t.ctxAt k j).state = .ready ∧ (t.ctxAt k j).pc = m.ker.setWidth 64 ∧ (t.ctxAt k j).regs.s[(61 : Fin 63)] = 0 ∧
        (t.ctxAt k j).regs.s[(62 : Fin 63)] = secEnd) ∧
      (c.restore = true → Goes s (.contextLoadComplete k j.val) fun t => (t.ctxAt k j).state = .yielded ∧ (t.ctxAt k j).pc = c.pc ∧
        (t.ctxAt k j).span.addr = c.pc ∧ (t.ctxAt k j).span.rewindable = true)) ∧
    (c.state = .running → (c.sysv rPREBOUND).toNat < c.running → exec (.preboundExpiry k j.val) s = .next (s.modCtx k j fun c => { c with preHit := true })) ∧
    (c.state = .closing → s.shadowDone k j = true → s.acceptReady k j = true → c.commitError = none →
      (∀ names, c.closing = some (.exit names) → Goes s (.regionCommitAccept k j.val) fun t =>
        (t.ctxAt k j).state = .exiting ∧ 
        (t.ctxAt k j).outbox = c.outbox ++ { c.region with deferred := numberFrom s.serial c.region.deferred }.handed ∧ (t.ctxAt k j).member = c.member.map fun m => { m with names := names }) ∧
      (c.closing = some .rfe → exec (.regionCommitAccept k j.val) s = .next ((s.accept k j).trapReturn k j)) ∧
      (c.closing = some .halt → exec (.regionCommitAccept k j.val) s = .next (((s.accept k j).modCtx k j fun c =>
        { c.settle (s.now + 1) with closing := none }).endFaulted k j)) ∧
      (c.closing = some .sectionEnd → exec (.regionCommitAccept k j.val) s = .next (((s.accept k j).modCtx k j fun c =>
        { c with state := .running, closing := none }).nextSection k j))) ∧
    (c.state = .running → c.quiet = true → s.quietTest k j = .boundary → c.save = none → Goes s (.quietBoundaryPass k j.val) fun t =>
      (t.ctxAt k j).quiet = false ∧ (t.ctxAt k j).running = 0 ∧ (t.ctxAt k j).preHit = false ∧ (t.ctxAt k j).span.addr = c.pc ∧
      (t.ctxAt k j).span.rewindable = true ∧ (t.ctxAt k j).pc = c.pc) ∧
    (c.state = .exiting → c.handedOff = true →
      (c.member = none → c.save = none → Goes s (.memberRetire k j.val) fun t => (t.ctxAt k j).state = .free ∧ (∀ i ≠ j, (t.ctxAt k i) = s.ctxAt k i) ∧
        ∀ b : Fin 4, (s.core k).banks[b].owner = some j → (t.core k).banks[b] = Bank.reset) ∧
      (∀ m, c.member = some m → m.names ≠ [] → Goes s (.memberRetire k j.val) fun t => (t.ctxAt k j).state = .exiting ∧
        (t.ctxAt k j).member = some { m with names := [] }) ∧
      (∀ m, c.member = some m → m.names = [] → c.save = none → s.namesPending m.field (.exit k j) = false → s.marksPending c.ident = false →
        s.findRun m.field m.run = none → Goes s (.memberRetire k j.val) fun t => (t.ctxAt k j).state = .free) ∧
      (∀ m, c.member = some m → m.names = [] → s.namesPending m.field (.exit k j) = false → s.marksPending c.ident = false →
        let u := ((s.cancelSave k j).freeSlot k j).modRun m.field m.run fun l =>
          l.modGroup m.twin fun g => g.retire (lbWidth l.words) m.index.toNat (c.sysv rSIGREG) l.remote
        (u.ctxAt k j).state = .free ∧
        ∀ lb, u.findRun m.field m.run = some lb →
          (lb.differs m.index.toNat = true → exec (.memberRetire k j.val) s = .next (u.kernelFault m.field m.run cDUPMIS 0)) ∧
          (lb.differs m.index.toNat = false → lb.finished = false → exec (.memberRetire k j.val) s = .next u) ∧
          (lb.differs m.index.toNat = false → lb.finished = true → exec (.memberRetire k j.val) s = .next (u.endRun m.field lb) ∧
            (lb.writeSet = [] → u.endRun m.field lb = u.retireRun m.field lb)))) ∧
    (∀ (g : Machine.Group) (n i : Nat) (sig : Word) (r : Bool), i ∈ (g.retire n i sig r).retired ∧ (i, sig) ∈ (g.retire n i sig r).sigs)

/-- The next plain store of a context performs, all of it or some of its granules, one with no earlier store to its line and no push that was
issued before it to one of its bytes still on its way; which granules perform together is free (log 76); one that is dropped where it
arrives, under a DEAD KID, in a quarantined guest's window or to a LOST line, is noted for its context, which meets it as the error of an
atomic (the model's choice, log 42); a release performs in its turn. An atomic executes after what precedes it, the base die's queued writes
to its line among it, and returns its old value to its register. A walk that succeeds is cached and one that fails is not. The copy that a
first write to a CLEAN page asked for is made once the drop of the page's translations is complete, the guest's acknowledgement among it
(what it waits for is the model's reading, log 44). A windrow with room reads ahead unless an atomic is out, its oldest fetch lands, each
granule as the fetch began or as it ends (one that a wset made too old begins anew), and a merge or a count ends with its result, an atomic
that is out apart. A Loft step that grows or shrinks ends with the step reading as zero and the other bytes as they were, a shrink only
above the rings' floor (that a shrink at the floor is given up is the model's choice, log 86). (06_windrow.md R138, R139, R151;
09_storage.md R210, R211, R218; 10_line.md R227, R230, R240 to R242; 11_page.md R248, R250, R255, R260; 21_yoke.md R411; 12_region.md R274) -/
def Obligations.AccessEvents : Prop :=
  ∀ (s : State) (k : Nat) (j : Fin 4) (w : Fin 16),
    let c := s.ctxAt k j
    (∀ e rest, c.returning = false → c.outbox = .store e :: rest → e.strl = none → ((firstOfLine [] (leadingStores c.outbox)).filter fun x => !x.behindPush c) = [] →
      exec (.storePerform k j.val) s = .next s) ∧
    (∀ e rest, c.returning = false → c.outbox = .store e :: rest → e.strl = none → ((firstOfLine [] (leadingStores c.outbox)).filter fun x => !x.behindPush c) ≠ [] →
      ∃ x ∈ firstOfLine [] (leadingStores c.outbox), x.behindPush c = false ∧ ∃ m,
      (m = x.mask ∨ ∃ g, m = x.mask &&& granuleMask g ∧ m ≠ 0) ∧ exec (.storePerform k j.val) s = .next (s.drawn.performStore k j x m) ∧
      (s.writeDropped x.target = none → s.drawn.performStore k j x m =
        ((s.drawn.modCtx k j fun c => { c.spent with outbox := takeBytes x m c.outbox }).writeLine k x.target m x.data)) ∧
      (x.target.place = .phys → (s.kidEntry x.target.kid).state = .dead → s.writeDropped x.target = some cKEYDEAD) ∧
      (∀ z, x.mask ≠ 0 → s.writeDropped x.target = some z →
        (s.drawn.performStore k j x m).mem = s.mem ∧ ((s.drawn.performStore k j x m).core k).l1 = (s.core k).l1 ∧
        ((s.drawn.performStore k j x m).ctxAt k j).atomicErr = c.atomicErr.or (some (0, s.storeTrap x z)))) ∧
    (∀ (x : StoreEntry) (y : HeldPush) (f : Flight) (p : Trans), f ∈ c.flights → f.id < x.after → f.push = some y → p ∈ y.places → p.place = x.target.place →
      (p.place = .phys → sameLine p x.target = true ∧ x.mask.getLsbD (p.addr % 64) = true) → x.behindPush c = true) ∧
    (∀ z rest, c.returning = false → c.pushesOut = false → c.outbox = .release z :: rest →
      exec (.storePerform k j.val) s = .next ((s.modCtx k j fun c => { c with outbox := rest }).release k z)) ∧
    (∀ a rest, c.outbox = .atomic a :: rest → c.pushesOut = false → c.returning = false →
      let u := (s.modCtx k j fun c => { c.spent with outbox := rest }).release k a.scope
      let waits := u.dieBusy a || (!u.inL1 a && u.linkWaits k a.target)
      (waits = true → exec (.atomicExecute k j.val) s = .next s) ∧
      (∀ old v, waits = false → u.atomicError a = none → u.runAtomic k a = (old, v) →
        exec (.atomicExecute k j.val) s = .next ((v.acquire k j a.scope).modCtx k j fun c => { c with atomics := (a.d, some old) :: c.atomics.drop 1 })) ∧
      (∀ x, waits = false → u.atomicError a = some x →
        exec (.atomicExecute k j.val) s = .next (u.modCtx k j fun c => { c with atomics := c.atomics.drop 1, atomicErr := some (a.d, x) }))) ∧
    (∀ d v rest, c.atomics = (d, some v) :: rest → (c.sysv rINJECT).getLsbD 63 = false → Goes s (.atomicReturn k j.val) fun t =>
      (t.ctxAt k j).atomics = rest ∧ (d ≠ 0 → (t.ctxAt k j).regs.s[d32 d] = v) ∧ (∀ i, i ≠ d32 d → (t.ctxAt k j).regs.s[i] = c.regs.s[i])) ∧
    (∀ (kid : BitVec 8) (va : Nat) (z : Bool), va < loftBase → (s.core k).translates kid = true → (s.kidEntry kid).state = .live →
      (∀ x, s.walk kid va = .error x → Goes s (.pageWalkComplete k kid.toNat va z) fun t => (t.core k).tlb = (s.core k).tlb) ∧
      (∀ e, s.walk kid va = .ok e → (∀ x, (s.meetWalk kid va).useLeaf (superWho kid) (if z then .write else .read) va e ≠ .fault x) →
        Goes s (.pageWalkComplete k kid.toNat va z) fun t => (t.core k).tlb = e :: (s.core k).tlb)) ∧
    (∀ (kid : BitVec 8) (va : Nat) (e : TlbEntry), (kid, va / 4096) ∈ (s.core k).copies →
      let u := s.modCore k fun c => { c with copies := c.copies.filter fun x => x != (kid, va / 4096) }
      s.walk kid va = .ok e →
      (ptePr e.leaf ≠ 3 ∨ (s.frameError e).isSome = true → exec (.ckptCopyComplete k kid.toNat va) s = .next u) ∧
      (ptePr e.leaf = 3 → s.frameError e = none →
        (s.guestHolds e.covers = true → exec (.ckptCopyComplete k kid.toNat va) s = .next (s.dropGuest e.covers)) ∧
        (s.guestHolds e.covers = false → s.dropDone e.kid e.covers = false → exec (.ckptCopyComplete k kid.toNat va) s = .next s) ∧
        (s.guestHolds e.covers = false → s.dropDone e.kid e.covers = true → exec (.ckptCopyComplete k kid.toNat va) s = .next (u.ckptCopy e)))) ∧
    (∀ kid hit, s.dropDone kid hit = true ↔ s.comingUnder kid hit = false ∧ s.chunkUnder hit = false ∧ s.guestAcked = true) ∧
    (let x := c.windrows[w]
     (∀ bytes e t, x.width = some bytes → c.resident = true → x.state = .active ∨ x.state = .busy → c.atomics = [] → x.desc.dir = false → x.buf.length < x.desc.la.toNat →
       x.n + x.buf.length < x.desc.total → s.fetchElem k j w (x.ahead x.buf.length) bytes = some (e, t) →
       exec (.windrowFetch k j.val w.val) s = .next (t.putWin k j w { x with buf := x.buf ++ [e] })) ∧
     (∀ before e after bytes y t, x.buf = before ++ e :: after → (∀ y ∈ before, y.arrived = true) → e.arrived = false → x.width = some bytes →
       s.fetchElem k j w (x.ahead before.length) bytes = some (y, t) → ∃ z : WinEntry, (e.fault.isSome = true ∨ e.stale = false → z.arrived = true) ∧ (e.fault = none → e.stale = true → z = y) ∧
         exec (.windrowFetchComplete k j.val w.val) s = .next (t.drawn.putWin k j w { x with buf := before ++ z :: after }) ∧
         (e.fault.isSome = true → z = { e with arrived := true }) ∧
         (e.fault = none → y.fault = none → e.stale = false → e.raw.length = y.raw.length → (x.ahead before.length).addrs bytes ≠ [] →
           ∀ b ∈ z.raw, ∃ p ∈ e.raw.zip y.raw, b = p.1 ∨ b = p.2)) ∧
     (∀ before e after bytes, x.buf = before ++ e :: after → (∀ y ∈ before, y.arrived = true) → e.arrived = false → x.width = some bytes →
       s.fetchElem k j w (x.ahead before.length) bytes = none → exec (.windrowFetchComplete k j.val w.val) s = .next s) ∧
     (c.atomics ≠ [] → exec (.windrowMergeComplete k j.val w.val) s = .next s ∧ exec (.windrowFetch k j.val w.val) s = .next s) ∧
     (∀ n a b cnt t, c.resident = true → c.atomics = [] → x.merge = some (.isect n) → State.mergeLoop k j w (x.remaining + c.windrows[w + 1].remaining + 1) x.unbusy
         c.windrows[w + 1].unbusy n s = .ok a b cnt t → w ≠ w + 1 →
       Goes s (.windrowMergeComplete k j.val w.val) fun u => (u.ctxAt k j).windrows[w].icnt = a.icnt + BitVec.ofNat 32 cnt) ∧
     (∀ lo n a b cnt t, c.resident = true → c.atomics = [] → x.merge = some (.count lo n) → State.countLoop k j w lo.toNat (x.remaining + 1) x.unbusy n s = .ok a b cnt t →
       Goes s (.windrowMergeComplete k j.val w.val) fun u => (u.ctxAt k j).windrows[w].skc = BitVec.ofNat 32 cnt)) ∧
    (∀ step ends, (s.core k).move = some ⟨false, step, ends⟩ → (s.core k).scr ≤ s.loftFloor k →
      exec (.loftStepShrinkComplete k) s = .next (s.modCore k fun c => { c with move := none })) ∧
    (∀ z step ends, (s.core k).move = some ⟨z, step, ends⟩ → ends ≤ s.now → (z = false → s.loftFloor k < (s.core k).scr) →
      Goes s (if z then .loftStepGrowComplete k else .loftStepShrinkComplete k) fun t =>
        (t.core k).scr = (if z then (s.core k).scr + 1 else (s.core k).scr - 1) ∧ (t.core k).move = none ∧
        ∀ a, bget (t.core k).loft a = (if a / 0x40000 = step then 0 else bget (s.core k).loft a))

/-- A copy, gather or scatter starts its next chunk, the bytes up to the next 4 KiB boundary of its destination, a gather and a scatter at their
indices; an index, a source or a destination that faults stops it with FAULT, an offset past a handle's buffer with PPROT, a freed handle
with STALE. Granules of a chunk in motion are read, one that faults stops it with FAULT; with none left its writes leave as late writes and
the next chunk is due. A first write to a CLEAN page first has the guest give up its translations of it. A page of an eckpt or erolb that is
not CKPT is PPROT, one that is CLEAN is passed, one with a copy is committed or taken back once the drop of its translations is done. An
exchange goes out to its peer, a round of one package to none. A command that has stopped leaves its engine and its token is DONE, one that
is OK once its SRC has been delivered; an exchange not matched in 2^32 cycles is LOST. A halo exchange of other sizes is BAD, one that
matches writes the peer's rows and is OK, or LOST where rows were lost; an address of it that faults is FAULT. A reduction round computes
each element once and writes it, is BAD where the commands disagree, LOST where elements are missing. A Gleaner fills the next FREE slot
with its stream's next tile, visibly from two cycles on, and past the last tile publishes its EOS; collects the oldest slot to memory and
releases it; ends a collection at an EOS slot; a fault ends a stream, and an esubs then publishes an EOS slot with ERR. A multicast slot is
FULL once every copy has the producer's bytes. The model's choices: a chunk's writes leave as late writes when its granules have been read
(log 77), the pairs of a sum and their order are picked (log 16), a drop takes the guest's translations and waits for the rest (logs 43,
44), and a chunk past a LEN that has shrunk is PPROT (log 97). (08_ring.md R189, R201 to R203; 10_line.md R227, R238, R239; 11_page.md R257,
R260, R262, R263; 20_link.md R389, R391, R397 to R399) -/
def Obligations.EngineEvents : Prop :=
  ∀ (s : State) (f id h : Nat) (r : EngineRun) (rid : Fin 64) (y : Stream),
    let b := r.cmd.block
    let c := r.cmd
    let n := cbLen b
    let i := r.done / n
    let off := r.done % n
    let stops := fun (u : State) (st : Status) (v : TrapVal) => u.stopEngine f r.id st v
    (s.engineRun f id = some r →
      (∀ v, r.status = some v → v.1 = .ok → s.unsent id = true → exec (.engineTokenComplete f id) s = .next s) ∧
      (∀ v, (r.status = some v ∧ (v.1 = .ok → s.unsent id = false)) ∨
          (r.status = none ∧ (c.kind = .halo ∨ c.kind = .red) ∧ r.matched = false ∧ r.alone = false ∧ r.sent + 2 ^ 32 ≤ s.now ∧
            v = (.lost, ⟨cPOISON, if c.kind = .halo then BitVec.ofNat 64 (gbPeer b) else 0x1FFF#64⟩)) →
        Goes s (.engineTokenComplete f id) fun t =>
        (t.field f).engines = (s.field f).engines.filter (fun x => !(x.id == id)) ∧
        ∀ (k : Nat) (j : Fin 4), k ∈ s.liveCores → (s.ctxAt k j).ident = r.ident → (s.ctxAt k j).tokens[c.tok].state = .pending →
          (t.ctxAt k j).tokens[c.tok].state = .done v.1 v.2) ∧
      (r.status = none → c.kind = .copy ∨ c.kind = .gath ∨ c.kind = .scat → r.part = none →
        (s.operand c.kid (cbSrc b) (cbSh b) = none ∨ s.operand c.kid (cbDst b) (cbDh b) = none →
          exec (.engineChunk f id) s = .next (stops s .stale ⟨cHANDLE, 0⟩)) ∧
        (∀ src dst, s.operand c.kid (cbSrc b) (cbSh b) = some src → s.operand c.kid (cbDst b) (cbDh b) = some dst →
          (∀ e, c.kind ≠ .copy → s.indexOf c i = .error e → exec (.engineChunk f id) s = .next (stops s .fault (s.engineFault e))) ∧
          (∀ so d, (c.kind = .copy ∧ so = 0 ∧ d = 0) ∨ (c.kind = .gath ∧ ∃ x, s.indexOf c i = .ok x ∧ so = x * n ∧ d = i * n) ∨
              (c.kind = .scat ∧ ∃ x, s.indexOf c i = .ok x ∧ so = i * n ∧ d = x * n) →
            ((operandAt src so n).2 = false →
              exec (.engineChunk f id) s = .next (stops s .fault (s.engineFault (cPPROT, (operandAt src so n).1)))) ∧
            ((operandAt src so n).2 = true → (operandAt dst d n).2 = false →
              exec (.engineChunk f id) s = .next (stops s .fault (s.engineFault (cPPROT, (operandAt dst d n).1)))) ∧
            ((operandAt src so n).2 = true → (operandAt dst d n).2 = true →
              let from_ := ((operandAt src so n).1 + off) % 2 ^ 64
              let to_ := ((operandAt dst d n).1 + off) % 2 ^ 64
              let m := min (n - off) (4096 - to_ % 4096)
              let u := s.meetChunk c i from_
              (∀ e, s.copyHeld c.who to_ m = some e → exec (.engineChunk f id) s = .next (s.dropGuest e.covers)) ∧
              (s.copyHeld c.who to_ m = none →
              (∀ e, u.vaSources c.who from_ m = .error e → exec (.engineChunk f id) s = .next (stops u .fault (u.engineFault e))) ∧
              (∀ srcs e, u.vaSources c.who from_ m = .ok srcs → u.noteWrites c to_ m = .error e →
                exec (.engineChunk f id) s = .next (stops u .fault (u.engineFault e))) ∧
              (∀ srcs v e, u.vaSources c.who from_ m = .ok srcs → u.noteWrites c to_ m = .ok v →
                v.vaPlaces c.who to_ (List.replicate m 0) = .error e → exec (.engineChunk f id) s = .next (stops u .fault (u.engineFault e))) ∧
              (∀ srcs v t ws, u.vaSources c.who from_ m = .ok srcs → u.noteWrites c to_ m = .ok v →
                v.vaPlaces c.who to_ (List.replicate m 0) = .ok (t, ws) → exec (.engineChunk f id) s = .next (t.modEngine f r.id fun x =>
                  { x with part := some ⟨srcs, List.replicate m 0, ws, [to_ / 4096, from_ / 4096, (from_ + m - 1) / 4096], c.kid⟩ }))))))) ∧
      (∀ x, r.status = none → c.kind = .copy ∨ c.kind = .gath ∨ c.kind = .scat → r.part = some x →
        ∃ xs left, (xs ++ left).Perm x.left ∧ (x.left ≠ [] → xs ≠ []) ∧
          (∀ e, s.readGrains xs x.bytes = .error e → exec (.engineChunk f id) s = .next (stops s .fault (s.engineFault e))) ∧
          (∀ bs, s.readGrains xs x.bytes = .ok bs → Goes s (.engineChunk f id) fun t =>
            (left ≠ [] → t.engineRun f id = some { r with part := some { x with left := left, bytes := bs } } ∧
              (t.core r.core).late = (s.core r.core).late) ∧
            (left = [] → t.engineRun f id = some { r with done := r.done + bs.length, part := none,
                                                          status := if r.done + bs.length = c.elements * n then some (.ok, ⟨0, 0⟩) else none } ∧
              (t.core r.core).late = (s.core r.core).late ++ (fillWrites x.writes bs).map fun w => { w with ident := r.ident, tok := c.tok }))) ∧
      (r.status = none → c.kind = .ckpt ∨ c.kind = .rolb →
        let va := ((cbSrc b).toNat + r.done) % 2 ^ 64
        let passed := fun (u : State) => u.modEngine f r.id fun x =>
          { x with done := x.done + 4096, status := if x.done + 4096 = cbLen b then some (.ok, ⟨0, 0⟩) else none }
        (∀ x, s.translate c.who .read va = .fault x → exec (.engineChunk f id) s = .next (stops s .fault (s.engineFault (x, va)))) ∧
        (∀ pa e, s.translate c.who .read va = .ok pa e →
          (ptePr e.leaf < 2 → exec (.engineChunk f id) s = .next (stops s .fault (s.engineFault (cPPROT, va)))) ∧
          (2 < ptePr e.leaf → exec (.engineChunk f id) s = .next (passed s)) ∧
          (ptePr e.leaf = 2 → s.guestHolds e.covers = true → exec (.engineChunk f id) s = .next (s.dropGuest e.covers)) ∧
          (ptePr e.leaf = 2 → s.guestHolds e.covers = false → s.dropDone e.kid e.covers = false → exec (.engineChunk f id) s = .next s) ∧
          (ptePr e.leaf = 2 → s.guestHolds e.covers = false → s.dropDone e.kid e.covers = true →
            (c.kind = .ckpt → exec (.engineChunk f id) s = .next (passed (((s.dropPage e).performAll).ckptClean e))) ∧
            (c.kind = .rolb → exec (.engineChunk f id) s = .next (passed (((s.dropPage e).performAll).ckptBack e)))))) ∧
      (r.status = none → c.kind = .halo ∨ c.kind = .red → r.posted = false →
        (c.kind = .red → r.npkg = 1 → exec (.engineChunk f id) s = .next (s.modEngine f r.id fun x => { x with posted := true })) ∧
        (c.kind = .halo ∨ r.npkg ≠ 1 → exec (.engineChunk f id) s =
          .next ((s.sendPacket r.dest r.cls (some r.id) []).modEngine f r.id fun x => { x with posted := true })))) ∧
    (∀ cnt len rows delivered, s.oldestExchange .halo id = some (f, r) →
      let u := s.modEngine f id fun x => { x with matched := true }
      let ends := fun (w : State) (st : Status) (v : TrapVal) => w.stopEngine f id st v
      (s.routeUp r.dest r.cls = false → exec (.haloMatch id cnt len rows delivered) s = .next s) ∧
      (∀ e, s.routeUp r.dest r.cls = true → s.rowsHeld c (gbDst b) (hbDstr b) (hbLen b) (hbCount b) = some e →
        exec (.haloMatch id cnt len rows delivered) s = .next (s.dropGuest e.covers)) ∧
      (s.routeUp r.dest r.cls = true → s.rowsHeld c (gbDst b) (hbDstr b) (hbLen b) (hbCount b) = none →
      (cnt ≠ hbCount b ∨ len ≠ hbLen b →
        exec (.haloMatch id cnt len rows delivered) s = .next (ends u .bad ⟨cILLOP, 0⟩)) ∧
      (cnt = hbCount b → len = hbLen b →
        (∀ e, u.readRows c (gbSrc b) (hbSstr b) (hbLen b) (hbCount b) = .error e →
          exec (.haloMatch id cnt len rows delivered) s = .next (ends u .fault (u.engineFault e))) ∧
        (∀ own t x, u.readRows c (gbSrc b) (hbSstr b) (hbLen b) (hbCount b) = .ok own →
          State.writeRows r.core r.ident c (gbDst b) (hbDstr b) (hbLen b) (hbCount b) (rows.take (hbCount b * hbLen b))
            ((u.meetRows c (gbSrc b) (hbSstr b) (hbLen b) (hbCount b)).sendPacket r.dest r.cls (some r.id) own) = (t, x) →
          (∀ e, x = some e → exec (.haloMatch id cnt len rows delivered) s = .next (ends t .fault (t.engineFault e))) ∧
          (x = none → delivered = true → hbCount b * hbLen b ≤ rows.length →
            exec (.haloMatch id cnt len rows delivered) s = .next (ends t .ok ⟨0, 0⟩)) ∧
          (x = none → delivered = false ∨ rows.length < hbCount b * hbLen b →
            exec (.haloMatch id cnt len rows delivered) s = .next (ends t .lost ⟨cPOISON, BitVec.ofNat 64 (gbPeer b)⟩)))))) ∧
    (∀ agree ps, s.oldestExchange .red id = some (f, r) → r.npkg ≠ 0 →
      let peers := if r.npkg = 1 then [] else ps
      let u := s.modEngine f id fun x => { x with matched := true }
      let ends := fun (w : State) (st : Status) (v : TrapVal) => w.stopEngine f id st v
      (∀ e, (agree = true → peers.length + 1 = r.npkg) → s.copyHeld c.who (gbDst b) (4 * rbCount b) = some e →
        exec (.reductionRoundMatch id agree ps) s = .next (s.dropGuest e.covers)) ∧
      (s.copyHeld c.who (gbDst b) (4 * rbCount b) = none →
      (agree = false → r.npkg ≠ 1 → exec (.reductionRoundMatch id agree ps) s = .next (ends u .bad ⟨cILLOP, 0⟩)) ∧
      (agree = true ∨ r.npkg = 1 → peers.length + 1 = r.npkg →
        let v := u.meetVa c.who (gbSrc b) (4 * rbCount b)
        let w := if r.npkg = 1 then v else v.sendPacket r.dest r.cls (some r.id) (((u.vaRead c.who (gbSrc b) (4 * rbCount b)).toOption).getD [])
        (∀ e, u.vaRead c.who (gbSrc b) (4 * rbCount b) = .error e → exec (.reductionRoundMatch id agree ps) s = .next (ends u .fault (u.engineFault e))) ∧
        (∀ bs t x arrived, u.vaRead c.who (gbSrc b) (4 * rbCount b) = .ok bs → arrived = peers.foldl (fun m p => min m p.length) (rbCount b) →
          let out := (List.range (rbCount b)).map fun i => reduceElement (gbOp b) (Config.pickPair w.draws) ((elementsOf bs :: peers).map fun p => p.getD i 0)
          State.writeRows r.core r.ident c (gbDst b) 4 4 (rbCount b) ((out.take arrived).flatMap fun x => leBytes 4 x.toNat) w.drawn = (t, x) →
          (∀ e, x = some e → exec (.reductionRoundMatch id agree ps) s = .next (ends t .fault (t.engineFault e))) ∧
          (x = none → arrived = rbCount b → exec (.reductionRoundMatch id agree ps) s = .next (ends t .ok ⟨0, 0⟩)) ∧
          (x = none → arrived < rbCount b → exec (.reductionRoundMatch id agree ps) s = .next (ends t .lost ⟨cPOISON, 0x1FFF#64⟩)))))) ∧
    (s.streamOn h rid.val = some y →
      let e := s.ringEntry h rid.val
      let due := e.freeFor s.now e.next = true
      (y.cmd.kind = .subs → y.filling = false → y.errEos = false → due → y.tile < sbCount y.cmd.block →
        let u := s.meetVa y.cmd.who y.tileAddr (sbBytes y.cmd.block)
        (∀ bs, u.vaRead y.cmd.who y.tileAddr (sbBytes y.cmd.block) = .ok bs → Goes s (.gleanerTileStart h rid.val) fun t =>
          ((t.ringEntry h rid.val).slot e.next).state = .filling ∧ ((t.ringEntry h rid.val).slot e.next).tag = e.next ∧
          (t.ringEntry h rid.val).next = e.next + 1 ∧ t.streamOn h rid.val = some { y with filling := true } ∧
          ∀ k ∈ e.copies h, (t.core k).loft = bsetN (s.core k).loft (e.desc.slotOff e.next) bs) ∧
        (∀ x a, u.vaRead y.cmd.who y.tileAddr (sbBytes y.cmd.block) = .error (x, a) →
          exec (.gleanerTileStart h rid.val) s = .next ((u.streamFault y x).setStream h y.rid (some { y with errEos := true })))) ∧
      (y.cmd.kind = .subs → y.filling = false → y.errEos = false → due → sbCount y.cmd.block ≤ y.tile → e.cmask ≠ 0 → e.desc.cons = false →
        Goes s (.gleanerTileStart h rid.val) fun t =>
          ((t.ringEntry h rid.val).slot e.next).state = .full ∧ ((t.ringEntry h rid.val).slot e.next).eos = true ∧
          ((t.ringEntry h rid.val).slot e.next).err = false ∧ (t.ringEntry h rid.val).next = e.next + 1) ∧
      (y.filling = true → e.cmask ≠ 0 → e.desc.cons = false → Goes s (.gleanerTileComplete h rid.val) fun t =>
        ((t.ringEntry h rid.val).slot (e.next - 1)).state = .full ∧ ((t.ringEntry h rid.val).slot (e.next - 1)).pending = e.cmask ∧
        ((t.ringEntry h rid.val).slot (e.next - 1)).visible = s.now + 2) ∧
      (y.cmd.kind = .coll → (e.slot e.oldest).state = .full → (e.slot e.oldest).gpend = true → (e.slot e.oldest).visible ≤ s.now →
        ((e.slot e.oldest).eos = true → (e.slot e.oldest).pending = 0 → Goes s (.gleanerCollect h rid.val) fun t =>
          ((t.ringEntry h rid.val).slot e.oldest).state = .free ∧ ((t.ringEntry h rid.val).slot e.oldest).visible = s.now + 2) ∧
        (∀ x, (e.slot e.oldest).eos = false → s.copyHeld y.cmd.who y.tileAddr (sbBytes y.cmd.block) = some x →
          exec (.gleanerCollect h rid.val) s = .next (s.dropGuest x.covers)) ∧
        (∀ (k : Nat) (j : Fin 4), (e.slot e.oldest).eos = false → e.producer = some (k, j) →
          s.copyHeld y.cmd.who y.tileAddr (sbBytes y.cmd.block) = none →
          let w := s.engineWrite k y.ident y.cmd y.tileAddr (s.loftRead k (e.desc.slotOff e.oldest) (sbBytes y.cmd.block))
          (∀ t, y.tile + 1 < sbCount y.cmd.block → w = .ok t →
            exec (.gleanerCollect h rid.val) s = .next ((t.modRing h rid.val fun x => x.setSlot e.oldest
              ((x.slot e.oldest).clear t.now (BitVec.allOnes 32) true)).setStream h y.rid (some { y with tile := y.tile + 1 }))) ∧
          (∀ x a, w = .error (x, a) → exec (.gleanerCollect h rid.val) s = .next ((s.streamFault y x).setStream h y.rid none)))) ∧
      (y.errEos = true → due → e.cmask ≠ 0 → e.desc.cons = false → Goes s (.gleanerErrorEos h rid.val) fun t =>
        ((t.ringEntry h rid.val).slot e.next).state = .full ∧ ((t.ringEntry h rid.val).slot e.next).eos = true ∧
        ((t.ringEntry h rid.val).slot e.next).err = true ∧ (t.ringEntry h rid.val).next = e.next + 1)) ∧
    (let e := s.ringEntry h rid.val
     ∀ (k : Nat) (j : Fin 4) (q : BitVec 32), e.producer = some (k, j) → e.ready = true → e.desc.mcast = true → (e.slot q).state = .filling →
      (e.slot q).tag = q → (e.slot q).visible ≤ s.now → e.desc.cons = false → e.cmask ≠ 0 →
      Goes s (.multicastCopyComplete h rid.val q.toNat) fun t =>
        ((t.ringEntry h rid.val).slot q).state = .full ∧ ((t.ringEntry h rid.val).slot q).pending = e.cmask ∧
        ∀ c ∈ e.copies h, c ≠ k → (t.core c).loft = if (e.slot q).eos then (s.core c).loft
          else bsetN (s.core c).loft (e.desc.slotOff q) (s.loftRead k (e.desc.slotOff q) e.desc.slotBytes))

/-- A read packet of an aligned address of the stack, its tag free and no KID dead, adds a reply with the line's bytes under the queued writes,
four lines for RD256. A write packet takes a dirty line from the L2 carve into the queue, and a reply will acknowledge it. The oldest queued
write leaves for DRAM, and each waiting reply has one write fewer to wait for. A reply that waits for nothing returns and frees its tag; a
line that it brings fills the carve, clean, where the carve lacks it and the base die still holds those bytes. An atomic packet on a line
that the carve does not hold and no queued write is to executes in DRAM and gives back the old value. The filter of a slice whose count has
reached WINDOW is cleared. A threshold is set above its temperature and reset 3 degrees below it, each crossing logged once; the shutdown
signal stays. Whose line a read packet fetches and which tag a write packet has are free (log 26). (09_storage.md R214, R217 to R222) -/
def Obligations.BaseDieEvents : Prop :=
  ∀ (s : State) (n addr tag slice temp : Nat) (kid : BitVec 8),
    let x := s.stack n
    ((∀ k, (s.kidEntry k).state ≠ .dead) → s.mayPacket n addr tag 64 = true → Goes s (.rd64 n addr tag) fun t =>
      ∃ r : Reply, (t.stack n).replies = x.replies ++ [r] ∧ r.tag = tag ∧ r.line = addr / 64 ∧ r.bytes = lineBytes (s.dieLine r.kid (addr / 64)) ∧
        (t.stack n).writes = x.writes) ∧
    ((∀ k, (s.kidEntry k).state ≠ .dead) → s.mayPacket n addr tag 256 = true → Goes s (.rd256 n addr tag) fun t =>
      ∃ r : Reply, (t.stack n).replies = x.replies ++ [r] ∧ r.tag = tag ∧ r.line = addr / 64 ∧
        r.bytes = ((List.range 4).map (addr / 64 + ·)).flatMap fun l => lineBytes (s.dieLine r.kid l)) ∧
    (∀ l : CacheLine, (∀ m, m < 4096 → s.mayPacket n addr m 64 = true) → findLine (addr / 64) kid (s.field (addr / 0x10000000000)).l2 = some l →
      Goes s (.wrm n addr kid.toNat l.dirty l.data) fun t =>
        (t.stack n).writes = x.writes ++ [⟨addr / 64, kid, l.dirty, l.data, l.attr.nocrib, l.attr.cribpin⟩] ∧
        (∃ r : Reply, (t.stack n).replies = x.replies ++ [r] ∧ r.bytes = [] ∧ r.line = addr / 64 ∧ r.tag < 4096) ∧
        findLine (addr / 64) kid (t.field (addr / 0x10000000000)).l2 = none) ∧
    (∀ w rest, x.writes = w :: rest → Goes s (.writeQueueDrain n) fun t => (t.stack n).writes = rest ∧ t.mem = (s.dramWrite w.kid w.line w.mask w.data).mem ∧
      t.keys = (s.dramWrite w.kid w.line w.mask w.data).keys ∧
      (t.stack n).replies = x.replies.map fun r => { r with left := r.left - 1 }) ∧
    (∀ r ∈ x.replies, r.tag = tag → (∀ y ∈ x.replies, y.tag = tag → y.left = 0) → Goes s (.packetReply n tag) fun t =>
      (t.stack n).replies = x.replies.filter (fun y => y.tag != tag) ∧ (t.stack n).writes = x.writes) ∧
    (∀ r, x.replies.find? (fun y => y.tag == tag) = some r → r.left = 0 → r.bytes.length = 64 → (s.kidEntry r.kid).state ≠ .dead →
      findLine r.line r.kid (s.field (64 * r.line / 0x10000000000)).l2 = none → s.dieLine r.kid r.line = lineOf r.bytes →
      Goes s (.packetReply n tag) fun t => ∃ l, findLine r.line r.kid (t.field (64 * r.line / 0x10000000000)).l2 = some l ∧
        l.data = lineOf r.bytes ∧ l.dirty = 0) ∧
    (∀ (k : Nat) (j : Fin 4) (op : Fin 8) (four : Bool) (operand compare : Word) (a : AtomicReq),
      s.atomicSender addr kid op four operand compare = some (k, j, a) →
      let t := (s.modCtx k j fun c => { c.spent with outbox := c.outbox.drop 1 }).release k a.scope
      x.replies.length < 4096 → s.mayPacket n addr tag 8 = true → s.atomicError a = none → t.atDie a = true → t.dieBusy a = false →
      let bytes := ((lineBytes (t.dramLine a.target.kid (addr / 64))).drop (a.target.addr % 64)).take a.size
      Goes s (.atm n addr kid.toNat tag op four operand compare) fun u =>
        (u.ctxAt k j).atomics.head? = some (a.d, some (BitVec.ofNat 64 (leNat bytes))) ∧ (u.ctxAt k j).outbox = (s.ctxAt k j).outbox.drop 1 ∧
        ∃ r : Reply, (u.stack n).replies = x.replies ++ [r] ∧ r.tag = tag ∧ r.bytes = leBytes a.size (BitVec.ofNat 64 (leNat bytes)).toNat) ∧
    (2 ^ s.config.winlg ≤ (tget ⟨[], [], 0⟩ x.slices slice).misses → Goes s (.cribFilterWindowReset n slice) fun t =>
      let y := tget ⟨[], [], 0⟩ (t.stack n).slices slice
      y.bloom = [] ∧ y.misses = 0 ∧ y.lines = (tget ⟨[], [], 0⟩ x.slices slice).lines) ∧
    (n < 24 → x.t1 = false → s.config.t1 < temp → Goes s (.hbmTempAboveT1 n temp) fun t => (t.stack n).t1 = true ∧ t.granger.log.length = s.granger.log.length + 1) ∧
    (n < 24 → x.t1 = true → temp < s.config.t1 - 3 → Goes s (.hbmTempBelowT1 n temp) fun t => (t.stack n).t1 = false ∧ t.granger.log.length = s.granger.log.length + 1) ∧
    (n < 24 → x.t2 = false → s.config.t2 < temp → Goes s (.hbmTempAboveT2 n temp) fun t => (t.stack n).t2 = true ∧ t.granger.log.length = s.granger.log.length + 1) ∧
    (n < 24 → x.t2 = true → temp < s.config.t2 - 3 → Goes s (.hbmTempBelowT2 n temp) fun t => (t.stack n).t2 = false ∧ t.granger.log.length = s.granger.log.length + 1) ∧
    (n < 24 → x.t3 = false → 105 < temp → Goes s (.hbmTempAboveT3 n temp) fun t => (t.stack n).t3 = true ∧ t.granger.log.length = s.granger.log.length + 1) ∧
    (x.t3 = true → ∀ i ∈ [Instr.hbmTempAboveT1 n temp, .hbmTempBelowT1 n temp, .hbmTempAboveT2 n temp, .hbmTempBelowT2 n temp, .hbmTempAboveT3 n temp],
      Goes s i fun t => (t.stack n).t3 = true)

/-- A naming of a launch block lowers its JOIN and, with the last, sends it to its queue; one that cannot be made is reported. An arrival takes
a free slot, goes to the ring's tail, or is refused with a record and FCAUSE 0x01; one that opens its queue and finds it full waits. The
oldest ENQUEUED launch block becomes BLOCKED and raises the writer counts of its outputs; a field stuck for 4,096 cycles grants up to 64
entries to its smallest full queue; a HELD queue with nothing waiting opens again, or goes OFF where nothing is left. A record goes to a
ring with room, and a pending entry of COALT's age interrupts, or is noted as pending where its vector is masked. The oldest READY REUSE
launch block is decided to run or skipped, one whose skip finds the naming buffer full left out; with none to decide, a served head that
fails its checks is a kernel fault, else its members start in the slots given; a pre-empting head has the victim's save requested, and a
saved member is restored where its slot and those it is lent are FREE. A tmark is applied at its tile. A completed phase or generation
reaches the member, a SYS group's phase in packets to the other packages too. The model's choices: the MSI-X table as PCI places it (log
28), when other packages have arrived (log 21) and a HELD queue with an empty ring (log 36). (14_kernel.md R307, R309 to R313, R319;
15_queue.md R323 to R328, R331, R334, R459; 16_group.md R340; 17_barrier.md R346; 19_reuse.md R373, R375 to R378) -/
def Obligations.ThresherEvents : Prop :=
  ∀ (s : State) (f : Nat) (q : Fin 64) (k : Nat) (j : Fin 4) (b h : Fin 16),
    (∀ n rest, (s.field f).namings = n :: rest →
      let u := s.modField f fun x => { x with namings := rest }
      (∀ c a, u.vaWords (superWho n.kid) n.addr 16 = .error (c, a) → exec (.lbNaming f) s = .next (u.reportNaming f n c a)) ∧
      (∀ ws, u.vaWords (superWho n.kid) n.addr 16 = .ok ws →
        (namedWord (wordAt ws 10) = none → exec (.lbNaming f) s = .next u) ∧
        (∀ w full, namedWord (wordAt ws 10) = some (w, full) →
          let v := u.meetVa (superWho n.kid) n.addr 128
          (∀ c a, v.vaWrite (superWho n.kid) (n.addr + lbWordOff) (leBytes 8 w.toNat) = .error (c, a) →
            exec (.lbNaming f) s = .next (v.reportNaming f n c a)) ∧
          (∀ t, v.vaWrite (superWho n.kid) (n.addr + lbWordOff) (leBytes 8 w.toNat) = .ok t →
            exec (.lbNaming f) s = .next (if full then t.arrive (lbWith ws w) n.addr n.kid (queueNum (lbQue ws)) n.sender else t))))) ∧
    (∀ w : Word, (1 < wordState w → namedWord w = none) ∧ (wordState w ≤ 1 → 1 < wordJoin w →
      ∃ v, namedWord w = some (v, false) ∧ wordJoin v = wordJoin w - 1 ∧ wordState v = 1) ∧
      (wordState w ≤ 1 → wordJoin w = 1 → ∃ v, namedWord w = some (v, true) ∧ wordJoin v = 0 ∧ wordState v = 2)) ∧
    (∀ a, s.nextArrival f = some a → (s.queue f a.queue).state ≠ .off →
      (lbInvalid a.words = false → ¬ ((s.queue f a.queue).state = .spill ∧ (s.queue f a.queue).ringCount ≠ 0) →
        (∀ k' j' i, a.sender ≠ .enq k' j' i) → Goes s (.lbArrival f) fun t => ∃ l : HeldLb, (t.field f).lbs = (s.field f).lbs ++ [l] ∧ l.addr = a.addr ∧
          l.queue = a.queue ∧ l.words = a.words ∧ l.state = .enqueued ∧ l.run = s.serial ∧ (t.field f).arrivals = removeArrival a.queue (s.field f).arrivals) ∧
      (∀ t, lbInvalid a.words = false → (s.queue f a.queue).state = .spill → (s.queue f a.queue).ringCount ≠ 0 → s.spillOne f a.queue a.addr a.words = .ok t →
        exec (.lbArrival f) s = .next (t.tookArrival f a.queue a)) ∧
      (lbInvalid a.words = true → exec (.lbArrival f) s = .next ((s.refuseArrival f { a with kid := qdKid (s.queue f a.queue).desc } (s.queue f a.queue).fring).closeQueue f a.queue))) ∧
    (∀ a, s.nextArrival f = some a → (s.queue f a.queue).state = .off → queueInvalid (s.queueDesc f a.queue) = true →
      exec (.lbArrival f) s = .next (s.refuseArrival f a 0)) ∧
    (∀ a u, s.nextArrival f = some a → (s.queue f a.queue).state = .off → s.openQueue f a.queue = some u → lbInvalid a.words = false →
      (u.queueFull f a.queue = true → exec (.lbArrival f) s = .next u) ∧
      (u.queueFull f a.queue = false → exec (.lbArrival f) s = .next ((u.takeSlot f a.queue a.addr a.words).tookArrival f a.queue a))) ∧
    (∀ l, ((s.field f).lbs.find? fun l => l.queue == q && l.state == .enqueued) = some l → exec (.lbEnterSlot f q.val) s = .next (s.block f l) ∧
      (∀ o ∈ lbOuts l.words, l.run ∈ ((s.block f l).tile o).writers)) ∧
    (4096 ≤ (s.field f).stuck → 0 < s.pool → Goes s (.fieldStuckStep f) fun t => (t.field f).stuck = 0 ∧
      (∀ x, s.smallestStuck f (s.stuckQueues f) = some x → t.pool = s.pool - min 64 s.pool ∧
        (t.queue f x).grant = (s.queue f x).grant + min 64 s.pool)) ∧
    ((s.queue f q).state = .held → (s.queue f q).retryAt ≤ s.now → s.waiting f q = 0 → Goes s (.queueHeldRetry f q.val) fun t =>
      ((s.queue f q).ringCount ≠ 0 → (t.queue f q).state = .spill) ∧
      ((s.queue f q).ringCount = 0 → (t.queue f q).state = .open_ ∨ ((t.queue f q).state = .off ∧ (s.queue f q).saved = [] ∧
        ∀ l ∈ (s.field f).lbs, l.queue ≠ q))) ∧
    (∀ r rest, takeRecord s.postWaits (s.field f).records = some (r, rest) → Goes s (.hostRingPost f) fun t =>
      t = (s.modField f fun x => { x with records := rest }).postEntry r.ring r.words) ∧
    (∀ r rest, (s.field f).records = r :: rest → s.postWaits r.ring = false → takeRecord s.postWaits (s.field f).records = some (r, rest)) ∧
    (let w := s.ringWords h
     hrCoalt w ≠ 0 → (s.hostRing h).pending ≠ 0 → (s.hostRing h).oldest + 2250 * hrCoalt w ≤ s.now → Goes s (.hostRingCoalesceTimer h.val) fun t =>
      (t.hostRing h).pending = 0 ∧ (s.masked (hrVec w) = false → t.msix = hrVec w :: s.msix) ∧ (s.masked (hrVec w) = true → hrVec w ∈ t.pba)) ∧
    (∀ l w, s.probe f l.words = some w → (s.skipWaits f l = true ↔
      s.wouldSkip f l.words w = true ∧ (256 ≤ s.skipsHeld f ∨ 256 < s.skipsHeld f + lbNsuc l.words))) ∧
    (∀ l place, ((s.field f).lbs.find? fun l => l.queue == q && s.undecided l && !s.skipWaits f l) = some l →
      (s.probe f l.words = none ∨ (∃ w, s.probe f l.words = some w ∧ s.wouldSkip f l.words w = false) →
        exec (.lbDispatch f q.val place) s = .next (s.decideRun f l)) ∧
      (∀ w, s.probe f l.words = some w → s.wouldSkip f l.words w = true → exec (.lbDispatch f q.val place) s = .next (s.skip f l w)) ∧
      (∀ w, s.chooseWay f (lbKey l.words) = some w → ((s.decideRun f l).reuseAt f (reuseSet (lbKey l.words)) w).state = .pending ∧
        ((s.decideRun f l).reuseAt f (reuseSet (lbKey l.words)) w).key = lbKey l.words)) ∧
    (∀ l c place, ((s.field f).lbs.find? fun l => l.queue == q && s.undecided l && !s.skipWaits f l) = none → s.servedQueue f = some q → s.readyHead f q = some l →
      l.started = 0 → s.dispatchCheck l = .error c → exec (.lbDispatch f q.val place) s = .next (s.kernelFault f l.run c 0)) ∧
    (∀ l lreq sysw, ((s.field f).lbs.find? fun l => l.queue == q && s.undecided l && !s.skipWaits f l) = none → s.servedQueue f = some q → s.readyHead f q = some l →
      l.started = 0 → s.dispatchCheck l = .ok (lreq, sysw) →
      let u := (s.meetDispatch l).modRun f l.run fun l =>
        { l with lreq := lreq, sysw := sysw, remote := decide (1 < sysw.toNat / 2 ^ 16 % 2 ^ 13), code := s.codeView }
      (∀ place t, place ≠ [] → (lbGang l.words = true → place.length = (if lbDup l.words then 2 else 1) * lbWidth l.words) →
        State.dispatchTo f l.run place u = some t → Goes s (.lbDispatch f q.val place) fun v => v.cores = t.cores ∧ (v.field f).lbs = (t.field f).lbs) ∧
      (∀ l', u.findRun f l.run = some l' → l'.undispatched = true → l'.started = 0 → lbDup l'.words = false → lbGang l.words = false ∨ lbWidth l.words = 1 → u.takes l'.words f l'.home k j = true →
        Goes s (.lbDispatch f q.val [(k, j.val)]) fun t => (t.ctxAt k j).state = .loading ∧ (t.ctxAt k j).pc = BitVec.ofNat 64 (lbPro l'.words) ∧
          (t.ctxAt k j).regs.s[(2 : Fin 63)] = 0 ∧ (t.ctxAt k j).regs.s[(1 : Fin 63)] = BitVec.ofNat 64 (lbParm l'.words) ∧
          (t.ctxAt k j).regs.s[(3 : Fin 63)] = BitVec.ofNat 64 (lbWidth l'.words))) ∧
    (∀ rank need x y m va p0 p1 t u, s.starved f = some (rank, need) → chooseVictim (s.victims f rank) = some (k, j, x, y) → (s.ctxAt k j).member = some m →
      s.savesComing f < need → s.freeImage f m.queue = some va → s.queuePage (s.queue f m.queue).who va = some (p0, t) →
      t.queuePage (s.queue f m.queue).who (va + 4096) = some (p1, u) →
      exec (.thresherSaveRequest f k j.val) s = .next (u.modCtx k j fun c => { c with save := some ⟨p0, p1, some (f, m.queue, va), 0, va⟩ })) ∧
    (∀ m rest ws, (s.queue f q).saved = m :: rest → s.vaWords (superWho m.kid) m.image 1024 = .ok ws →
      imageOk ws = true → k < 320 → isControl k = false → (∀ b, b = j ∨ imageOwns ws b = true → (s.ctxAt k b).state = .free ∧ (s.core k).banks[b].owner = none) →
      (∀ y, (s.unseal ws).member = some y → ∀ l, s.findRun y.field y.run = some l →
        inDomain l.words (copyField y.field y.twin) k (if y.twin then l.home2 else l.home) = true ∧ s.coreTakes k (lbYoke l.words) = true) →
      ((∀ y, (s.unseal ws).member = some y → s.findRun y.field y.run = none) → fieldOf k = f ∧ s.coreTakes k false = true) → Goes s (.thresherRedispatch f q.val k j.val) fun t => (t.ctxAt k j).state = .loading ∧
        (t.ctxAt k j).loadAt = s.now + 512 ∧ (t.queue f q).saved = rest) ∧
    (∀ m rest, (s.field f).marks = m :: rest → Goes s (.tmarkApply f) fun t => (t.field f).marks = rest ∧
      (t.tile m.tile).d = addDrift (s.tile m.tile).d m.drift m.nan ∧ (t.tile m.tile).ver = s.stepOf f) ∧
    (∀ m l, (s.ctxAt k j).member = some m → s.findRun m.field m.run = some l →
      Goes s (.phaseComplete k j.val) (fun t =>
        (l.remote = true → l.remotePhase m.twin ≠ l → t.links = ((s.modRun m.field m.run fun l => l.remotePhase m.twin).broadcast l).links) ∧
        (t.ctxAt k j).member = some { m with seen := ((l.remotePhase m.twin).groupOf m.twin).phase }) ∧
      Goes s (.generationComplete k j.val b.val) (fun t =>
        (t.ctxAt k j).member = some { m with seenGen := m.seenGen.set b (((l.remoteGen m.twin b).groupOf m.twin).gen[b]) }))

/-- A DOWN link trains; training that succeeds leaves it ACTIVE or DEGRADED, a failure is tried again, and after the third a Jozer link, the
host link and the Lean-to are DOWN, while a field link puts the package into fatal error. An ACTIVE link that loses a lane is DEGRADED; a
DEGRADED one stays so while a spare or a width is left, and then goes DOWN; a link at its replay limit goes DOWN; both are logged and keep
what was not acknowledged as lost; a field link puts the package into fatal error instead. A drained link with everything acknowledged goes
DOWN. The next flit in sequence with a good CRC is taken, with its acknowledgement, and any other dropped. Flits wait before a link that
accepts no packets, and while 4,095 are not acknowledged. A route that lost packets takes its alternate, with what waits, logged, and what
they carried is accounted: an ehalo or ered completes LOST, and the kernel of a group whose packets were lost faults. The model's choices:
the numbers of the links and what was lost beyond the package's own link (logs 24, 61), the telemetry's kinds (log 25), and the window of
4,095 (log 27). (20_link.md R388 to R392; 22_platform.md R423) -/
def Obligations.LinkEvents : Prop :=
  ∀ (s : State) (n : Nat) (full left : Bool),
    let l := s.linkAt n
    let room := l.worn < spareLanes n + widths n
    let fatal := fun (t : State) => t.granger.state = .frozen ∧ t.granger.causes = s.granger.causes ++ [1]
    let gone := fun (t : State) => (t.linkAt n).state = .down ∧ (t.linkAt n).lost = l.lost ++ l.flits ∧ (t.linkAt n).flits = [] ∧ (t.linkAt n).queue = l.queue ∧
      t.granger.log = s.granger.log ++ [(1, BitVec.ofNat 64 n)]
    (n < 24 → l.state = .down → Goes s (.linkTrainingStart n) fun t => (t.linkAt n).state = .training ∧ (t.linkAt n).attempts = 0) ∧
    (l.state = .training →
      Goes s (.linkTrainingResult n true full) (fun t => (t.linkAt n).state = (if full then .active else .degraded) ∧ (t.linkAt n).rxSeq = 0 ∧
        (t.linkAt n).txSeq = BitVec.ofNat 12 (min l.queue.length 4095) ∧ (t.linkAt n).flits.length = min l.queue.length 4095 ∧ (n = leanTo → t.guest.size ≤ 2 ^ 40)) ∧
      (l.attempts < 2 → Goes s (.linkTrainingResult n false full) fun t => (t.linkAt n).state = .training ∧ (t.linkAt n).attempts = l.attempts + 1) ∧
      (2 ≤ l.attempts → 6 ≤ n → Goes s (.linkTrainingResult n false full) fun t => (t.linkAt n).state = .down ∧
        t.granger.log.length = s.granger.log.length + 1) ∧
      (2 ≤ l.attempts → n < 6 → s.granger.state = .ready → Goes s (.linkTrainingResult n false full) fatal)) ∧
    (l.state = .active → Goes s (.laneFailure n left) fun t => (t.linkAt n).state = .degraded) ∧
    (l.state = .degraded →
      (n = leanTo → exec (.laneFailure n true) s = .next s) ∧
      (n ≠ leanTo ∨ left = false →
        (room → Goes s (.laneFailure n left) fun t => (t.linkAt n).state = .degraded ∧ (t.linkAt n).worn = l.worn + 1) ∧
        (¬ room → 6 ≤ n → Goes s (.laneFailure n left) gone) ∧
        (¬ room → n < 6 → s.granger.state = .ready → Goes s (.laneFailure n left) fatal))) ∧
    (l.state = .active ∨ l.state = .degraded →
      (6 ≤ n → Goes s (.flitReplayLimit n) gone) ∧
      (n < 6 → s.granger.state = .ready → Goes s (.flitReplayLimit n) fatal) ∧
      Goes s (.linkDrainRequest n) fun t => (t.linkAt n).state = .draining) ∧
    (l.state = .draining →
      (6 ≤ n → l.txAcked = l.txSeq → Goes s (.linkDrainComplete n) fun t => (t.linkAt n).state = .down) ∧
      (n < 6 → l.txAcked = l.txSeq → s.granger.state = .ready → Goes s (.linkDrainComplete n) fatal) ∧
      (l.txAcked ≠ l.txSeq → exec (.linkDrainComplete n) s = .next s)) ∧
    (∀ (seq acked : BitVec 12) (cls : BitVec 4), 6 ≤ n → n ≤ 21 → l.state = .active ∨ l.state = .degraded ∨ l.state = .draining → cls ≤ 4 →
      (seq = l.rxSeq → Goes s (.flitReceive n seq acked cls true) fun t => (t.linkAt n).rxSeq = l.rxSeq + 1 ∧ (t.linkAt n).state = l.state ∧
        (acked - l.txAcked ≤ l.txSeq - l.txAcked → (t.linkAt n).txAcked = acked ∧ (t.linkAt n).flits.take (l.flits.length - (acked - l.txAcked).toNat) = l.flits.drop (acked - l.txAcked).toNat ∧
          (l.flits.length ≤ 4095 → (t.linkAt n).flits.length ≤ 4095))) ∧
      (seq ≠ l.rxSeq → exec (.flitReceive n seq acked cls true) s = .next s) ∧ exec (.flitReceive n seq acked cls false) s = .next s) ∧
    (∀ cls, 0 < n → n < 8192 → cls ≤ 4 → s.lostFlits n cls ≠ [] ∨ (s.linkAt (s.routeLink n cls)).state = .down ∨ s.routeUp n cls = true →
      (cls ≠ 2 → Goes s (.routeSwitch n cls) fun t =>
        t.route n cls = { s.route n cls with onAlt := (s.route n cls).onAlt || (s.route n cls).alt.isSome } ∧ t.lostFlits n cls = [] ∧
        ((s.route n cls).alt.isSome = true → ∀ k, k ≠ t.routeLink n cls → ∀ x ∈ (t.linkAt k).queue, x.of n cls = false) ∧
        t.granger.log = s.granger.log ++ [(5, BitVec.ofNat 64 (5 * n + cls))] ∧
        ∀ (f : Nat) (r : EngineRun), f < 4 → s.engineRun f r.id = some r → r.failed = false → r.posted = true → r.dest = n →
          (cls = 0 ∧ r.cmd.kind = .halo) ∨ (cls = 1 ∧ r.cmd.kind = .red) → (s.lostFlits n cls).any (fun x => x.owner == some r.id) = true →
          ∃ x, t.engineRun f r.id = some x ∧ x.status = some (.lost, r.cmd.lostTrap)) ∧
      (cls = 2 → Goes s (.routeSwitch n cls) fun t => ∀ (f run : Nat) (x : HeldLb), f < 4 → s.findRun f run = some x → x.remote = true →
        (s.routeUp n cls = true ∧ s.lostBeyond run = true) ∨ (s.lostFlits n cls).any (fun y => y.owner == some run) = true → t.findRun f run = none)) ∧
    (∀ dest cls owner bytes,
      let m := s.routeLink dest cls
      let x := s.linkAt m
      let y := (s.sendPacket dest cls owner bytes).linkAt m
      let new := packetFlits dest cls owner bytes
      (x.up = false → y = { x with queue := x.queue ++ new }) ∧
      (x.up = true → x.flits.length ≤ 4095 → y.flits.length = min 4095 (x.flits.length + x.queue.length + new.length) ∧
        y.flits.take x.flits.length = x.flits ∧ y.queue = (x.queue ++ new).drop (4095 - x.flits.length)))

/-- A committed packet that its queue has room for is written and counted; on a quarantined socket its token completes QUAR. A completion, OK or
SAVED, and a fault packet that answers a refused translation in time complete the token of a posted packet; any other completion, a fault
packet that answers none (the model's choice, log 91) and a late one are breaches. An acknowledgement of a gpre in time, with nothing owed,
pauses the queue; a late one is a breach, and an early one too (the model's choice, log 45). Acknowledged invalidations leave the list; a
late acknowledgement is a breach. A page that the agent grants is held by the guest; a refused one is noted until its fault packet comes. A
breach quarantines the socket under its code; one of lateness only where something is late. (20_link.md R401 to R405) -/
def Obligations.GuestEvents : Prop :=
  ∀ (s : State) (q : Fin 8) (k : Nat) (j : Fin 4) (ctx : BitVec 11) (tok : Fin 64) (va : BitVec 56) (z : Bool),
    let x := s.guestQueue q
    (∀ g rest, (s.ctxAt k j).outbox = .effect (.guest g) :: rest → (s.ctxAt k j).returning = false → (s.ctxAt k j).pushesOut = false →
      (s.guest.breach = none → gqUsed (s.guestWords g.q) ≠ 2 ^ gqLg (s.guestWords g.q) →
        exec (.guestPacketWrite k j.val g.tok.val) s = .next ((s.modCtx k j fun c => { c with outbox := rest }).writePacket k j g)) ∧
      (s.guest.breach = none → gqUsed (s.guestWords g.q) = 2 ^ gqLg (s.guestWords g.q) → exec (.guestPacketWrite k j.val g.tok.val) s = .next s) ∧
      (∀ b, s.guest.breach = some b → exec (.guestPacketWrite k j.val g.tok.val) s =
        .next ((s.modCtx k j fun c => { c with outbox := rest }).completeToken (s.ctxAt k j).ident g.tok .quar ⟨cGUEST, b.setWidth 64⟩))) ∧
    (s.guest.breach = none →
      ((ctx, tok) ∈ x.posted →
        (let done := fun (t : State) (st : Status) (v : TrapVal) => (t.guestQueue q).posted = x.posted.erase (ctx, tok) ∧
            ∀ (n : Nat) (i : Fin 4), n ∈ s.liveCores → (s.ctxAt n i).ident = s.guestIdent ctx → (s.ctxAt n i).tokens[tok].state = .pending →
              (t.ctxAt n i).tokens[tok].state = .done st v
         Goes s (.guestCompletion q.val ctx tok z) (fun t => done t (if z then .saved else .ok) ⟨0, 0⟩) ∧
         (∀ c r, s.guest.refused.find? (fun r => r.queue == q && r.ctx == ctx && r.page == va.toNat / 4096 && r.cause == c) = some r →
           s.now ≤ r.at_ + 22500 → Goes s (.guestFaultPacket q.val ctx tok c va) fun t => done t .fault ⟨c, info249 0 5 va.toNat⟩ ∧
             t.guest.refused = s.guest.refused.erase r))) ∧
      ((ctx, tok) ∉ x.posted → Goes s (.guestCompletion q.val ctx tok z) fun t => t.guest.breach = some 5) ∧
      (∀ c,
        (s.guest.refused.find? (fun r => r.queue == q && r.ctx == ctx && r.page == va.toNat / 4096 && r.cause == c) = none →
          Goes s (.guestFaultPacket q.val ctx tok c va) fun t => t.guest.breach = some 5) ∧
        (∀ r, s.guest.refused.find? (fun r => r.queue == q && r.ctx == ctx && r.page == va.toNat / 4096 && r.cause == c) = some r →
          (r.at_ + 22500 < s.now → Goes s (.guestFaultPacket q.val ctx tok c va) fun t => t.guest.breach = some 2) ∧
          (s.now ≤ r.at_ + 22500 → (ctx, tok) ∉ x.posted → Goes s (.guestFaultPacket q.val ctx tok c va) fun t => t.guest.breach = some 5))) ∧
      (∀ r rest, x.gpre = r :: rest →
        (s.now ≤ r.sent + 45000 → r.owed = [] → Goes s (.guestPreemptAck q.val) fun t => (t.guestQueue q).paused = true ∧ (t.guestQueue q).gpre = rest) ∧
        (r.sent + 45000 < s.now ∨ r.owed ≠ [] → Goes s (.guestPreemptAck q.val) fun t => t.guest.breach = some 3)) ∧
      (∀ n sent rest, 0 < n → s.guest.invs = sent :: rest →
        (s.now ≤ sent + 22500 → Goes s (.guestInvalidationAck n) fun t => t.guest.invs = (sent :: rest).drop n) ∧
        (sent + 22500 < s.now → Goes s (.guestInvalidationAck n) fun t => t.guest.breach = some 4)) ∧
      (∀ n e, (x.posted.any fun y => y.1 == ctx) = true → s.copyHeld (s.guestWho q) n (if z then 1 else 0) = some e →
        exec (.guestTranslationRequest q.val ctx n z) s = .next (s.dropGuest e.covers)) ∧
      (∀ n u, (x.posted.any fun y => y.1 == ctx) = true → s.copyHeld (s.guestWho q) n (if z then 1 else 0) = none →
        let w := (s.meetGuest q).meetWalk (s.guestWho q).kid n
        ((∀ e, w.translate (w.guestWho q) (if z then .write else .read) n ≠ .copy e) ∧ u = w) ∨
          (∃ e, w.translate (w.guestWho q) (if z then .write else .read) n = .copy e ∧ u = w.ckptCopy e) →
        (∀ t e, u.translate (u.guestWho q) (if z then .write else .read) n = .ok t e → Goes s (.guestTranslationRequest q.val ctx n z) fun v =>
          v.guest.held = (q, n / 4096) :: u.guest.held) ∧
        (∀ c, u.translate (u.guestWho q) (if z then .write else .read) n = .fault c → Goes s (.guestTranslationRequest q.val ctx n z) fun v =>
          v.guest.refused = u.guest.refused ++ [⟨q, ctx, n / 4096, c, u.now⟩] ∧ v.guest.held = u.guest.held)) ∧
      (∀ code : BitVec 4, code ∈ ([1, 5, 6, 7] : List (BitVec 4)) ∨ (code = 2 ∧ ∃ r ∈ s.guest.refused, r.at_ + 22500 < s.now) ∨
          (code = 3 ∧ ∃ y ∈ s.guest.queues, y.2.late s.now = true) ∨ (code = 4 ∧ s.guest.late s.now = true) →
        Goes s (.guestBreach code) fun t => t.guest.breach = some code ∧ (t.linkAt leanTo).state = .quarantined ∧
          t.guest.held = [] ∧ t.guest.invs = []) ∧
      (∀ code : BitVec 4, code = 0 ∨ 7 < code ∨ (code = 2 ∧ ∀ r ∈ s.guest.refused, s.now ≤ r.at_ + 22500) →
        exec (.guestBreach code) s = .next s))

/-- Power-on with no good image, a bad blob or a bad record or route table ends in BOOTFAIL under its code; any other ends READY with KID 0 LIVE
and the field links up, or in BOOTFAIL under the code of a stage that failed. An average above PLIM throttles and one below 95 % stops it. A
write of the host's rings the SSQ's doorbell at SSQDB and the mailbox at GRDB, writes the MSI-X table, and changes nothing elsewhere; under
BOOTFAIL only the mailbox answers. Its exposed memory is read and written. A COH fetch and a write-back change the line's owner, with a
reply; a lost package loses its lines, logged, and CLEAR_LOST_LINES takes them back. The mailboxes' requests take effect where they were
rung and the page asks for them: flash images, tile entries, pinned lines, the Lean-to's release, a ring entry's quiescence and a kernel's
header; the layout of the request page and the telemetry's kinds are the model's choice (log 25), and so are the ranges that the host may
reach and the mask bits of the MSI-X table (log 28), and that power-on may come in every state (log 30). A fatal cause freezes the machine
with its Jozer links and Lean-to DOWN. (09_storage.md R221; 10_line.md R243; 19_reuse.md R372; 20_link.md R389, R393 to R395, R405;
21_yoke.md R411; 22_platform.md R416 to R423) -/
def Obligations.PlatformEvents : Prop :=
  ∀ (s : State) (line n : Nat) (rid : Fin 64),
    let g := s.granger
    let answers := g.state ≠ .booting
    let served := fun (code : Nat) => (answers ∧ s.hostAsks code = true) ∨
      ∃ w kid, g.device = some (w, kid) ∧ w.toNat % 256 = code ∧ g.state = .ready
    ((g.imageA = false → g.imageB = false → Goes s .powerOnReset fun t => t.granger.state = .bootfail ∧ t.granger.code = 1) ∧
      (g.imageA = true ∨ g.imageB = true → g.blob = false → Goes s .powerOnReset fun t => t.granger.state = .bootfail ∧ t.granger.code = 2) ∧
      (g.imageA = true ∨ g.imageB = true → g.blob = true → g.record.valid = false ∨ g.tableOk = false → Goes s .powerOnReset fun t =>
        t.granger.state = .bootfail ∧ t.granger.code = 3) ∧
      (g.imageA = true ∨ g.imageB = true → g.blob = true → g.record.valid = true → g.tableOk = true → Goes s .powerOnReset fun t =>
        t.config = g.record ∧ ((t.granger.state = .ready ∧ (t.kidEntry 0).state = .live ∧ ∀ n, n < 6 → (t.linkAt n).up = true) ∨
          (t.granger.state = .bootfail ∧ (t.granger.code = 4 ∨ t.granger.code = 5))))) ∧
    (let xs := (n :: g.samples).take 100
     (s.config.plim * xs.length < xs.sum → Goes s (.powerSample n) fun t => t.granger.throttled = true ∧ t.granger.samples = xs) ∧
     (100 * xs.sum < 95 * s.config.plim * xs.length → xs.sum ≤ s.config.plim * xs.length → Goes s (.powerSample n) fun t => t.granger.throttled = false)) ∧
    (∀ v, (s.linkAt hostLink).up = true → g.state ≠ .booting →
      (0 < n → n < 16 → Goes s (.hostRegisterWrite n v) fun t => t.granger.rung = true) ∧
      (g.state ≠ .bootfail →
        (n < 8 → exec (.hostRegisterWrite n v) s =
          .next (if n = 0 then s else s.modGranger fun g => { g with rung := true }).ssqRung.sendPending) ∧
        (n < 4096 → Goes s (.hostRegisterWrite (0x10000 + 8 * n) v) fun t => tfind t.msixTable n = some v) ∧
        ((16 ≤ n ∧ n + 8 ≤ 0x10000) ∨ 0x18000 ≤ n → exec (.hostRegisterWrite n v) s = .next s.sendPending)) ∧
      (g.state = .bootfail → n = 0 ∨ 16 ≤ n → exec (.hostRegisterWrite n v) s = .next s)) ∧
    exec .ssqDoorbell s = .next s.ssqRung ∧
    (∀ v, (s.linkAt hostLink).up = false ∨ g.state = .booting → exec (.hostRegisterWrite n v) s = .next s) ∧
    (∀ pa data, g.state = .frozen ∨ g.state = .dumped → within pa data.length (s.config.dump, 0x100000000) = true →
      exec (.cxlMemRequest true pa data) s = .next s) ∧
    (∀ pa data, g.state = .ready ∨ g.state = .frozen ∨ g.state = .dumped → (s.linkAt hostLink).up = true →
      ((s.hostRanges.any (within pa data.length)) = true →
        Goes s (.cxlMemRequest false pa data) (fun t => t.bar = s.physRead pa data.length ∧ t.cores = s.cores) ∧
        (g.state = .ready ∨ within pa data.length (s.config.dump, 0x100000000) = false →
          exec (.cxlMemRequest true pa data) s = .next (s.physWrite pa data))) ∧
      ∀ z, (s.hostRanges.any (within pa data.length)) = false → exec (.cxlMemRequest z pa data) s = .next s) ∧
    (∀ f pkg mask data, s.paKind (64 * line) = .hbm f → pkg ≠ ownPackage → pkg < 8192 → (s.coh.any fun x => x.line == line && x.lost) = false →
      Goes s (.cohRequest line false pkg mask data) (fun t => t.coh = ⟨line, some pkg, false⟩ :: (s.coh.filter fun x => x.line != line) ∧
        t.links = (s.sendPacket pkg 3 none (lineBytes (s.homeLine (s.lineKid line) line))).links) ∧
      Goes s (.cohRequest line true pkg mask data) (fun t => t.coh = ⟨line, none, false⟩ :: (s.coh.filter fun x => x.line != line) ∧
        t.links = (s.sendPacket pkg 3 none []).links)) ∧
    (∀ p, s.coh = [⟨line, some p, false⟩] → Goes s (.packageLoss [line]) fun t => t.coh = [⟨line, none, true⟩] ∧
      t.granger.log = g.log ++ [(4, BitVec.ofNat 64 (64 * line))]) ∧
    (∀ lines m, m ∈ lines → (s.coh.any fun x => x.line == m && x.owner.isSome && !x.lost) = true → Goes s (.packageLoss lines) fun t =>
      (t.coh.any fun x => x.line == m && x.lost) = true ∧ ∀ x ∈ s.coh, x.line ∉ lines → x ∈ t.coh) ∧
    (∀ lines, served 5 → Goes s (.clearLostLines lines) fun t =>
      (∀ x ∈ s.coh, x.line ∉ lines → x ∈ t.coh) ∧ ∀ x ∈ t.coh, x.lost = true → x.line ∉ lines) ∧
    (answers → s.hostAsks 1 = true →
      ∀ nonce, leNat (s.hostRequest 8 32) = nonce.toNat → Goes s (.attest nonce) fun t => t.granger.attested = nonce :: g.attested ∧ t.granger.rung = false) ∧
    (answers → s.hostAsks 2 = true →
      (∀ image, Goes s (.writeFlashImage false image) (fun t => t.granger.flashA = image ∧ t.granger.flashB = g.flashB) ∧
        Goes s (.writeFlashImage true image) (fun t => t.granger.flashB = image ∧ t.granger.flashA = g.flashA))) ∧
    (∀ tiles, served 3 → Goes s (.resetTrtEntries tiles) fun t => (∀ x ∈ tiles, t.tile x = TileEntry.reset) ∧
      (g.device = none ∨ (s.deviceCode = 3 ∧ g.state = .ready) → t.granger.device = none)) ∧
    (∀ pa, served 4 → Goes s (.unpinCribLines pa n) fun t => ∀ m x, (m, x) ∈ t.stackTab → ∀ i y, (i, y) ∈ x.slices → ∀ l ∈ y.lines,
      pa < 64 * l.line + 64 → 64 * l.line < pa + n → l.pinned = false) ∧
    (served 6 → (s.linkAt leanTo).state = .quarantined → Goes s .releaseLeanTo fun t => (t.linkAt leanTo).state = .down ∧ t.guest.breach = none) ∧
    (∀ w kid f h, g.device = some (w, kid) → w.toNat % 256 = 7 → f < 4 → h < 10 → s.deviceOperand = BitVec.ofNat 64 (f + 16 * h + 256 * rid.val) →
      Goes s (.quiesceRingEntry f h rid.val) fun t => (t.ringEntry (10 * f + h) rid.val).ready = false ∧
        (t.ringEntry (10 * f + h) rid.val).epoch = (s.ringEntry (10 * f + h) rid.val).epoch + 1 ∧ t.granger.device = none) ∧
    (∀ w kid ws, g.device = some (w, kid) → w.toNat % 256 = 8 → s.deviceOperand.toNat = n → s.vaWords (superWho kid) n 8 = .ok ws → headerOk ws = true →
      Goes s (.registerKernelHeader kid.toNat n) fun t => t.granger.headers = g.headers ++ [ws.flatMap fun w => leBytes 8 w.toNat] ∧ t.granger.device = none) ∧
    (∀ cause, g.state = .ready → Goes s (.fatalFreeze cause) fun t => t.granger.state = .frozen ∧ t.granger.causes = g.causes ++ [cause] ∧
      ∀ l ∈ leanTo :: jozerLinks, (t.linkAt l).state = .down) ∧
    (∀ cause, g.state = .frozen → Goes s (.fatalFreeze cause) fun t => t.granger.causes = g.causes ++ [cause])

/-- A trap of a context discards its open region, with EPC at REGENT, and restores the checkpoint of its loop stack, positions and ring
registers. It then writes CAUSE and TRAPINFO, saves PL in PPL, sets PL and EXL and goes to TVEC, where a region opens. With EXL set or TVEC
zero the context ends FAULTED: at once where nothing it handed off is left, else once that has performed. At user level a cause other than
SYSCALL and BREAK counts in REGCNT, and past REGLIM the trap delivered is REGLIM, with the cause above the low bits of TRAPINFO. UCE and
YOKEMIS re-enter the region at REGENT without its RM; YOKEMIS is counted in the telemetry. MXMIS takes a rewindable span back to its quiet
boundary, its banks EMPTY and the slots they held presented again, with REGCNT as it was; any other span ends the context FAULTED. A return
from a trap goes to EPC at the level PPL with EXL clear, and opens a region there without its RM. (07_tile.md R181; 12_region.md R265, R276
to R279, R282; 13_context.md R294 to R296; 21_yoke.md R409) -/
def Obligations.TrapsAndReturns : Prop :=
  ∀ (s : State) (cause : Cause) (info : Word),
    let c := s.cur.settle (s.now + 1)
    let d := (s.raise cause info).cur
    let counts := c.super = false ∧ cause ≠ cSYSCALL ∧ cause ≠ cBREAK
    let cnt : Word := if c.sysv rREGCNT < 255#64 then c.sysv rREGCNT + 1 else 255
    let ends := c.exl = true ∨ c.sysv rTVEC = 0
    let entered := d.pc = c.sysv rTVEC ∧ d.sysv rEPC = c.sysv rREGENT ∧ d.sysv rREGENT = c.sysv rTVEC ∧ d.super = true ∧ d.ppl = c.super ∧ d.exl = true ∧
      d.bsup = c.bsup ∧ d.region.buffer = [] ∧ d.region.atomic = none ∧ d.region.deferred = [] ∧ d.loop = s.cur.region.check.loop ∧ d.pos = s.cur.region.check.pos ∧
      (∀ i : Fin 16, d.rings[i] = { s.cur.region.check.rings[i] with eq := s.cur.rings[i].eq }) ∧ d.outbox = s.cur.outbox
    let hard := cause = cUCE ∨ cause = cYOKEMIS
    (cause ≠ cMXMIS →
      (¬ hard → (counts → cnt ≤ c.sysv rREGLIM) → ¬ ends → entered ∧ d.sysv rCAUSE = cause.setWidth 64 ∧ d.sysv rTRAPINFO = info ∧
        d.sysv rREGCNT = (if c.super = false ∧ cause ≠ cSYSCALL ∧ cause ≠ cBREAK then cnt else c.sysv rREGCNT)) ∧
      (counts → c.sysv rREGLIM < cnt → ¬ ends → entered ∧ d.sysv rCAUSE = cREGLIM.setWidth 64 ∧ d.sysv rREGCNT = cnt ∧
        d.sysv rTRAPINFO = ((cause.setWidth 64 <<< 56) ||| (info &&& 0x00FFFFFFFFFFFFFF#64))) ∧
      (¬ hard → ends → s.cur.outbox ≠ [] → d.state = .closing ∧ d.closing = some .faulted) ∧
      (¬ hard → ends → s.cur.outbox = [] → s.cur.atomics = [] → s.cur.flights = [] → s.cur.sigs = [] → ∃ regs, d = { Context.reset s.issue.slot.val with regs := regs }) ∧
      (hard → (counts → cnt ≤ c.sysv rREGLIM) → d.pc = c.sysv rREGENT ∧ d.skipRm = true ∧ d.sysv rSTATUS = c.sysv rSTATUS ∧ d.region.buffer = [] ∧
        d.loop = s.cur.region.check.loop ∧
        (s.raise cause info).granger.log = s.granger.log ++ (if cause = cYOKEMIS then [(6, BitVec.ofNat 64 (s.issue.core / 2))] else []))) ∧
      (cause = cMXMIS → c.span.rewindable = true → d.pc = c.span.addr ∧ d.sysv rREGENT = c.span.addr ∧ d.sysv rREGCNT = c.sysv rREGCNT ∧ d.skipRm = true ∧
        d.region.buffer = [] ∧ d.region.atomic = none ∧ d.loop = c.span.check.loop ∧ d.pos = c.span.check.pos ∧ d.span.rewindable = false ∧
        (∀ m, c.member = some m → d.member = some { m with sect := c.span.sect, iter := c.span.iter }) ∧
        ∀ b : Fin 4, (s.core s.issue.core).banks[b].owner = some s.issue.slot →
          ((s.raise cause info).core s.issue.core).banks[b].state = .empty ∧ ((s.raise cause info).core s.issue.core).banks[b].owner = some s.issue.slot ∧
          ∀ h ∈ (s.core s.issue.core).banks[b].held, c.rings[h.rb].eq - h.q ≤ c.rings[h.rb].eq - d.rings[h.rb].eq) ∧
      (cause = cMXMIS → c.span.rewindable = false →
        (s.cur.outbox ≠ [] → d.state = .closing ∧ d.closing = some .faulted ∧ d.sysv rCAUSE = cMXMIS.setWidth 64 ∧ d.sysv rTRAPINFO = info) ∧
        (s.cur.outbox = [] → s.cur.atomics = [] → s.cur.flights = [] → s.cur.sigs = [] → ∃ regs, d = { Context.reset s.issue.slot.val with regs := regs })) ∧
      (let r := (s.trapReturn s.issue.core s.issue.slot).cur
       r.pc = c.sysv rEPC ∧ r.super = c.ppl ∧ r.ppl = c.ppl ∧ r.exl = false ∧ r.bsup = c.bsup ∧ r.skipRm = true ∧ r.sysv rREGENT = c.sysv rEPC ∧
        r.region.buffer = [] ∧ r.state = .running)

/-- A walk that succeeds gives a leaf of one of the four page sizes, its page and its frame aligned to the size, as it stands at the entry's
address. A translation that succeeds lies at the same offset in the frame, under the leaf's KID, which is not DEAD, with W for a write, X
for a fetch and U at user level; without PR it is the frame's own address. An address beyond 56 bits raises PFAULT, one in the scratchpad's
window PPROT, a KID that is not LIVE KEYDEAD, and a right that the leaf does not give PPROT. (11_page.md R244 to R247, R249, R252, R255) -/
def Obligations.Translation : Prop :=
  ∀ (s : State) (w : Who) (acc : Access) (va : Nat),
    (∀ e, s.walk w.kid va = .ok e → (e.size = 0x1000 ∨ e.size = 0x10000 ∨ e.size = 0x800000 ∨ e.size = 0x400000000) ∧ e.base % e.size = 0 ∧
      e.base ≤ va ∧ va < e.base + e.size ∧ ptePfn e.leaf * 4096 % e.size = 0 ∧ e.leaf = s.physWord e.entry ∧ e.kid = w.kid) ∧
    (∀ t e, s.translate w acc va = .ok t e → s.walk w.kid va = .ok e ∧ t.place = .phys ∧ t.addr % e.size = va % e.size ∧ t.kid = pteKid e.leaf ∧
      t.pkg = ptePkg e.leaf ∧ (s.kidEntry t.kid).state ≠ .dead ∧ s.paKind t.addr ≠ .nothing ∧ (acc = .write → pteW e.leaf = true) ∧ (acc = .fetch → pteX e.leaf = true) ∧
      (w.super = false → pteU e.leaf = true) ∧ (ptePr e.leaf = 0 → t.addr = ptePfn e.leaf * 4096 + va % e.size)) ∧
    (2 ^ 56 ≤ va → s.translate w acc va = .fault cPFAULT) ∧
    (loftBase ≤ va → va < 2 ^ 56 → s.translate w acc va = .fault cPPROT) ∧
    (va < loftBase → (s.kidEntry w.kid).state ≠ .live → s.translate w acc va = .fault cKEYDEAD) ∧
    (va < loftBase → (s.kidEntry w.kid).state = .live →
      (∀ c, s.walk w.kid va = .error c → s.translate w acc va = .fault c) ∧
      (∀ e, s.walk w.kid va = .ok e → (acc = .write ∧ pteW e.leaf = false) ∨ (acc = .fetch ∧ pteX e.leaf = false) ∨ (w.super = false ∧ pteU e.leaf = false) →
        s.translate w acc va = .fault cPPROT))

/-- A result of latency n for a register leaves every register as it was in the cycles before the n-th; from that cycle on the register reads
the result, whatever results were on their way to it before, and every other register reads as without it; DOMAIN keeps its read-only
fields, and what is still to be merged into MAXMAG or ORed into FPFLAGS lands there later all the same (the model's choice, log 79). A
bundle one of whose slots reads or writes a register with an interlocked result still to come waits. (02_bundle.md R31 to R33; 04_scalar.md
R83, R84) -/
def Obligations.LandingAndLatency : Prop :=
  ∀ (s : State) (n : Nat),
    (∀ (v : RegVal) (r : Reg), v.reg = some r →
      (∀ m, m < s.now + n → ((s.put v n).cur.settle m).regs = (s.cur.settle m).regs) ∧
      SameRegs s.cur (s.put v n).cur (fun x => x == r)) ∧
    (∀ m, s.now + n ≤ m →
      (∀ r x, r.val ≠ 0 → ((s.put (.s r x) n).cur.settle m).regs.s[r] = x) ∧ (∀ r x, r.val ≠ 0 → ((s.put (.p r x) n).cur.settle m).regs.p[r] = x) ∧
      (∀ r x, ((s.put (.v r x) n).cur.settle m).regs.v[r] = x) ∧ (∀ r x, ((s.put (.k r x) n).cur.settle m).regs.k[r] = x) ∧
      (∀ r x, r ≠ rDOMAIN → r ≠ rMAXMAG → r ≠ rFPFLAGS → ((s.put (.sys r x) n).cur.settle m).regs.sys[r] = x) ∧
      (∀ r x, r ≠ rDOMAIN → (∀ w ∈ s.cur.pend, w.val.reg ≠ none) → ((s.put (.sys r x) n).cur.settle m).regs.sys[r] = x) ∧
      (∀ x, ((s.put (.sys rDOMAIN x) n).cur.settle m).regs.sys[rDOMAIN] = (s.cur.sysv rDOMAIN &&& domainRo) ||| (x &&& ~~~domainRo)) ∧
      (∀ r x, ((s.put (.mp r x) n).cur.settle m).regs.mp[r] = x)) ∧
    (∀ (v : RegVal) (w : PendingWrite), w ∈ s.cur.pend → w.val.reg = none → w ∈ (s.put v n).cur.pend) ∧
    (∀ (x : Word) (nan : Bool) (mag : BitVec 31) (f : BitVec 5) (due m : Nat), s.now + n < due → due ≤ m →
      (s.cur.pend = [⟨.mergeMag nan mag, due⟩] → ((s.put (.sys rMAXMAG x) n).cur.settle m).regs.sys[rMAXMAG] = mergeMaxmag x nan mag) ∧
      (s.cur.pend = [⟨.orFlags f, due⟩] → ((s.put (.sys rFPFLAGS x) n).cur.settle m).regs.sys[rFPFLAGS] = x ||| f.setWidth 64)) ∧
    (∀ (ss : List Slot) (x : Indexed) (r : Reg), x ∈ s.active ss → r ∈ s.slotReads x.2.op ++ s.slotWrites x.2.op → s.cur.inFlight r = true → s.mustWait ss = true)

/-- Each scalar arithmetic, immediate, bit, compare and register-reading form that goes on changes no memory, no cache, no other context and no
other agent, and of its own context no register but its destination (and INJECT, which a scalar write may disarm, R415), at every later
cycle; the windrows, ring registers, tokens, loop stack, region and pc stay as they are. (02_bundle.md R31; 04_scalar.md R86 to R92;
21_yoke.md R415) -/
def Obligations.RegisterFormFrame : Prop :=
  ∀ (s : State) (d : SReg) (a b : Src) (p q r : Fin 16) (m : BitVec 7) (c : BitVec 6) (z : Bool) (k : Fin 8) (x : Fin 20) (y : Fin 17),
    (∀ i ∈ [Instr.add d a b, .sub d a b, .mul d a b, .mulh d a b, .mulhn d a b, .and d a b, .or d a b, .xor d a b, .andn d a b, .shl d a b, .shr d a b, .sar d a b,
        .min d a b, .max d a b, .minn d a b, .maxn d a b, .addi d a m, .andi d a m, .ori d a m, .xori d a m, .shli d a c, .shri d a c, .sari d a c, .rsubi d a m,
        .clz d a, .ctz d a, .popc d a, .brev d a, .bswap d a, .sext d a b, .zext d a b, .bfx d a b, .bfi d a b, .abs d a, .neg d a, .rdsys d x, .srd d y, .mmrd d, .sigrd d],
      ∃ t, exec i s = .next t ∧ (t = s ∨ OnlyCur s t) ∧ t.issue = s.issue ∧ SameRegs s.cur t.cur (fun g => g == .s d || g == .sys rINJECT) ∧
        t.cur.windrows = s.cur.windrows ∧ t.cur.rings = s.cur.rings ∧ t.cur.tokens = s.cur.tokens ∧ t.cur.loop = s.cur.loop ∧ t.cur.region = s.cur.region ∧
        t.cur.pc = s.cur.pc ∧ t.mem = s.mem ∧ ∀ n, (t.core n).loft = (s.core n).loft) ∧
    (∀ i ∈ [Instr.ceq p z a b, .cne p z a b, .clt p z a b, .cge p z a b, .cltn p z a b, .cgen p z a b, .ctst p z a b, .pand p z q r, .por p z q r, .pxor p z q r,
        .pandn p z q r, .pset p z true, .kany p z k, .kall p z k, .knone p z k],
      ∃ t, exec i s = .next t ∧ (t = s ∨ OnlyCur s t) ∧ t.issue = s.issue ∧ SameRegs s.cur t.cur (fun g => g == .p p || (z && g == .p (p + 1))) ∧
        t.cur.windrows = s.cur.windrows ∧ t.cur.loop = s.cur.loop ∧ t.cur.region = s.cur.region ∧ t.cur.pc = s.cur.pc ∧ t.mem = s.mem ∧
        ∀ n, (t.core n).loft = (s.core n).loft)

/-- After reset the Granger is BOOTING, every context slot is FREE with its system registers at the values the spec gives (RNGSEED at the
model's choice, log 2), its windrows IDLE, its ring registers UNBOUND, its tokens IDLE and its loop stack empty; banks are EMPTY, ring-table
entries UNINIT, queues OFF, tile entries zero, KIDs FREE, links DOWN and the Step Sequencer IDLE with its registers zero. Memory lists
nothing, by the model's choice (log 3), and is in its canonical form. (03_numbers.md R75, R77; 06_windrow.md R131; 08_ring.md R185, R191;
10_line.md R238; 11_page.md R252; 12_region.md R266; 13_context.md R285, R289; 15_queue.md R326; 18_step.md R355, R357; 19_reuse.md R372;
20_link.md R389; 22_platform.md R416) -/
def Obligations.ResetState : Prop :=
  let s := State.reset
  Memory.wf s.mem = true ∧ s.mem = [] ∧ s.granger.state = .booting ∧ s.ssq.state = .idle ∧ (∀ i : Fin 17, s.ssq.step[i] = 0) ∧
  (∀ (k : Nat) (j : Fin 4), let c := s.ctxAt k j
    c.state = .free ∧ c.loop.levels = [] ∧ c.region.buffer = [] ∧ c.super = false ∧ c.sysv rSTATUS = BitVec.ofNat 64 (64 * j.val) ∧
    c.sysv rREGCNT = 0 ∧ c.sysv rREGLIM = 3 ∧ c.sysv rPREBOUND = 65536 ∧ c.sysv rFPMODE = 8 ∧ c.sysv rFPFLAGS = 0 ∧ c.sysv rRNGSEED = 1 ∧ c.sysv rMAXMAG = 0 ∧
    c.sysv rSIGREG = 0 ∧ c.sysv rSLICE = 64 ∧ c.sysv rINJECT = 0 ∧ (∀ w : Fin 16, c.windrows[w].state = .idle ∧ c.rings[w].state = .unbound) ∧
    (∀ t : Fin 64, c.tokens[t].state = .idle) ∧ (s.core k).locked = isControl k) ∧
  (∀ (k : Nat) (b : Fin 4), (s.core k).banks[b].state = .empty ∧ (s.core k).banks[b].owner = none) ∧
  (∀ h r, (s.ringEntry h r).ready = false) ∧ (∀ f q, (s.queue f q).state = .off) ∧ (∀ t, s.tile t = TileEntry.reset) ∧
  (∀ k, (s.kidEntry k).state = .free) ∧ (∀ n, (s.linkAt n).state = .down)

/-- From every state whose memory lists rising addresses and no zero byte, every step (a bundle, a micro-operation, a node, any event, the dump,
an error, a guest's write) leaves a memory of that form. (09_storage.md R216; 11_page.md R254) -/
def Obligations.MemoryInvariantStep : Prop :=
  ∀ s t : State, Memory.wf s.mem = true → step s = .next t → Memory.wf t.mem = true

/-- After a store of a core performs in its L1, every core of its sheaf reads the stored bytes, whatever lines the L1s held, kept or replaced,
of a line that is not LOST. Once the dirty lines that the core's releases cover are written back, the line's home holds them (of another
package's line, where no L1 holds it under another KID). A write at the home of an HBM line under a live KID is read back there, byte by
byte under its mask, and no other line of HBM changes for any KID, nor that line under another KID where the carve holds no clean copy of
it. (09_storage.md R214; 10_line.md R223, R224, R230; 11_page.md R254) -/
def Obligations.CoherentStores : Prop :=
  (∀ (s : State) (k j : Nat) (x y : Trans) (line : Nat) (mask : BitVec 64) (data : Line) (i : Nat),
    sheafOf j = sheafOf k → y.kid = x.kid → i < 64 → mask.getLsbD i = true → s.lostLine line = false →
    let t := s.l1Write k x line mask data
    lineByte (t.l1Line j y line).1 i = lineByte data i ∧
    (line < 2 ^ 37 ∨ (∀ c z, z ∈ (s.core c).l1 → z.line = line → z.kid = x.kid) → lineByte ((t.writeBack k).homeLine x.kid line) i = lineByte data i)) ∧
  (∀ (s : State) (x y : Trans) (f g : Nat) (mask : BitVec 64) (data : Line) (i : Nat),
    x.place = .phys → y.place = .phys → x.pkg = ownPackage → y.pkg = ownPackage → s.paKind x.addr = .hbm f → s.paKind y.addr = .hbm g → i < 64 →
    (s.kidEntry x.kid).state ≠ .dead → (s.coh.any fun z => z.line == x.addr / 64 && z.lost) = false →
    let t := s.writeHome x mask data
    lineByte (t.readHome x) i = (if mask.getLsbD i then lineByte data i else lineByte (s.readHome x) i) ∧
    (y.addr / 64 ≠ x.addr / 64 ∨ (y.kid ≠ x.kid ∧ ∀ l ∈ (s.field g).l2, l.line = y.addr / 64 → l.kid = y.kid → l.dirty ≠ 0) →
      t.readHome y = s.readHome y))

/-- A run of a REUSE launch block takes the way that holds its key, else an INVALID way, else the oldest VALID one, never a PENDING one; when
the key's way or all four ways are PENDING it runs untracked: it takes no entry and its rrec records nothing. (R376) -/
def Obligations.ReuseWays : Prop :=
  ∀ (s : State) (f : Nat) (lb : HeldLb), s.findRun f lb.run = some lb → lb.entry = none →
    let key := lbKey lb.words
    let set := reuseSet key
    let way := fun (w : Fin 4) => s.reuseAt f set w
    let t := s.decideRun f lb
    let holds := fun (w : Fin 4) => (way w).state ≠ .invalid ∧ (way w).key = key
    let takes := fun (w : Fin 4) => (∃ l, t.findRun f lb.run = some l ∧ l.entry = some (set, w)) ∧ (t.reuseAt f set w).state = .pending ∧ (t.reuseAt f set w).key = key
    let untracked := (∃ l, t.findRun f lb.run = some l ∧ l.entry = none) ∧ ∀ m : Member, m.field = f → m.run = lb.run → t.recordRun m = t
    (∀ v w, holds v → holds w → v = w) →
      (∀ w, holds w → (way w).state ≠ .pending → takes w) ∧
      (∀ w, holds w → (way w).state = .pending → untracked) ∧
      ((∀ w, ¬ holds w) → (∃ w, (way w).state = .invalid) → ∃ w, (way w).state = .invalid ∧ takes w) ∧
      (∀ w, (∀ v, ¬ holds v) → (∀ v, (way v).state ≠ .invalid) → (way w).state = .valid → (∀ v, (way v).state = .valid → v ≠ w → (way v).age < (way w).age) → takes w) ∧
      ((∀ w, (way w).state = .pending) → untracked) ∧
      (∀ w, (∃ l, t.findRun f lb.run = some l ∧ l.entry = some (set, w)) → (way w).state ≠ .pending)
end

