-- ==== Sys2Proof/Laws/Exec.lean ====
section
/-! SUPPORT. exec of each constructor is its meaning: the dispatch is never unfolded in a proof. -/

namespace Sys2Proof.Machine

@[simp] theorem exec_bc stall y lend rm brk run s : exec (.bc stall y lend rm brk run) s = execBc stall y lend rm brk run s := rfl
@[simp] theorem exec_add d a b s : exec (.add d a b) s = execAdd d a b s := rfl
@[simp] theorem exec_sub d a b s : exec (.sub d a b) s = execSub d a b s := rfl
@[simp] theorem exec_mul d a b s : exec (.mul d a b) s = execMul d a b s := rfl
@[simp] theorem exec_mulh d a b s : exec (.mulh d a b) s = execMulh d a b s := rfl
@[simp] theorem exec_mulhn d a b s : exec (.mulhn d a b) s = execMulhn d a b s := rfl
@[simp] theorem exec_and d a b s : exec (.and d a b) s = execAnd d a b s := rfl
@[simp] theorem exec_or d a b s : exec (.or d a b) s = execOr d a b s := rfl
@[simp] theorem exec_xor d a b s : exec (.xor d a b) s = execXor d a b s := rfl
@[simp] theorem exec_andn d a b s : exec (.andn d a b) s = execAndn d a b s := rfl
@[simp] theorem exec_shl d a b s : exec (.shl d a b) s = execShl d a b s := rfl
@[simp] theorem exec_shr d a b s : exec (.shr d a b) s = execShr d a b s := rfl
@[simp] theorem exec_sar d a b s : exec (.sar d a b) s = execSar d a b s := rfl
@[simp] theorem exec_min d a b s : exec (.min d a b) s = execMin d a b s := rfl
@[simp] theorem exec_max d a b s : exec (.max d a b) s = execMax d a b s := rfl
@[simp] theorem exec_minn d a b s : exec (.minn d a b) s = execMinn d a b s := rfl
@[simp] theorem exec_maxn d a b s : exec (.maxn d a b) s = execMaxn d a b s := rfl
@[simp] theorem exec_addi d a imm s : exec (.addi d a imm) s = execAddi d a imm s := rfl
@[simp] theorem exec_andi d a imm s : exec (.andi d a imm) s = execAndi d a imm s := rfl
@[simp] theorem exec_ori d a imm s : exec (.ori d a imm) s = execOri d a imm s := rfl
@[simp] theorem exec_xori d a imm s : exec (.xori d a imm) s = execXori d a imm s := rfl
@[simp] theorem exec_shli d a imm s : exec (.shli d a imm) s = execShli d a imm s := rfl
@[simp] theorem exec_shri d a imm s : exec (.shri d a imm) s = execShri d a imm s := rfl
@[simp] theorem exec_sari d a imm s : exec (.sari d a imm) s = execSari d a imm s := rfl
@[simp] theorem exec_rsubi d a imm s : exec (.rsubi d a imm) s = execRsubi d a imm s := rfl
@[simp] theorem exec_div d a b s : exec (.div d a b) s = execDiv d a b s := rfl
@[simp] theorem exec_divn d a b s : exec (.divn d a b) s = execDivn d a b s := rfl
@[simp] theorem exec_rem d a b s : exec (.rem d a b) s = execRem d a b s := rfl
@[simp] theorem exec_remn d a b s : exec (.remn d a b) s = execRemn d a b s := rfl
@[simp] theorem exec_clz d a s : exec (.clz d a) s = execClz d a s := rfl
@[simp] theorem exec_ctz d a s : exec (.ctz d a) s = execCtz d a s := rfl
@[simp] theorem exec_popc d a s : exec (.popc d a) s = execPopc d a s := rfl
@[simp] theorem exec_brev d a s : exec (.brev d a) s = execBrev d a s := rfl
@[simp] theorem exec_bswap d a s : exec (.bswap d a) s = execBswap d a s := rfl
@[simp] theorem exec_sext d a b s : exec (.sext d a b) s = execSext d a b s := rfl
@[simp] theorem exec_zext d a b s : exec (.zext d a b) s = execZext d a b s := rfl
@[simp] theorem exec_bfx d a b s : exec (.bfx d a b) s = execBfx d a b s := rfl
@[simp] theorem exec_bfi d a b s : exec (.bfi d a b) s = execBfi d a b s := rfl
@[simp] theorem exec_abs d a s : exec (.abs d a) s = execAbs d a s := rfl
@[simp] theorem exec_neg d a s : exec (.neg d a) s = execNeg d a s := rfl
@[simp] theorem exec_fadd d a b s : exec (.fadd d a b) s = execFadd d a b s := rfl
@[simp] theorem exec_fsub d a b s : exec (.fsub d a b) s = execFsub d a b s := rfl
@[simp] theorem exec_fmul d a b s : exec (.fmul d a b) s = execFmul d a b s := rfl
@[simp] theorem exec_fdiv d a b s : exec (.fdiv d a b) s = execFdiv d a b s := rfl
@[simp] theorem exec_fsqrt d a s : exec (.fsqrt d a) s = execFsqrt d a s := rfl
@[simp] theorem exec_fmin d a b s : exec (.fmin d a b) s = execFmin d a b s := rfl
@[simp] theorem exec_fmax d a b s : exec (.fmax d a b) s = execFmax d a b s := rfl
@[simp] theorem exec_fabs d a s : exec (.fabs d a) s = execFabs d a s := rfl
@[simp] theorem exec_fneg d a s : exec (.fneg d a) s = execFneg d a s := rfl
@[simp] theorem exec_fitof d a s : exec (.fitof d a) s = execFitof d a s := rfl
@[simp] theorem exec_ftoi d a s : exec (.ftoi d a) s = execFtoi d a s := rfl
@[simp] theorem exec_fround d a s : exec (.fround d a) s = execFround d a s := rfl
@[simp] theorem exec_ceq p cflag a b s : exec (.ceq p cflag a b) s = execCeq p cflag a b s := rfl
@[simp] theorem exec_cne p cflag a b s : exec (.cne p cflag a b) s = execCne p cflag a b s := rfl
@[simp] theorem exec_clt p cflag a b s : exec (.clt p cflag a b) s = execClt p cflag a b s := rfl
@[simp] theorem exec_cge p cflag a b s : exec (.cge p cflag a b) s = execCge p cflag a b s := rfl
@[simp] theorem exec_cltn p cflag a b s : exec (.cltn p cflag a b) s = execCltn p cflag a b s := rfl
@[simp] theorem exec_cgen p cflag a b s : exec (.cgen p cflag a b) s = execCgen p cflag a b s := rfl
@[simp] theorem exec_ctst p cflag a b s : exec (.ctst p cflag a b) s = execCtst p cflag a b s := rfl
@[simp] theorem exec_fceq p cflag a b s : exec (.fceq p cflag a b) s = execFceq p cflag a b s := rfl
@[simp] theorem exec_fclt p cflag a b s : exec (.fclt p cflag a b) s = execFclt p cflag a b s := rfl
@[simp] theorem exec_fcle p cflag a b s : exec (.fcle p cflag a b) s = execFcle p cflag a b s := rfl
@[simp] theorem exec_fcun p cflag a b s : exec (.fcun p cflag a b) s = execFcun p cflag a b s := rfl
@[simp] theorem exec_pand p cflag q r s : exec (.pand p cflag q r) s = execPand p cflag q r s := rfl
@[simp] theorem exec_por p cflag q r s : exec (.por p cflag q r) s = execPor p cflag q r s := rfl
@[simp] theorem exec_pxor p cflag q r s : exec (.pxor p cflag q r) s = execPxor p cflag q r s := rfl
@[simp] theorem exec_pandn p cflag q r s : exec (.pandn p cflag q r) s = execPandn p cflag q r s := rfl
@[simp] theorem exec_pset p cflag v s : exec (.pset p cflag v) s = execPset p cflag v s := rfl
@[simp] theorem exec_kany p cflag k s : exec (.kany p cflag k) s = execKany p cflag k s := rfl
@[simp] theorem exec_kall p cflag k s : exec (.kall p cflag k) s = execKall p cflag k s := rfl
@[simp] theorem exec_knone p cflag k s : exec (.knone p cflag k) s = execKnone p cflag k s := rfl
@[simp] theorem exec_br o s : exec (.br o) s = execBr o s := rfl
@[simp] theorem exec_call o s : exec (.call o) s = execCall o s := rfl
@[simp] theorem exec_bi a s : exec (.bi a) s = execBi a s := rfl
@[simp] theorem exec_calli a s : exec (.calli a) s = execCalli a s := rfl
@[simp] theorem exec_ret a s : exec (.ret a) s = execRet a s := rfl
@[simp] theorem exec_bk k o s : exec (.bk k o) s = execBk k o s := rfl
@[simp] theorem exec_bkn k o s : exec (.bkn k o) s = execBkn k o s := rfl
@[simp] theorem exec_loop a o s : exec (.loop a o) s = execLoop a o s := rfl
@[simp] theorem exec_loopi n o s : exec (.loopi n o) s = execLoopi n o s := rfl
@[simp] theorem exec_lexit l s : exec (.lexit l) s = execLexit l s := rfl
@[simp] theorem exec_rdlp d x l s : exec (.rdlp d x l) s = execRdlp d x l s := rfl
@[simp] theorem exec_wrlp a x l s : exec (.wrlp a x l) s = execWrlp a x l s := rfl
@[simp] theorem exec_replay a n s : exec (.replay a n) s = execReplay a n s := rfl
@[simp] theorem exec_stgset p n s : exec (.stgset p n) s = execStgset p n s := rfl
@[simp] theorem exec_ldb d b m e s : exec (.ldb d b m e) s = execLdb d b m e s := rfl
@[simp] theorem exec_ldh d b m e s : exec (.ldh d b m e) s = execLdh d b m e s := rfl
@[simp] theorem exec_ldw d b m e s : exec (.ldw d b m e) s = execLdw d b m e s := rfl
@[simp] theorem exec_ldd d b m e s : exec (.ldd d b m e) s = execLdd d b m e s := rfl
@[simp] theorem exec_ldv256 v b m e s : exec (.ldv256 v b m e) s = execLdv256 v b m e s := rfl
@[simp] theorem exec_ldv512 v b m e s : exec (.ldv512 v b m e) s = execLdv512 v b m e s := rfl
@[simp] theorem exec_ldv1k v b m e s : exec (.ldv1k v b m e) s = execLdv1k v b m e s := rfl
@[simp] theorem exec_ldbc v b m e s : exec (.ldbc v b m e) s = execLdbc v b m e s := rfl
@[simp] theorem exec_stb a b m e s : exec (.stb a b m e) s = execStb a b m e s := rfl
@[simp] theorem exec_sth a b m e s : exec (.sth a b m e) s = execSth a b m e s := rfl
@[simp] theorem exec_stw a b m e s : exec (.stw a b m e) s = execStw a b m e s := rfl
@[simp] theorem exec_std a b m e s : exec (.std a b m e) s = execStd a b m e s := rfl
@[simp] theorem exec_stv256 v b m e s : exec (.stv256 v b m e) s = execStv256 v b m e s := rfl
@[simp] theorem exec_stv512 v b m e s : exec (.stv512 v b m e) s = execStv512 v b m e s := rfl
@[simp] theorem exec_stv1k v b m e s : exec (.stv1k v b m e) s = execStv1k v b m e s := rfl
@[simp] theorem exec_stvk v b k e s : exec (.stvk v b k e) s = execStvk v b k e s := rfl
@[simp] theorem exec_aswap d a b y z s : exec (.aswap d a b y z) s = execAswap d a b y z s := rfl
@[simp] theorem exec_aadd d a b y z s : exec (.aadd d a b y z) s = execAadd d a b y z s := rfl
@[simp] theorem exec_aand d a b y z s : exec (.aand d a b y z) s = execAand d a b y z s := rfl
@[simp] theorem exec_aor d a b y z s : exec (.aor d a b y z) s = execAor d a b y z s := rfl
@[simp] theorem exec_amax d a b y z s : exec (.amax d a b y z) s = execAmax d a b y z s := rfl
@[simp] theorem exec_amin d a b y z s : exec (.amin d a b y z) s = execAmin d a b y z s := rfl
@[simp] theorem exec_acas d a b y z s : exec (.acas d a b y z) s = execAcas d a b y z s := rfl
@[simp] theorem exec_afadd d a b z s : exec (.afadd d a b z) s = execAfadd d a b z s := rfl
@[simp] theorem exec_fence z o s : exec (.fence z o) s = execFence z o s := rfl
@[simp] theorem exec_drain s : exec .drain s = execDrain s := rfl
@[simp] theorem exec_lda d b y z s : exec (.lda d b y z) s = execLda d b y z s := rfl
@[simp] theorem exec_strl a b y z s : exec (.strl a b y z) s = execStrl a b y z s := rfl
@[simp] theorem exec_waiteng t s : exec (.waiteng t) s = execWaiteng t s := rfl
@[simp] theorem exec_arrive b s : exec (.arrive b) s = execArrive b s := rfl
@[simp] theorem exec_waitb b s : exec (.waitb b) s = execWaitb b s := rfl
@[simp] theorem exec_rdv b s : exec (.rdv b) s = execRdv b s := rfl
@[simp] theorem exec_gphase s : exec .gphase s = execGphase s := rfl
@[simp] theorem exec_vaddI8 w d a b s : exec (.vaddI8 w d a b) s = execVaddI8 w d a b s := rfl
@[simp] theorem exec_vaddI16 w d a b s : exec (.vaddI16 w d a b) s = execVaddI16 w d a b s := rfl
@[simp] theorem exec_vaddI32 w d a b s : exec (.vaddI32 w d a b) s = execVaddI32 w d a b s := rfl
@[simp] theorem exec_vsubI8 w d a b s : exec (.vsubI8 w d a b) s = execVsubI8 w d a b s := rfl
@[simp] theorem exec_vsubI16 w d a b s : exec (.vsubI16 w d a b) s = execVsubI16 w d a b s := rfl
@[simp] theorem exec_vsubI32 w d a b s : exec (.vsubI32 w d a b) s = execVsubI32 w d a b s := rfl
@[simp] theorem exec_vmulI16 w d a b s : exec (.vmulI16 w d a b) s = execVmulI16 w d a b s := rfl
@[simp] theorem exec_vmulI32 w d a b s : exec (.vmulI32 w d a b) s = execVmulI32 w d a b s := rfl
@[simp] theorem exec_vmulhI32 w d a b s : exec (.vmulhI32 w d a b) s = execVmulhI32 w d a b s := rfl
@[simp] theorem exec_vminI32 w d a b s : exec (.vminI32 w d a b) s = execVminI32 w d a b s := rfl
@[simp] theorem exec_vmaxI32 w d a b s : exec (.vmaxI32 w d a b) s = execVmaxI32 w d a b s := rfl
@[simp] theorem exec_vminnN32 w d a b s : exec (.vminnN32 w d a b) s = execVminnN32 w d a b s := rfl
@[simp] theorem exec_vmaxnN32 w d a b s : exec (.vmaxnN32 w d a b) s = execVmaxnN32 w d a b s := rfl
@[simp] theorem exec_vand w d a b s : exec (.vand w d a b) s = execVand w d a b s := rfl
@[simp] theorem exec_vor w d a b s : exec (.vor w d a b) s = execVor w d a b s := rfl
@[simp] theorem exec_vxor w d a b s : exec (.vxor w d a b) s = execVxor w d a b s := rfl
@[simp] theorem exec_vandn w d a b s : exec (.vandn w d a b) s = execVandn w d a b s := rfl
@[simp] theorem exec_vshlI32 w d a b s : exec (.vshlI32 w d a b) s = execVshlI32 w d a b s := rfl
@[simp] theorem exec_vshrN32 w d a b s : exec (.vshrN32 w d a b) s = execVshrN32 w d a b s := rfl
@[simp] theorem exec_vsarI32 w d a b s : exec (.vsarI32 w d a b) s = execVsarI32 w d a b s := rfl
@[simp] theorem exec_vaddsI8 w d a b s : exec (.vaddsI8 w d a b) s = execVaddsI8 w d a b s := rfl
@[simp] theorem exec_vaddsI16 w d a b s : exec (.vaddsI16 w d a b) s = execVaddsI16 w d a b s := rfl
@[simp] theorem exec_vsubsI8 w d a b s : exec (.vsubsI8 w d a b) s = execVsubsI8 w d a b s := rfl
@[simp] theorem exec_vsubsI16 w d a b s : exec (.vsubsI16 w d a b) s = execVsubsI16 w d a b s := rfl
@[simp] theorem exec_vceqI32 w k a b s : exec (.vceqI32 w k a b) s = execVceqI32 w k a b s := rfl
@[simp] theorem exec_vcltI32 w k a b s : exec (.vcltI32 w k a b) s = execVcltI32 w k a b s := rfl
@[simp] theorem exec_vcltnN32 w k a b s : exec (.vcltnN32 w k a b) s = execVcltnN32 w k a b s := rfl
@[simp] theorem exec_vabsI32 w d a s : exec (.vabsI32 w d a) s = execVabsI32 w d a s := rfl
@[simp] theorem exec_vmadI16 w d a b s : exec (.vmadI16 w d a b) s = execVmadI16 w d a b s := rfl
@[simp] theorem exec_vdot4I8 w d a b s : exec (.vdot4I8 w d a b) s = execVdot4I8 w d a b s := rfl
@[simp] theorem exec_vclzI32 w d a s : exec (.vclzI32 w d a) s = execVclzI32 w d a s := rfl
@[simp] theorem exec_vpopcI32 w d a s : exec (.vpopcI32 w d a) s = execVpopcI32 w d a s := rfl
@[simp] theorem exec_vfaddF32 w d a b s : exec (.vfaddF32 w d a b) s = execVfaddF32 w d a b s := rfl
@[simp] theorem exec_vfsubF32 w d a b s : exec (.vfsubF32 w d a b) s = execVfsubF32 w d a b s := rfl
@[simp] theorem exec_vfmulF32 w d a b s : exec (.vfmulF32 w d a b) s = execVfmulF32 w d a b s := rfl
@[simp] theorem exec_vfmaF32 w d a b s : exec (.vfmaF32 w d a b) s = execVfmaF32 w d a b s := rfl
@[simp] theorem exec_vfmsF32 w d a b s : exec (.vfmsF32 w d a b) s = execVfmsF32 w d a b s := rfl
@[simp] theorem exec_vfminF32 w d a b s : exec (.vfminF32 w d a b) s = execVfminF32 w d a b s := rfl
@[simp] theorem exec_vfmaxF32 w d a b s : exec (.vfmaxF32 w d a b) s = execVfmaxF32 w d a b s := rfl
@[simp] theorem exec_vfabsF32 w d a s : exec (.vfabsF32 w d a) s = execVfabsF32 w d a s := rfl
@[simp] theorem exec_vfnegF32 w d a s : exec (.vfnegF32 w d a) s = execVfnegF32 w d a s := rfl
@[simp] theorem exec_vfdivF32 w d a b s : exec (.vfdivF32 w d a b) s = execVfdivF32 w d a b s := rfl
@[simp] theorem exec_vfsqrtF32 w d a s : exec (.vfsqrtF32 w d a) s = execVfsqrtF32 w d a s := rfl
@[simp] theorem exec_vfceqF32 w k a b s : exec (.vfceqF32 w k a b) s = execVfceqF32 w k a b s := rfl
@[simp] theorem exec_vfcltF32 w k a b s : exec (.vfcltF32 w k a b) s = execVfcltF32 w k a b s := rfl
@[simp] theorem exec_vfcleF32 w k a b s : exec (.vfcleF32 w k a b) s = execVfcleF32 w k a b s := rfl
@[simp] theorem exec_vfcunF32 w k a b s : exec (.vfcunF32 w k a b) s = execVfcunF32 w k a b s := rfl
@[simp] theorem exec_vfaddBf16 w d a b s : exec (.vfaddBf16 w d a b) s = execVfaddBf16 w d a b s := rfl
@[simp] theorem exec_vfmulBf16 w d a b s : exec (.vfmulBf16 w d a b) s = execVfmulBf16 w d a b s := rfl
@[simp] theorem exec_vfmaBf16 w d a b s : exec (.vfmaBf16 w d a b) s = execVfmaBf16 w d a b s := rfl
@[simp] theorem exec_vfminBf16 w d a b s : exec (.vfminBf16 w d a b) s = execVfminBf16 w d a b s := rfl
@[simp] theorem exec_vfmaxBf16 w d a b s : exec (.vfmaxBf16 w d a b) s = execVfmaxBf16 w d a b s := rfl
@[simp] theorem exec_vfsclF32 w d a b s : exec (.vfsclF32 w d a b) s = execVfsclF32 w d a b s := rfl
@[simp] theorem exec_vfrndF32 w d a s : exec (.vfrndF32 w d a) s = execVfrndF32 w d a s := rfl
@[simp] theorem exec_vfamaxF32 w d a b s : exec (.vfamaxF32 w d a b) s = execVfamaxF32 w d a b s := rfl
@[simp] theorem exec_cvtF32Bf16 w d a s : exec (.cvtF32Bf16 w d a) s = execCvtF32Bf16 w d a s := rfl
@[simp] theorem exec_cvtBf16F32 w d a s : exec (.cvtBf16F32 w d a) s = execCvtBf16F32 w d a s := rfl
@[simp] theorem exec_cvtF32I32 w d a s : exec (.cvtF32I32 w d a) s = execCvtF32I32 w d a s := rfl
@[simp] theorem exec_cvtI32F32 w d a s : exec (.cvtI32F32 w d a) s = execCvtI32F32 w d a s := rfl
@[simp] theorem exec_cvtMx8F32 d a z s : exec (.cvtMx8F32 d a z) s = execCvtMx8F32 d a z s := rfl
@[simp] theorem exec_cvtMx6F32 d a z s : exec (.cvtMx6F32 d a z) s = execCvtMx6F32 d a z s := rfl
@[simp] theorem exec_cvtMx4F32 d a z s : exec (.cvtMx4F32 d a z) s = execCvtMx4F32 d a z s := rfl
@[simp] theorem exec_cvtF32Mx8 d a z s : exec (.cvtF32Mx8 d a z) s = execCvtF32Mx8 d a z s := rfl
@[simp] theorem exec_cvtF32Mx6 d a z s : exec (.cvtF32Mx6 d a z) s = execCvtF32Mx6 d a z s := rfl
@[simp] theorem exec_cvtF32Mx4 d a z s : exec (.cvtF32Mx4 d a z) s = execCvtF32Mx4 d a z s := rfl
@[simp] theorem exec_cvtF8e4F32 w d a s : exec (.cvtF8e4F32 w d a) s = execCvtF8e4F32 w d a s := rfl
@[simp] theorem exec_cvtF32F8e4 w d a s : exec (.cvtF32F8e4 w d a) s = execCvtF32F8e4 w d a s := rfl
@[simp] theorem exec_cvtF8e5F32 w d a s : exec (.cvtF8e5F32 w d a) s = execCvtF8e5F32 w d a s := rfl
@[simp] theorem exec_cvtF32F8e5 w d a s : exec (.cvtF32F8e5 w d a) s = execCvtF32F8e5 w d a s := rfl
@[simp] theorem exec_bscale d a s : exec (.bscale d a) s = execBscale d a s := rfl
@[simp] theorem exec_cvtBf16F32Sr w d a s : exec (.cvtBf16F32Sr w d a) s = execCvtBf16F32Sr w d a s := rfl
@[simp] theorem exec_vrsumF32 w d a s : exec (.vrsumF32 w d a) s = execVrsumF32 w d a s := rfl
@[simp] theorem exec_vrmaxF32 w d a s : exec (.vrmaxF32 w d a) s = execVrmaxF32 w d a s := rfl
@[simp] theorem exec_vrminF32 w d a s : exec (.vrminF32 w d a) s = execVrminF32 w d a s := rfl
@[simp] theorem exec_vrsumI32 w d a s : exec (.vrsumI32 w d a) s = execVrsumI32 w d a s := rfl
@[simp] theorem exec_vrmaxI32 w d a s : exec (.vrmaxI32 w d a) s = execVrmaxI32 w d a s := rfl
@[simp] theorem exec_vrminI32 w d a s : exec (.vrminI32 w d a) s = execVrminI32 w d a s := rfl
@[simp] theorem exec_vramaxF32 w d a s : exec (.vramaxF32 w d a) s = execVramaxF32 w d a s := rfl
@[simp] theorem exec_vdeltaF32 w d a b s : exec (.vdeltaF32 w d a b) s = execVdeltaF32 w d a b s := rfl
@[simp] theorem exec_vdeltaBf16 w d a b s : exec (.vdeltaBf16 w d a b) s = execVdeltaBf16 w d a b s := rfl
@[simp] theorem exec_vmaxmagF32 w d a s : exec (.vmaxmagF32 w d a) s = execVmaxmagF32 w d a s := rfl
@[simp] theorem exec_vmaxmagBf16 w d a s : exec (.vmaxmagBf16 w d a) s = execVmaxmagBf16 w d a s := rfl
@[simp] theorem exec_vscanF32 w d a s : exec (.vscanF32 w d a) s = execVscanF32 w d a s := rfl
@[simp] theorem exec_vscanI32 w d a s : exec (.vscanI32 w d a) s = execVscanI32 w d a s := rfl
@[simp] theorem exec_kcnt w d k s : exec (.kcnt w d k) s = execKcnt w d k s := rfl
@[simp] theorem exec_vmov w d a s : exec (.vmov w d a) s = execVmov w d a s := rfl
@[simp] theorem exec_vbc w d e z s : exec (.vbc w d e z) s = execVbc w d e z s := rfl
@[simp] theorem exec_vext w d a e s : exec (.vext w d a e) s = execVext w d a e s := rfl
@[simp] theorem exec_vins w d e z s : exec (.vins w d e z) s = execVins w d e z s := rfl
@[simp] theorem exec_vperm w d a b s : exec (.vperm w d a b) s = execVperm w d a b s := rfl
@[simp] theorem exec_vzip w d a b s : exec (.vzip w d a b) s = execVzip w d a b s := rfl
@[simp] theorem exec_vunzip w d a b s : exec (.vunzip w d a b) s = execVunzip w d a b s := rfl
@[simp] theorem exec_vrotl w d a c s : exec (.vrotl w d a c) s = execVrotl w d a c s := rfl
@[simp] theorem exec_vsel w j d a b s : exec (.vsel w j d a b) s = execVsel w j d a b s := rfl
@[simp] theorem exec_kand k a b s : exec (.kand k a b) s = execKand k a b s := rfl
@[simp] theorem exec_kor k a b s : exec (.kor k a b) s = execKor k a b s := rfl
@[simp] theorem exec_kxor k a b s : exec (.kxor k a b) s = execKxor k a b s := rfl
@[simp] theorem exec_knot k a s : exec (.knot k a) s = execKnot k a s := rfl
@[simp] theorem exec_kfroms k h z s : exec (.kfroms k h z) s = execKfroms k h z s := rfl
@[simp] theorem exec_ktos a h d s : exec (.ktos a h d) s = execKtos a h d s := rfl
@[simp] theorem exec_viota w d s : exec (.viota w d) s = execViota w d s := rfl
@[simp] theorem exec_vexp2 w d a s : exec (.vexp2 w d a) s = execVexp2 w d a s := rfl
@[simp] theorem exec_vexp w d a s : exec (.vexp w d a) s = execVexp w d a s := rfl
@[simp] theorem exec_vlog2 w d a s : exec (.vlog2 w d a) s = execVlog2 w d a s := rfl
@[simp] theorem exec_vrcp w d a s : exec (.vrcp w d a) s = execVrcp w d a s := rfl
@[simp] theorem exec_vrsqrt w d a s : exec (.vrsqrt w d a) s = execVrsqrt w d a s := rfl
@[simp] theorem exec_vlog w d a s : exec (.vlog w d a) s = execVlog w d a s := rfl
@[simp] theorem exec_vsin w d a s : exec (.vsin w d a) s = execVsin w d a s := rfl
@[simp] theorem exec_vcos w d a s : exec (.vcos w d a) s = execVcos w d a s := rfl
@[simp] theorem exec_vtanh w d a s : exec (.vtanh w d a) s = execVtanh w d a s := rfl
@[simp] theorem exec_vsigm w d a s : exec (.vsigm w d a) s = execVsigm w d a s := rfl
@[simp] theorem exec_verf w d a s : exec (.verf w d a) s = execVerf w d a s := rfl
@[simp] theorem exec_vsilu w d a s : exec (.vsilu w d a) s = execVsilu w d a s := rfl
@[simp] theorem exec_wcfg w z s : exec (.wcfg w z) s = execWcfg w z s := rfl
@[simp] theorem exec_wset w z t s : exec (.wset w z t) s = execWset w z t s := rfl
@[simp] theorem exec_wget w z t s : exec (.wget w z t) s = execWget w z t s := rfl
@[simp] theorem exec_wrst w s : exec (.wrst w) s = execWrst w s := rfl
@[simp] theorem exec_wskip w z s : exec (.wskip w z) s = execWskip w z s := rfl
@[simp] theorem exec_wisect w s : exec (.wisect w) s = execWisect w s := rfl
@[simp] theorem exec_wicnt w z s : exec (.wicnt w z) s = execWicnt w z s := rfl
@[simp] theorem exec_wstat w z s : exec (.wstat w z) s = execWstat w z s := rfl
@[simp] theorem exec_mcall a r m s : exec (.mcall a r m) s = execMcall a r m s := rfl
@[simp] theorem exec_mset m a s : exec (.mset m a) s = execMset m a s := rfl
@[simp] theorem exec_mget m d s : exec (.mget m d) s = execMget m d s := rfl
@[simp] theorem exec_mzero a s : exec (.mzero a) s = execMzero a s := rfl
@[simp] theorem exec_mdrain a clr v f s : exec (.mdrain a clr v f) s = execMdrain a clr v f s := rfl
@[simp] theorem exec_mwait a s : exec (.mwait a) s = execMwait a s := rfl
@[simp] theorem exec_mstat a d s : exec (.mstat a d) s = execMstat a d s := rfl
@[simp] theorem exec_mcfg a z s : exec (.mcfg a z) s = execMcfg a z s := rfl
@[simp] theorem exec_rcfg b z e p c n s : exec (.rcfg b z e p c n) s = execRcfg b z e p c n s := rfl
@[simp] theorem exec_racq b s : exec (.racq b) s = execRacq b s := rfl
@[simp] theorem exec_rpub b s : exec (.rpub b) s = execRpub b s := rfl
@[simp] theorem exec_rwait b s : exec (.rwait b) s = execRwait b s := rfl
@[simp] theorem exec_rrel b s : exec (.rrel b) s = execRrel b s := rfl
@[simp] theorem exec_reos b s : exec (.reos b) s = execReos b s := rfl
@[simp] theorem exec_rstat b d e s : exec (.rstat b d e) s = execRstat b d e s := rfl
@[simp] theorem exec_rmask b z s : exec (.rmask b z) s = execRmask b z s := rfl
@[simp] theorem exec_ecopy a l z c t s : exec (.ecopy a l z c t) s = execEcopy a l z c t s := rfl
@[simp] theorem exec_egath a l z c t s : exec (.egath a l z c t) s = execEgath a l z c t s := rfl
@[simp] theorem exec_escat a l z c t s : exec (.escat a l z c t) s = execEscat a l z c t s := rfl
@[simp] theorem exec_esubs a l z c t s : exec (.esubs a l z c t) s = execEsubs a l z c t s := rfl
@[simp] theorem exec_ecoll a l z c t s : exec (.ecoll a l z c t) s = execEcoll a l z c t s := rfl
@[simp] theorem exec_ehalo a l c t s : exec (.ehalo a l c t) s = execEhalo a l c t s := rfl
@[simp] theorem exec_ered a l c t s : exec (.ered a l c t) s = execEred a l c t s := rfl
@[simp] theorem exec_eckpt a l z c t s : exec (.eckpt a l z c t) s = execEckpt a l z c t s := rfl
@[simp] theorem exec_erolb a l z c t s : exec (.erolb a l z c t) s = execErolb a l z c t s := rfl
@[simp] theorem exec_enq q a s : exec (.enq q a) s = execEnq q a s := rfl
@[simp] theorem exec_exit a n s : exec (.exit a n) s = execExit a n s := rfl
@[simp] theorem exec_tid d s : exec (.tid d) s = execTid d s := rfl
@[simp] theorem exec_tparm d j s : exec (.tparm d j) s = execTparm d j s := rfl
@[simp] theorem exec_qstat d q s : exec (.qstat d q) s = execQstat d q s := rfl
@[simp] theorem exec_srd d z s : exec (.srd d z) s = execSrd d z s := rfl
@[simp] theorem exec_swr a z s : exec (.swr a z) s = execSwr a z s := rfl
@[simp] theorem exec_tmark a b s : exec (.tmark a b) s = execTmark a b s := rfl
@[simp] theorem exec_rrec a s : exec (.rrec a) s = execRrec a s := rfl
@[simp] theorem exec_rprobe d a s : exec (.rprobe d a) s = execRprobe d a s := rfl
@[simp] theorem exec_rgate a s : exec (.rgate a) s = execRgate a s := rfl
@[simp] theorem exec_mmrd d s : exec (.mmrd d) s = execMmrd d s := rfl
@[simp] theorem exec_mmclr s : exec .mmclr s = execMmclr s := rfl
@[simp] theorem exec_gpost q a t s : exec (.gpost q a t) s = execGpost q a t s := rfl
@[simp] theorem exec_gwait q t s : exec (.gwait q t) s = execGwait q t s := rfl
@[simp] theorem exec_gstat q a d s : exec (.gstat q a d) s = execGstat q a d s := rfl
@[simp] theorem exec_gpre q s : exec (.gpre q) s = execGpre q s := rfl
@[simp] theorem exec_chkeq a b s : exec (.chkeq a b) s = execChkeq a b s := rfl
@[simp] theorem exec_chkv v w s : exec (.chkv v w) s = execChkv v w s := rfl
@[simp] theorem exec_sig a s : exec (.sig a) s = execSig a s := rfl
@[simp] theorem exec_sigrd d s : exec (.sigrd d) s = execSigrd d s := rfl
@[simp] theorem exec_sigclr s : exec .sigclr s = execSigclr s := rfl
@[simp] theorem exec_trap c s : exec (.trap c) s = execTrap c s := rfl
@[simp] theorem exec_brk c s : exec (.brk c) s = execBrk c s := rfl
@[simp] theorem exec_rdsys d r s : exec (.rdsys d r) s = execRdsys d r s := rfl
@[simp] theorem exec_wrsys a r s : exec (.wrsys a r) s = execWrsys a r s := rfl
@[simp] theorem exec_lphase n s : exec (.lphase n) s = execLphase n s := rfl
@[simp] theorem exec_rfe s : exec .rfe s = execRfe s := rfl
@[simp] theorem exec_ctxsave a b s : exec (.ctxsave a b) s = execCtxsave a b s := rfl
@[simp] theorem exec_ctxrest a b s : exec (.ctxrest a b) s = execCtxrest a b s := rfl
@[simp] theorem exec_wrsysp a r s : exec (.wrsysp a r) s = execWrsysp a r s := rfl
@[simp] theorem exec_halt s : exec .halt s = execHalt s := rfl
@[simp] theorem exec_mpld a b s : exec (.mpld a b) s = execMpld a b s := rfl
@[simp] theorem exec_tlbinv a b s : exec (.tlbinv a b) s = execTlbinv a b s := rfl
@[simp] theorem exec_kidset a b s : exec (.kidset a b) s = execKidset a b s := rfl
@[simp] theorem exec_kidkill a s : exec (.kidkill a) s = execKidkill a s := rfl
@[simp] theorem exec_uEnd s : exec .uEnd s = execUEnd s := rfl
@[simp] theorem exec_uGeta s : exec .uGeta s = execUGeta s := rfl
@[simp] theorem exec_uGetb s : exec .uGetb s = execUGetb s := rfl
@[simp] theorem exec_uMac s : exec .uMac s = execUMac s := rfl
@[simp] theorem exec_uRela s : exec .uRela s = execURela s := rfl
@[simp] theorem exec_uRelb s : exec .uRelb s = execURelb s := rfl
@[simp] theorem exec_uLoopk s : exec .uLoopk s = execULoopk s := rfl
@[simp] theorem exec_uEndl s : exec .uEndl s = execUEndl s := rfl
@[simp] theorem exec_uCson s : exec .uCson s = execUCson s := rfl
@[simp] theorem exec_uCsoff s : exec .uCsoff s = execUCsoff s := rfl
@[simp] theorem exec_uZero s : exec .uZero s = execUZero s := rfl
@[simp] theorem exec_uSub z s : exec (.uSub z) s = execUSub z s := rfl
@[simp] theorem exec_uKmask k s : exec (.uKmask k) s = execUKmask k s := rfl
@[simp] theorem exec_uTag t s : exec (.uTag t) s = execUTag t s := rfl
@[simp] theorem exec_uNop s : exec .uNop s = execUNop s := rfl
@[simp] theorem exec_uGetab s : exec .uGetab s = execUGetab s := rfl
@[simp] theorem exec_bundleIssue core s : exec (.bundleIssue core) s = execBundleIssue core s := rfl
@[simp] theorem exec_contextSelect core s : exec (.contextSelect core) s = execContextSelect core s := rfl
@[simp] theorem exec_contextWake core slot s : exec (.contextWake core slot) s = execContextWake core slot s := rfl
@[simp] theorem exec_contextLoadComplete core slot s : exec (.contextLoadComplete core slot) s = execContextLoadComplete core slot s := rfl
@[simp] theorem exec_preboundExpiry core slot s : exec (.preboundExpiry core slot) s = execPreboundExpiry core slot s := rfl
@[simp] theorem exec_loadReturn core slot id s : exec (.loadReturn core slot id) s = execLoadReturn core slot id s := rfl
@[simp] theorem exec_divideComplete core slot id s : exec (.divideComplete core slot id) s = execDivideComplete core slot id s := rfl
@[simp] theorem exec_vectorDivideComplete core slot id s : exec (.vectorDivideComplete core slot id) s = execVectorDivideComplete core slot id s := rfl
@[simp] theorem exec_regionCommitAccept core slot s : exec (.regionCommitAccept core slot) s = execRegionCommitAccept core slot s := rfl
@[simp] theorem exec_deferredEffectHandoff core slot s : exec (.deferredEffectHandoff core slot) s = execDeferredEffectHandoff core slot s := rfl
@[simp] theorem exec_quietBoundaryPass core slot s : exec (.quietBoundaryPass core slot) s = execQuietBoundaryPass core slot s := rfl
@[simp] theorem exec_storePerform core slot s : exec (.storePerform core slot) s = execStorePerform core slot s := rfl
@[simp] theorem exec_atomicExecute core slot s : exec (.atomicExecute core slot) s = execAtomicExecute core slot s := rfl
@[simp] theorem exec_atomicReturn core slot s : exec (.atomicReturn core slot) s = execAtomicReturn core slot s := rfl
@[simp] theorem exec_pageWalkComplete core kid va write s : exec (.pageWalkComplete core kid va write) s = execPageWalkComplete core kid va write s := rfl
@[simp] theorem exec_ckptCopyComplete core kid va s : exec (.ckptCopyComplete core kid va) s = execCkptCopyComplete core kid va s := rfl
@[simp] theorem exec_windrowFetch core slot w s : exec (.windrowFetch core slot w) s = execWindrowFetch core slot w s := rfl
@[simp] theorem exec_windrowFetchComplete core slot w s : exec (.windrowFetchComplete core slot w) s = execWindrowFetchComplete core slot w s := rfl
@[simp] theorem exec_windrowMergeComplete core slot w s : exec (.windrowMergeComplete core slot w) s = execWindrowMergeComplete core slot w s := rfl
@[simp] theorem exec_matrixCommandStart core s : exec (.matrixCommandStart core) s = execMatrixCommandStart core s := rfl
@[simp] theorem exec_macLand core bank s : exec (.macLand core bank) s = execMacLand core bank s := rfl
@[simp] theorem exec_clearComplete core bank s : exec (.clearComplete core bank) s = execClearComplete core bank s := rfl
@[simp] theorem exec_drainDataReady core slot id s : exec (.drainDataReady core slot id) s = execDrainDataReady core slot id s := rfl
@[simp] theorem exec_multicastCopyComplete sheaf rid q s : exec (.multicastCopyComplete sheaf rid q) s = execMulticastCopyComplete sheaf rid q s := rfl
@[simp] theorem exec_gleanerTileStart sheaf rid s : exec (.gleanerTileStart sheaf rid) s = execGleanerTileStart sheaf rid s := rfl
@[simp] theorem exec_gleanerTileComplete sheaf rid s : exec (.gleanerTileComplete sheaf rid) s = execGleanerTileComplete sheaf rid s := rfl
@[simp] theorem exec_gleanerCollect sheaf rid s : exec (.gleanerCollect sheaf rid) s = execGleanerCollect sheaf rid s := rfl
@[simp] theorem exec_gleanerErrorEos sheaf rid s : exec (.gleanerErrorEos sheaf rid) s = execGleanerErrorEos sheaf rid s := rfl
@[simp] theorem exec_loftStepGrowComplete core s : exec (.loftStepGrowComplete core) s = execLoftStepGrowComplete core s := rfl
@[simp] theorem exec_loftStepShrinkComplete core s : exec (.loftStepShrinkComplete core) s = execLoftStepShrinkComplete core s := rfl
@[simp] theorem exec_engineChunk field cmd s : exec (.engineChunk field cmd) s = execEngineChunk field cmd s := rfl
@[simp] theorem exec_engineTokenComplete field cmd s : exec (.engineTokenComplete field cmd) s = execEngineTokenComplete field cmd s := rfl
@[simp] theorem exec_haloMatch cmd peerCount peerLen rows delivered s : exec (.haloMatch cmd peerCount peerLen rows delivered) s = execHaloMatch cmd peerCount peerLen rows delivered s := rfl
@[simp] theorem exec_reductionRoundMatch cmd agree peers s : exec (.reductionRoundMatch cmd agree peers) s = execReductionRoundMatch cmd agree peers s := rfl
@[simp] theorem exec_rd64 stack addr tag s : exec (.rd64 stack addr tag) s = execRd64 stack addr tag s := rfl
@[simp] theorem exec_rd256 stack addr tag s : exec (.rd256 stack addr tag) s = execRd256 stack addr tag s := rfl
@[simp] theorem exec_wrm stack addr kid mask data s : exec (.wrm stack addr kid mask data) s = execWrm stack addr kid mask data s := rfl
@[simp] theorem exec_atm stack addr kid tag op four operand compare s : exec (.atm stack addr kid tag op four operand compare) s = execAtm stack addr kid tag op four operand compare s := rfl
@[simp] theorem exec_writeQueueDrain stack s : exec (.writeQueueDrain stack) s = execWriteQueueDrain stack s := rfl
@[simp] theorem exec_packetReply stack tag s : exec (.packetReply stack tag) s = execPacketReply stack tag s := rfl
@[simp] theorem exec_cribFilterWindowReset stack slice s : exec (.cribFilterWindowReset stack slice) s = execCribFilterWindowReset stack slice s := rfl
@[simp] theorem exec_hbmTempAboveT1 stack temp s : exec (.hbmTempAboveT1 stack temp) s = execHbmTempAboveT1 stack temp s := rfl
@[simp] theorem exec_hbmTempBelowT1 stack temp s : exec (.hbmTempBelowT1 stack temp) s = execHbmTempBelowT1 stack temp s := rfl
@[simp] theorem exec_hbmTempAboveT2 stack temp s : exec (.hbmTempAboveT2 stack temp) s = execHbmTempAboveT2 stack temp s := rfl
@[simp] theorem exec_hbmTempBelowT2 stack temp s : exec (.hbmTempBelowT2 stack temp) s = execHbmTempBelowT2 stack temp s := rfl
@[simp] theorem exec_hbmTempAboveT3 stack temp s : exec (.hbmTempAboveT3 stack temp) s = execHbmTempAboveT3 stack temp s := rfl
@[simp] theorem exec_lbArrival field s : exec (.lbArrival field) s = execLbArrival field s := rfl
@[simp] theorem exec_lbNaming field s : exec (.lbNaming field) s = execLbNaming field s := rfl
@[simp] theorem exec_lbEnterSlot field q s : exec (.lbEnterSlot field q) s = execLbEnterSlot field q s := rfl
@[simp] theorem exec_lbDispatch field q place s : exec (.lbDispatch field q place) s = execLbDispatch field q place s := rfl
@[simp] theorem exec_memberRetire core slot s : exec (.memberRetire core slot) s = execMemberRetire core slot s := rfl
@[simp] theorem exec_thresherSaveRequest field core slot s : exec (.thresherSaveRequest field core slot) s = execThresherSaveRequest field core slot s := rfl
@[simp] theorem exec_fieldStuckStep field s : exec (.fieldStuckStep field) s = execFieldStuckStep field s := rfl
@[simp] theorem exec_queueHeldRetry field q s : exec (.queueHeldRetry field q) s = execQueueHeldRetry field q s := rfl
@[simp] theorem exec_hostRingPost field s : exec (.hostRingPost field) s = execHostRingPost field s := rfl
@[simp] theorem exec_hostRingCoalesceTimer ring s : exec (.hostRingCoalesceTimer ring) s = execHostRingCoalesceTimer ring s := rfl
@[simp] theorem exec_tmarkApply field s : exec (.tmarkApply field) s = execTmarkApply field s := rfl
@[simp] theorem exec_phaseComplete core slot s : exec (.phaseComplete core slot) s = execPhaseComplete core slot s := rfl
@[simp] theorem exec_generationComplete core slot b s : exec (.generationComplete core slot b) s = execGenerationComplete core slot b s := rfl
@[simp] theorem exec_ssqDoorbell s : exec .ssqDoorbell s = execSsqDoorbell s := rfl
@[simp] theorem exec_nodeLaunch q grp re lb join s : exec (.nodeLaunch q grp re lb join) s = execNodeLaunch q grp re lb join s := rfl
@[simp] theorem exec_nodeWaitk gmask s : exec (.nodeWaitk gmask) s = execNodeWaitk gmask s := rfl
@[simp] theorem exec_nodeStep s : exec .nodeStep s = execNodeStep s := rfl
@[simp] theorem exec_nodeCond src sreg op breg mem b target s : exec (.nodeCond src sreg op breg mem b target) s = execNodeCond src sreg op breg mem b target s := rfl
@[simp] theorem exec_nodePost ring tag payload s : exec (.nodePost ring tag payload) s = execNodePost ring tag payload s := rfl
@[simp] theorem exec_nodeSetr sreg value s : exec (.nodeSetr sreg value) s = execNodeSetr sreg value s := rfl
@[simp] theorem exec_nodeFence scope s : exec (.nodeFence scope) s = execNodeFence scope s := rfl
@[simp] theorem exec_nodeStop code s : exec (.nodeStop code) s = execNodeStop code s := rfl
@[simp] theorem exec_ssqWaitSatisfied s : exec .ssqWaitSatisfied s = execSsqWaitSatisfied s := rfl
@[simp] theorem exec_ssqTakeover s : exec .ssqTakeover s = execSsqTakeover s := rfl
@[simp] theorem exec_linkTrainingStart link s : exec (.linkTrainingStart link) s = execLinkTrainingStart link s := rfl
@[simp] theorem exec_linkTrainingResult link ok full s : exec (.linkTrainingResult link ok full) s = execLinkTrainingResult link ok full s := rfl
@[simp] theorem exec_laneFailure link widthLeft s : exec (.laneFailure link widthLeft) s = execLaneFailure link widthLeft s := rfl
@[simp] theorem exec_flitReplayLimit link s : exec (.flitReplayLimit link) s = execFlitReplayLimit link s := rfl
@[simp] theorem exec_linkDrainRequest link s : exec (.linkDrainRequest link) s = execLinkDrainRequest link s := rfl
@[simp] theorem exec_linkDrainComplete link s : exec (.linkDrainComplete link) s = execLinkDrainComplete link s := rfl
@[simp] theorem exec_flitReceive link seq acked cls crcOk s : exec (.flitReceive link seq acked cls crcOk) s = execFlitReceive link seq acked cls crcOk s := rfl
@[simp] theorem exec_routeSwitch dest cls s : exec (.routeSwitch dest cls) s = execRouteSwitch dest cls s := rfl
@[simp] theorem exec_guestPacketWrite core slot tok s : exec (.guestPacketWrite core slot tok) s = execGuestPacketWrite core slot tok s := rfl
@[simp] theorem exec_guestCompletion q ctx tok saved s : exec (.guestCompletion q ctx tok saved) s = execGuestCompletion q ctx tok saved s := rfl
@[simp] theorem exec_guestFaultPacket q ctx tok cause va s : exec (.guestFaultPacket q ctx tok cause va) s = execGuestFaultPacket q ctx tok cause va s := rfl
@[simp] theorem exec_guestPreemptAck q s : exec (.guestPreemptAck q) s = execGuestPreemptAck q s := rfl
@[simp] theorem exec_guestInvalidationAck count s : exec (.guestInvalidationAck count) s = execGuestInvalidationAck count s := rfl
@[simp] theorem exec_guestBreach code s : exec (.guestBreach code) s = execGuestBreach code s := rfl
@[simp] theorem exec_hostRegisterWrite offset value s : exec (.hostRegisterWrite offset value) s = execHostRegisterWrite offset value s := rfl
@[simp] theorem exec_attest nonce s : exec (.attest nonce) s = execAttest nonce s := rfl
@[simp] theorem exec_writeFlashImage which image s : exec (.writeFlashImage which image) s = execWriteFlashImage which image s := rfl
@[simp] theorem exec_resetTrtEntries tiles s : exec (.resetTrtEntries tiles) s = execResetTrtEntries tiles s := rfl
@[simp] theorem exec_unpinCribLines pa bytes s : exec (.unpinCribLines pa bytes) s = execUnpinCribLines pa bytes s := rfl
@[simp] theorem exec_clearLostLines lines s : exec (.clearLostLines lines) s = execClearLostLines lines s := rfl
@[simp] theorem exec_releaseLeanTo s : exec .releaseLeanTo s = execReleaseLeanTo s := rfl
@[simp] theorem exec_quiesceRingEntry field sheaf rid s : exec (.quiesceRingEntry field sheaf rid) s = execQuiesceRingEntry field sheaf rid s := rfl
@[simp] theorem exec_registerKernelHeader kid va s : exec (.registerKernelHeader kid va) s = execRegisterKernelHeader kid va s := rfl
@[simp] theorem exec_powerOnReset s : exec .powerOnReset s = execPowerOnReset s := rfl
@[simp] theorem exec_powerSample watts s : exec (.powerSample watts) s = execPowerSample watts s := rfl
@[simp] theorem exec_packageLoss lines s : exec (.packageLoss lines) s = execPackageLoss lines s := rfl
@[simp] theorem exec_fatalFreeze cause s : exec (.fatalFreeze cause) s = execFatalFreeze cause s := rfl
@[simp] theorem exec_thresherRedispatch field q core slot s : exec (.thresherRedispatch field q core slot) s = execThresherRedispatch field q core slot s := rfl
@[simp] theorem exec_cxlMemRequest write pa data s : exec (.cxlMemRequest write pa data) s = execCxlMemRequest write pa data s := rfl
@[simp] theorem exec_guestTranslationRequest q ctx va write s : exec (.guestTranslationRequest q ctx va write) s = execGuestTranslationRequest q ctx va write s := rfl
@[simp] theorem exec_cohRequest line write pkg mask data s : exec (.cohRequest line write pkg mask data) s = execCohRequest line write pkg mask data s := rfl

end Sys2Proof.Machine
end

