-- ==== Sys2Proof/Laws/Table.lean ====
section
/-! SUPPORT. Tables and sparse bytes: what is read after a write, and the canonical form that every write keeps. -/

namespace Sys2Proof.Machine

/-! ## Tables -/

/-- A table reads what was written at the key, and what it held at any other. -/
theorem tget_tput {α : Type} (d : α) (t : Table α) (k k' : Nat) (x : α) : tget d (tput t k x) k' = if k = k' then x else tget d t k' := by
  induction t with
  | nil => simp [tput, tget]
  | cons p t ih =>
    obtain ⟨j, y⟩ := p
    simp only [tput]
    split
    · simp only [tget]
    · split
      · subst_vars
        simp only [tget]
        split <;> rfl
      · simp only [tget, ih]
        split <;> split <;> simp_all

@[simp] theorem tget_tput_self {α : Type} (d : α) (t : Table α) (k : Nat) (x : α) : tget d (tput t k x) k = x := by simp [tget_tput]

theorem tget_tput_ne {α : Type} (d : α) (t : Table α) {k k' : Nat} (x : α) (h : k ≠ k') : tget d (tput t k x) k' = tget d t k' := by
  simp [tget_tput, h]

/-- The same of a search. -/
theorem tfind_tput {α : Type} (t : Table α) (k k' : Nat) (x : α) : tfind (tput t k x) k' = if k = k' then some x else tfind t k' := by
  induction t with
  | nil => simp [tput, tfind]
  | cons p t ih =>
    obtain ⟨j, y⟩ := p
    simp only [tput]
    split
    · simp only [tfind]
    · split
      · subst_vars
        simp only [tfind]
        split <;> rfl
      · simp only [tfind, ih]
        split <;> split <;> simp_all

/-! ## Vectors -/

@[simp] theorem vecMap_getElem {α β : Type} {n : Nat} (f : α → β) (v : Vector α n) (i : Nat) (h : i < n) : (vecMap f v)[i] = f v[i] := by
  simp [vecMap]

/-! ## Sparse bytes -/

theorem Bytes.above_mono {a b : Nat} (h : a ≤ b) : ∀ m : Bytes, Bytes.above b m = true → Bytes.above a m = true
  | [], _ => rfl
  | (j, _) :: t, hm => by
    simp only [Bytes.above, Bool.and_eq_true, decide_eq_true_eq] at hm ⊢
    exact ⟨by omega, above_mono h t hm.2⟩

/-- A canonical list that starts above an address reads zero there. -/
theorem bget_above {a : Nat} : ∀ m : Bytes, Bytes.above (a + 1) m = true → bget m a = 0
  | [], _ => rfl
  | (j, x) :: t, h => by
    simp only [Bytes.above, Bool.and_eq_true, decide_eq_true_eq] at h
    simp only [bget]
    split
    · omega
    · exact bget_above t h.2

theorem bset_above {a k : Nat} (x : Byte) (h : a ≤ k) : ∀ m : Bytes, Bytes.above a m = true → Bytes.above a (bset m k x) = true
  | [], _ => by simp only [bset]; split <;> simp [Bytes.above, h]
  | (j, y) :: t, hm => by
    have hm' := hm
    simp only [Bytes.above, Bool.and_eq_true, decide_eq_true_eq] at hm'
    simp only [bset]
    split
    · split
      · exact hm
      · simp [Bytes.above, h, hm']
    · split
      · split
        · exact hm'.2
        · simp [Bytes.above, h, hm'.2]
      · simp [Bytes.above, hm'.1, bset_above x h t hm'.2]

/-- A write of one byte keeps the canonical form. -/
theorem bset_wf (k : Nat) (x : Byte) : ∀ m : Bytes, Memory.wf m = true → Memory.wf (bset m k x) = true
  | [], _ => by simp only [bset]; split <;> simp_all [Memory.wf, Bytes.above]
  | (j, y) :: t, h => by
    have h' := h
    simp only [Memory.wf, Bool.and_eq_true, decide_eq_true_eq] at h'
    obtain ⟨⟨hy, ha⟩, hw⟩ := h'
    simp only [bset]
    split
    · split
      · exact h
      · rename_i hk hx
        simp only [Memory.wf, Bytes.above, Bool.and_eq_true, decide_eq_true_eq]
        exact ⟨⟨hx, by omega, Bytes.above_mono (by omega) t ha⟩, ⟨hy, ha⟩, hw⟩
    · split
      · split
        · exact hw
        · rename_i hk hx
          subst hk
          simp only [Memory.wf, Bool.and_eq_true, decide_eq_true_eq]
          exact ⟨⟨hx, ha⟩, hw⟩
      · rename_i hk hk'
        simp only [Memory.wf, Bool.and_eq_true, decide_eq_true_eq]
        exact ⟨⟨hy, bset_above x (by omega) t ha⟩, bset_wf k x t hw⟩

/-- A canonical memory reads what was written at the address, and what it held at any other. -/
theorem bget_bset (k a : Nat) (x : Byte) : ∀ m : Bytes, Memory.wf m = true → bget (bset m k x) a = if k = a then x else bget m a
  | [], _ => by simp only [bset]; split <;> simp_all [bget]
  | (j, y) :: t, h => by
    simp only [Memory.wf, Bool.and_eq_true, decide_eq_true_eq] at h
    obtain ⟨⟨hy, ha⟩, hw⟩ := h
    simp only [bset]
    split
    · rename_i hk
      have hz : bget t k = 0 := bget_above t (Bytes.above_mono (by omega) t ha)
      split
      · rename_i hx
        split
        · subst_vars; simp only [bget]; rw [if_neg (by omega)]; exact hz
        · rfl
      · simp only [bget]
    · split
      · rename_i hk
        subst hk
        have hz : bget t k = 0 := bget_above t ha
        split
        · split
          · subst_vars; exact hz
          · simp only [bget]; rw [if_neg ‹_›]
        · simp only [bget]
          split <;> rfl
      · simp only [bget, bget_bset k a x t hw]
        split <;> split <;> simp_all

theorem bsetN_wf : ∀ (bs : List Byte) (m : Bytes) (a : Nat), Memory.wf m = true → Memory.wf (bsetN m a bs) = true
  | [], _, _, h => h
  | b :: bs, m, a, h => bsetN_wf bs _ _ (bset_wf a b m h)

/-- The bytes of a write, and of what was there elsewhere. -/
theorem bget_bsetN : ∀ (bs : List Byte) (m : Bytes) (a i : Nat), Memory.wf m = true →
    bget (bsetN m a bs) i = if a ≤ i ∧ i < a + bs.length then bs.getD (i - a) 0 else bget m i
  | [], m, a, i, _ => by simp [bsetN]
  | b :: bs, m, a, i, h => by
    simp only [bsetN, bget_bsetN bs _ _ i (bset_wf a b m h), bget_bset a i b m h, List.length_cons]
    by_cases hi : a = i
    · subst hi; simp
    · by_cases hl : a ≤ i ∧ i < a + (bs.length + 1)
      · have : i - a = (i - (a + 1)) + 1 := by omega
        rw [if_pos hl, if_pos (by omega), this]; simp
      · rw [if_neg hl, if_neg (by omega), if_neg hi]

theorem bgetN_length (m : Bytes) : ∀ (n a : Nat), (bgetN m a n).length = n
  | 0, _ => rfl
  | n + 1, a => by simp [bgetN, bgetN_length m n]

theorem bgetN_getD (m : Bytes) : ∀ (n a i : Nat), i < n → (bgetN m a n).getD i 0 = bget m (a + i)
  | 0, _, _, h => by omega
  | n + 1, a, 0, _ => by simp [bgetN]
  | n + 1, a, i + 1, h => by
    have := bgetN_getD m n (a + 1) i (by omega)
    simp only [bgetN, List.getD_cons_succ, this]
    congr 1; omega

/-- What a filter leaves of a canonical memory is canonical. -/
theorem filter_above (p : Nat × Byte → Bool) {a : Nat} : ∀ m : Bytes, Bytes.above a m = true → Bytes.above a (m.filter p) = true
  | [], _ => rfl
  | (j, x) :: t, h => by
    simp only [Bytes.above, Bool.and_eq_true, decide_eq_true_eq] at h
    simp only [List.filter]
    split
    · simp [Bytes.above, h.1, filter_above p t h.2]
    · exact filter_above p t h.2

theorem filter_wf (p : Nat × Byte → Bool) : ∀ m : Bytes, Memory.wf m = true → Memory.wf (m.filter p) = true
  | [], _ => rfl
  | (j, x) :: t, h => by
    simp only [Memory.wf, Bool.and_eq_true, decide_eq_true_eq] at h
    simp only [List.filter]
    split
    · simp only [Memory.wf, Bool.and_eq_true, decide_eq_true_eq]; exact ⟨⟨h.1.1, filter_above p t h.1.2⟩, filter_wf p t h.2⟩
    · exact filter_wf p t h.2

end Sys2Proof.Machine
end

