-- ==== Sys2Proof/Laws/State.lean ====
section
/-! SUPPORT. What each update of the state leaves alone, field by field, and what a part reads after an update of it. -/

namespace Sys2Proof.Machine

/-! ## setCore -/

@[simp] theorem State.setCore_now (s : State) (k : Nat) (c : Core) : (s.setCore k c).now = s.now := rfl
@[simp] theorem State.setCore_draws (s : State) (k : Nat) (c : Core) : (s.setCore k c).draws = s.draws := rfl
@[simp] theorem State.setCore_turn (s : State) (k : Nat) (c : Core) : (s.setCore k c).turn = s.turn := rfl
@[simp] theorem State.setCore_issue (s : State) (k : Nat) (c : Core) : (s.setCore k c).issue = s.issue := rfl
@[simp] theorem State.setCore_mem (s : State) (k : Nat) (c : Core) : (s.setCore k c).mem = s.mem := rfl
@[simp] theorem State.setCore_keys (s : State) (k : Nat) (c : Core) : (s.setCore k c).keys = s.keys := rfl
@[simp] theorem State.setCore_badLines (s : State) (k : Nat) (c : Core) : (s.setCore k c).badLines = s.badLines := rfl
@[simp] theorem State.setCore_poison (s : State) (k : Nat) (c : Core) : (s.setCore k c).poison = s.poison := rfl
@[simp] theorem State.setCore_sheaves (s : State) (k : Nat) (c : Core) : (s.setCore k c).sheaves = s.sheaves := rfl
@[simp] theorem State.setCore_fields (s : State) (k : Nat) (c : Core) : (s.setCore k c).fields = s.fields := rfl
@[simp] theorem State.setCore_stackTab (s : State) (k : Nat) (c : Core) : (s.setCore k c).stackTab = s.stackTab := rfl
@[simp] theorem State.setCore_coh (s : State) (k : Nat) (c : Core) : (s.setCore k c).coh = s.coh := rfl
@[simp] theorem State.setCore_kids (s : State) (k : Nat) (c : Core) : (s.setCore k c).kids = s.kids := rfl
@[simp] theorem State.setCore_ssq (s : State) (k : Nat) (c : Core) : (s.setCore k c).ssq = s.ssq := rfl
@[simp] theorem State.setCore_rings (s : State) (k : Nat) (c : Core) : (s.setCore k c).rings = s.rings := rfl
@[simp] theorem State.setCore_links (s : State) (k : Nat) (c : Core) : (s.setCore k c).links = s.links := rfl
@[simp] theorem State.setCore_routes (s : State) (k : Nat) (c : Core) : (s.setCore k c).routes = s.routes := rfl
@[simp] theorem State.setCore_guest (s : State) (k : Nat) (c : Core) : (s.setCore k c).guest = s.guest := rfl
@[simp] theorem State.setCore_granger (s : State) (k : Nat) (c : Core) : (s.setCore k c).granger = s.granger := rfl
@[simp] theorem State.setCore_config (s : State) (k : Nat) (c : Core) : (s.setCore k c).config = s.config := rfl
@[simp] theorem State.setCore_pool (s : State) (k : Nat) (c : Core) : (s.setCore k c).pool = s.pool := rfl
@[simp] theorem State.setCore_msix (s : State) (k : Nat) (c : Core) : (s.setCore k c).msix = s.msix := rfl
@[simp] theorem State.setCore_msixTable (s : State) (k : Nat) (c : Core) : (s.setCore k c).msixTable = s.msixTable := rfl
@[simp] theorem State.setCore_sealed (s : State) (k : Nat) (c : Core) : (s.setCore k c).sealed = s.sealed := rfl
@[simp] theorem State.setCore_serial (s : State) (k : Nat) (c : Core) : (s.setCore k c).serial = s.serial := rfl
@[simp] theorem State.setCore_remote (s : State) (k : Nat) (c : Core) : (s.setCore k c).remote = s.remote := rfl
@[simp] theorem State.setCore_pba (s : State) (k : Nat) (c : Core) : (s.setCore k c).pba = s.pba := rfl
@[simp] theorem State.setCore_bar (s : State) (k : Nat) (c : Core) : (s.setCore k c).bar = s.bar := rfl
@[simp] theorem State.setCore_rows (s : State) (k : Nat) (c : Core) : (s.setCore k c).rows = s.rows := rfl

/-! ## modCore -/

@[simp] theorem State.modCore_now (s : State) (k : Nat) (f : Core → Core) : (s.modCore k f).now = s.now := rfl
@[simp] theorem State.modCore_draws (s : State) (k : Nat) (f : Core → Core) : (s.modCore k f).draws = s.draws := rfl
@[simp] theorem State.modCore_turn (s : State) (k : Nat) (f : Core → Core) : (s.modCore k f).turn = s.turn := rfl
@[simp] theorem State.modCore_issue (s : State) (k : Nat) (f : Core → Core) : (s.modCore k f).issue = s.issue := rfl
@[simp] theorem State.modCore_mem (s : State) (k : Nat) (f : Core → Core) : (s.modCore k f).mem = s.mem := rfl
@[simp] theorem State.modCore_keys (s : State) (k : Nat) (f : Core → Core) : (s.modCore k f).keys = s.keys := rfl
@[simp] theorem State.modCore_badLines (s : State) (k : Nat) (f : Core → Core) : (s.modCore k f).badLines = s.badLines := rfl
@[simp] theorem State.modCore_poison (s : State) (k : Nat) (f : Core → Core) : (s.modCore k f).poison = s.poison := rfl
@[simp] theorem State.modCore_sheaves (s : State) (k : Nat) (f : Core → Core) : (s.modCore k f).sheaves = s.sheaves := rfl
@[simp] theorem State.modCore_fields (s : State) (k : Nat) (f : Core → Core) : (s.modCore k f).fields = s.fields := rfl
@[simp] theorem State.modCore_stackTab (s : State) (k : Nat) (f : Core → Core) : (s.modCore k f).stackTab = s.stackTab := rfl
@[simp] theorem State.modCore_coh (s : State) (k : Nat) (f : Core → Core) : (s.modCore k f).coh = s.coh := rfl
@[simp] theorem State.modCore_kids (s : State) (k : Nat) (f : Core → Core) : (s.modCore k f).kids = s.kids := rfl
@[simp] theorem State.modCore_ssq (s : State) (k : Nat) (f : Core → Core) : (s.modCore k f).ssq = s.ssq := rfl
@[simp] theorem State.modCore_rings (s : State) (k : Nat) (f : Core → Core) : (s.modCore k f).rings = s.rings := rfl
@[simp] theorem State.modCore_links (s : State) (k : Nat) (f : Core → Core) : (s.modCore k f).links = s.links := rfl
@[simp] theorem State.modCore_routes (s : State) (k : Nat) (f : Core → Core) : (s.modCore k f).routes = s.routes := rfl
@[simp] theorem State.modCore_guest (s : State) (k : Nat) (f : Core → Core) : (s.modCore k f).guest = s.guest := rfl
@[simp] theorem State.modCore_granger (s : State) (k : Nat) (f : Core → Core) : (s.modCore k f).granger = s.granger := rfl
@[simp] theorem State.modCore_config (s : State) (k : Nat) (f : Core → Core) : (s.modCore k f).config = s.config := rfl
@[simp] theorem State.modCore_pool (s : State) (k : Nat) (f : Core → Core) : (s.modCore k f).pool = s.pool := rfl
@[simp] theorem State.modCore_msix (s : State) (k : Nat) (f : Core → Core) : (s.modCore k f).msix = s.msix := rfl
@[simp] theorem State.modCore_msixTable (s : State) (k : Nat) (f : Core → Core) : (s.modCore k f).msixTable = s.msixTable := rfl
@[simp] theorem State.modCore_sealed (s : State) (k : Nat) (f : Core → Core) : (s.modCore k f).sealed = s.sealed := rfl
@[simp] theorem State.modCore_serial (s : State) (k : Nat) (f : Core → Core) : (s.modCore k f).serial = s.serial := rfl
@[simp] theorem State.modCore_remote (s : State) (k : Nat) (f : Core → Core) : (s.modCore k f).remote = s.remote := rfl
@[simp] theorem State.modCore_pba (s : State) (k : Nat) (f : Core → Core) : (s.modCore k f).pba = s.pba := rfl
@[simp] theorem State.modCore_bar (s : State) (k : Nat) (f : Core → Core) : (s.modCore k f).bar = s.bar := rfl
@[simp] theorem State.modCore_rows (s : State) (k : Nat) (f : Core → Core) : (s.modCore k f).rows = s.rows := rfl

/-! ## modCtx -/

@[simp] theorem State.modCtx_now (s : State) (k : Nat) (j : Fin 4) (f : Context → Context) : (s.modCtx k j f).now = s.now := rfl
@[simp] theorem State.modCtx_draws (s : State) (k : Nat) (j : Fin 4) (f : Context → Context) : (s.modCtx k j f).draws = s.draws := rfl
@[simp] theorem State.modCtx_turn (s : State) (k : Nat) (j : Fin 4) (f : Context → Context) : (s.modCtx k j f).turn = s.turn := rfl
@[simp] theorem State.modCtx_issue (s : State) (k : Nat) (j : Fin 4) (f : Context → Context) : (s.modCtx k j f).issue = s.issue := rfl
@[simp] theorem State.modCtx_mem (s : State) (k : Nat) (j : Fin 4) (f : Context → Context) : (s.modCtx k j f).mem = s.mem := rfl
@[simp] theorem State.modCtx_keys (s : State) (k : Nat) (j : Fin 4) (f : Context → Context) : (s.modCtx k j f).keys = s.keys := rfl
@[simp] theorem State.modCtx_badLines (s : State) (k : Nat) (j : Fin 4) (f : Context → Context) : (s.modCtx k j f).badLines = s.badLines := rfl
@[simp] theorem State.modCtx_poison (s : State) (k : Nat) (j : Fin 4) (f : Context → Context) : (s.modCtx k j f).poison = s.poison := rfl
@[simp] theorem State.modCtx_sheaves (s : State) (k : Nat) (j : Fin 4) (f : Context → Context) : (s.modCtx k j f).sheaves = s.sheaves := rfl
@[simp] theorem State.modCtx_fields (s : State) (k : Nat) (j : Fin 4) (f : Context → Context) : (s.modCtx k j f).fields = s.fields := rfl
@[simp] theorem State.modCtx_stackTab (s : State) (k : Nat) (j : Fin 4) (f : Context → Context) : (s.modCtx k j f).stackTab = s.stackTab := rfl
@[simp] theorem State.modCtx_coh (s : State) (k : Nat) (j : Fin 4) (f : Context → Context) : (s.modCtx k j f).coh = s.coh := rfl
@[simp] theorem State.modCtx_kids (s : State) (k : Nat) (j : Fin 4) (f : Context → Context) : (s.modCtx k j f).kids = s.kids := rfl
@[simp] theorem State.modCtx_ssq (s : State) (k : Nat) (j : Fin 4) (f : Context → Context) : (s.modCtx k j f).ssq = s.ssq := rfl
@[simp] theorem State.modCtx_rings (s : State) (k : Nat) (j : Fin 4) (f : Context → Context) : (s.modCtx k j f).rings = s.rings := rfl
@[simp] theorem State.modCtx_links (s : State) (k : Nat) (j : Fin 4) (f : Context → Context) : (s.modCtx k j f).links = s.links := rfl
@[simp] theorem State.modCtx_routes (s : State) (k : Nat) (j : Fin 4) (f : Context → Context) : (s.modCtx k j f).routes = s.routes := rfl
@[simp] theorem State.modCtx_guest (s : State) (k : Nat) (j : Fin 4) (f : Context → Context) : (s.modCtx k j f).guest = s.guest := rfl
@[simp] theorem State.modCtx_granger (s : State) (k : Nat) (j : Fin 4) (f : Context → Context) : (s.modCtx k j f).granger = s.granger := rfl
@[simp] theorem State.modCtx_config (s : State) (k : Nat) (j : Fin 4) (f : Context → Context) : (s.modCtx k j f).config = s.config := rfl
@[simp] theorem State.modCtx_pool (s : State) (k : Nat) (j : Fin 4) (f : Context → Context) : (s.modCtx k j f).pool = s.pool := rfl
@[simp] theorem State.modCtx_msix (s : State) (k : Nat) (j : Fin 4) (f : Context → Context) : (s.modCtx k j f).msix = s.msix := rfl
@[simp] theorem State.modCtx_msixTable (s : State) (k : Nat) (j : Fin 4) (f : Context → Context) : (s.modCtx k j f).msixTable = s.msixTable := rfl
@[simp] theorem State.modCtx_sealed (s : State) (k : Nat) (j : Fin 4) (f : Context → Context) : (s.modCtx k j f).sealed = s.sealed := rfl
@[simp] theorem State.modCtx_serial (s : State) (k : Nat) (j : Fin 4) (f : Context → Context) : (s.modCtx k j f).serial = s.serial := rfl
@[simp] theorem State.modCtx_remote (s : State) (k : Nat) (j : Fin 4) (f : Context → Context) : (s.modCtx k j f).remote = s.remote := rfl
@[simp] theorem State.modCtx_pba (s : State) (k : Nat) (j : Fin 4) (f : Context → Context) : (s.modCtx k j f).pba = s.pba := rfl
@[simp] theorem State.modCtx_bar (s : State) (k : Nat) (j : Fin 4) (f : Context → Context) : (s.modCtx k j f).bar = s.bar := rfl
@[simp] theorem State.modCtx_rows (s : State) (k : Nat) (j : Fin 4) (f : Context → Context) : (s.modCtx k j f).rows = s.rows := rfl

/-! ## modCur -/

@[simp] theorem State.modCur_now (s : State) (f : Context → Context) : (s.modCur f).now = s.now := rfl
@[simp] theorem State.modCur_draws (s : State) (f : Context → Context) : (s.modCur f).draws = s.draws := rfl
@[simp] theorem State.modCur_turn (s : State) (f : Context → Context) : (s.modCur f).turn = s.turn := rfl
@[simp] theorem State.modCur_issue (s : State) (f : Context → Context) : (s.modCur f).issue = s.issue := rfl
@[simp] theorem State.modCur_mem (s : State) (f : Context → Context) : (s.modCur f).mem = s.mem := rfl
@[simp] theorem State.modCur_keys (s : State) (f : Context → Context) : (s.modCur f).keys = s.keys := rfl
@[simp] theorem State.modCur_badLines (s : State) (f : Context → Context) : (s.modCur f).badLines = s.badLines := rfl
@[simp] theorem State.modCur_poison (s : State) (f : Context → Context) : (s.modCur f).poison = s.poison := rfl
@[simp] theorem State.modCur_sheaves (s : State) (f : Context → Context) : (s.modCur f).sheaves = s.sheaves := rfl
@[simp] theorem State.modCur_fields (s : State) (f : Context → Context) : (s.modCur f).fields = s.fields := rfl
@[simp] theorem State.modCur_stackTab (s : State) (f : Context → Context) : (s.modCur f).stackTab = s.stackTab := rfl
@[simp] theorem State.modCur_coh (s : State) (f : Context → Context) : (s.modCur f).coh = s.coh := rfl
@[simp] theorem State.modCur_kids (s : State) (f : Context → Context) : (s.modCur f).kids = s.kids := rfl
@[simp] theorem State.modCur_ssq (s : State) (f : Context → Context) : (s.modCur f).ssq = s.ssq := rfl
@[simp] theorem State.modCur_rings (s : State) (f : Context → Context) : (s.modCur f).rings = s.rings := rfl
@[simp] theorem State.modCur_links (s : State) (f : Context → Context) : (s.modCur f).links = s.links := rfl
@[simp] theorem State.modCur_routes (s : State) (f : Context → Context) : (s.modCur f).routes = s.routes := rfl
@[simp] theorem State.modCur_guest (s : State) (f : Context → Context) : (s.modCur f).guest = s.guest := rfl
@[simp] theorem State.modCur_granger (s : State) (f : Context → Context) : (s.modCur f).granger = s.granger := rfl
@[simp] theorem State.modCur_config (s : State) (f : Context → Context) : (s.modCur f).config = s.config := rfl
@[simp] theorem State.modCur_pool (s : State) (f : Context → Context) : (s.modCur f).pool = s.pool := rfl
@[simp] theorem State.modCur_msix (s : State) (f : Context → Context) : (s.modCur f).msix = s.msix := rfl
@[simp] theorem State.modCur_msixTable (s : State) (f : Context → Context) : (s.modCur f).msixTable = s.msixTable := rfl
@[simp] theorem State.modCur_sealed (s : State) (f : Context → Context) : (s.modCur f).sealed = s.sealed := rfl
@[simp] theorem State.modCur_serial (s : State) (f : Context → Context) : (s.modCur f).serial = s.serial := rfl
@[simp] theorem State.modCur_remote (s : State) (f : Context → Context) : (s.modCur f).remote = s.remote := rfl
@[simp] theorem State.modCur_pba (s : State) (f : Context → Context) : (s.modCur f).pba = s.pba := rfl
@[simp] theorem State.modCur_bar (s : State) (f : Context → Context) : (s.modCur f).bar = s.bar := rfl
@[simp] theorem State.modCur_rows (s : State) (f : Context → Context) : (s.modCur f).rows = s.rows := rfl

/-! ## modSheaf -/

@[simp] theorem State.modSheaf_now (s : State) (k : Nat) (f : Sheaf → Sheaf) : (s.modSheaf k f).now = s.now := rfl
@[simp] theorem State.modSheaf_draws (s : State) (k : Nat) (f : Sheaf → Sheaf) : (s.modSheaf k f).draws = s.draws := rfl
@[simp] theorem State.modSheaf_turn (s : State) (k : Nat) (f : Sheaf → Sheaf) : (s.modSheaf k f).turn = s.turn := rfl
@[simp] theorem State.modSheaf_issue (s : State) (k : Nat) (f : Sheaf → Sheaf) : (s.modSheaf k f).issue = s.issue := rfl
@[simp] theorem State.modSheaf_mem (s : State) (k : Nat) (f : Sheaf → Sheaf) : (s.modSheaf k f).mem = s.mem := rfl
@[simp] theorem State.modSheaf_keys (s : State) (k : Nat) (f : Sheaf → Sheaf) : (s.modSheaf k f).keys = s.keys := rfl
@[simp] theorem State.modSheaf_badLines (s : State) (k : Nat) (f : Sheaf → Sheaf) : (s.modSheaf k f).badLines = s.badLines := rfl
@[simp] theorem State.modSheaf_poison (s : State) (k : Nat) (f : Sheaf → Sheaf) : (s.modSheaf k f).poison = s.poison := rfl
@[simp] theorem State.modSheaf_cores (s : State) (k : Nat) (f : Sheaf → Sheaf) : (s.modSheaf k f).cores = s.cores := rfl
@[simp] theorem State.modSheaf_fields (s : State) (k : Nat) (f : Sheaf → Sheaf) : (s.modSheaf k f).fields = s.fields := rfl
@[simp] theorem State.modSheaf_stackTab (s : State) (k : Nat) (f : Sheaf → Sheaf) : (s.modSheaf k f).stackTab = s.stackTab := rfl
@[simp] theorem State.modSheaf_coh (s : State) (k : Nat) (f : Sheaf → Sheaf) : (s.modSheaf k f).coh = s.coh := rfl
@[simp] theorem State.modSheaf_kids (s : State) (k : Nat) (f : Sheaf → Sheaf) : (s.modSheaf k f).kids = s.kids := rfl
@[simp] theorem State.modSheaf_ssq (s : State) (k : Nat) (f : Sheaf → Sheaf) : (s.modSheaf k f).ssq = s.ssq := rfl
@[simp] theorem State.modSheaf_rings (s : State) (k : Nat) (f : Sheaf → Sheaf) : (s.modSheaf k f).rings = s.rings := rfl
@[simp] theorem State.modSheaf_links (s : State) (k : Nat) (f : Sheaf → Sheaf) : (s.modSheaf k f).links = s.links := rfl
@[simp] theorem State.modSheaf_routes (s : State) (k : Nat) (f : Sheaf → Sheaf) : (s.modSheaf k f).routes = s.routes := rfl
@[simp] theorem State.modSheaf_guest (s : State) (k : Nat) (f : Sheaf → Sheaf) : (s.modSheaf k f).guest = s.guest := rfl
@[simp] theorem State.modSheaf_granger (s : State) (k : Nat) (f : Sheaf → Sheaf) : (s.modSheaf k f).granger = s.granger := rfl
@[simp] theorem State.modSheaf_config (s : State) (k : Nat) (f : Sheaf → Sheaf) : (s.modSheaf k f).config = s.config := rfl
@[simp] theorem State.modSheaf_pool (s : State) (k : Nat) (f : Sheaf → Sheaf) : (s.modSheaf k f).pool = s.pool := rfl
@[simp] theorem State.modSheaf_msix (s : State) (k : Nat) (f : Sheaf → Sheaf) : (s.modSheaf k f).msix = s.msix := rfl
@[simp] theorem State.modSheaf_msixTable (s : State) (k : Nat) (f : Sheaf → Sheaf) : (s.modSheaf k f).msixTable = s.msixTable := rfl
@[simp] theorem State.modSheaf_sealed (s : State) (k : Nat) (f : Sheaf → Sheaf) : (s.modSheaf k f).sealed = s.sealed := rfl
@[simp] theorem State.modSheaf_serial (s : State) (k : Nat) (f : Sheaf → Sheaf) : (s.modSheaf k f).serial = s.serial := rfl
@[simp] theorem State.modSheaf_remote (s : State) (k : Nat) (f : Sheaf → Sheaf) : (s.modSheaf k f).remote = s.remote := rfl
@[simp] theorem State.modSheaf_pba (s : State) (k : Nat) (f : Sheaf → Sheaf) : (s.modSheaf k f).pba = s.pba := rfl
@[simp] theorem State.modSheaf_bar (s : State) (k : Nat) (f : Sheaf → Sheaf) : (s.modSheaf k f).bar = s.bar := rfl
@[simp] theorem State.modSheaf_rows (s : State) (k : Nat) (f : Sheaf → Sheaf) : (s.modSheaf k f).rows = s.rows := rfl

/-! ## modField -/

@[simp] theorem State.modField_now (s : State) (k : Nat) (f : Field → Field) : (s.modField k f).now = s.now := rfl
@[simp] theorem State.modField_draws (s : State) (k : Nat) (f : Field → Field) : (s.modField k f).draws = s.draws := rfl
@[simp] theorem State.modField_turn (s : State) (k : Nat) (f : Field → Field) : (s.modField k f).turn = s.turn := rfl
@[simp] theorem State.modField_issue (s : State) (k : Nat) (f : Field → Field) : (s.modField k f).issue = s.issue := rfl
@[simp] theorem State.modField_mem (s : State) (k : Nat) (f : Field → Field) : (s.modField k f).mem = s.mem := rfl
@[simp] theorem State.modField_keys (s : State) (k : Nat) (f : Field → Field) : (s.modField k f).keys = s.keys := rfl
@[simp] theorem State.modField_badLines (s : State) (k : Nat) (f : Field → Field) : (s.modField k f).badLines = s.badLines := rfl
@[simp] theorem State.modField_poison (s : State) (k : Nat) (f : Field → Field) : (s.modField k f).poison = s.poison := rfl
@[simp] theorem State.modField_cores (s : State) (k : Nat) (f : Field → Field) : (s.modField k f).cores = s.cores := rfl
@[simp] theorem State.modField_sheaves (s : State) (k : Nat) (f : Field → Field) : (s.modField k f).sheaves = s.sheaves := rfl
@[simp] theorem State.modField_stackTab (s : State) (k : Nat) (f : Field → Field) : (s.modField k f).stackTab = s.stackTab := rfl
@[simp] theorem State.modField_coh (s : State) (k : Nat) (f : Field → Field) : (s.modField k f).coh = s.coh := rfl
@[simp] theorem State.modField_kids (s : State) (k : Nat) (f : Field → Field) : (s.modField k f).kids = s.kids := rfl
@[simp] theorem State.modField_ssq (s : State) (k : Nat) (f : Field → Field) : (s.modField k f).ssq = s.ssq := rfl
@[simp] theorem State.modField_rings (s : State) (k : Nat) (f : Field → Field) : (s.modField k f).rings = s.rings := rfl
@[simp] theorem State.modField_links (s : State) (k : Nat) (f : Field → Field) : (s.modField k f).links = s.links := rfl
@[simp] theorem State.modField_routes (s : State) (k : Nat) (f : Field → Field) : (s.modField k f).routes = s.routes := rfl
@[simp] theorem State.modField_guest (s : State) (k : Nat) (f : Field → Field) : (s.modField k f).guest = s.guest := rfl
@[simp] theorem State.modField_granger (s : State) (k : Nat) (f : Field → Field) : (s.modField k f).granger = s.granger := rfl
@[simp] theorem State.modField_config (s : State) (k : Nat) (f : Field → Field) : (s.modField k f).config = s.config := rfl
@[simp] theorem State.modField_pool (s : State) (k : Nat) (f : Field → Field) : (s.modField k f).pool = s.pool := rfl
@[simp] theorem State.modField_msix (s : State) (k : Nat) (f : Field → Field) : (s.modField k f).msix = s.msix := rfl
@[simp] theorem State.modField_msixTable (s : State) (k : Nat) (f : Field → Field) : (s.modField k f).msixTable = s.msixTable := rfl
@[simp] theorem State.modField_sealed (s : State) (k : Nat) (f : Field → Field) : (s.modField k f).sealed = s.sealed := rfl
@[simp] theorem State.modField_serial (s : State) (k : Nat) (f : Field → Field) : (s.modField k f).serial = s.serial := rfl
@[simp] theorem State.modField_remote (s : State) (k : Nat) (f : Field → Field) : (s.modField k f).remote = s.remote := rfl
@[simp] theorem State.modField_pba (s : State) (k : Nat) (f : Field → Field) : (s.modField k f).pba = s.pba := rfl
@[simp] theorem State.modField_bar (s : State) (k : Nat) (f : Field → Field) : (s.modField k f).bar = s.bar := rfl
@[simp] theorem State.modField_rows (s : State) (k : Nat) (f : Field → Field) : (s.modField k f).rows = s.rows := rfl

/-! ## modStack -/

@[simp] theorem State.modStack_now (s : State) (k : Nat) (f : Stack → Stack) : (s.modStack k f).now = s.now := rfl
@[simp] theorem State.modStack_draws (s : State) (k : Nat) (f : Stack → Stack) : (s.modStack k f).draws = s.draws := rfl
@[simp] theorem State.modStack_turn (s : State) (k : Nat) (f : Stack → Stack) : (s.modStack k f).turn = s.turn := rfl
@[simp] theorem State.modStack_issue (s : State) (k : Nat) (f : Stack → Stack) : (s.modStack k f).issue = s.issue := rfl
@[simp] theorem State.modStack_mem (s : State) (k : Nat) (f : Stack → Stack) : (s.modStack k f).mem = s.mem := rfl
@[simp] theorem State.modStack_keys (s : State) (k : Nat) (f : Stack → Stack) : (s.modStack k f).keys = s.keys := rfl
@[simp] theorem State.modStack_badLines (s : State) (k : Nat) (f : Stack → Stack) : (s.modStack k f).badLines = s.badLines := rfl
@[simp] theorem State.modStack_poison (s : State) (k : Nat) (f : Stack → Stack) : (s.modStack k f).poison = s.poison := rfl
@[simp] theorem State.modStack_cores (s : State) (k : Nat) (f : Stack → Stack) : (s.modStack k f).cores = s.cores := rfl
@[simp] theorem State.modStack_sheaves (s : State) (k : Nat) (f : Stack → Stack) : (s.modStack k f).sheaves = s.sheaves := rfl
@[simp] theorem State.modStack_fields (s : State) (k : Nat) (f : Stack → Stack) : (s.modStack k f).fields = s.fields := rfl
@[simp] theorem State.modStack_coh (s : State) (k : Nat) (f : Stack → Stack) : (s.modStack k f).coh = s.coh := rfl
@[simp] theorem State.modStack_kids (s : State) (k : Nat) (f : Stack → Stack) : (s.modStack k f).kids = s.kids := rfl
@[simp] theorem State.modStack_ssq (s : State) (k : Nat) (f : Stack → Stack) : (s.modStack k f).ssq = s.ssq := rfl
@[simp] theorem State.modStack_rings (s : State) (k : Nat) (f : Stack → Stack) : (s.modStack k f).rings = s.rings := rfl
@[simp] theorem State.modStack_links (s : State) (k : Nat) (f : Stack → Stack) : (s.modStack k f).links = s.links := rfl
@[simp] theorem State.modStack_routes (s : State) (k : Nat) (f : Stack → Stack) : (s.modStack k f).routes = s.routes := rfl
@[simp] theorem State.modStack_guest (s : State) (k : Nat) (f : Stack → Stack) : (s.modStack k f).guest = s.guest := rfl
@[simp] theorem State.modStack_granger (s : State) (k : Nat) (f : Stack → Stack) : (s.modStack k f).granger = s.granger := rfl
@[simp] theorem State.modStack_config (s : State) (k : Nat) (f : Stack → Stack) : (s.modStack k f).config = s.config := rfl
@[simp] theorem State.modStack_pool (s : State) (k : Nat) (f : Stack → Stack) : (s.modStack k f).pool = s.pool := rfl
@[simp] theorem State.modStack_msix (s : State) (k : Nat) (f : Stack → Stack) : (s.modStack k f).msix = s.msix := rfl
@[simp] theorem State.modStack_msixTable (s : State) (k : Nat) (f : Stack → Stack) : (s.modStack k f).msixTable = s.msixTable := rfl
@[simp] theorem State.modStack_sealed (s : State) (k : Nat) (f : Stack → Stack) : (s.modStack k f).sealed = s.sealed := rfl
@[simp] theorem State.modStack_serial (s : State) (k : Nat) (f : Stack → Stack) : (s.modStack k f).serial = s.serial := rfl
@[simp] theorem State.modStack_remote (s : State) (k : Nat) (f : Stack → Stack) : (s.modStack k f).remote = s.remote := rfl
@[simp] theorem State.modStack_pba (s : State) (k : Nat) (f : Stack → Stack) : (s.modStack k f).pba = s.pba := rfl
@[simp] theorem State.modStack_bar (s : State) (k : Nat) (f : Stack → Stack) : (s.modStack k f).bar = s.bar := rfl
@[simp] theorem State.modStack_rows (s : State) (k : Nat) (f : Stack → Stack) : (s.modStack k f).rows = s.rows := rfl

/-! ## modLink -/

@[simp] theorem State.modLink_now (s : State) (n : Nat) (f : Link → Link) : (s.modLink n f).now = s.now := rfl
@[simp] theorem State.modLink_draws (s : State) (n : Nat) (f : Link → Link) : (s.modLink n f).draws = s.draws := rfl
@[simp] theorem State.modLink_turn (s : State) (n : Nat) (f : Link → Link) : (s.modLink n f).turn = s.turn := rfl
@[simp] theorem State.modLink_issue (s : State) (n : Nat) (f : Link → Link) : (s.modLink n f).issue = s.issue := rfl
@[simp] theorem State.modLink_mem (s : State) (n : Nat) (f : Link → Link) : (s.modLink n f).mem = s.mem := rfl
@[simp] theorem State.modLink_keys (s : State) (n : Nat) (f : Link → Link) : (s.modLink n f).keys = s.keys := rfl
@[simp] theorem State.modLink_badLines (s : State) (n : Nat) (f : Link → Link) : (s.modLink n f).badLines = s.badLines := rfl
@[simp] theorem State.modLink_poison (s : State) (n : Nat) (f : Link → Link) : (s.modLink n f).poison = s.poison := rfl
@[simp] theorem State.modLink_cores (s : State) (n : Nat) (f : Link → Link) : (s.modLink n f).cores = s.cores := rfl
@[simp] theorem State.modLink_sheaves (s : State) (n : Nat) (f : Link → Link) : (s.modLink n f).sheaves = s.sheaves := rfl
@[simp] theorem State.modLink_fields (s : State) (n : Nat) (f : Link → Link) : (s.modLink n f).fields = s.fields := rfl
@[simp] theorem State.modLink_stackTab (s : State) (n : Nat) (f : Link → Link) : (s.modLink n f).stackTab = s.stackTab := rfl
@[simp] theorem State.modLink_coh (s : State) (n : Nat) (f : Link → Link) : (s.modLink n f).coh = s.coh := rfl
@[simp] theorem State.modLink_kids (s : State) (n : Nat) (f : Link → Link) : (s.modLink n f).kids = s.kids := rfl
@[simp] theorem State.modLink_ssq (s : State) (n : Nat) (f : Link → Link) : (s.modLink n f).ssq = s.ssq := rfl
@[simp] theorem State.modLink_rings (s : State) (n : Nat) (f : Link → Link) : (s.modLink n f).rings = s.rings := rfl
@[simp] theorem State.modLink_routes (s : State) (n : Nat) (f : Link → Link) : (s.modLink n f).routes = s.routes := rfl
@[simp] theorem State.modLink_guest (s : State) (n : Nat) (f : Link → Link) : (s.modLink n f).guest = s.guest := rfl
@[simp] theorem State.modLink_granger (s : State) (n : Nat) (f : Link → Link) : (s.modLink n f).granger = s.granger := rfl
@[simp] theorem State.modLink_config (s : State) (n : Nat) (f : Link → Link) : (s.modLink n f).config = s.config := rfl
@[simp] theorem State.modLink_pool (s : State) (n : Nat) (f : Link → Link) : (s.modLink n f).pool = s.pool := rfl
@[simp] theorem State.modLink_msix (s : State) (n : Nat) (f : Link → Link) : (s.modLink n f).msix = s.msix := rfl
@[simp] theorem State.modLink_msixTable (s : State) (n : Nat) (f : Link → Link) : (s.modLink n f).msixTable = s.msixTable := rfl
@[simp] theorem State.modLink_sealed (s : State) (n : Nat) (f : Link → Link) : (s.modLink n f).sealed = s.sealed := rfl
@[simp] theorem State.modLink_serial (s : State) (n : Nat) (f : Link → Link) : (s.modLink n f).serial = s.serial := rfl
@[simp] theorem State.modLink_remote (s : State) (n : Nat) (f : Link → Link) : (s.modLink n f).remote = s.remote := rfl
@[simp] theorem State.modLink_pba (s : State) (n : Nat) (f : Link → Link) : (s.modLink n f).pba = s.pba := rfl
@[simp] theorem State.modLink_bar (s : State) (n : Nat) (f : Link → Link) : (s.modLink n f).bar = s.bar := rfl
@[simp] theorem State.modLink_rows (s : State) (n : Nat) (f : Link → Link) : (s.modLink n f).rows = s.rows := rfl

/-! ## drawn -/

@[simp] theorem State.drawn_now (s : State) : (s.drawn).now = s.now := rfl
@[simp] theorem State.drawn_turn (s : State) : (s.drawn).turn = s.turn := rfl
@[simp] theorem State.drawn_issue (s : State) : (s.drawn).issue = s.issue := rfl
@[simp] theorem State.drawn_mem (s : State) : (s.drawn).mem = s.mem := rfl
@[simp] theorem State.drawn_keys (s : State) : (s.drawn).keys = s.keys := rfl
@[simp] theorem State.drawn_badLines (s : State) : (s.drawn).badLines = s.badLines := rfl
@[simp] theorem State.drawn_poison (s : State) : (s.drawn).poison = s.poison := rfl
@[simp] theorem State.drawn_cores (s : State) : (s.drawn).cores = s.cores := rfl
@[simp] theorem State.drawn_sheaves (s : State) : (s.drawn).sheaves = s.sheaves := rfl
@[simp] theorem State.drawn_fields (s : State) : (s.drawn).fields = s.fields := rfl
@[simp] theorem State.drawn_stackTab (s : State) : (s.drawn).stackTab = s.stackTab := rfl
@[simp] theorem State.drawn_coh (s : State) : (s.drawn).coh = s.coh := rfl
@[simp] theorem State.drawn_kids (s : State) : (s.drawn).kids = s.kids := rfl
@[simp] theorem State.drawn_ssq (s : State) : (s.drawn).ssq = s.ssq := rfl
@[simp] theorem State.drawn_rings (s : State) : (s.drawn).rings = s.rings := rfl
@[simp] theorem State.drawn_links (s : State) : (s.drawn).links = s.links := rfl
@[simp] theorem State.drawn_routes (s : State) : (s.drawn).routes = s.routes := rfl
@[simp] theorem State.drawn_guest (s : State) : (s.drawn).guest = s.guest := rfl
@[simp] theorem State.drawn_granger (s : State) : (s.drawn).granger = s.granger := rfl
@[simp] theorem State.drawn_config (s : State) : (s.drawn).config = s.config := rfl
@[simp] theorem State.drawn_pool (s : State) : (s.drawn).pool = s.pool := rfl
@[simp] theorem State.drawn_msix (s : State) : (s.drawn).msix = s.msix := rfl
@[simp] theorem State.drawn_msixTable (s : State) : (s.drawn).msixTable = s.msixTable := rfl
@[simp] theorem State.drawn_sealed (s : State) : (s.drawn).sealed = s.sealed := rfl
@[simp] theorem State.drawn_serial (s : State) : (s.drawn).serial = s.serial := rfl
@[simp] theorem State.drawn_remote (s : State) : (s.drawn).remote = s.remote := rfl
@[simp] theorem State.drawn_pba (s : State) : (s.drawn).pba = s.pba := rfl
@[simp] theorem State.drawn_bar (s : State) : (s.drawn).bar = s.bar := rfl
@[simp] theorem State.drawn_rows (s : State) : (s.drawn).rows = s.rows := rfl

/-! ## wait -/

@[simp] theorem State.wait_now (s : State) : (s.wait).now = s.now := rfl
@[simp] theorem State.wait_draws (s : State) : (s.wait).draws = s.draws := rfl
@[simp] theorem State.wait_turn (s : State) : (s.wait).turn = s.turn := rfl
@[simp] theorem State.wait_mem (s : State) : (s.wait).mem = s.mem := rfl
@[simp] theorem State.wait_keys (s : State) : (s.wait).keys = s.keys := rfl
@[simp] theorem State.wait_badLines (s : State) : (s.wait).badLines = s.badLines := rfl
@[simp] theorem State.wait_poison (s : State) : (s.wait).poison = s.poison := rfl
@[simp] theorem State.wait_cores (s : State) : (s.wait).cores = s.cores := rfl
@[simp] theorem State.wait_sheaves (s : State) : (s.wait).sheaves = s.sheaves := rfl
@[simp] theorem State.wait_fields (s : State) : (s.wait).fields = s.fields := rfl
@[simp] theorem State.wait_stackTab (s : State) : (s.wait).stackTab = s.stackTab := rfl
@[simp] theorem State.wait_coh (s : State) : (s.wait).coh = s.coh := rfl
@[simp] theorem State.wait_kids (s : State) : (s.wait).kids = s.kids := rfl
@[simp] theorem State.wait_ssq (s : State) : (s.wait).ssq = s.ssq := rfl
@[simp] theorem State.wait_rings (s : State) : (s.wait).rings = s.rings := rfl
@[simp] theorem State.wait_links (s : State) : (s.wait).links = s.links := rfl
@[simp] theorem State.wait_routes (s : State) : (s.wait).routes = s.routes := rfl
@[simp] theorem State.wait_guest (s : State) : (s.wait).guest = s.guest := rfl
@[simp] theorem State.wait_granger (s : State) : (s.wait).granger = s.granger := rfl
@[simp] theorem State.wait_config (s : State) : (s.wait).config = s.config := rfl
@[simp] theorem State.wait_pool (s : State) : (s.wait).pool = s.pool := rfl
@[simp] theorem State.wait_msix (s : State) : (s.wait).msix = s.msix := rfl
@[simp] theorem State.wait_msixTable (s : State) : (s.wait).msixTable = s.msixTable := rfl
@[simp] theorem State.wait_sealed (s : State) : (s.wait).sealed = s.sealed := rfl
@[simp] theorem State.wait_serial (s : State) : (s.wait).serial = s.serial := rfl
@[simp] theorem State.wait_remote (s : State) : (s.wait).remote = s.remote := rfl
@[simp] theorem State.wait_pba (s : State) : (s.wait).pba = s.pba := rfl
@[simp] theorem State.wait_bar (s : State) : (s.wait).bar = s.bar := rfl
@[simp] theorem State.wait_rows (s : State) : (s.wait).rows = s.rows := rfl

/-! ## put -/

@[simp] theorem State.put_now (s : State) (v : RegVal) (n : Nat) : (s.put v n).now = s.now := rfl
@[simp] theorem State.put_draws (s : State) (v : RegVal) (n : Nat) : (s.put v n).draws = s.draws := rfl
@[simp] theorem State.put_turn (s : State) (v : RegVal) (n : Nat) : (s.put v n).turn = s.turn := rfl
@[simp] theorem State.put_issue (s : State) (v : RegVal) (n : Nat) : (s.put v n).issue = s.issue := rfl
@[simp] theorem State.put_mem (s : State) (v : RegVal) (n : Nat) : (s.put v n).mem = s.mem := rfl
@[simp] theorem State.put_keys (s : State) (v : RegVal) (n : Nat) : (s.put v n).keys = s.keys := rfl
@[simp] theorem State.put_badLines (s : State) (v : RegVal) (n : Nat) : (s.put v n).badLines = s.badLines := rfl
@[simp] theorem State.put_poison (s : State) (v : RegVal) (n : Nat) : (s.put v n).poison = s.poison := rfl
@[simp] theorem State.put_sheaves (s : State) (v : RegVal) (n : Nat) : (s.put v n).sheaves = s.sheaves := rfl
@[simp] theorem State.put_fields (s : State) (v : RegVal) (n : Nat) : (s.put v n).fields = s.fields := rfl
@[simp] theorem State.put_stackTab (s : State) (v : RegVal) (n : Nat) : (s.put v n).stackTab = s.stackTab := rfl
@[simp] theorem State.put_coh (s : State) (v : RegVal) (n : Nat) : (s.put v n).coh = s.coh := rfl
@[simp] theorem State.put_kids (s : State) (v : RegVal) (n : Nat) : (s.put v n).kids = s.kids := rfl
@[simp] theorem State.put_ssq (s : State) (v : RegVal) (n : Nat) : (s.put v n).ssq = s.ssq := rfl
@[simp] theorem State.put_rings (s : State) (v : RegVal) (n : Nat) : (s.put v n).rings = s.rings := rfl
@[simp] theorem State.put_links (s : State) (v : RegVal) (n : Nat) : (s.put v n).links = s.links := rfl
@[simp] theorem State.put_routes (s : State) (v : RegVal) (n : Nat) : (s.put v n).routes = s.routes := rfl
@[simp] theorem State.put_guest (s : State) (v : RegVal) (n : Nat) : (s.put v n).guest = s.guest := rfl
@[simp] theorem State.put_granger (s : State) (v : RegVal) (n : Nat) : (s.put v n).granger = s.granger := rfl
@[simp] theorem State.put_config (s : State) (v : RegVal) (n : Nat) : (s.put v n).config = s.config := rfl
@[simp] theorem State.put_pool (s : State) (v : RegVal) (n : Nat) : (s.put v n).pool = s.pool := rfl
@[simp] theorem State.put_msix (s : State) (v : RegVal) (n : Nat) : (s.put v n).msix = s.msix := rfl
@[simp] theorem State.put_msixTable (s : State) (v : RegVal) (n : Nat) : (s.put v n).msixTable = s.msixTable := rfl
@[simp] theorem State.put_sealed (s : State) (v : RegVal) (n : Nat) : (s.put v n).sealed = s.sealed := rfl
@[simp] theorem State.put_serial (s : State) (v : RegVal) (n : Nat) : (s.put v n).serial = s.serial := rfl
@[simp] theorem State.put_remote (s : State) (v : RegVal) (n : Nat) : (s.put v n).remote = s.remote := rfl
@[simp] theorem State.put_pba (s : State) (v : RegVal) (n : Nat) : (s.put v n).pba = s.pba := rfl
@[simp] theorem State.put_bar (s : State) (v : RegVal) (n : Nat) : (s.put v n).bar = s.bar := rfl
@[simp] theorem State.put_rows (s : State) (v : RegVal) (n : Nat) : (s.put v n).rows = s.rows := rfl

/-! ## setWin -/

@[simp] theorem State.setWin_now (s : State) (w : Fin 16) (x : Windrow) : (s.setWin w x).now = s.now := rfl
@[simp] theorem State.setWin_draws (s : State) (w : Fin 16) (x : Windrow) : (s.setWin w x).draws = s.draws := rfl
@[simp] theorem State.setWin_turn (s : State) (w : Fin 16) (x : Windrow) : (s.setWin w x).turn = s.turn := rfl
@[simp] theorem State.setWin_issue (s : State) (w : Fin 16) (x : Windrow) : (s.setWin w x).issue = s.issue := rfl
@[simp] theorem State.setWin_mem (s : State) (w : Fin 16) (x : Windrow) : (s.setWin w x).mem = s.mem := rfl
@[simp] theorem State.setWin_keys (s : State) (w : Fin 16) (x : Windrow) : (s.setWin w x).keys = s.keys := rfl
@[simp] theorem State.setWin_badLines (s : State) (w : Fin 16) (x : Windrow) : (s.setWin w x).badLines = s.badLines := rfl
@[simp] theorem State.setWin_poison (s : State) (w : Fin 16) (x : Windrow) : (s.setWin w x).poison = s.poison := rfl
@[simp] theorem State.setWin_sheaves (s : State) (w : Fin 16) (x : Windrow) : (s.setWin w x).sheaves = s.sheaves := rfl
@[simp] theorem State.setWin_fields (s : State) (w : Fin 16) (x : Windrow) : (s.setWin w x).fields = s.fields := rfl
@[simp] theorem State.setWin_stackTab (s : State) (w : Fin 16) (x : Windrow) : (s.setWin w x).stackTab = s.stackTab := rfl
@[simp] theorem State.setWin_coh (s : State) (w : Fin 16) (x : Windrow) : (s.setWin w x).coh = s.coh := rfl
@[simp] theorem State.setWin_kids (s : State) (w : Fin 16) (x : Windrow) : (s.setWin w x).kids = s.kids := rfl
@[simp] theorem State.setWin_ssq (s : State) (w : Fin 16) (x : Windrow) : (s.setWin w x).ssq = s.ssq := rfl
@[simp] theorem State.setWin_rings (s : State) (w : Fin 16) (x : Windrow) : (s.setWin w x).rings = s.rings := rfl
@[simp] theorem State.setWin_links (s : State) (w : Fin 16) (x : Windrow) : (s.setWin w x).links = s.links := rfl
@[simp] theorem State.setWin_routes (s : State) (w : Fin 16) (x : Windrow) : (s.setWin w x).routes = s.routes := rfl
@[simp] theorem State.setWin_guest (s : State) (w : Fin 16) (x : Windrow) : (s.setWin w x).guest = s.guest := rfl
@[simp] theorem State.setWin_granger (s : State) (w : Fin 16) (x : Windrow) : (s.setWin w x).granger = s.granger := rfl
@[simp] theorem State.setWin_config (s : State) (w : Fin 16) (x : Windrow) : (s.setWin w x).config = s.config := rfl
@[simp] theorem State.setWin_pool (s : State) (w : Fin 16) (x : Windrow) : (s.setWin w x).pool = s.pool := rfl
@[simp] theorem State.setWin_msix (s : State) (w : Fin 16) (x : Windrow) : (s.setWin w x).msix = s.msix := rfl
@[simp] theorem State.setWin_msixTable (s : State) (w : Fin 16) (x : Windrow) : (s.setWin w x).msixTable = s.msixTable := rfl
@[simp] theorem State.setWin_sealed (s : State) (w : Fin 16) (x : Windrow) : (s.setWin w x).sealed = s.sealed := rfl
@[simp] theorem State.setWin_serial (s : State) (w : Fin 16) (x : Windrow) : (s.setWin w x).serial = s.serial := rfl
@[simp] theorem State.setWin_remote (s : State) (w : Fin 16) (x : Windrow) : (s.setWin w x).remote = s.remote := rfl
@[simp] theorem State.setWin_pba (s : State) (w : Fin 16) (x : Windrow) : (s.setWin w x).pba = s.pba := rfl
@[simp] theorem State.setWin_bar (s : State) (w : Fin 16) (x : Windrow) : (s.setWin w x).bar = s.bar := rfl
@[simp] theorem State.setWin_rows (s : State) (w : Fin 16) (x : Windrow) : (s.setWin w x).rows = s.rows := rfl

/-! ## setRb -/

@[simp] theorem State.setRb_now (s : State) (b : Fin 16) (x : RingReg) : (s.setRb b x).now = s.now := rfl
@[simp] theorem State.setRb_draws (s : State) (b : Fin 16) (x : RingReg) : (s.setRb b x).draws = s.draws := rfl
@[simp] theorem State.setRb_turn (s : State) (b : Fin 16) (x : RingReg) : (s.setRb b x).turn = s.turn := rfl
@[simp] theorem State.setRb_issue (s : State) (b : Fin 16) (x : RingReg) : (s.setRb b x).issue = s.issue := rfl
@[simp] theorem State.setRb_mem (s : State) (b : Fin 16) (x : RingReg) : (s.setRb b x).mem = s.mem := rfl
@[simp] theorem State.setRb_keys (s : State) (b : Fin 16) (x : RingReg) : (s.setRb b x).keys = s.keys := rfl
@[simp] theorem State.setRb_badLines (s : State) (b : Fin 16) (x : RingReg) : (s.setRb b x).badLines = s.badLines := rfl
@[simp] theorem State.setRb_poison (s : State) (b : Fin 16) (x : RingReg) : (s.setRb b x).poison = s.poison := rfl
@[simp] theorem State.setRb_sheaves (s : State) (b : Fin 16) (x : RingReg) : (s.setRb b x).sheaves = s.sheaves := rfl
@[simp] theorem State.setRb_fields (s : State) (b : Fin 16) (x : RingReg) : (s.setRb b x).fields = s.fields := rfl
@[simp] theorem State.setRb_stackTab (s : State) (b : Fin 16) (x : RingReg) : (s.setRb b x).stackTab = s.stackTab := rfl
@[simp] theorem State.setRb_coh (s : State) (b : Fin 16) (x : RingReg) : (s.setRb b x).coh = s.coh := rfl
@[simp] theorem State.setRb_kids (s : State) (b : Fin 16) (x : RingReg) : (s.setRb b x).kids = s.kids := rfl
@[simp] theorem State.setRb_ssq (s : State) (b : Fin 16) (x : RingReg) : (s.setRb b x).ssq = s.ssq := rfl
@[simp] theorem State.setRb_rings (s : State) (b : Fin 16) (x : RingReg) : (s.setRb b x).rings = s.rings := rfl
@[simp] theorem State.setRb_links (s : State) (b : Fin 16) (x : RingReg) : (s.setRb b x).links = s.links := rfl
@[simp] theorem State.setRb_routes (s : State) (b : Fin 16) (x : RingReg) : (s.setRb b x).routes = s.routes := rfl
@[simp] theorem State.setRb_guest (s : State) (b : Fin 16) (x : RingReg) : (s.setRb b x).guest = s.guest := rfl
@[simp] theorem State.setRb_granger (s : State) (b : Fin 16) (x : RingReg) : (s.setRb b x).granger = s.granger := rfl
@[simp] theorem State.setRb_config (s : State) (b : Fin 16) (x : RingReg) : (s.setRb b x).config = s.config := rfl
@[simp] theorem State.setRb_pool (s : State) (b : Fin 16) (x : RingReg) : (s.setRb b x).pool = s.pool := rfl
@[simp] theorem State.setRb_msix (s : State) (b : Fin 16) (x : RingReg) : (s.setRb b x).msix = s.msix := rfl
@[simp] theorem State.setRb_msixTable (s : State) (b : Fin 16) (x : RingReg) : (s.setRb b x).msixTable = s.msixTable := rfl
@[simp] theorem State.setRb_sealed (s : State) (b : Fin 16) (x : RingReg) : (s.setRb b x).sealed = s.sealed := rfl
@[simp] theorem State.setRb_serial (s : State) (b : Fin 16) (x : RingReg) : (s.setRb b x).serial = s.serial := rfl
@[simp] theorem State.setRb_remote (s : State) (b : Fin 16) (x : RingReg) : (s.setRb b x).remote = s.remote := rfl
@[simp] theorem State.setRb_pba (s : State) (b : Fin 16) (x : RingReg) : (s.setRb b x).pba = s.pba := rfl
@[simp] theorem State.setRb_bar (s : State) (b : Fin 16) (x : RingReg) : (s.setRb b x).bar = s.bar := rfl
@[simp] theorem State.setRb_rows (s : State) (b : Fin 16) (x : RingReg) : (s.setRb b x).rows = s.rows := rfl

/-! ## defer -/

@[simp] theorem State.defer_now (s : State) (e : Effect) : (s.defer e).now = s.now := rfl
@[simp] theorem State.defer_draws (s : State) (e : Effect) : (s.defer e).draws = s.draws := rfl
@[simp] theorem State.defer_turn (s : State) (e : Effect) : (s.defer e).turn = s.turn := rfl
@[simp] theorem State.defer_issue (s : State) (e : Effect) : (s.defer e).issue = s.issue := rfl
@[simp] theorem State.defer_mem (s : State) (e : Effect) : (s.defer e).mem = s.mem := rfl
@[simp] theorem State.defer_keys (s : State) (e : Effect) : (s.defer e).keys = s.keys := rfl
@[simp] theorem State.defer_badLines (s : State) (e : Effect) : (s.defer e).badLines = s.badLines := rfl
@[simp] theorem State.defer_poison (s : State) (e : Effect) : (s.defer e).poison = s.poison := rfl
@[simp] theorem State.defer_sheaves (s : State) (e : Effect) : (s.defer e).sheaves = s.sheaves := rfl
@[simp] theorem State.defer_fields (s : State) (e : Effect) : (s.defer e).fields = s.fields := rfl
@[simp] theorem State.defer_stackTab (s : State) (e : Effect) : (s.defer e).stackTab = s.stackTab := rfl
@[simp] theorem State.defer_coh (s : State) (e : Effect) : (s.defer e).coh = s.coh := rfl
@[simp] theorem State.defer_kids (s : State) (e : Effect) : (s.defer e).kids = s.kids := rfl
@[simp] theorem State.defer_ssq (s : State) (e : Effect) : (s.defer e).ssq = s.ssq := rfl
@[simp] theorem State.defer_rings (s : State) (e : Effect) : (s.defer e).rings = s.rings := rfl
@[simp] theorem State.defer_links (s : State) (e : Effect) : (s.defer e).links = s.links := rfl
@[simp] theorem State.defer_routes (s : State) (e : Effect) : (s.defer e).routes = s.routes := rfl
@[simp] theorem State.defer_guest (s : State) (e : Effect) : (s.defer e).guest = s.guest := rfl
@[simp] theorem State.defer_granger (s : State) (e : Effect) : (s.defer e).granger = s.granger := rfl
@[simp] theorem State.defer_config (s : State) (e : Effect) : (s.defer e).config = s.config := rfl
@[simp] theorem State.defer_pool (s : State) (e : Effect) : (s.defer e).pool = s.pool := rfl
@[simp] theorem State.defer_msix (s : State) (e : Effect) : (s.defer e).msix = s.msix := rfl
@[simp] theorem State.defer_msixTable (s : State) (e : Effect) : (s.defer e).msixTable = s.msixTable := rfl
@[simp] theorem State.defer_sealed (s : State) (e : Effect) : (s.defer e).sealed = s.sealed := rfl
@[simp] theorem State.defer_serial (s : State) (e : Effect) : (s.defer e).serial = s.serial := rfl
@[simp] theorem State.defer_remote (s : State) (e : Effect) : (s.defer e).remote = s.remote := rfl
@[simp] theorem State.defer_pba (s : State) (e : Effect) : (s.defer e).pba = s.pba := rfl
@[simp] theorem State.defer_bar (s : State) (e : Effect) : (s.defer e).bar = s.bar := rfl
@[simp] theorem State.defer_rows (s : State) (e : Effect) : (s.defer e).rows = s.rows := rfl

/-! ## Parts after an update -/

theorem State.core_setCore (s : State) (k n : Nat) (c : Core) : (s.setCore k c).core n = if k = n then c else s.core n := by
  simp only [State.core, State.setCore, tget_tput]

@[simp] theorem State.core_setCore_self (s : State) (k : Nat) (c : Core) : (s.setCore k c).core k = c := by simp [State.core_setCore]

theorem State.core_modCore (s : State) (k n : Nat) (f : Core → Core) : (s.modCore k f).core n = if k = n then f (s.core n) else s.core n := by
  simp only [State.modCore, State.core_setCore]
  split
  · subst_vars; rfl
  · rfl

@[simp] theorem State.core_modCore_self (s : State) (k : Nat) (f : Core → Core) : (s.modCore k f).core k = f (s.core k) := by
  simp [State.core_modCore]

/-- A context slot after a change of one. -/
theorem State.ctxAt_modCtx (s : State) (k n : Nat) (j i : Fin 4) (f : Context → Context) :
    (s.modCtx k j f).ctxAt n i = if k = n ∧ j = i then f (s.ctxAt n i) else s.ctxAt n i := by
  simp only [State.ctxAt, State.modCtx, State.core_setCore, Core.setCtx]
  by_cases h : k = n
  · subst h
    simp only [if_true, true_and]
    by_cases hj : j = i
    · subst hj; simp
    · rw [if_neg hj]
      simp only [Fin.getElem_fin]
      rw [Vector.getElem_set_ne]
      exact fun h => hj (Fin.ext h)
  · simp [h]

@[simp] theorem State.ctxAt_modCtx_self (s : State) (k : Nat) (j : Fin 4) (f : Context → Context) :
    (s.modCtx k j f).ctxAt k j = f (s.ctxAt k j) := by simp [State.ctxAt_modCtx]

@[simp] theorem State.cur_modCur (s : State) (f : Context → Context) : (s.modCur f).cur = f s.cur := by
  simp [State.cur, State.modCur]

theorem State.field_modField (s : State) (k n : Nat) (f : Field → Field) : (s.modField k f).field n = if k = n then f (s.field n) else s.field n := by
  simp only [State.field, State.modField, tget_tput]
  split
  · subst_vars; rfl
  · rfl

@[simp] theorem State.field_modField_self (s : State) (k : Nat) (f : Field → Field) : (s.modField k f).field k = f (s.field k) := by
  simp [State.field_modField]

theorem State.sheaf_modSheaf (s : State) (k n : Nat) (f : Sheaf → Sheaf) : (s.modSheaf k f).sheaf n = if k = n then f (s.sheaf n) else s.sheaf n := by
  simp only [State.sheaf, State.modSheaf, tget_tput]
  split
  · subst_vars; rfl
  · rfl

@[simp] theorem State.sheaf_modSheaf_self (s : State) (k : Nat) (f : Sheaf → Sheaf) : (s.modSheaf k f).sheaf k = f (s.sheaf k) := by
  simp [State.sheaf_modSheaf]

theorem State.stack_modStack (s : State) (k n : Nat) (f : Stack → Stack) : (s.modStack k f).stack n = if k = n then f (s.stack n) else s.stack n := by
  simp only [State.stack, State.modStack, tget_tput]
  split
  · subst_vars; rfl
  · rfl

@[simp] theorem State.stack_modStack_self (s : State) (k : Nat) (f : Stack → Stack) : (s.modStack k f).stack k = f (s.stack k) := by
  simp [State.stack_modStack]

theorem State.linkAt_modLink (s : State) (k n : Nat) (f : Link → Link) : (s.modLink k f).linkAt n = if k = n then f (s.linkAt n) else s.linkAt n := by
  simp only [State.linkAt, State.modLink, tget_tput]
  split
  · subst_vars; rfl
  · rfl

@[simp] theorem State.linkAt_modLink_self (s : State) (n : Nat) (f : Link → Link) : (s.modLink n f).linkAt n = f (s.linkAt n) := by
  simp [State.linkAt_modLink]

/-- A windrow after a change of one. -/
theorem State.win_setWin (s : State) (w v : Fin 16) (x : Windrow) : (s.setWin w x).win v = if w = v then x else s.win v := by
  simp only [State.win, State.setWin, State.cur_modCur, Fin.getElem_fin, Vector.getElem_set, Fin.ext_iff]

@[simp] theorem State.win_setWin_self (s : State) (w : Fin 16) (x : Windrow) : (s.setWin w x).win w = x := by simp [State.win_setWin]

/-- A ring register after a change of one. -/
theorem State.rb_setRb (s : State) (w v : Fin 16) (x : RingReg) : (s.setRb w x).rb v = if w = v then x else s.rb v := by
  simp only [State.rb, State.setRb, State.cur_modCur, Fin.getElem_fin, Vector.getElem_set, Fin.ext_iff]

/-! ## The slot that runs -/

@[simp] theorem State.done_eq (s : State) : s.done = .next s := rfl
@[simp] theorem State.wait_outcome (s : State) : s.wait.issue.outcome = .wait := rfl
@[simp] theorem State.raise_outcome (s : State) (c : Cause) (w : Word) : (s.raise c w).issue.outcome = .trap := rfl
@[simp] theorem State.raise_trapped (s : State) (c : Cause) (w : Word) : (s.raise c w).issue.trapped = some ⟨c, w⟩ := rfl

/-- A result for s0 is discarded (R83), and one for p0 (R84). -/
@[simp] theorem State.putS_zero (s : State) (v : Word) (n : Nat) : s.putS 0 v n = s := rfl
@[simp] theorem State.putP_zero (s : State) (v : Bool) (n : Nat) : s.putP 0 v n = s := rfl

/-- s0 reads zero and p0 reads one. -/
@[simp] theorem State.getS_zero (s : State) : s.getS 0 = 0 := rfl
@[simp] theorem State.getP_zero (s : State) : s.getP 0 = true := rfl

end Sys2Proof.Machine
end

