-- ==== Sys2Proof/Laws/Memory.lean ====
section
/-! SUPPORT. The memory hierarchy: every operation keeps the canonical form of memory, of the Lofts and of the Granary windows, and most
leave memory itself alone. -/

namespace Sys2Proof.Machine

/-- The canonical form of every store of bytes of the machine. -/
structure State.BytesWf (s : State) : Prop where
  mem  : Memory.wf s.mem = true
  loft : ∀ k, Memory.wf (s.core k).loft = true
  gran : ∀ f, Memory.wf (s.field f).gran = true

/-- At reset memory, the Lofts and the Granary windows are canonical. -/
theorem State.reset_bytesWf : State.reset.BytesWf where
  mem := rfl
  loft _ := rfl
  gran _ := rfl

/-! ## Writes keep the form -/

theorem mergeBytes_wf (m : Bytes) (line : Nat) (mask : BitVec 64) (data : Line) (h : Memory.wf m = true) :
    Memory.wf (mergeBytes m line mask data) = true := by unfold mergeBytes; apply bsetN_wf; exact h

theorem Field.granWrite_wf (f : Field) (kid : BitVec 8) (line : Nat) (mask : BitVec 64) (data : Line) (h : Memory.wf f.gran = true) :
    Memory.wf (f.granWrite kid line mask data).gran = true := by unfold Field.granWrite; apply bsetN_wf; exact h

theorem State.BytesWf.modCore {s : State} (h : s.BytesWf) (k : Nat) (f : Core → Core) (hf : Memory.wf (f (s.core k)).loft = true) :
    (s.modCore k f).BytesWf where
  mem := h.mem
  loft n := by
    by_cases e : k = n
    · subst e; simpa [State.modCore] using hf
    · simpa [State.modCore, State.core, State.setCore, tget_tput_ne, e] using h.loft n
  gran n := h.gran n

theorem State.BytesWf.modField {s : State} (h : s.BytesWf) (k : Nat) (f : Field → Field) (hf : Memory.wf (f (s.field k)).gran = true) :
    (s.modField k f).BytesWf where
  mem := h.mem
  loft n := h.loft n
  gran n := by
    by_cases e : k = n
    · subst e; simpa [State.modField, State.field] using hf
    · simpa [State.modField, State.field, tget_tput_ne, e] using h.gran n

/-- A change of a core that leaves its Loft alone. -/
theorem State.BytesWf.keepLoft {s : State} (h : s.BytesWf) (k : Nat) (f : Core → Core) (hf : ∀ c, (f c).loft = c.loft) : (s.modCore k f).BytesWf :=
  h.modCore k f (by rw [hf]; exact h.loft k)

/-- A change of a field that leaves its Granary window alone. -/
theorem State.BytesWf.keepGran {s : State} (h : s.BytesWf) (k : Nat) (f : Field → Field) (hf : ∀ c, (f c).gran = c.gran) : (s.modField k f).BytesWf :=
  h.modField k f (by rw [hf]; exact h.gran k)

theorem State.BytesWf.modCtx {s : State} (h : s.BytesWf) (k : Nat) (j : Fin 4) (f : Context → Context) : (s.modCtx k j f).BytesWf :=
  h.keepLoft k (fun c => c.setCtx j (f (s.ctxAt k j))) fun _ => rfl

theorem State.BytesWf.modCur {s : State} (h : s.BytesWf) (f : Context → Context) : (s.modCur f).BytesWf := by unfold State.modCur; exact h.modCtx _ _ f

/-- An update that touches no store of bytes. -/
theorem State.BytesWf.congr {s t : State} (h : s.BytesWf) (hm : t.mem = s.mem) (hc : t.cores = s.cores) (hf : t.fields = s.fields) : t.BytesWf where
  mem := hm ▸ h.mem
  loft k := by have := h.loft k; simpa only [State.core, hc] using this
  gran f := by have := h.gran f; simpa only [State.field, hf] using this

theorem State.BytesWf.setMem {s : State} (h : s.BytesWf) (m : Bytes) (hm : Memory.wf m = true) : { s with mem := m }.BytesWf := ⟨hm, h.loft, h.gran⟩

theorem State.BytesWf.dramWrite {s : State} (h : s.BytesWf) (kid : BitVec 8) (line : Nat) (mask : BitVec 64) (data : Line) :
    (s.dramWrite kid line mask data).BytesWf := by
  unfold State.dramWrite
  generalize lineBytes _ = bs
  constructor
  · apply bsetN_wf; exact h.mem
  · exact fun k => h.loft k
  · exact fun k => h.gran k

theorem State.BytesWf.modStack {s : State} (h : s.BytesWf) (k : Nat) (f : Stack → Stack) : (s.modStack k f).BytesWf := ⟨h.mem, h.loft, h.gran⟩

theorem State.BytesWf.modLink {s : State} (h : s.BytesWf) (n : Nat) (f : Link → Link) : (s.modLink n f).BytesWf := ⟨h.mem, h.loft, h.gran⟩

theorem State.BytesWf.sendPacket {s : State} (h : s.BytesWf) (dest cls : Nat) (owner : Option Nat) (bs : List Byte) :
    (s.sendPacket dest cls owner bs).BytesWf := ⟨h.mem, h.loft, h.gran⟩

theorem State.BytesWf.remoteWrite {s : State} (h : s.BytesWf) (kid : BitVec 8) (line : Nat) (mask : BitVec 64) (data : Line) :
    (s.remoteWrite kid line mask data).BytesWf := ⟨h.mem, h.loft, h.gran⟩

/-- A fold of updates that each keep the form. -/
theorem State.BytesWf.foldl {α : Type} (f : State → α → State) (hf : ∀ s x, s.BytesWf → (f s x).BytesWf) :
    ∀ (xs : List α) (s : State), s.BytesWf → (xs.foldl f s).BytesWf
  | [], _, h => h
  | x :: xs, s, h => State.BytesWf.foldl f hf xs _ (hf s x h)

theorem State.BytesWf.cribAccess {s : State} (h : s.BytesWf) (line : Nat) (kid : BitVec 8) (a b : Bool) : (s.cribAccess line kid a b).BytesWf :=
  h.modStack _ _

theorem State.BytesWf.drainWrite {s : State} (h : s.BytesWf) (stack : Nat) : (s.drainWrite stack).BytesWf := by
  unfold State.drainWrite
  split
  · exact h
  · exact ((h.modStack _ _).dramWrite _ _ _ _).cribAccess _ _ _ _

theorem State.BytesWf.passTag {s : State} (h : s.BytesWf) (stack : Nat) : (s.passTag stack).BytesWf := by
  unfold State.passTag
  split
  · exact h
  · exact h.modStack _ _

theorem State.BytesWf.meetLine {s : State} (h : s.BytesWf) (attr : Trans) (line : Nat) : (s.meetLine attr line).BytesWf := by
  unfold State.meetLine
  dsimp only
  split
  · exact h.sendPacket _ _ _ _
  · split
    · exact h
    · exact ((h.passTag _).cribAccess _ _ _ _).keepGran _ _ fun _ => rfl

theorem State.BytesWf.homeWrite {s : State} (h : s.BytesWf) (attr : Trans) (line : Nat) (mask : BitVec 64) (data : Line) :
    (s.homeWrite attr line mask data).BytesWf := by
  unfold State.homeWrite
  split
  · exact h.remoteWrite _ _ _ _
  · split
    · exact h
    · exact (h.meetLine _ _).keepGran _ _ fun _ => rfl

theorem State.BytesWf.meet {s : State} (h : s.BytesWf) (t : Trans) : (s.meet t).BytesWf := by
  unfold State.meet
  split
  · exact h.meetLine _ _
  · exact h

theorem State.BytesWf.drawn {s : State} (h : s.BytesWf) : s.drawn.BytesWf := ⟨h.mem, h.loft, h.gran⟩

theorem State.BytesWf.evict {s : State} (h : s.BytesWf) (k : Nat) (x : CacheLine) : (s.evict k x).BytesWf := by
  unfold State.evict
  have := h.keepLoft k (fun c => { c with l1 := dropLine x.line x.kid c.l1 }) fun _ => rfl
  dsimp only
  split
  · exact this
  · exact this.homeWrite _ _ _ _

theorem State.BytesWf.evictLines {s : State} (h : s.BytesWf) (n : Nat) (kid : BitVec 8) (line : Nat) : (s.evictLines n kid line).BytesWf := by
  unfold State.evictLines
  refine State.BytesWf.foldl _ (fun u k hu => ?_) _ _ h
  split
  · exact hu.evict _ _
  · exact hu

theorem State.BytesWf.tell {s : State} (h : s.BytesWf) (ident : Nat) (v : TrapVal) : (s.tell ident v).BytesWf := by
  unfold State.tell
  refine (State.BytesWf.foldl _ (fun u k hu => State.BytesWf.foldl _ (fun w j hw => ?_) _ _ hu) _ _ h).congr rfl rfl rfl
  split
  · exact hw.modCtx _ _ _
  · exact hw

theorem State.BytesWf.writeHome {s : State} (h : s.BytesWf) (t : Trans) (mask : BitVec 64) (data : Line) : (s.writeHome t mask data).BytesWf := by
  unfold State.writeHome
  dsimp only
  split
  · refine h.modCore _ _ ?_; dsimp only; apply mergeBytes_wf; exact h.loft _
  · split
    · exact h
    · split
      · exact h.homeWrite _ _ _ _
      · split
        · exact h.homeWrite _ _ _ _
        · refine h.modField _ _ ?_; apply Field.granWrite_wf; exact h.gran _
        · exact h
        · refine h.setMem _ ?_; apply mergeBytes_wf; exact h.mem

theorem State.BytesWf.landWrite {s : State} (h : s.BytesWf) (k : Nat) (x : LateWrite) : (s.landWrite k x).BytesWf := by
  have hw : (if x.home then s else s.writeHome x.attr x.mask x.data).BytesWf := by
    split
    · exact h
    · exact h.writeHome _ _ _
  unfold State.landWrite
  split
  · split
    · exact h
    · exact h.tell _ _
  · dsimp only
    split
    · exact hw.evictLines _ _ _
    · exact hw

theorem State.BytesWf.landLateIf {s : State} (h : s.BytesWf) (k : Nat) (p : LateWrite → Bool) : (s.landLateIf k p).BytesWf := by
  unfold State.landLateIf
  split
  · exact (State.BytesWf.foldl _ (fun u x hu => hu.landWrite k x) _ _ h).keepLoft k _ fun _ => rfl
  · exact h

theorem State.BytesWf.landLate {s : State} (h : s.BytesWf) (k : Nat) : (s.landLate k).BytesWf := h.landLateIf k _

theorem State.BytesWf.landWaited {s : State} (h : s.BytesWf) (k : Nat) : (s.landWaited k).BytesWf := h.landLateIf k _

theorem State.BytesWf.landOne {s : State} (h : s.BytesWf) (k : Nat) : (s.landOne k).BytesWf := by
  unfold State.landOne
  dsimp only
  split
  · exact h
  · split
    · exact h.drawn
    · split
      · exact (h.drawn.landWrite _ _).keepLoft k _ fun _ => rfl
      · split
        · exact (h.drawn.landWrite _ _).keepLoft k _ fun _ => rfl
        · exact (h.drawn.writeHome _ _ _).keepLoft k _ fun _ => rfl

theorem State.BytesWf.replaceLine {s : State} (h : s.BytesWf) (k : Nat) : (s.replaceLine k).BytesWf := by
  unfold State.replaceLine
  split
  · exact h
  · split
    · exact h.drawn
    · exact h.drawn.evict _ _

theorem State.BytesWf.oweIf {s : State} (h : s.BytesWf) (k : Nat) (test : CacheLine → Bool) : (s.oweIf k test).BytesWf := by
  unfold State.oweIf
  refine State.BytesWf.foldl _ (fun u j hu => ?_) _ _ h
  dsimp only
  split
  · exact hu.keepLoft j _ fun _ => rfl
  · exact hu

theorem State.BytesWf.addLine {s : State} (h : s.BytesWf) (k : Nat) (x : CacheLine) : (s.modCore k fun c => { c with l1 := x :: c.l1 }).BytesWf :=
  h.keepLoft k _ fun _ => rfl

theorem State.BytesWf.l1Line {s : State} (h : s.BytesWf) (k : Nat) (attr : Trans) (line : Nat) : (s.l1Line k attr line).2.BytesWf := by
  have hr := h.replaceLine k
  unfold State.l1Line
  dsimp only
  split
  · exact ((hr.meetLine attr line).oweIf k _).addLine k _
  · split
    · exact hr.drawn
    · exact ((((hr.drawn.evict k _).meetLine attr line).oweIf k _).addLine k _).drawn

theorem State.BytesWf.l1Write {s : State} (h : s.BytesWf) (k : Nat) (attr : Trans) (line : Nat) (mask : BitVec 64) (data : Line) :
    (s.l1Write k attr line mask data).BytesWf := by
  have hr := h.replaceLine k
  unfold State.l1Write
  dsimp only
  refine State.BytesWf.keepLoft (State.BytesWf.foldl _ (fun u x hu => ?_) _ _ ?_) _ _ fun _ => rfl
  · refine hu.keepLoft x.1 _ ?_
    intro _; rfl
  split
  · exact hr
  · dsimp only
    split
    · exact hr.meetLine _ _
    · exact hr

theorem State.BytesWf.writeBack {s : State} (h : s.BytesWf) (k : Nat) : (s.writeBack k).BytesWf := by
  unfold State.writeBack
  refine State.BytesWf.foldl _ (fun u j hu => ?_) _ _ h
  dsimp only
  split
  · refine (State.BytesWf.foldl _ (fun w x hw => ?_) _ _ hu).keepLoft j _ fun _ => rfl
    split
    · exact hw.homeWrite _ _ _ _
    · exact hw
  · exact hu

theorem State.BytesWf.oweLines {s : State} (h : s.BytesWf) (k : Nat) : (s.oweLines k).BytesWf := h.oweIf k _

theorem State.BytesWf.dropRemote {s : State} (h : s.BytesWf) : s.dropRemote.BytesWf := by
  unfold State.dropRemote
  exact State.BytesWf.foldl _ (fun u k hu => State.BytesWf.foldl _ (fun w x hw => hw.evict _ _) _ _ hu) _ _ h

theorem State.BytesWf.dropL1 {s : State} (h : s.BytesWf) (k : Nat) : (s.dropL1 k).BytesWf := by
  unfold State.dropL1
  split
  · exact h
  · refine (State.BytesWf.foldl _ (fun u x hu => ?_) _ _ h).keepLoft k _ fun _ => rfl
    split
    · exact hu
    · exact hu.homeWrite _ _ _ _

theorem State.BytesWf.readLine {s : State} (h : s.BytesWf) (k : Nat) (t : Trans) : (s.readLine k t).2.BytesWf := by
  unfold State.readLine
  dsimp only
  split
  · exact h
  · split
    · exact h.l1Line _ _ _
    · split <;> exact h
    · exact h

theorem State.BytesWf.writeLine {s : State} (h : s.BytesWf) (k : Nat) (t : Trans) (mask : BitVec 64) (data : Line) :
    (s.writeLine k t mask data).BytesWf := by
  unfold State.writeLine
  split
  · exact h.writeHome _ _ _
  · split
    · exact h
    · split
      · exact h.l1Write _ _ _ _ _
      · exact h
      · exact h.writeHome _ _ _

theorem State.BytesWf.physWrite {s : State} (h : s.BytesWf) (pa : Nat) (bs : List Byte) : (s.physWrite pa bs).BytesWf := by
  unfold State.physWrite
  generalize pieces bs.length pa bs.length = ps
  suffices H : ∀ (ps : List (Nat × Nat)) (acc : State × List Byte), acc.1.BytesWf →
      (ps.foldl (fun (acc : State × List Byte) (am : Nat × Nat) =>
        (acc.1.writeHome (physTrans am.1) (byteMask (am.1 % 64) am.2) (placeBytes (am.1 % 64) (acc.2.take am.2)), acc.2.drop am.2)) acc).1.BytesWf from
    H ps (s, bs) h
  intro ps
  induction ps with
  | nil => exact fun _ h => h
  | cons p ps ih => exact fun acc h => by rw [List.foldl_cons]; apply ih; dsimp only; exact h.writeHome _ _ _

theorem State.BytesWf.translateData {s : State} (h : s.BytesWf) (k : Nat) (w : Who) (acc : Access) (va : Nat) : (s.translateData k w acc va).2.BytesWf := by
  have walk : ∀ u : State, u.BytesWf → (u.meetWalk w.kid va).BytesWf := fun u hu => by
    unfold State.meetWalk
    exact State.BytesWf.foldl _ (fun x a hx => hx.meet _) _ _ hu
  have miss : ∀ u : State, u.BytesWf → ((match (u.meetWalk w.kid va).walk w.kid va with
      | .error c => (Translated.fault c, u.meetWalk w.kid va)
      | .ok e =>
        match (u.meetWalk w.kid va).useLeaf w acc va e with
        | .fault c => (.fault c, u.meetWalk w.kid va)
        | r => (r, (u.meetWalk w.kid va).drawn.modCore k fun c => { c.use e with tlb := e :: c.tlb })) : Translated × State).2.BytesWf := by
    intro u hu
    replace hu := walk u hu
    split
    · exact hu
    · split
      · exact hu
      · dsimp only
        refine hu.drawn.keepLoft k _ ?_
        intro c
        dsimp only
        unfold Core.use; split <;> rfl
  unfold State.translateData
  split
  · exact h
  · split
    · exact h
    · dsimp only
      split
      · exact miss _ h
      · split
        · dsimp only
          refine h.drawn.keepLoft k _ ?_
          intro c
          unfold Core.use; split <;> rfl
        · refine miss _ (h.drawn.keepLoft k _ ?_); intro _; rfl

end Sys2Proof.Machine
end

