-- ==== Sys2Proof/Laws/Ops.lean ====
section
/-! SUPPORT. The shared operations over registers and memory: one lemma for each says what it can change. -/

namespace Sys2Proof.Machine

/-! ## Register results change the issuing context alone -/

/-- A change of the issuing context is one. -/
theorem State.modCur_onlyCur (s : State) (f : Context → Context) : OnlyCur s (s.modCur f) := ⟨f s.cur, s.issue, rfl⟩

theorem State.put_onlyCur (s : State) (v : RegVal) (n : Nat) : OnlyCur s (s.put v n) := s.modCur_onlyCur _

theorem State.fly_onlyCur (s : State) (kind : FlightKind) (vals : List RegVal) (push : Option HeldPush) (n : Nat) :
    OnlyCur s (s.fly kind vals push n) := s.modCur_onlyCur _

theorem State.defer_onlyCur (s : State) (e : Effect) : OnlyCur s (s.defer e) := s.modCur_onlyCur _

/-- A scalar result is discarded, or goes to the issuing context. -/
theorem State.putS_onlyCur (s : State) (r : SReg) (v : Word) (n : Nat) : s.putS r v n = s ∨ OnlyCur s (s.putS r v n) := by
  unfold State.putS
  split
  · exact .inl rfl
  · exact .inr (s.modCur_onlyCur _)

theorem State.putP_onlyCur (s : State) (r : Fin 16) (v : Bool) (n : Nat) : s.putP r v n = s ∨ OnlyCur s (s.putP r v n) := by
  unfold State.putP
  split
  · exact .inl rfl
  · exact .inr (s.put_onlyCur _ n)

/-- What a change of the issuing context leaves alone. -/
theorem OnlyCur.frame {s t : State} (h : OnlyCur s t) : t.mem = s.mem ∧ t.fields = s.fields ∧ t.sheaves = s.sheaves ∧ t.now = s.now ∧
    t.draws = s.draws ∧ t.ssq = s.ssq ∧ t.kids = s.kids ∧ t.granger = s.granger ∧ t.guest = s.guest := by
  obtain ⟨c, i, rfl⟩ := h
  exact ⟨rfl, rfl, rfl, rfl, rfl, rfl, rfl, rfl, rfl⟩

/-- Every other context keeps its state. -/
theorem OnlyCur.ctxAt {s t : State} (h : OnlyCur s t) (k : Nat) (j : Fin 4) (hk : ¬ (s.issue.core = k ∧ s.issue.slot = j)) : t.ctxAt k j = s.ctxAt k j := by
  obtain ⟨c, i, rfl⟩ := h
  have : ({ s.modCur fun _ => c with issue := i } : State).ctxAt k j = (s.modCur fun _ => c).ctxAt k j := rfl
  rw [this, State.modCur, State.ctxAt_modCtx, if_neg hk]

/-! ## Landing -/

theorem Regs.land_s (r : Regs) (n : Fin 63) (x : Word) : (r.land (.s n x)).s = if n.val = 0 then r.s else r.s.set n x := by
  simp only [Regs.land]; split <;> rfl

theorem Regs.land_p (r : Regs) (n : Fin 16) (x : Bool) : (r.land (.p n x)).p = if n.val = 0 then r.p else r.p.set n x := by
  simp only [Regs.land]; split <;> rfl

/-- Nothing but scalar registers changes when a scalar result lands. -/
theorem Regs.land_s_frame (r : Regs) (n : Fin 63) (x : Word) :
    (r.land (.s n x)).p = r.p ∧ (r.land (.s n x)).v = r.v ∧ (r.land (.s n x)).k = r.k ∧ (r.land (.s n x)).sys = r.sys ∧ (r.land (.s n x)).mp = r.mp := by
  simp only [Regs.land]; split <;> exact ⟨rfl, rfl, rfl, rfl, rfl⟩

@[simp] theorem Regs.land_v (r : Regs) (n : Fin 16) (x : Vec) : r.land (.v n x) = { r with v := r.v.set n x } := rfl
@[simp] theorem Regs.land_k (r : Regs) (n : Fin 8) (x : Mask) : r.land (.k n x) = { r with k := r.k.set n x } := rfl
/-- A system register takes the value, but for DOMAIN's read-only fields (R336). -/
@[simp] theorem Regs.land_sys (r : Regs) (n : Fin 20) (x : Word) (h : n ≠ rDOMAIN) : r.land (.sys n x) = { r with sys := r.sys.set n x } := by
  simp only [Regs.land, if_neg h]
@[simp] theorem Regs.land_mp (r : Regs) (n : Fin 8) (x : Word) : r.land (.mp n x) = { r with mp := r.mp.set n x } := rfl

/-- Every value that lands leaves the md registers and MXCFG alone. -/
theorem Regs.land_frame (r : Regs) (x : RegVal) :
    (r.land x).mb = r.mb ∧ (r.land x).mlen = r.mlen ∧ (r.land x).mstep = r.mstep ∧ (r.land x).drm = r.drm ∧ (r.land x).dsat = r.dsat := by
  cases x <;> unfold Regs.land <;> dsimp only <;> (try split) <;> exact ⟨rfl, rfl, rfl, rfl, rfl⟩

/-- Landing keeps everything of a context but its registers and what is on its way to them. -/
theorem Context.settle_frame (c : Context) (n : Nat) : (c.settle n).pc = c.pc ∧ (c.settle n).loop = c.loop ∧ (c.settle n).windrows = c.windrows ∧
    (c.settle n).region = c.region ∧ (c.settle n).outbox = c.outbox ∧ (c.settle n).tokens = c.tokens ∧ (c.settle n).rings = c.rings :=
  ⟨rfl, rfl, rfl, rfl, rfl, rfl, rfl⟩

theorem mem_insertDue (w x : PendingWrite) (ps : List PendingWrite) : x ∈ insertDue w ps ↔ x = w ∨ x ∈ ps := by
  induction ps with
  | nil => simp [insertDue]
  | cons p ps ih =>
    unfold insertDue
    split
    · simp only [List.mem_cons, ih]; tauto
    · simp only [List.mem_cons]

/-- A result is on its way after it is put, with the cycle it lands. -/
theorem State.put_pend (s : State) (v : RegVal) (n : Nat) : (⟨v, s.now + n⟩ : PendingWrite) ∈ (s.put v n).cur.pend := by
  simp [State.put, addPend, mem_insertDue]

/-! ## Memory itself is left alone by caches and by translation -/

@[simp] theorem State.passTag_mem (s : State) (n : Nat) : (s.passTag n).mem = s.mem := by
  unfold State.passTag
  split <;> rfl

@[simp] theorem State.meetLine_mem (s : State) (t : Trans) (line : Nat) : (s.meetLine t line).mem = s.mem := by
  unfold State.meetLine
  split
  · rfl
  · dsimp only
    split
    · rfl
    · exact s.passTag_mem _

@[simp] theorem State.homeWrite_mem (s : State) (t : Trans) (line : Nat) (mask : BitVec 64) (data : Line) : (s.homeWrite t line mask data).mem = s.mem := by
  unfold State.homeWrite
  split
  · rfl
  · split
    · rfl
    · exact s.meetLine_mem t line

@[simp] theorem State.meet_mem (s : State) (t : Trans) : (s.meet t).mem = s.mem := by
  unfold State.meet
  split
  · exact s.meetLine_mem _ _
  · rfl

@[simp] theorem State.evict_mem (s : State) (k : Nat) (x : CacheLine) : (s.evict k x).mem = s.mem := by
  unfold State.evict
  dsimp only
  split
  · rfl
  · rw [State.homeWrite_mem]; rfl

@[simp] theorem State.replaceLine_mem (s : State) (k : Nat) : (s.replaceLine k).mem = s.mem := by
  unfold State.replaceLine
  split
  · rfl
  · split <;> simp

/-- A fold of updates that each leave memory alone. -/
theorem State.foldl_mem {α : Type} (f : State → α → State) (hf : ∀ s x, (f s x).mem = s.mem) : ∀ (xs : List α) (s : State), (xs.foldl f s).mem = s.mem
  | [], _ => rfl
  | x :: xs, s => by rw [List.foldl_cons, State.foldl_mem f hf xs, hf]

@[simp] theorem State.oweIf_mem (s : State) (k : Nat) (test : CacheLine → Bool) : (s.oweIf k test).mem = s.mem := by
  unfold State.oweIf
  rw [State.foldl_mem]
  intro u j
  dsimp only
  split <;> rfl

@[simp] theorem State.l1Line_mem (s : State) (k : Nat) (t : Trans) (line : Nat) : (s.l1Line k t line).2.mem = s.mem := by
  unfold State.l1Line
  dsimp only
  split
  · simp
  · split <;> simp

@[simp] theorem State.l1Write_mem (s : State) (k : Nat) (t : Trans) (line : Nat) (mask : BitVec 64) (data : Line) : (s.l1Write k t line mask data).mem = s.mem := by
  unfold State.l1Write
  dsimp only
  rw [State.modCore_mem, State.foldl_mem]
  · split
    · exact s.replaceLine_mem k
    · dsimp only
      split
      · rw [State.meetLine_mem, State.replaceLine_mem]
      · exact s.replaceLine_mem k
  · intro u x; rfl

@[simp] theorem State.writeBack_mem (s : State) (k : Nat) : (s.writeBack k).mem = s.mem := by
  unfold State.writeBack
  rw [State.foldl_mem]
  intro u j
  dsimp only
  split
  · rw [State.modCore_mem, State.foldl_mem]
    intro w x
    split
    · exact w.homeWrite_mem _ _ _ _
    · rfl
  · rfl

@[simp] theorem State.oweLines_mem (s : State) (k : Nat) : (s.oweLines k).mem = s.mem := s.oweIf_mem k _

@[simp] theorem State.dropRemote_mem (s : State) : s.dropRemote.mem = s.mem := by
  unfold State.dropRemote
  rw [State.foldl_mem]
  intro u k
  rw [State.foldl_mem]
  exact fun w x => w.evict_mem _ _

@[simp] theorem State.dropL1_mem (s : State) (k : Nat) : (s.dropL1 k).mem = s.mem := by
  unfold State.dropL1
  split
  · rfl
  · rw [State.modCore_mem, State.foldl_mem]
    intro u x
    split
    · rfl
    · exact u.homeWrite_mem _ _ _ _

@[simp] theorem State.readLine_mem (s : State) (k : Nat) (t : Trans) : (s.readLine k t).2.mem = s.mem := by
  unfold State.readLine
  dsimp only
  split
  · rfl
  · split
    · exact s.l1Line_mem _ _ _
    · split <;> rfl
    · rfl

@[simp] theorem State.translateData_mem (s : State) (k : Nat) (w : Who) (acc : Access) (va : Nat) : (s.translateData k w acc va).2.mem = s.mem := by
  have walk : ∀ (u : State), (u.meetWalk w.kid va).mem = u.mem := fun u => by
    unfold State.meetWalk
    exact State.foldl_mem _ (fun x a => x.meet_mem _) _ _
  have miss : ∀ u : State, u.mem = s.mem → ((match (u.meetWalk w.kid va).walk w.kid va with
      | .error c => (Translated.fault c, u.meetWalk w.kid va)
      | .ok e =>
        match (u.meetWalk w.kid va).useLeaf w acc va e with
        | .fault c => (.fault c, u.meetWalk w.kid va)
        | r => (r, (u.meetWalk w.kid va).drawn.modCore k fun c => { c.use e with tlb := e :: c.tlb })) : Translated × State).2.mem = s.mem := by
    intro u hu
    split
    · exact (walk u).trans hu
    · split <;> exact (walk u).trans hu
  unfold State.translateData
  split
  · rfl
  · split
    · rfl
    · dsimp only
      split
      · exact miss _ rfl
      · split
        · rfl
        · exact miss _ rfl

@[simp] theorem State.acquire_mem (s : State) (k : Nat) (j : Fin 4) (scope : Scope) : (s.acquire k j scope).mem = s.mem := by
  unfold State.acquire
  simp only [apply_ite State.mem, State.dropL1_mem, State.dropRemote_mem, State.oweLines_mem, State.writeBack_mem, State.modCtx_mem, ite_self]

@[simp] theorem State.evictLines_mem (s : State) (n : Nat) (kid : BitVec 8) (line : Nat) : (s.evictLines n kid line).mem = s.mem := by
  unfold State.evictLines
  rw [State.foldl_mem]
  intro u j
  split
  · exact u.evict_mem _ _
  · rfl

/-- A release leaves memory alone where no late write of a command waited on stands before it: dirty lines go to the carves and the links. -/
theorem State.release_mem (s : State) (k : Nat) (scope : Scope) (h : ((s.core k).late.any LateWrite.waited) = false) : (s.release k scope).mem = s.mem := by
  have hl : s.landWaited k = s := by unfold State.landWaited State.landLateIf; rw [h]; rfl
  unfold State.release
  rw [hl]
  split
  · rfl
  · exact s.writeBack_mem k

/-! ## Accesses of a context keep the canonical form -/

theorem State.BytesWf.acquire {s : State} (h : s.BytesWf) (k : Nat) (j : Fin 4) (scope : Scope) : (s.acquire k j scope).BytesWf := by
  have pick : ∀ (p : Prop) [Decidable p] (a b : State), a.BytesWf → b.BytesWf → (if p then a else b).BytesWf := fun p _ a b ha hb => by
    split
    · exact ha
    · exact hb
  have h0 := h.modCtx k j Context.emptyBuffers
  have h1 := pick (scopeRank scope < 3) _ _ h0 (h0.writeBack k)
  have h2 := pick (scopeRank scope < 2) _ _ h1 (h1.oweLines k)
  have h3 := pick (scope = .sys) _ _ h2.dropRemote h2
  exact pick (scopeRank scope < 3) _ _ h3 (h3.dropL1 k)

theorem State.BytesWf.release {s : State} (h : s.BytesWf) (k : Nat) (scope : Scope) : (s.release k scope).BytesWf := by
  unfold State.release
  split
  · exact h.landWaited _
  · exact (h.landWaited _).writeBack _

theorem State.BytesWf.onlyCur {s t : State} (h : s.BytesWf) (ht : OnlyCur s t) : t.BytesWf := by
  obtain ⟨c, i, rfl⟩ := ht
  exact (h.modCur fun _ => c).congr rfl rfl rfl

theorem State.BytesWf.noteShadow {s t : State} (h : s.BytesWf) (m : Member) (page entry : Nat) (ht : s.noteShadow m page entry = some t) : t.BytesWf := by
  unfold State.noteShadow at ht
  split at ht
  · cases ht; exact h
  · split at ht
    · cases ht; exact h
    · split at ht
      · cases ht
      · cases ht
        unfold State.modRun
        refine h.keepGran _ _ ?_
        intro _; rfl

theorem State.BytesWf.locateFor {s : State} (h : s.BytesWf) (k : Nat) (j : Fin 4) (acc : Access) (va win kind : Nat) :
    (s.locateFor k j acc va win kind).2.BytesWf := by
  have ht := h.translateData k (s.ctxAt k j).who acc va
  unfold State.locateFor
  dsimp only
  split
  · split <;> exact h
  · split
    · rename_i e; rw [e] at ht; exact ht
    · rename_i e; rw [e] at ht
      split
      · exact ht
      · dsimp only
        refine State.BytesWf.keepLoft ht _ _ ?_
        intro x; split <;> rfl
    · rename_i e; rw [e] at ht
      split
      · split
        · split
          · rename_i e'; exact State.BytesWf.noteShadow ht _ _ _ e'
          · exact ht
        · exact ht
      · exact ht

theorem State.BytesWf.readRunsFor (k : Nat) (j : Fin 4) (win kind : Nat) (own : Bool) : ∀ (rs : List (Nat × Nat)) (acc : List Byte) (loft : Bool) (s : State),
    s.BytesWf → (State.readRunsFor k j win kind own rs acc loft s).2.BytesWf
  | [], _, _, _, h => h
  | (a, m) :: rest, acc, loft, s, h => by
    have hl := h.locateFor k j .read a win kind
    unfold State.readRunsFor
    split
    · rename_i e; rw [e] at hl; exact hl
    · rename_i e; rw [e] at hl; exact hl
    · rename_i e; rw [e] at hl; dsimp only at hl ⊢
      repeat' split
      all_goals first
        | exact hl
        | exact State.BytesWf.readRunsFor k j win kind _ rest _ _ _ (State.BytesWf.readLine hl _ _)

theorem State.BytesWf.readVa {s : State} (h : s.BytesWf) (va n kind : Nat) : (s.readVa va n kind).2.BytesWf :=
  State.BytesWf.readRunsFor _ _ _ _ _ _ _ _ _ h

theorem State.BytesWf.storeParts (strl : Option Scope) : ∀ (ps : List (Nat × BitVec 64 × Line)) (s : State),
    s.BytesWf → (State.storeParts strl ps s).2.BytesWf
  | [], _, h => h
  | (a, mask, data) :: rest, s, h => by
    have hl : (s.locate .write a 0 1).2.BytesWf := h.locateFor _ _ _ _ _ _
    unfold State.storeParts
    split
    · rename_i e; rw [e] at hl; exact hl
    · rename_i e; rw [e] at hl; exact hl
    · rename_i e; rw [e] at hl; dsimp only
      split
      · exact hl
      · split
        · exact State.BytesWf.storeParts strl rest _ (State.BytesWf.modCur hl _)
        · split
          · exact hl
          · split
            · exact hl
            · exact State.BytesWf.storeParts strl rest _ (State.BytesWf.modCur hl _)

theorem State.BytesWf.storeVa {s : State} (h : s.BytesWf) (va : Nat) (bs : List Byte) (keep : Nat → Bool) (strl : Option Scope) :
    (s.storeVa va bs keep strl).2.BytesWf := by
  have hp := State.BytesWf.storeParts strl (lineParts va bs keep) s h
  unfold State.storeVa
  split
  · rename_i e; rw [e] at hp; exact hp
  · rename_i e; rw [e] at hp; dsimp only; exact State.BytesWf.modCur hp _

theorem State.BytesWf.writePlaces {s : State} (h : s.BytesWf) (k : Nat) (ps : List Trans) (bs : List Byte) : (s.writePlaces k ps bs).BytesWf := by
  unfold State.writePlaces
  exact State.BytesWf.foldl _ (fun u x hu => hu.writeLine _ _ _ _) _ _ h

theorem State.BytesWf.performPush {s : State} (h : s.BytesWf) (k ident : Nat) (p : HeldPush) : (s.performPush k ident p).BytesWf := by
  unfold State.performPush
  dsimp only
  refine State.BytesWf.writePlaces ?_ _ _ _
  split
  · exact h.tell _ _
  · exact h

end Sys2Proof.Machine
end

