-- ==== Sys2Proof/Tests/Slice0.lean ====
section
/-! SUPPORT. Tests of the model: words of the spec's encodings, refusals of ill-formed terms, single steps with results worked out from the
rules by hand, and for each statement a state that meets its hypotheses. -/

set_option Elab.async false

namespace Sys2Proof.Machine

/-! ## States -/

/-- A running supervisor context in slot 0 of core 0; virtual page 0 is page 0 of field 0. -/
def t0 : State := State.reset.withProgram []
def tCtx (f : Context → Context) (s : State) : State := s.modCur f
def tRegs (f : Regs → Regs) (s : State) : State := s.modCur fun c => { c with regs := f c.regs }
def tS (xs : List (Fin 63 × Word)) : State → State := tRegs fun r => { r with s := xs.foldl (fun v x => v.set x.1 x.2) r.s }
def tV (xs : List (Fin 16 × Vec)) : State → State := tRegs fun r => { r with v := xs.foldl (fun v x => v.set x.1 x.2) r.v }
def tK (xs : List (Fin 8 × Mask)) : State → State := tRegs fun r => { r with k := xs.foldl (fun v x => v.set x.1 x.2) r.k }
def tSys (xs : List (Fin 20 × Word)) : State → State := tRegs fun r => { r with sys := xs.foldl (fun v x => v.set x.1 x.2) r.sys }
def by8 (ws : List Word) : List Byte := ws.flatMap fun w => leBytes 8 w.toNat
def tMem (a : Nat) (ws : List Word) (s : State) : State := { s with mem := bsetN s.mem a (by8 ws) }
def tIssue (f : Issue → Issue) (s : State) : State := { s with issue := f s.issue }
def tCore (f : Core → Core) (s : State) : State := s.modCore 0 f
/-- Words in the core's scratchpad, eight steps of which are its own. -/
def tLoft (a : Nat) (ws : List Word) : State → State :=
  tCore fun c => { c with scr := 8, loft := bsetN c.loft a (by8 ws) }
def lo (a : Nat) : Word := BitVec.ofNat 64 (loftBase + a)
/-- Words of a record, its fields by their low bits. -/
def recOf (n : Nat) (xs : List (Nat × Nat)) : List Word :=
  (List.range n).map fun i => BitVec.ofNat 64 (xs.foldl (fun a p => a + p.2 * 2 ^ p.1) 0 / 2 ^ (64 * i))
/-- User level. -/
def tUser : State → State := tSys [(rSTATUS, 0)]

/-- The state an instruction goes on to. -/
def after (s : State) (i : Instr) : State := match exec i s with | .next t => t | _ => s
/-- The scalar result that waits for a register. -/
def pendS (s : State) (d : Fin 63) : Option Word := (s.cur.pend.filterMap fun p => match p.val with | .s r v => if r = d then some v else none | _ => none).getLast?
def pendP (s : State) (d : Fin 16) : Option Bool := (s.cur.pend.filterMap fun p => match p.val with | .p r v => if r = d then some v else none | _ => none).getLast?
def pendV (s : State) (d : Fin 16) : Option Vec := (s.cur.pend.filterMap fun p => match p.val with | .v r v => if r = d then some v else none | _ => none).getLast?
def trapOf (s : State) : Option Cause := s.issue.trapped.map TrapVal.cause
def okT (r : TableRead × State) (f : List Word → State → Bool) : Bool := match r.1 with | .ok ws => f ws r.2 | _ => false
def okG {α : Type} (r : Got α) (f : α → State → Bool) : Bool := match r with | .ok v t => f v t | .stop _ => false


/-! ## Words of the encodings

Every word is written from the class's encoding, with E, G and each field at a value of its own (02_bundle.md R36 to R44; 07_tile.md R166). -/

/-- Every slot word reads as the slot beside it. -/
noncomputable def readsSlots (xs : List (BitVec 32 × Slot)) : Bool :=
  xs.all fun x => match decodeSlot x.1 0 with
    | .ok y => y == x.2
    | .error _ => false
/-- Every micro-operation reads as the one beside it. -/
noncomputable def readsMicro (xs : List (Nat × Instr)) : Bool :=
  xs.all fun x => match decodeMicro x.1 with
    | .ok y => y == x.2
    | .error _ => false
/-- Every node of four words reads as the one beside it. -/
noncomputable def readsNodes (xs : List (List Nat × Instr)) : Bool :=
  xs.all fun x => match decodeNodeFields (x.1.getD 0 0) (x.1.getD 1 0) (x.1.getD 2 0) (x.1.getD 3 0) with
    | .ok y => y == x.2 && y.wf
    | .error _ => false

theorem test_words_bc : readsSlots [
  (0x0014e80c, ⟨false, 0, .bc 5 false 3 2 true 12⟩)] = true := by decide +kernel

theorem test_words_sar : readsSlots [
  (0x86aa8e60, ⟨true, 10, .add 42 (.reg 35) (.reg 38)⟩), (0x04e39a91, ⟨false, 3, .sub 35 (.reg 38) (.reg 41)⟩),
  (0x85a6a6c2, ⟨true, 6, .mul 38 (.reg 41) (.reg 44)⟩), (0x0669b273, ⟨false, 9, .mulh 41 (.reg 44) (.reg 39)⟩),
  (0x872c9e44, ⟨true, 12, .mulhn 44 (.reg 39) (.reg 36)⟩), (0x05e79255, ⟨false, 7, .and 39 (.reg 36) (.reg 37)⟩),
  (0x852496a6, ⟨true, 4, .or 36 (.reg 37) (.reg 42)⟩), (0x0565aa37, ⟨false, 5, .xor 37 (.reg 42) (.reg 35)⟩),
  (0x86aa8e68, ⟨true, 10, .andn 42 (.reg 35) (.reg 38)⟩), (0x04e39a99, ⟨false, 3, .shl 35 (.reg 38) (.reg 41)⟩),
  (0x85a6a6ca, ⟨true, 6, .shr 38 (.reg 41) (.reg 44)⟩), (0x0669b27b, ⟨false, 9, .sar 41 (.reg 44) (.reg 39)⟩),
  (0x872c9e4c, ⟨true, 12, .min 44 (.reg 39) (.reg 36)⟩), (0x05e7925d, ⟨false, 7, .max 39 (.reg 36) (.reg 37)⟩),
  (0x852496ae, ⟨true, 4, .minn 36 (.reg 37) (.reg 42)⟩), (0x0565aa3f, ⟨false, 5, .maxn 37 (.reg 42) (.reg 35)⟩)] = true := by decide +kernel

theorem test_words_sai : readsSlots [
  (0x8aaa8c06, ⟨true, 10, .addi 42 (.reg 35) 6⟩), (0x08e39889, ⟨false, 3, .andi 35 (.reg 38) 9⟩), (0x89a6a50c, ⟨true, 6, .ori 38 (.reg 41) 12⟩),
  (0x0a69b187, ⟨false, 9, .xori 41 (.reg 44) 7⟩), (0x8b2c9e04, ⟨true, 12, .shli 44 (.reg 39) 4⟩), (0x09e79285, ⟨false, 7, .shri 39 (.reg 36) 5⟩),
  (0x8924970a, ⟨true, 4, .sari 36 (.reg 37) 10⟩), (0x0965ab83, ⟨false, 5, .rsubi 37 (.reg 42) 3⟩)] = true := by decide +kernel

theorem test_words_smx : readsSlots [
  (0x8eaa8e60, ⟨true, 10, .div 42 (.reg 35) (.reg 38)⟩), (0x0ce39a91, ⟨false, 3, .divn 35 (.reg 38) (.reg 41)⟩),
  (0x8da6a6c2, ⟨true, 6, .rem 38 (.reg 41) (.reg 44)⟩), (0x0e69b273, ⟨false, 9, .remn 41 (.reg 44) (.reg 39)⟩),
  (0x8f2c9c04, ⟨true, 12, .clz 44 (.reg 39)⟩), (0x0de79005, ⟨false, 7, .ctz 39 (.reg 36)⟩), (0x8d249406, ⟨true, 4, .popc 36 (.reg 37)⟩),
  (0x0d65a807, ⟨false, 5, .brev 37 (.reg 42)⟩), (0x8eaa8c08, ⟨true, 10, .bswap 42 (.reg 35)⟩), (0x0ce39a99, ⟨false, 3, .sext 35 (.reg 38) (.reg 41)⟩),
  (0x8da6a6ca, ⟨true, 6, .zext 38 (.reg 41) (.reg 44)⟩), (0x0e69b27b, ⟨false, 9, .bfx 41 (.reg 44) (.reg 39)⟩),
  (0x8f2c9e4c, ⟨true, 12, .bfi 44 (.reg 39) (.reg 36)⟩), (0x0de7900d, ⟨false, 7, .abs 39 (.reg 36)⟩), (0x8d24940e, ⟨true, 4, .neg 36 (.reg 37)⟩)] = true := by decide +kernel

theorem test_words_sfp : readsSlots [
  (0x1165aa30, ⟨false, 5, .fadd 37 (.reg 42) (.reg 35)⟩), (0x92aa8e61, ⟨true, 10, .fsub 42 (.reg 35) (.reg 38)⟩),
  (0x10e39a92, ⟨false, 3, .fmul 35 (.reg 38) (.reg 41)⟩), (0x91a6a6c3, ⟨true, 6, .fdiv 38 (.reg 41) (.reg 44)⟩),
  (0x1269b004, ⟨false, 9, .fsqrt 41 (.reg 44)⟩), (0x932c9e45, ⟨true, 12, .fmin 44 (.reg 39) (.reg 36)⟩),
  (0x11e79256, ⟨false, 7, .fmax 39 (.reg 36) (.reg 37)⟩), (0x91249407, ⟨true, 4, .fabs 36 (.reg 37)⟩), (0x1165a808, ⟨false, 5, .fneg 37 (.reg 42)⟩),
  (0x92aa8c09, ⟨true, 10, .fitof 42 (.reg 35)⟩), (0x10e3980a, ⟨false, 3, .ftoi 35 (.reg 38)⟩), (0x91a6a40b, ⟨true, 6, .fround 38 (.reg 41)⟩)] = true := by decide +kernel

theorem test_words_scp : readsSlots [
  (0x16793c80, ⟨false, 9, .ceq 14 false (.reg 39) (.reg 36)⟩), (0x972b24a1, ⟨true, 12, .cne 10 true (.reg 36) (.reg 37)⟩),
  (0x15c92d42, ⟨false, 7, .clt 2 false (.reg 37) (.reg 42)⟩), (0x95135463, ⟨true, 4, .cge 4 true (.reg 42) (.reg 35)⟩),
  (0x15591cc4, ⟨false, 5, .cltn 6 false (.reg 35) (.reg 38)⟩), (0x96bb3525, ⟨true, 10, .cgen 14 true (.reg 38) (.reg 41)⟩),
  (0x14e94d86, ⟨false, 3, .ctst 10 false (.reg 41) (.reg 44)⟩), (0x958b64e7, ⟨true, 6, .fceq 2 true (.reg 44) (.reg 39)⟩),
  (0x16513c88, ⟨false, 9, .fclt 4 false (.reg 39) (.reg 36)⟩), (0x971b24a9, ⟨true, 12, .fcle 6 true (.reg 36) (.reg 37)⟩),
  (0x15f92d4a, ⟨false, 7, .fcun 14 false (.reg 37) (.reg 42)⟩), (0x952a506b, ⟨true, 4, .pand 10 true 10 3⟩),
  (0x154818cc, ⟨false, 5, .por 2 false 3 6⟩), (0x9692312d, ⟨true, 10, .pxor 4 true 6 9⟩), (0x14d8498e, ⟨false, 3, .pandn 6 false 9 12⟩),
  (0x95ba000f, ⟨true, 6, .pset 14 true false⟩), (0x16683010, ⟨false, 9, .kany 10 false 6⟩), (0x970a2811, ⟨true, 12, .kall 2 true 5⟩),
  (0x15d01812, ⟨false, 7, .knone 4 false 3⟩)] = true := by decide +kernel

theorem test_words_br : readsSlots [
  (0x99000004, ⟨true, 4, .br 4⟩), (0x19480005, ⟨false, 5, .call 5⟩), (0x9a954000, ⟨true, 10, .bi (.reg 42)⟩),
  (0x18dc6000, ⟨false, 3, .calli (.reg 35)⟩), (0x99a4c000, ⟨true, 6, .ret (.reg 38)⟩), (0x1a6b000c, ⟨false, 9, .bk 3 12⟩),
  (0x9b360007, ⟨true, 12, .bkn 6 7⟩)] = true := by decide +kernel

theorem test_words_loop : readsSlots [
  (0x1dc4e004, ⟨false, 7, .loop (.reg 39) 4⟩), (0x9d081005, ⟨true, 4, .loopi 4 5⟩), (0x1d550000, ⟨false, 5, .lexit 5⟩),
  (0x9e9d5000, ⟨true, 10, .rdlp 42 true 0⟩), (0x1ce46200, ⟨false, 3, .wrlp (.reg 35) false 1⟩), (0x9dacc480, ⟨true, 6, .replay (.reg 38) 9⟩),
  (0x1e74e000, ⟨false, 9, .stgset 9 6⟩)] = true := by decide +kernel

theorem test_words_ld : readsSlots [
  (0xa30593b8, ⟨true, 12, .ldb 44 (.reg 39) 3 8⟩), (0x21ccf20b, ⟨false, 7, .ldh 39 (.reg 36) 0 11⟩), (0xa11492f8, ⟨true, 4, .ldw 36 (.reg 37) 7 8⟩),
  (0x215cb50b, ⟨false, 5, .ldd 37 (.reg 42) 0 11⟩), (0xa2a351b8, ⟨true, 10, .ldv256 (.win 10) (.reg 35) 3 8⟩),
  (0x20e8730b, ⟨false, 3, .ldv512 (.reg 3) (.reg 38) 0 11⟩), (0xa1b2d4f8, ⟨true, 6, .ldv1k (.win 6) (.reg 41) 7 8⟩),
  (0x2279360b, ⟨false, 9, .ldbc (.reg 9) (.reg 44) 0 11⟩)] = true := by decide +kernel

theorem test_words_st : readsSlots [
  (0xa70593b8, ⟨true, 12, .stb (.reg 44) (.reg 39) 3 8⟩), (0x25ccf20b, ⟨false, 7, .sth (.reg 39) (.reg 36) 0 11⟩),
  (0xa51492f8, ⟨true, 4, .stw (.reg 36) (.reg 37) 7 8⟩), (0x255cb50b, ⟨false, 5, .std (.reg 37) (.reg 42) 0 11⟩),
  (0xa6a351b8, ⟨true, 10, .stv256 (.win 10) (.reg 35) 3 8⟩), (0x24e8730b, ⟨false, 3, .stv512 (.reg 3) (.reg 38) 0 11⟩),
  (0xa5b2d4f8, ⟨true, 6, .stv1k (.win 6) (.reg 41) 7 8⟩), (0x2679363d, ⟨false, 9, .stvk (.reg 9) (.reg 44) 3 13⟩)] = true := by decide +kernel

theorem test_words_atm : readsSlots [
  (0xab18720c, ⟨true, 12, .aswap 12 7 4 .sys false⟩), (0x29ce4291, ⟨false, 7, .aadd 7 4 5 .ctx true⟩),
  (0xa9085522, ⟨true, 4, .aand 4 5 10 .core false⟩), (0x294aa1b5, ⟨false, 5, .aor 5 10 3 .sheaf true⟩),
  (0xaa943346, ⟨true, 10, .amax 10 3 6 .field false⟩), (0x28c664d9, ⟨false, 3, .amin 3 6 9 .pkg true⟩),
  (0xa98c966a, ⟨true, 6, .acas 6 9 12 .host false⟩), (0x2a52c3fd, ⟨false, 9, .afadd 9 12 7 .sys⟩)] = true := by decide +kernel

theorem test_words_sync : readsSlots [
  (0xaf024000, ⟨true, 12, .fence .pkg .rel⟩), (0x2dc40000, ⟨false, 7, .drain⟩), (0xad0a494a, ⟨true, 4, .lda 36 (.reg 37) .core true⟩),
  (0x2d4e5a90, ⟨false, 5, .strl (.reg 37) (.reg 42) .sheaf false⟩), (0xae90a000, ⟨true, 10, .waiteng 10⟩), (0x2cd4c000, ⟨false, 3, .arrive 3⟩),
  (0xad998000, ⟨true, 6, .waitb 6⟩), (0x2e5e4000, ⟨false, 9, .rdv 9⟩), (0xaf200000, ⟨true, 12, .gphase⟩)] = true := by decide +kernel

theorem test_words_via : readsSlots [
  (0x31d050ba, ⟨false, 7, .vaddI8 .w512 (.win 4) (.reg 5) (.win 10)⟩), (0xb1209743, ⟨true, 4, .vaddI16 .w1k (.reg 5) (.win 10) (.reg 3)⟩),
  (0x31416876, ⟨false, 5, .vaddI32 .w256 (.win 10) (.reg 3) (.win 6)⟩), (0xb2918ec9, ⟨true, 10, .vsubI8 .w512 (.reg 3) (.win 6) (.reg 9)⟩),
  (0x30e2593c, ⟨false, 3, .vsubI16 .w1k (.win 6) (.reg 9) (.win 12)⟩), (0xb182a787, ⟨true, 6, .vsubI32 .w256 (.reg 9) (.win 12) (.reg 7)⟩),
  (0x325370f4, ⟨false, 9, .vmulI16 .w512 (.win 12) (.reg 7) (.win 4)⟩), (0xb3239e85, ⟨true, 12, .vmulI32 .w1k (.reg 7) (.win 4) (.reg 5)⟩),
  (0x31c450ba, ⟨false, 7, .vmulhI32 .w256 (.win 4) (.reg 5) (.win 10)⟩), (0xb1149743, ⟨true, 4, .vminI32 .w512 (.reg 5) (.win 10) (.reg 3)⟩),
  (0x31656876, ⟨false, 5, .vmaxI32 .w1k (.win 10) (.reg 3) (.win 6)⟩), (0xb2858ec9, ⟨true, 10, .vminnN32 .w256 (.reg 3) (.win 6) (.reg 9)⟩),
  (0x30d6593c, ⟨false, 3, .vmaxnN32 .w512 (.win 6) (.reg 9) (.win 12)⟩), (0xb1a6a787, ⟨true, 6, .vand .w1k (.reg 9) (.win 12) (.reg 7)⟩),
  (0x324770f4, ⟨false, 9, .vor .w256 (.win 12) (.reg 7) (.win 4)⟩), (0xb3179e85, ⟨true, 12, .vxor .w512 (.reg 7) (.win 4) (.reg 5)⟩),
  (0x31e850ba, ⟨false, 7, .vandn .w1k (.win 4) (.reg 5) (.win 10)⟩), (0xb1089743, ⟨true, 4, .vshlI32 .w256 (.reg 5) (.win 10) (.reg 3)⟩),
  (0x31596876, ⟨false, 5, .vshrN32 .w512 (.win 10) (.reg 3) (.win 6)⟩), (0xb2a98ec9, ⟨true, 10, .vsarI32 .w1k (.reg 3) (.win 6) (.reg 9)⟩),
  (0x30ca593c, ⟨false, 3, .vaddsI8 .w256 (.win 6) (.reg 9) (.win 12)⟩), (0xb19aa787, ⟨true, 6, .vaddsI16 .w512 (.reg 9) (.win 12) (.reg 7)⟩),
  (0x326b70f4, ⟨false, 9, .vsubsI8 .w1k (.win 12) (.reg 7) (.win 4)⟩), (0xb30b9e85, ⟨true, 12, .vsubsI16 .w256 (.reg 7) (.win 4) (.reg 5)⟩),
  (0x31dc0cba, ⟨false, 7, .vceqI32 .w512 3 (.reg 5) (.win 10)⟩), (0xb12c9b43, ⟨true, 4, .vcltI32 .w1k 6 (.win 10) (.reg 3)⟩),
  (0x314d1476, ⟨false, 5, .vcltnN32 .w256 5 (.reg 3) (.win 6)⟩), (0xb29d8ec0, ⟨true, 10, .vabsI32 .w512 (.reg 3) (.win 6)⟩),
  (0x30ee193c, ⟨false, 3, .vmadI16 .w1k (.reg 6) (.reg 9) (.win 12)⟩), (0xb18ea787, ⟨true, 6, .vdot4I8 .w256 (.reg 9) (.win 12) (.reg 7)⟩),
  (0x325f70e0, ⟨false, 9, .vclzI32 .w512 (.win 12) (.reg 7)⟩), (0xb32f9e80, ⟨true, 12, .vpopcI32 .w1k (.reg 7) (.win 4)⟩)] = true := by decide +kernel

theorem test_words_vfa : readsSlots [
  (0x35c050ba, ⟨false, 7, .vfaddF32 .w256 (.win 4) (.reg 5) (.win 10)⟩), (0xb5109743, ⟨true, 4, .vfsubF32 .w512 (.reg 5) (.win 10) (.reg 3)⟩),
  (0x35616876, ⟨false, 5, .vfmulF32 .w1k (.win 10) (.reg 3) (.win 6)⟩), (0xb6818ec9, ⟨true, 10, .vfmaF32 .w256 (.reg 3) (.win 6) (.reg 9)⟩),
  (0x34d2193c, ⟨false, 3, .vfmsF32 .w512 (.reg 6) (.reg 9) (.win 12)⟩), (0xb5a2a787, ⟨true, 6, .vfminF32 .w1k (.reg 9) (.win 12) (.reg 7)⟩),
  (0x364370f4, ⟨false, 9, .vfmaxF32 .w256 (.win 12) (.reg 7) (.win 4)⟩), (0xb7139e80, ⟨true, 12, .vfabsF32 .w512 (.reg 7) (.win 4)⟩),
  (0x35e450a0, ⟨false, 7, .vfnegF32 .w1k (.win 4) (.reg 5)⟩), (0xb5049743, ⟨true, 4, .vfdivF32 .w256 (.reg 5) (.win 10) (.reg 3)⟩),
  (0x35556860, ⟨false, 5, .vfsqrtF32 .w512 (.win 10) (.reg 3)⟩), (0xb6a59ac9, ⟨true, 10, .vfceqF32 .w1k 6 (.win 6) (.reg 9)⟩),
  (0x34c6153c, ⟨false, 3, .vfcltF32 .w256 5 (.reg 9) (.win 12)⟩), (0xb5968f87, ⟨true, 6, .vfcleF32 .w512 3 (.win 12) (.reg 7)⟩),
  (0x366718f4, ⟨false, 9, .vfcunF32 .w1k 6 (.reg 7) (.win 4)⟩), (0xb7079e85, ⟨true, 12, .vfaddBf16 .w256 (.reg 7) (.win 4) (.reg 5)⟩),
  (0x35d850ba, ⟨false, 7, .vfmulBf16 .w512 (.win 4) (.reg 5) (.win 10)⟩), (0xb5289743, ⟨true, 4, .vfmaBf16 .w1k (.reg 5) (.win 10) (.reg 3)⟩),
  (0x35496876, ⟨false, 5, .vfminBf16 .w256 (.win 10) (.reg 3) (.win 6)⟩), (0xb6998ec9, ⟨true, 10, .vfmaxBf16 .w512 (.reg 3) (.win 6) (.reg 9)⟩),
  (0x34ea593c, ⟨false, 3, .vfsclF32 .w1k (.win 6) (.reg 9) (.win 12)⟩), (0xb58aa780, ⟨true, 6, .vfrndF32 .w256 (.reg 9) (.win 12)⟩),
  (0x365b70f4, ⟨false, 9, .vfamaxF32 .w512 (.win 12) (.reg 7) (.win 4)⟩)] = true := by decide +kernel

theorem test_words_vcv : readsSlots [
  (0xbb203d00, ⟨true, 12, .cvtF32Bf16 .w1k (.reg 7) (.win 4)⟩), (0x39c1a140, ⟨false, 7, .cvtBf16F32 .w256 (.win 4) (.reg 5)⟩),
  (0xb9122e80, ⟨true, 4, .cvtF32I32 .w512 (.reg 5) (.win 10)⟩), (0x3963d0c0, ⟨false, 5, .cvtI32F32 .w1k (.win 10) (.reg 3)⟩),
  (0xbaa4d0e6, ⟨true, 10, .cvtMx8F32 (.win 10) (.reg 3) (.reg 38)⟩), (0x38e51da9, ⟨false, 3, .cvtMx6F32 (.reg 3) (.win 6) (.reg 41)⟩),
  (0xb9a6b26c, ⟨true, 6, .cvtMx4F32 (.win 6) (.reg 9) (.reg 44)⟩), (0x3a674f27, ⟨false, 9, .cvtF32Mx8 (.reg 9) (.win 12) (.reg 39)⟩),
  (0xbb28e1e4, ⟨true, 12, .cvtF32Mx6 (.win 12) (.reg 7) (.reg 36)⟩), (0x39e93d25, ⟨false, 7, .cvtF32Mx4 (.reg 7) (.win 4) (.reg 37)⟩),
  (0xb90a2e80, ⟨true, 4, .cvtF8e4F32 .w256 (.reg 5) (.win 10)⟩), (0x395bd0c0, ⟨false, 5, .cvtF32F8e4 .w512 (.win 10) (.reg 3)⟩),
  (0xbaac1d80, ⟨true, 10, .cvtF8e5F32 .w1k (.reg 3) (.win 6)⟩), (0x38cdb240, ⟨false, 3, .cvtF32F8e5 .w256 (.win 6) (.reg 9)⟩),
  (0xb9aeb240, ⟨true, 6, .bscale (.win 6) (.reg 9)⟩), (0x3a6fe1c0, ⟨false, 9, .cvtBf16F32Sr .w1k (.win 12) (.reg 7)⟩)] = true := by decide +kernel

theorem test_words_vrd : readsSlots [
  (0xbf001e80, ⟨true, 12, .vrsumF32 .w256 (.reg 7) (.win 4)⟩), (0x3dd0d0a0, ⟨false, 7, .vrmaxF32 .w512 (.win 4) (.reg 5)⟩),
  (0xbd211740, ⟨true, 4, .vrminF32 .w1k (.reg 5) (.win 10)⟩), (0x3d41e860, ⟨false, 5, .vrsumI32 .w256 (.win 10) (.reg 3)⟩),
  (0xbe920ec0, ⟨true, 10, .vrmaxI32 .w512 (.reg 3) (.win 6)⟩), (0x3ce2d920, ⟨false, 3, .vrminI32 .w1k (.win 6) (.reg 9)⟩),
  (0xbd832780, ⟨true, 6, .vramaxF32 .w256 (.reg 9) (.win 12)⟩), (0x3e53f0f4, ⟨false, 9, .vdeltaF32 .w512 (.win 12) (.reg 7) (.win 4)⟩),
  (0xbf241e85, ⟨true, 12, .vdeltaBf16 .w1k (.reg 7) (.win 4) (.reg 5)⟩), (0x3dc4d0a0, ⟨false, 7, .vmaxmagF32 .w256 (.win 4) (.reg 5)⟩),
  (0xbd151740, ⟨true, 4, .vmaxmagBf16 .w512 (.reg 5) (.win 10)⟩), (0x3d65e860, ⟨false, 5, .vscanF32 .w1k (.win 10) (.reg 3)⟩),
  (0xbe860ec0, ⟨true, 10, .vscanI32 .w256 (.reg 3) (.win 6)⟩), (0x3cd6d860, ⟨false, 3, .kcnt .w512 (.win 6) 3⟩)] = true := by decide +kernel

theorem test_words_vpm : readsSlots [
  (0xc1a02780, ⟨true, 6, .vmov .w1k (.reg 9) (.win 12)⟩), (0x4240f0e4, ⟨false, 9, .vbc .w256 (.win 12) 3 (.reg 36)⟩),
  (0xc3114f43, ⟨true, 12, .vext .w512 39 (.win 4) 3⟩), (0x41e190ea, ⟨false, 7, .vins .w1k (.reg 4) 3 (.reg 42)⟩),
  (0xc1021743, ⟨true, 4, .vperm .w256 (.reg 5) (.win 10) (.reg 3)⟩), (0x4152e876, ⟨false, 5, .vzip .w512 (.win 10) (.reg 3) (.win 6)⟩),
  (0xc2a30ec9, ⟨true, 10, .vunzip .w1k (.reg 3) (.win 6) (.reg 9)⟩), (0x40c3d92c, ⟨false, 3, .vrotl .w256 (.win 6) (.reg 9) 12⟩),
  (0xc194f0f4, ⟨true, 6, .vsel .w512 1 (.win 12) (.reg 7) (.win 4)⟩), (0x424869c0, ⟨false, 9, .kand 6 4 7⟩), (0xc308df00, ⟨true, 12, .kor 5 7 4⟩),
  (0x41c93940, ⟨false, 7, .kxor 3 4 5⟩), (0xc109ea00, ⟨true, 4, .knot 6 5⟩), (0x414a5023, ⟨false, 5, .kfroms 5 false (.reg 35)⟩),
  (0xc28a8466, ⟨true, 10, .ktos 2 true 38⟩), (0x40eb5800, ⟨false, 3, .viota .w1k (.win 6)⟩)] = true := by decide +kernel

theorem test_words_vsf : readsSlots [
  (0xc5802780, ⟨true, 6, .vexp2 false (.reg 9) (.win 12)⟩), (0x4650f0e0, ⟨false, 9, .vexp true (.win 12) (.reg 7)⟩),
  (0xc7011e80, ⟨true, 12, .vlog2 false (.reg 7) (.win 4)⟩), (0x45d1d0a0, ⟨false, 7, .vrcp true (.win 4) (.reg 5)⟩),
  (0xc5021740, ⟨true, 4, .vrsqrt false (.reg 5) (.win 10)⟩), (0x4552e860, ⟨false, 5, .vlog true (.win 10) (.reg 3)⟩),
  (0xc6830ec0, ⟨true, 10, .vsin false (.reg 3) (.win 6)⟩), (0x44d3d920, ⟨false, 3, .vcos true (.win 6) (.reg 9)⟩),
  (0xc5842780, ⟨true, 6, .vtanh false (.reg 9) (.win 12)⟩), (0x4654f0e0, ⟨false, 9, .vsigm true (.win 12) (.reg 7)⟩),
  (0xc7051e80, ⟨true, 12, .verf false (.reg 7) (.win 4)⟩), (0x45d5d0a0, ⟨false, 7, .vsilu true (.win 4) (.reg 5)⟩)] = true := by decide +kernel

theorem test_words_win : readsSlots [
  (0xc9024a00, ⟨true, 4, .wcfg 4 (.reg 37)⟩), (0x494ad518, ⟨false, 5, .wset 5 (.reg 42) (.reg 35)⟩), (0xca954730, ⟨true, 10, .wget 10 35 (.reg 38)⟩),
  (0x48d98000, ⟨false, 3, .wrst 3⟩), (0xc9a35200, ⟨true, 6, .wskip 6 (.reg 41)⟩), (0x4a6e0000, ⟨false, 9, .wisect 12⟩),
  (0xcb364e00, ⟨true, 12, .wicnt 12 (.reg 39)⟩), (0x49fbc800, ⟨false, 7, .wstat 7 36⟩)] = true := by decide +kernel

theorem test_words_mx : readsSlots [
  (0xcd000a80, ⟨true, 4, .mcall 0 5 2⟩), (0x4d4da800, ⟨false, 5, .mset 5 (.reg 42)⟩), (0xce928c00, ⟨true, 10, .mget 2 35⟩),
  (0x4cde0000, ⟨false, 3, .mzero 3⟩), (0xcda5e100, ⟨true, 6, .mdrain 2 true (.win 12) 1⟩), (0x4e6a0000, ⟨false, 9, .mwait 1⟩),
  (0xcf309c00, ⟨true, 12, .mstat 0 39⟩), (0x4df89c00, ⟨false, 7, .mcfg (.reg 39) false⟩)] = true := by decide +kernel

theorem test_words_ring : readsSlots [
  (0xd1024aa0, ⟨true, 4, .rcfg 4 (.reg 37) false true false true⟩), (0x514a8000, ⟨false, 5, .racq 5⟩), (0xd2950000, ⟨true, 10, .rpub 10⟩),
  (0x50d98000, ⟨false, 3, .rwait 3⟩), (0xd1a30000, ⟨true, 6, .rrel 6⟩), (0x526c8000, ⟨false, 9, .reos 9⟩), (0xd3364e04, ⟨true, 12, .rstat 12 39 4⟩),
  (0x51fbc800, ⟨false, 7, .rmask 7 (.reg 36)⟩)] = true := by decide +kernel

theorem test_words_eng : readsSlots [
  (0xd501b18c, ⟨true, 4, .ecopy false true .host (.reg 35) 6⟩), (0x5546d312, ⟨false, 5, .egath true false .sys (.reg 38) 9⟩),
  (0xd6891498, ⟨true, 10, .escat false true .ctx (.reg 41) 12⟩), (0x54ce360e, ⟨false, 3, .esubs true false .core (.reg 44) 7⟩),
  (0xd5915388, ⟨true, 6, .ecoll false true .sheaf (.reg 39) 4⟩), (0x5656d388, ⟨false, 9, .ehalo true false (.reg 39) 4⟩),
  (0xd719d20a, ⟨true, 12, .ered false true (.reg 36) 5⟩), (0x55deb506, ⟨false, 7, .eckpt true false .host (.reg 42) 3⟩),
  (0xd521d18c, ⟨true, 4, .erolb false true .sys (.reg 35) 6⟩)] = true := by decide +kernel

theorem test_words_task : readsSlots [
  (0x59416a00, ⟨false, 5, .enq 5 (.reg 42)⟩), (0xda9a9800, ⟨true, 10, .exit (.reg 42) 3⟩), (0x58e46000, ⟨false, 3, .tid 35⟩),
  (0xd9acc480, ⟨true, 6, .tparm 38 9⟩), (0x5a7a4c00, ⟨false, 9, .qstat 41 12⟩)] = true := by decide +kernel

theorem test_words_step : readsSlots [
  (0xdf058700, ⟨true, 12, .srd 44 7⟩), (0x5dccee00, ⟨false, 7, .swr (.reg 39) 14⟩), (0xdd149280, ⟨true, 4, .tmark (.reg 36) (.reg 37)⟩),
  (0x5d5ca000, ⟨false, 5, .rrec (.reg 37)⟩), (0xdea55180, ⟨true, 10, .rprobe 42 (.reg 35)⟩), (0x5cec6000, ⟨false, 3, .rgate (.reg 35)⟩),
  (0xddb4c000, ⟨true, 6, .mmrd 38⟩), (0x5e780000, ⟨false, 9, .mmclr⟩)] = true := by decide +kernel

theorem test_words_gst : readsSlots [
  (0xe3093880, ⟨true, 12, .gpost 4 (.reg 39) 4⟩), (0x61de0080, ⟨false, 7, .gwait 7 4⟩), (0xe1292d40, ⟨true, 4, .gstat 4 (.reg 37) 42⟩),
  (0x617a0000, ⟨false, 5, .gpre 5⟩)] = true := by decide +kernel

theorem test_words_yoke : readsSlots [
  (0xe6855180, ⟨true, 10, .chkeq (.reg 42) (.reg 35)⟩), (0x64c8cc00, ⟨false, 3, .chkv 3 6⟩), (0xe594c000, ⟨true, 6, .sig (.reg 38)⟩),
  (0x665d2000, ⟨false, 9, .sigrd 41⟩), (0xe7200000, ⟨true, 12, .sigclr⟩)] = true := by decide +kernel

theorem test_words_sys : readsSlots [
  (0x69c00380, ⟨false, 7, .trap 7⟩), (0xe9080200, ⟨true, 4, .brk 4⟩), (0x6954a500, ⟨false, 5, .rdsys 37 10⟩),
  (0xea9d4180, ⟨true, 10, .wrsys (.reg 42) 3⟩), (0x68e18000, ⟨false, 3, .lphase 3⟩)] = true := by decide +kernel

theorem test_words_priv : readsSlots [
  (0xed800000, ⟨true, 6, .rfe⟩), (0x6e469b00, ⟨false, 9, .ctxsave (.reg 41) (.reg 44)⟩), (0xef0ac9c0, ⟨true, 12, .ctxrest (.reg 44) (.reg 39)⟩),
  (0x6dce74c0, ⟨false, 7, .wrsysp (.reg 39) 19⟩), (0xed100000, ⟨true, 4, .halt⟩), (0x6d565a80, ⟨false, 5, .mpld (.reg 37) (.reg 42)⟩),
  (0xee9aa8c0, ⟨true, 10, .tlbinv (.reg 42) (.reg 35)⟩), (0x6cde3980, ⟨false, 3, .kidset (.reg 35) (.reg 38)⟩),
  (0xeda26000, ⟨true, 6, .kidkill (.reg 38)⟩)] = true := by decide +kernel

theorem test_words_micro : readsMicro [
  (0x0000, .uEnd), (0x1000, .uGeta), (0x2000, .uGetb), (0x3000, .uMac), (0x4000, .uRela), (0x5000, .uRelb), (0x6000, .uLoopk), (0x7000, .uEndl),
  (0x8000, .uCson), (0x9000, .uCsoff), (0xa000, .uZero), (0xb000, .uSub false), (0xc005, .uKmask 5), (0xd00a, .uTag 10), (0xe000, .uNop),
  (0xf000, .uGetab)] = true := by decide +kernel

theorem test_words_nodes : readsNodes [
  ([0x44501, 0x1280, 0x99, 0], .nodeLaunch 5 1 true 0x1280 0x99), ([0x10402, 0, 0, 0], .nodeWaitk 0x104), ([3, 0, 0, 0], .nodeStep),
  ([0x58104, 0x2008, 9, 0x60], .nodeCond true 0 6 true 0x2008 9 0x60), ([0x5008B05, 0x4008, 0, 0], .nodePost 11 0x5008 0x4008),
  ([0xC06, 0x123456789, 0, 0], .nodeSetr 12 0x123456789), ([0x507, 0, 0, 0], .nodeFence .host), ([0xBEEF08, 0, 0, 0], .nodeStop 0xBEEF)] = true := by
  decide +kernel

/-! ## Single steps, with results from the spec's own examples or worked out by hand -/

def tF (xs : List (Fin 63 × Word)) (i : Instr) (d : Fin 63) : Option Word := pendS (after (tS xs t0) i) d
def lane0 (n : Nat) (o : Option Vec) : Option Nat := o.map fun v => v.toNat % 2 ^ n
/-- FPMODE with a rounding mode and SAT8. -/
def tMode (rm sat : Nat) : State → State := tSys [(rFPMODE, BitVec.ofNat 64 (rm + 8 * sat))]

/-- R87: `andi s3, s3, -8` clears the low bits; `rsubi s4, s4, 0` negates. -/
theorem test_andi_rsubi : (tF [(3, 0xFFF)] (.andi 3 (.reg 3) (-8)) 3 == some 0xFF8#64 && tF [(4, 5)] (.rsubi 4 (.reg 4) 0) 4 == some 0xFFFFFFFFFFFFFFFB#64) = true := by
  decide +kernel
/-- R86: a shift takes b[5:0] only, and the high half of a signed product has its sign. -/
theorem test_shift_mulh : (tF [(1, 3), (2, 65)] (.shl 5 (.reg 1) (.reg 2)) 5 == some 6#64 && tF [(1, -1), (2, 2)] (.mulh 5 (.reg 1) (.reg 2)) 5 == some (-1#64) &&
    tF [(1, -1), (2, 2)] (.mulhn 5 (.reg 1) (.reg 2)) 5 == some 1#64) = true := by decide +kernel
/-- R89: the field of eight bits at 8 of 0xAB_CD00. -/
theorem test_bfx : tF [(2, 0xABCD00), (3, 0x1C8)] (.bfx 4 (.reg 2) (.reg 3)) 4 = some 0xCD := by decide +kernel
/-- A register that is both source and destination is read before it is written; s0 takes nothing (R23, R83). -/
theorem test_add_self : (tF [(1, 0x8000000000000001)] (.add 1 (.reg 1) (.reg 1)) 1 == some 2#64 && (after (tS [(1, 5)] t0) (.add 0 (.reg 1) (.reg 1))).cur.pend == []) = true := by
  decide +kernel
/-- R92: the compare of R37's example writes p2 and its complement p3. -/
theorem test_clt_pair : (let t := after (tS [(4, 3), (5, 10)] t0) (.clt 2 true (.reg 4) (.reg 5))
    pendP t 2 == some true && pendP t 3 == some false) = true := by decide +kernel
/-- R71: 1.0 divided by 0.0 is an infinity, with DZ. -/
theorem test_fdiv_zero : (let t := after (tS [(1, 0x3F800000), (2, 0x80000000)] t0) (.fdiv 3 (.reg 1) (.reg 2))
    t.cur.flights.any fun f => f.vals == [.s 3 0xFF800000]) = true := by decide +kernel
/-- R114: the fused example: d = -1.0, a = b = 1 + 2^-12 gives 2^-11 + 2^-24, and no flag. -/
theorem test_vfma_fused : (let t := after (tV [(4, 0xBF800000), (2, 0x3F800800), (3, 0x3F800800)] t0) (.vfmaF32 .w256 (.reg 4) (.reg 2) (.reg 3))
    lane0 32 (pendV t 4) == some 0x3A000400) = true := by decide +kernel
/-- R60: 472.0 rounds to 480 under RNE, over the largest E4M3 value; 464.0 is a tie that rounds to 448. -/
theorem test_e4m3_overflow : (let x := fun (n m s : Nat) => lane0 8 (pendV (after (tMode m s (tV [(1, BitVec.ofNat 1024 n)] t0)) (.cvtF8e4F32 .w256 (.reg 2) (.reg 1))) 2)
    x 0x43EC0000 0 1 == some 0x7E && x 0x43EC0000 0 0 == some 0x7F && x 0x43E80000 0 0 == some 0x7E && x 0x43E80000 2 0 == some 0x7F) = true := by decide +kernel
/-- R74: from RNGSEED = 1 the generator goes to 0x40822041; R73: BF16 of 0x3F80C000 under the random word 0 rounds down. -/
theorem test_sr_first_word : (let t := after (tSys [(rRNGSEED, 1)] (tV [(1, 0x3F80C000)] t0)) (.cvtBf16F32Sr .w256 (.reg 2) (.reg 1))
    lane0 16 (pendV t 2) == some 0x3F80 && (xorshift 1 == 0x40822041#64)) = true := by decide +kernel
/-- R68: the worked block of largest magnitude 3.7: scale 128, elements 118, -2 and 0. -/
theorem test_quantise_block : (let f := fun n => fp32.unpack n
    let q := fun n => (quantise (f n) 128 6 127 .rne).1
    blockScale [0x406CCCCD, 0xBD4CCCCD, 0x3C000000] == 128#8 && q 0x406CCCCD == 118 && q 0xBD4CCCCD == -2 && q 0x3C000000 == 0) = true := by decide +kernel
/-- R134: the addresses of the worked windrow. -/
theorem test_windrow_addresses : (let d : WinDesc := { WinDesc.reset with la := 4, nlev := 2, cnt := (WinDesc.reset.cnt.set 0 2).set 1 3, str := (WinDesc.reset.str.set 0 32).set 1 128, base := 0x100000, modlen := 0x100 }
    let w : Windrow := { Windrow.reset with desc := d, state := .active }
    (List.range 6).map (fun n => (d.byteAddr (d.offset (w.ahead n).idx) 0)) == [0x100000, 0x100020, 0x100080, 0x1000A0, 0x100000, 0x100020] &&
      (w.ahead 6).state == .done) = true := by decide +kernel
/-- R246: the worked walk: four indices, a 64 KiB leaf of KID 3, home in field 0; a fetch through it is refused. -/
theorem test_walk_example : (let e := fun (a n : Nat) (s : State) => { s with mem := bsetN s.mem a (leBytes 8 n) }
    let s := e 0x200000 0x204001 (e (0x204000 + 8 * 0x48) 0x208001 (e (0x208000 + 8 * 0x68A) 0x20C001
      ((List.range 16).foldl (fun s j => e (0x20C000 + 8 * (0x670 + j)) 0x002818002345000F s) t0)))
    let s := { s with kids := tput (tput s.kids 7 { KidEntry.reset with state := .live, root := 0x200000 }) 3 { KidEntry.reset with state := .live } }
    (match s.walk 7 0x12345678000 with | .ok x => (x.size == 0x10000 && pteKid x.leaf == 3#8 && ptePkg x.leaf == 5) | .error _ => false) &&
      (match s.translate ⟨7, false, false⟩ .fetch 0x12345678000 with | .fault c => c == cPPROT | _ => false) &&
      ptePfn 0x002818002345000F#64 * 4096 + 0x12345678000 % 0x10000 == 0x23458000 && s.paKind 0x23458000 == .hbm 0) = true := by decide +kernel
/-- R270: the worked TRAPINFO of REGILL: class 0, number 4, three words after REGENT. -/
theorem test_regill_info : ((tSys [(rREGENT, 0x80000)] (tIssue (fun i => { i with addr := 0x8000C }) t0)).regillInfo 0 4 0) = 0x2000000003#64 := by decide +kernel
/-- R143, R265: a store waits in the region's store buffer, and a load of a later bundle reads its byte. -/
theorem test_store_then_load : (let s := after (tLoft 0 [0x1111111111111111] (tS [(1, lo 0), (2, 0xAB)] t0)) (.stb (.reg 2) (.reg 1) 0 0)
    let t := after { s with issue := { s.issue with loads := s.cur.region.buffer } } (.ldd 3 (.reg 1) 0 0)
    s.cur.region.buffer.length == 1 && pendS t 3 == some 0x11111111111111AB#64) = true := by decide +kernel
/-- R297: trap raises SYSCALL. -/
theorem test_trap : (let s := tSys [(rTVEC, 0x40000)] t0
    let t := after s (.trap 5)
    t.issue.outcome == .trap && (trapOf t == some cSYSCALL)) = true := by decide +kernel
/-- R45, R36: reserved majors, W = 0b11, a destination of 63 and a nonzero reserved bit are refused. -/
theorem test_words_refused : ([0x70000000, 0xFC000000, 0x30300000, 0x043F0000, 0x18100001, 0x2C000000, 0x68400001] : List (BitVec 32)).all (fun w =>
    match decodeSlot w 0 with | .error _ => true | .ok _ => false) = true := by decide +kernel
/-- R45: nine slots without an end, and three branch slots, are no bundle. -/
theorem test_bundles_refused : ((match checkFramed (frame fun _ => some 0x04000000) with | .error _ => true | .ok _ => false) &&
    (match checkFramed (frame fun i => some (if i = 1 then 0x98000000 else 0x18000000)) with | .error n => n == 1 | .ok _ => false) &&
    (match checkFramed (frame fun i => some (if i = 1 then 0x84081C70 else 0x84081C70)) with | .error _ => false | .ok xs => xs.length == 1)) = true := by decide +kernel

/-! ## Ill-formed terms, one for each check of WellFormed -/

theorem test_wf_refused : ([.ceq 3 true (.reg 1) (.reg 2), .clt 0 true (.reg 1) (.reg 2), .kany 5 true 1, .ldb 1 (.reg 2) 3 0, .ldw 1 (.lit 4) 0 1, .std (.reg 1) (.lit 4) 0 2,
    .stvk (.reg 1) (.reg 2) 1 8, .stvk (.reg 1) (.lit 2) 1 1, .vmadI16 .w256 (.win 1) (.reg 1) (.reg 2), .vfmaF32 .w256 (.win 1) (.reg 1) (.reg 2),
    .vins .w256 (.win 0) 0 (.reg 1), .vins .w256 (.reg 0) 4 (.reg 1), .vext .w512 1 (.reg 1) 8, .vbc .w256 (.reg 1) 4 (.reg 1), .stgset 0 2, .stgset 15 2, .stgset 3 0,
    .replay (.reg 1) 0, .wrsysp (.reg 1) 5, .swr (.reg 1) 3, .wisect 3, .rcfg 1 (.reg 1) false false true true, .uKmask 0,
    .nodeLaunch 1 0 true 0x40 0, .nodeLaunch 1 0 false 0x80 1, .nodeCond true 1 0 false 8 0 32, .nodeCond false 0 0 false 8 0 32, .nodeCond false 0 0 true 0 17 32,
    .nodeCond false 0 0 false 0 0 16, .nodePost 1 0 4, .nodeFence .field, .add 1 (.lit 1) (.lit 2)] : List Instr).all (fun i => !i.wf) = true := by decide +kernel
theorem test_wf_allowed : ([.ceq 4 true (.reg 1) (.reg 2), .ceq 3 false (.reg 1) (.reg 2), .ldb 1 (.reg 2) 0 3, .ldw 1 (.lit 4) 0 0, .add 1 (.lit 7) (.lit 7), .stgset 14 2,
    .nodeFence .host, .swr (.reg 1) 4, .vbc .w1k (.reg 1) 3 (.lit 9)] : List Instr).all (fun i => i.wf) = true := by decide +kernel

/-! ## Witnesses for the statements' hypotheses -/

theorem test_w_roundtrip : (let x : Slot := ⟨false, 3, .addi 1 (.reg 2) (-64)⟩; let y : Slot := ⟨true, 0, .bc 15 true 6 3 true 2047⟩
    x.op.wf && x.op.group != .notSlot && x.op.group != .bc && y.op.wf && y.op.group == .bc && y.guard == 0) = true := by decide +kernel

theorem test_w_micro_node : (15#4 ≠ 0#4) ∧ (Instr.nodeFence .pkg).wf = true ∧ encodeNode (.nodeFence .pkg) = [0x407, 0, 0, 0] := by decide +kernel

theorem test_w_reserved : 28 ≤ (0x70000000#32).toNat / 2 ^ 26 % 32 ∧ 28 ≤ (0x7FFFFFFF#32).toNat / 2 ^ 26 % 32 := by decide

/-- The first clause of StepRunsDecoded on a program of one slot. -/
noncomputable def tStepW (x : Slot) (out : SlotOutcome) (f : State → State) : Bool :=
  let s := f (State.reset.withFetchWord 32 (encodeSlot x).toNat)
  let u := (({ s with turn := none } : State).wakeCore 0).fetched 0
  match u.issue.fetched with
  | some ⟨none, ss, _, _, _⟩ =>
    let t := after u (.bundleIssue 0)
    (match t.active ss with
     | [(n, y)] =>
       let slot := fun (z : State) => ({ z with issue := { z.issue with index := n, outcome := .run, trapped := none } } : State)
       let p := (t.prepareWins [(n, y)]).passBreak
       let q := p.noteIssue
       let v := after (slot p.withoutFpx) y.op
       s.turn == some (.issue 0) && s.awake && (s.core 0).running == some 0 && t.issue.go && t.issue.core == 0 && t.issue.slot == 0 && y.op == x.op &&
         !p.writesBound y.op && (out == .wait || !p.issue.due) && ((t.prepareWins [(n, y)]).splitLoads [(n, y)]).isNone && v.issue.outcome == out && !q.lendMisplaced && (out == .wait || v.issue.index == n) && v.issue.flags &&& q.xe == 0
     | _ => false)
  | _ => false

theorem test_w_step_run : tStepW ⟨true, 0, .add 1 (.reg 2) (.reg 3)⟩ .run id = true := by decide +kernel
theorem test_w_step_wait : tStepW ⟨true, 0, .waiteng 5⟩ .wait
  (tCtx fun c => { c with tokens := c.tokens.set 5 ⟨.pending, .copy, false, .ctx⟩ }) = true := by decide +kernel
theorem test_w_step_trap : tStepW ⟨true, 0, .trap 7⟩ .trap id = true := by decide +kernel

theorem test_w_step_engine : (let s := State.reset.withFetchWord 16 0xE000
    s.turn == some (.engine 0) && s.awake && (s.core 0).array == some 0 &&
      (match (s.core 0).calls.find? fun m => m.cmd.bank == 0 with | some m => (s.core 0).fetchMicro m == some .uNop | none => false)) = true := by decide +kernel

/-- The Step Sequencer running under KID 1 at a node. -/
def tNode (i : Instr) : State :=
  let s := tMem 0x20000 (encodeNode i) t0
  { s with turn := some .ssq, ssq := { s.ssq with state := .running, cur := 0x20000, kid := 1 } }
theorem test_w_step_ssq : (let s := tNode (.nodeStop 3)
    s.turn == some .ssq && s.awake && s.ssq.writes == [] && s.ssq.asks == [] && s.ssq.state == .running &&
      (match ({ s with turn := none } : State).fetchNode with | .ok i => i == .nodeStop 3 | .error _ => false)) = true := by decide +kernel
theorem test_w_step_event : (let s := { t0 with turn := some (.event (.powerSample 5)) }
    s.awake && isEvent (.powerSample 5) && !State.reset.awake && anyTime .powerOnReset) = true := by decide +kernel

/-- Link 7 ACTIVE: a replay limit before and after another row of the cycle (R8), and a node that stops the SSQ. -/
noncomputable def tLink7 (rows : Table Nat) : State :=
  { t0.modLink 7 fun l => { l with state := .active } with rows := rows, turn := some (.event (.flitReplayLimit 7)) }
noncomputable def stepLink (s : State) : Option (LinkState × Table Nat) := match s.eventStep (.flitReplayLimit 7) with | .next t => some ((t.linkAt 7).state, t.rows) | _ => none
theorem test_w_rows : ((tLink7 []).rowOf (.flitReplayLimit 7) t0 == some (7, 7) &&
    (match exec (.nodeStop 3) (tNode (.nodeStop 3)) with | .next t => nodeRow t == some (24, 7) | _ => false) &&
    t0.rowOf (.powerSample 5) t0 == none) = true := by decide +kernel
theorem test_rows_taken : stepLink (tLink7 [(7, 5)]) = some (.down, [(7, 7)]) := by decide +kernel
theorem test_rows_void : stepLink (tLink7 [(7, 8)]) = some (.active, [(7, 8)]) := by decide +kernel

theorem test_w_scalar_float : (let s := tS [(1, 0x7F800000), (2, 0), (3, 0x3F800000)] (tSys [(rFPMODE, 0x1F8)] t0)
    let r := fMul fp32 s.rmArith (s.srcF (.reg 1)) (s.srcF (.reg 2))
    (r.flags &&& s.xe) != 0 && ((fDiv fp32 s.rmArith (s.srcF (.reg 3)) (s.srcF (.reg 3))).flags &&& s.xe) == 0 &&
      ((fSqrt fp32 s.rmArith (s.srcF (.reg 3))).flags &&& s.xe) == 0) = true := by decide +kernel

theorem test_w_pack : (!(fp32.unpack 0xFF7FFFFF).isNan && !(bf16.unpack 0x0001).isNan && (fp32.unpack 0x7F800001).isNan &&
    (bf16.unpack 0xFFC0).isNan) = true := by decide +kernel

theorem test_w_rounding : 20 ≤ Nat.log2 0 + 20 ∧ 5 ≤ Nat.log2 24 + 20 := by decide

theorem test_w_compares : (((fEq (fp32.unpack 0) (fp32.unpack 0x80000000)).2 &&& t0.xe) == 0 && ((fLt (fp32.unpack 1) (fp32.unpack 2)).2 &&& t0.xe) == 0 &&
    !(fp32.unpack 0x7F800000).isNan && (FVal.nan true).isNan) = true := by decide +kernel

theorem test_w_branches : (let m := { t0 with issue := { t0.issue with addr := 0x10000 } }
    let s := tS [(1, 0x40), (2, secEnd), (3, 0x41)] (tK [(1, BitVec.allOnes 128), (2, 1)] m)
    !s.inBody && s.issue.outcome == .run && (s.src (.reg 1) &&& 3) == 0 && s.src (.reg 1) != secEnd && (s.src (.reg 2) &&& 3) == 0 && s.cur.member == none &&
      (tCtx (fun c => { c with member := some default }) s).cur.member.isSome && s.cur.loop.levels == [] && (s.src (.reg 3) &&& 3) != 0 &&
      s.getK 1 == BitVec.allOnes 128 && s.getK 0 == 0 && s.getK 2 != 0 && s.getK 2 != BitVec.allOnes 128) = true := by decide +kernel

def tLevel : LoopLevel := ⟨0x100, 0x200, 0, 3, none, none⟩
def tLevels (n : Nat) : State := tCtx (fun c => { c with loop := { c.loop with levels := List.replicate n tLevel } }) t0
theorem test_w_lexit : (tLevels 2).cur.loop.levels.length ≤ 2 ∧ (tLevels 2).cur.loop.levels[1]? = some tLevel := by decide +kernel

theorem test_w_loops : (let s := tLoft 0 [1, 0x05, 0, 0, 0] (tS [(1, 3), (2, lo 0)] (tLevels 5))
    (s.src (.reg 1)).setWidth 32 != (0 : BitVec 32) && (s.src (.reg 0)).setWidth 32 == (0 : BitVec 32) && s.cur.loop.levels.length == 5 &&
      (tLevels 6).cur.loop.levels.length == 6 && s.cur.loop.levels[4]? == some tLevel &&
      okT (s.readTable (s.src (.reg 2)) 8 1) (fun h t => (wordAt h 0).toNat == 1 &&
        okT (t.readTable (s.src (.reg 2)) 8 (1 + 4 * (wordAt h 0).toNat)) fun ws _ => (deltaEntries ws 1).isSome)) = true := by decide +kernel

/-! ### Vectors -/

/-- Vector registers 0 and 1 hold numbers; v2 ones. -/
def tVec : State := tV [(0, BitVec.ofNat 1024 0x3F8000003F800000), (1, BitVec.ofNat 1024 0x4000000040000000), (2, BitVec.allOnes 1024)] t0

theorem test_w_vector : (okG (tVec.readV (.reg 0) 1024) fun x u => x == tVec.getV 0 && okG (u.readV (.reg 1) 1024) fun y _ => y == tVec.getV 1) = true := by
  decide +kernel

theorem test_w_vector_float : okG (tVec.readV2 (.reg 0) (.reg 1) 256) (fun (x, y) t =>
    let rs := List.zipWith (fDiv fp32 t.rmArith) (fp32.elems 256 x) (fp32.elems 256 x)
    let u := t.flyV .vdivide (.reg 3) 256 (fp32.vec rs) 1
    let qs := List.zipWith (fAdd fp32 t.rmArith) (fp32.elems 256 x) (fp32.elems 256 y)
    let v := t.writeV (.reg 3) 256 (fp32.vec qs) 4
    u.issue.outcome == .run && v.issue.outcome == .run && (flagsOf qs &&& v.xe) == 0 && (tSys [(rFPMODE, 0x1F8)] t0).xe == 31) = true := by decide +kernel

theorem test_w_conversions : okG (tVec.readV (.reg 0) 1024) (fun x t =>
    let dr := State.drawModes t.rmCode 32 t
    let f := packAll bf16 (fConvert bf16) (fp32.elems 1024 x) dr.1
    let u := (dr.2.putMag ((lanes 32 32 x).map BitVec.toNat) 3).writeV (.reg 3) 512 f.1 3
    let g := widen bf16 fp32 32 x
    let v := t.writeV (.reg 3) 1024 g.1 3
    u.issue.outcome == .run && (f.2 &&& u.xe) == 0 && v.issue.outcome == .run && (g.2 &&& v.xe) == 0) = true := by decide +kernel

theorem test_w_block_scale : (fp32.unpack 0xFF800000 == .inf true && fp32.unpack 0x7FC00000 != .inf false && 0x80000000 % 2 ^ 31 == 0 &&
    decide (0x7F7FFFFF % 2 ^ 31 < 0x7F800000) && decide (0x00800000 ≤ 0x80800000 % 2 ^ 31) && decide ((-127 : Int).natAbs ≤ 127) && (0xFE : Byte) != 0xFF) = true := by
  decide +kernel

theorem test_w_random : (4 : Nat) ≠ 5 ∧ (6 : Nat) ≠ 5 := by decide

theorem test_w_reductions : ([1, 2] : List Nat).length = 2 ^ 1 ∧ 1 ≤ 5 ∧ (List.replicate 32 0).length = 2 ^ 5 := by decide

theorem test_w_permutes : ((3#4).toNat < Width.w256.bits / 64 && decide (Width.w256.bits / 64 ≤ (4#4).toNat) && decide ((15#4).toNat < Width.w1k.bits / 64) &&
    (3#4).toNat == (3 : Fin 4).val && decide (4 ≤ (4#4).toNat)) = true := by decide +kernel

theorem test_w_sfu : ((fp32.unpack 0xFF800001).isNan && !(beyondTrig 0x3F800000) && beyondTrig 0x7F7FFFFF) = true := by decide +kernel

/-! ### Windrows and accesses -/

/-- A read windrow of FP32 elements, 4 element vectors of 32 bytes. -/
def tDesc : WinDesc := { WinDesc.reset with la := 4, nlev := 1, cnt := WinDesc.reset.cnt.set 0 4, str := WinDesc.reset.str.set 0 32, base := 0x20000 }
def tWin (st : WinState) (buf : List WinEntry) : Windrow :=
  { Windrow.reset with desc := tDesc, state := st, width := some (tDesc.bytes 256), buf := buf }
def tW (x : Windrow) : State := t0.setWin 3 x
def tElem (arrived : Bool) (f : Option TrapVal) : WinEntry := ⟨arrived, 7, 0, f, [7], false⟩

theorem test_w_windrow_reads : ((tIssue (fun i => { i with elems := [(3, 7)] }) t0).issue.elems == [(3, 7)] && t0.issue.elems == [] &&
    (t0.win 3).misused false 256 && !((tWin .done []).misused false 256) && !((tWin .busy []).misused false 256) && !((tWin .active []).misused false 256) &&
    ((tW (tWin .active [tElem false none])).win 3).width == some (((tW (tWin .active [])).win 3).desc.bytes 256) &&
    ((tW (tWin .active [tElem true (some ⟨cALIGN, 0⟩)])).win 3).buf == [tElem true (some ⟨cALIGN, 0⟩)]) = true := by decide +kernel

/-- The eight words of a valid descriptor. -/
def tDescWords : List Word := [0x20000, 0, 0x200000, 0, 0, 0x40000, 0x0420000000000000, 0]
theorem test_w_windrow_forms : (let s := tLoft 0 tDescWords (tS [(1, lo 0), (2, 3), (4, 8), (5, 0x27)] (tW (tWin .done [])))
    let idx := { tWin .active [] with desc := { tDesc with fmt := 2, scen := false } }
    let m := (s.setWin 4 idx).setWin 5 idx
    (s.win 3).state != .busy && (s.win 3).state != .idle && (s.win 2).state == .idle && ((tW (tWin .busy [])).win 3).state == .busy &&
      okT (s.readTable (s.src (.reg 1)) 64 8) (fun ws _ => winReservedZero (wordsNat ws) && (WinDesc.ofNat (wordsNat ws)).valid) &&
      decide ((s.src (.reg 4)).toNat < 2 ^ 32) && (s.src (.reg 4)).toNat % 8 == 0 && ((s.win 3).getItem 13).isSome &&
      (s.src (.reg 5)).toNat == 0x10 + 8 * 2 + (7 : Fin 8).val && (m.win 4).mergeable && (m.win 5).mergeable && decide ((s.win 3).buf.length ≤ 8)) = true := by
  decide +kernel

/-- A write windrow in windrow 4 over the scratchpad. -/
def tOut : Windrow := { tWin .active [] with desc := { tDesc with dir := true, base := (lo 0x1000).setWidth 56 } }

theorem test_w_loads : (let s := tLoft 0 [1, 2, 3, 4] (tS [(1, lo 0), (2, 0x20000)] (t0.setWin 4 tOut))
    let m := tMem 0x20000 [1, 2, 3, 4] s
    [1, 2, 4, 8].all (fun n => okG (s.loadBytes (.reg 1) n n) fun x _ => x.2) && [32, 64, 128].all (fun n => okG (s.loadBytes (.reg 1) n 32) fun x _ => x.2) &&
      okG (m.loadBytes (.reg 2) 32 32) (fun x t => !x.2 && okG (t.startPush 4 256) fun ps _ => ps.isSome) &&
      s.cur.regs.mlen[0] == 0 && (tRegs (fun r => { r with mlen := r.mlen.set 0 64 }) s).cur.regs.mlen[0] != 0) = true := by decide +kernel

theorem test_w_loft_loads : (let s := tLoft 0 [] (tS [(1, 0x0100000000000000), (2, 0x00FFFFFFFFFFFFFF), (3, lo 0)] t0)
    decide (2 ^ 56 ≤ (s.src (.reg 1)).toNat) && decide ((s.src (.reg 2)).toNat < 2 ^ 56) && (s.src (.reg 2)).toNat % 2 != 0 &&
      (s.src (.reg 3)).toNat % 32 == 0 && decide (loftBase ≤ (s.src (.reg 3)).toNat) && s.myCore.stepAccess 0 == .go && s.myCore.stepAccess (127 / 0x40000) == .go &&
      s.cur.outbox == [] && s.cur.flights == [] && s.cur.atomics == [] && s.issue.loads == []) = true := by decide +kernel

theorem test_w_stores : (let s := tLoft 0 [] (tS [(1, 0x0100000000000000), (2, 0x20002), (3, lo 0), (4, 0x20001)] t0)
    let ok := fun (n : Nat) => (s.storeVa (s.src (.reg 3)).toNat (leBytes n 5) (fun _ => true) none).1 == .ok
    [1, 2, 4, 8, 32, 64, 128].all ok && (s.src (.reg 3)).toNat % 32 == 0 && (s.src (.reg 4)).toNat % 2 != 0 && decide ((s.src (.reg 4)).toNat < 2 ^ 56) &&
      decide (2 ^ 56 ≤ (s.src (.reg 1)).toNat)) = true := by decide +kernel

theorem test_w_store_then_load : (let s := tLoft 0 [] (tS [(3, lo 0x3FFF8)] t0)
    let ea := (s.src (.reg 3)).toNat
    decide (loftBase ≤ ea) && decide (ea < 2 ^ 56) && ea % 8 == 0 && s.myCore.stepAccess ((ea - loftBase) / 0x40000) == .go && s.coh == [] &&
      decide (s.cur.region.buffer.length + s.cur.outStores.length < 32) && s.cur.flights == [] && s.cur.atomics == []) = true := by decide +kernel

/-- The host window is mapped at 16 GiB: the second entry of the lower table. -/
theorem test_w_atomics : (let s := tS [(3, 0x20000), (4, 0x20004)] t0
    (s.getS (d32 3)).toNat % 8 == 0 && (s.getS (d32 4)).toNat % 8 != 0 && decide ((s.getS (d32 4)).toNat < 2 ^ 56) &&
      (match s.locate .write 0x20000 0 3 with
       | (.ok p, t) => p.place == .phys && t.paKind p.addr != .host
       | _ => false)) = true := by decide +kernel

theorem test_w_atomic_values : (0xFFFFFFFF#64).toNat < 2 ^ (8 * 4) ∧ (0xFFFFFFFFFFFFFFFF#64).toNat < 2 ^ (8 * 8) := by decide

theorem test_w_ordered : (let s := tLoft 0 [9] (tS [(3, lo 0)] t0)
    let released := (s.release s.issue.core .pkg).modCur fun c => { c with region := { c.region with
      buffer := c.region.buffer.map fun x => { x with sealed := true }, fences := c.region.fences ++ [.pkg] } }
    !s.cur.unperformed && (tCtx (fun c => { c with outbox := [.release .pkg] }) s).cur.unperformed && released.issue.outcome == .run &&
      okG (s.loadBytes (.reg 3) 8 8) (fun _ _ => true) && okG (s.loadBytes (.reg 3) 4 4) (fun _ _ => true) &&
      (s.storeVa (s.src (.reg 3)).toNat (leBytes 8 1) (fun _ => true) (some .pkg)).1 == .ok) = true := by decide +kernel

def tTok (st : TokenState) (k : CmdKind) : State := tCtx (fun c => { c with tokens := c.tokens.set 5 ⟨st, k, true, .ctx⟩ }) t0
def tMember : Member := { (default : Member) with field := 0, run := 7, width := 4, index := 2, kid := 1, lb := 0x30000, parm := 0x20000 }
def tMem1 (m : Member) : State := tCtx (fun c => { c with member := some m }) t0
theorem test_w_rendezvous : (let s := tTok (.done .ok ⟨0, 0⟩) .copy
    let m := tMem1 tMember
    let f := tSys [(rDOMAIN, BitVec.ofNat 64 (2 ^ 42))] t0
    let a := tCtx (fun c => { c with asks := [⟨0, 1, false⟩] }) t0
    !s.cur.region.sets 5 && (s.cur.tokens[(5 : Fin 64)]).state == .done .ok ⟨0, 0⟩ && (t0.cur.tokens[(5 : Fin 64)]).state == .idle &&
      ((tTok .pending .copy).cur.tokens[(5 : Fin 64)]).state == .pending && t0.cur.member == none && t0.cur.cnt[(0 : Fin 16)] == t0.cur.pos[(0 : Fin 16)] &&
      !t0.cur.unperformed && m.cur.member == some tMember && (tMember.seenGen[(3 : Fin 16)]) == m.cur.cnt[(3 : Fin 16)] && !m.flt && f.flt &&
      t0.genSeen 2 == t0.cur.pos[(2 : Fin 16)] && (tCtx (fun c => { c with pos := c.pos.set 2 1 }) t0).genSeen 2 != 1 && a.asked == some false &&
      a.issue.outcome == .run && (tCtx (fun c => { c with arr := 1 }) m).cur.arr != m.gph && tMember.seen == m.gph && { tMember with seen := 1 }.seen != m.gph &&
      (tCtx (fun c => { c with region := { c.region with deferred := [.engine { (default : EngineCmd) with tok := 5 }] } }) t0).cur.region.sets 5) = true := by
  decide +kernel

/-! ### Engines, rings and tasks -/

def tParam : Word := 0x0001000000000000
/-- The context owns bank 0; routine 0 is a NOP. -/
def tBank (f : Bank → Bank) : State :=
  tCore (fun c => { c with store := [(0, [0xE000, 0x0000])], banks := c.banks.set 0 (f { Bank.reset with owner := some 0, state := .live }) })
    (tRegs (fun r => { r with mp := r.mp.set 0 tParam }) t0)
theorem test_w_matrix_forms : (let s := tBank id
    let b := s.bank 0
    let d := s.drainData b 0
    let u := s.modBank 0 0 fun y => y.drained 0
    let w := u.flyV .drain (.reg 1) 1024 d.1 6
    b.owner == some s.issue.slot && tget [] s.myCore.store 0 != [] && mpValid s.cur.regs.mp[(0 : Fin 8)] && !s.bankPending 0 && !s.bankBusy 0 && b.error == none &&
      (tBank fun b => { b with state := .busy }).bankBusy 0 && !b.compare && (b.drainCells (drainCount 0)).all (fun n => !b.poisoned.contains n) &&
      (d.2.1 &&& w.xe) == 0 && (s.bank 1).owner != some s.issue.slot && decide (b.dcur.toNat < b.tileCells) &&
      decide ((8191#13).toNat < (tBank fun b => { b with dcur := 8191 }).issue.core + 8192)) = true := by decide +kernel

/-- A call of bank 0 in the array. -/
def tCall (f : MatrixCall → MatrixCall) : State :=
  tCore (fun c => { c with calls := [f probeCall], array := some 0, banks := c.banks.set 0 { Bank.reset with owner := some 0, state := .busy } }) t0
def tSlot : HeldSlot := ⟨0, 0, 0, 0⟩
def tRingDesc : RingDesc := ⟨1, 1, 2, false, false, false, 5, (lo 0).setWidth 56⟩
/-- The context consumes ring 5 for the engine and itself; its slot 0 is FULL, slot 1 FREE. -/
def tRing (r : RingReg → RingReg) (e : RingEntry → RingEntry) (s : State) : State :=
  let full : RingSlot := { RingSlot.reset with state := .full, pending := 1 }
  let reg := r { RingReg.reset with desc := tRingDesc, state := .bound, c := true, e := true, epoch := 1 }
  let entry := e { RingEntry.reset with ready := true, desc := tRingDesc, cmask := 1, epoch := 1, next := 1, slots := [(0, full)] }
  (s.modCur fun c => { c with rings := c.rings.set 2 reg }).modRing 0 5 fun _ => entry
theorem test_w_micro_operations : (let s := tCall id
    let m := tCall fun m => { m with cmd := { m.cmd with op := .call 0 (tParam + BitVec.ofNat 64 (2 * 2 ^ 38)) } }
    let q := tRing id id m
    (s.core 0).array == some 0 && ((s.core 0).callOf 0).isSome && decide ((s.core 0).arrayAt ≤ s.now) && decide (1 < 2) && s.issue.core == 0 &&
      ((tCall fun m => { m with curA := some tSlot, curB := some tSlot }).core 0).callOf 0 == some { probeCall with curA := some tSlot, curB := some tSlot } &&
      !s.engineBound 0 0 0 && q.engineBound 0 0 2 && (tRing id (fun e => { e with slots := [] }) m).engineBound 0 0 2 &&
      !(tRing id (fun e => { e with slots := [] }) m).slotPresent 0 0 2 0 && q.slotPresent 0 0 2 0 && (q.acquireSlot 0 0 2 256 0).1) = true := by decide +kernel

def tFlight : Flight := ⟨4, .divide, 0, [.s 5 9], none⟩
def tCmd (op : MatrixOp) : MatrixCmd := ⟨0, 0, op, 0⟩
theorem test_w_results_return : (let s := tCtx (fun c => { c with flights := [tFlight] }) t0
    let q := fun (op : MatrixOp) => tCore (fun c => { c with mq := [tCmd op] }) { tBank id with now := 100 }
    let e := fun (op : MatrixOp) => ((q op).core 0).nextCommand == some (tCmd op) && ((q op).core 0).eligible (q op).now (tCmd op)
    let a := tCall fun m => { m with macs := [⟨0, [], [], 15, false, false⟩] }
    ((s.ctxAt 0 0).flights.find? fun f => f.id == 4) == some tFlight && decide (tFlight.ready ≤ s.now) && tFlight.push == none &&
      ((q .zero).core 0).array == none && ((q .zero).core 0).clearing == none && ((q .zero).core 0).calls == [] && e .zero && e .clear && e (.call 0 tParam) &&
      (match (a.core 0).callOf 0 with | some m => m.macs == [⟨0, [], [], 15, false, false⟩] && m.ended == none | none => false) &&
      ((tCore (fun c => { c with clearing := some (0, true, 0) }) t0).core 0).clearing == some (0, true, 0)) = true := by decide +kernel

theorem test_w_ring_forms : (let s := tRing id id t0
    let p := tRing (fun r => { r with p := true, pq := 1 }) id t0
    let h := tRing (fun r => { r with p := true, pcur := true, ccur := true }) id t0
    let w := tRing (fun r => { r with p := true }) id t0
    let words := recOf 4 [(0, (lo 0).toNat), (168, 5), (184, 2), (192, 1), (224, 1)]
    let n := tLoft 0x2000 words (tS [(1, lo 0x2000)] t0)
    s.bindState 0 0 (s.rb 2) == .bound && p.slotFree (p.rb 2) && !w.slotFree (w.rb 2) && (s.entryOf (s.rb 2)).fullFor s.now 0 (meBit 0 0) &&
      !((p.entryOf (p.rb 2)).fullFor p.now 1 (meBit 0 0)) && !s.cur.region.publishes 5 0 && h.bindState 0 0 (h.rb 2) == .bound && tRingDesc.maskOk 0 1 &&
      (t0.rb 0).state == .unbound && (s.rb 2).p == false && (h.rb 2).pcur && (h.rb 2).ccur && n.src (.reg 1) == lo 0x2000 && (lo 0x2000).toNat % 32 == 0 &&
      okT (n.readTable (lo 0x2000) 32 4) (fun ws t => (RingDesc.ofNat (wordsNat ws)) == tRingDesc && tRingDesc.valid (wordsNat ws) 0 &&
        tRingDesc.steps.all fun x => t.myCore.stepAccess x == .go)) = true := by decide +kernel

theorem test_w_ring_lifecycle : (let s := fun (f : Effect) => tCtx (fun c => { c with outbox := [.effect f] }) (tRing id id t0)
    let p := s (.publish 2 1 1 5 false)
    let c := s (.release 2 0 1 5)
    let e := p.ringEntry (sheafOf 0) 5
    e.ready && e.epoch == 1 && !(p.ctxAt 0 0).returning && !(p.ctxAt 0 0).pushesOut && !e.desc.mcast && !e.desc.cons && e.cmask != 0 && (e.slot 1).state == .free &&
      ((c.ringEntry 0 5).slot 0).state == .full && ((c.ringEntry 0 5).slot 0).tag == 0 && ((c.ringEntry 0 5).slot 0).pending.getLsbD (meBit 0 0) &&
      ((c.ringEntry 0 5).slot 0).pending &&& ~~~ (1#32 <<< meBit 0 0) == 0 && !((c.ringEntry 0 5).slot 0).gpend &&
      (5#32 &&& ~~~ (1#32 <<< meBit 0 0)) != 0) = true := by decide +kernel

/-- A copy of 64 bytes. -/
def tCopy : List Word := recOf 8 [(0, 0x20000), (64, 0x21000), (192, 64)]
theorem test_w_engine_forms : (let s := tLoft 0 tCopy (tS [(1, lo 0)] t0)
    let ix := recOf 8 [(0, 0x20000), (64, 0x21000), (192, 64), (128, 0x22000), (224, 2 ^ 24)]
    let pg := recOf 8 [(0, 0x20000), (192, 4096)]
    let hd := recOf 8 [(0, 2 ^ 44), (64, 0x21000), (192, 64), (448, 1)]
    let sys := tSys [(rDOMAIN, 4)] t0
    okT (s.readTable (s.src (.reg 1)) 64 8) (fun b t => b == tCopy && !copyBlockBad b && cbCount b == 0 && cbIdx b == 0 && !cbSh b && !cbDh b &&
        t.handleBad t.cur.kid (cbSrc hd) 64 false) && cbSh hd && !copyBlockBad hd && !copyBlockBad ix && !indexBad ix && !pagesBad pg && copyBlockBad [] && sys.levelSys &&
      !t0.levelSys && !haloBad (recOf 8 [(0, 0x20000), (64, 0x21000), (384, 65536), (416, 65536), (483, 1)]) &&
      !reduceBad (recOf 8 [(0, 0x20000), (64, 0x21000), (448, 2 ^ 24), (492, 5)])) = true := by decide +kernel

/-- A valid launch block of one member. -/
def tLb (join state : Nat) : List Word := recOf 16 [(64, 0x10000), (352, 1), (640, join), (656, state)]
theorem test_w_task_forms : (let s := tMem 0x30000 (tLb 1 0) (tLoft 0 [0x30000, 0x30080] (tS [(1, lo 0), (2, 0x30000)] (tMem1 tMember)))
    okT (s.readTable (s.src (.reg 1)) 8 2) (fun ws _ => !ws.any badEntry) && badEntry 0x30040 && badEntry 0x0100000000000000 && s.cur.member == some tMember &&
      tMember.parm.toNat % 8 == 0 && decide (tMember.parm.toNat + 8 * 63 < 2 ^ 56) && (match s.readVa (tMember.parm.toNat + 8) 8 0 with | (.ok _ _, _) => true | _ => false) &&
      !(tUser s).cur.super && s.cur.super && s.asked == none && (s.src (.reg 2)).toNat % 128 == 0 && decide ((s.src (.reg 2)).toNat < loftBase) &&
      !lbInvalid (tLb 1 0) && decide (lbStateCode (tLb 0 9) ≤ 9) && !s.cur.unperformed &&
      (match s.locate .write 0x30050 0 3 with | (.ok p, u) => u.lineError p == none | _ => false) &&
      (tCtx (fun c => { c with asks := [⟨0, 1, true⟩] }) s).asked == some true && (tCtx (fun c => { c with asks := [⟨0, 1, false⟩] }) s).asked == some false &&
      wordState (wordAt (tLb 1 0) 10) == 0 && wordJoin (wordAt (tLb 1 0) 10) != 0 && wordState (wordAt (tLb 0 9) 10) == 9) = true := by decide +kernel

theorem test_w_step_reuse : (let m := { tMember with key := some 5, lb := 0x30000 }
    let s := tLoft 0 (tLb 0 0) (tS [(1, 0x30000), (2, 0xFFFFF), (3, 0x100000), (4, lo 0)] (tMem1 m))
    let b := { t0 with mem := bsetN t0.mem (t0.ssqBlock 33) [2] }
    s.asked == none && b.swren && !s.swren && decide ((s.src (.reg 2)).toNat < 2 ^ 20) && decide (2 ^ 20 ≤ (s.src (.reg 3)).toNat) && decide (s.cur.region.marks < 16) &&
      (tCtx (fun c => { c with region := { c.region with marks := 16 } }) s).cur.region.marks == 16 && (s.src (.reg 1)).toNat == m.lb && m.key.isSome &&
      s.src (.reg 2) != BitVec.ofNat 64 m.lb &&
      okT (s.readTable (s.src (.reg 4)) 128 16) (fun ws t => !lbInvalid ws && t.keyWay (lbQf ws) (lbKey ws) == none) && lbInvalid []) = true := by decide +kernel

theorem test_w_guest_forms : (let w := recOf 8 [(0, 0x500000), (256, 1), (312, 4), (320, 1)]
    let s := { tLoft 0 [1] (tS [(1, lo 0), (2, 6), (3, 65)] t0) with mem := bsetN t0.mem (t0.config.gqtab + 64 * 3) (by8 w) }
    let g := s.guestWords 3
    let x := fun (st : TokenState) => tTok st (.guest 3)
    gqEn g && gqKid g == s.cur.kid && !gqEn (s.guestWords 2) && gqKid (s.guestWords 2) != s.cur.kid && !(tUser s).cur.super && s.guest.breach == none &&
      { s.guest with breach := some 1 }.breach.isSome && okT (s.readTable (s.src (.reg 1)) 64 8) (fun _ _ => true) && !(s.guestQueue 3).paused && s.asked == none &&
      (s.guestQueue 3).gpre == [] && !s.cur.region.posts 5 && (s.cur.tokens[(5 : Fin 64)]).state == .idle && ((x .pending).cur.tokens[(5 : Fin 64)]).kind == .guest 3 &&
      ((x (.done .ok ⟨0, 0⟩)).cur.tokens[(5 : Fin 64)]).state == .done .ok ⟨0, 0⟩ && (t0.cur.tokens[(5 : Fin 64)]).kind != .guest 3 && s.src (.reg 0) == 0 &&
      s.src (.reg 2) == BitVec.ofNat 64 ((5 : Fin 64).val + 1) && decide (64 < (s.src (.reg 3)).toNat) &&
      (tCtx (fun c => { c with asks := [⟨0, 1, true⟩] }) s).asked.isSome) = true := by decide +kernel

theorem test_w_system_forms : (let s := tS [(1, 5), (2, 6)] (tV [(1, 7)] t0)
    s.src (.reg 1) != s.src (.reg 2) && s.getV 0 != s.getV 1 && s.cur.super && (rSIGREG ∉ [rSBCHK, rFPMODE, rFPFLAGS, rRNGSEED, rMAXMAG]) && rTVEC != rREGENT) = true := by
  decide +kernel

/-! ### Privileged slots, nodes and contexts -/

theorem test_w_privileged : (let s := tLoft 0 [1, 0xE000] (tS [(1, 0x40000), (2, 1), (3, lo 0), (4, 255), (5, 0x1000), (6, 0x101)] t0)
    let y := s.modCtx 0 1 fun c => { c with state := .yielded }
    let kid := tLoft 0 (recOf 8 [(64, 0x200000), (128, 0x300000), (192, 7), (256, 5)]) s
    !(tUser s).cur.super && s.cur.super && s.src (.reg 2) == BitVec.ofNat 64 (1 : Fin 4).val && (s.src (.reg 1)).toNat % 8192 == 0 &&
      decide ((s.src (.reg 1)).toNat + 4096 < loftBase) && (match y.locate .write 0x40000 0 1 with | (.ok _, t) => (t.ctxAt 0 1).state == .yielded | _ => false) &&
      (y.ctxAt 0 1).save == none && (y.core 0).lastSave == none && (s.ctxAt 0 1).state == .free && decide ((s.src (.reg 4)).toNat < 256) && s.engineIdle 0 &&
      okT (s.readTable (s.src (.reg 3)) 64 1) (fun h t => (wordAt h 0).toNat == 1 &&
        (match t.readVa ((s.src (.reg 3)).toNat % 2 ^ 56 + 8) 2 0 with | (.ok bs _, _) => !routineOk (halves bs) | _ => false)) && routineOk [0xE000, 0x0000] &&
      (s.src (.reg 5)).toNat % 4096 == 0 && decide ((s.src (.reg 6)).toNat < 2 ^ 32) && (s.src (.reg 6)).toNat / 256 != 0 && decide (0 < (s.src (.reg 4)).toNat) &&
      s.asked == none && okT (kid.readTable (s.src (.reg 3)) 64 8) (fun w t => !kidInvalid w && !kdKeep w && (t.kidEntry 255).state != .live)) = true := by
  decide +kernel

def tSsq (f : Ssq → Ssq) (s : State) : State := { s with ssq := f { s.ssq with kid := 1, cur := 0x20000 } }
def tQdesc : List Word := recOf 8 [(0, 1), (128, 1), (192, 1)]
theorem test_w_nodes : (let s := tSsq id t0
    let n := tMem 0x30000 (tLb 0 0) (tSsq (fun q => { q with step := q.step.set 1 5, sched := 0x20000 }) t0)
    let o := { n with mem := bsetN n.mem (n.config.qtab + 64 * 9) (by8 tQdesc) }
    let l := fun (st : Nat) => { tMem 0x30000 (tLb 1 st) t0 with ssq := { t0.ssq with kid := 1, launch := [(0x30000, 3)] } }
    let block := fun (xs : List (Nat × Nat)) (s : State) => { s with mem := bsetN s.mem s.config.sqblk (by8 (recOf 8 xs)) }
    let go := block [(0, 0x20000), (128, 4), (160, 4), (256, 1), (264, 1)] s
    let bad := block [(0, 0x20001), (256, 1), (264, 1)] s
    let ring := { s with mem := bsetN s.mem (s.ringDesc 3) (by8 (recOf 8 [(0, 1), (318, 2), (384, 4), (448, 0x600000)])) }
    decide (s.ssq.low 1 ≤ (s.ssq.low 0 + 1) % 2 ^ 32) && decide ((n.ssq.low 0 + 1) % 2 ^ 32 < n.ssq.low 1) &&
      (match n.scheduleRow 1 with | .ok _ => true | .error _ => false) && (match n.vaWord n.ssqWho 0x30040 with | .ok _ => true | .error _ => false) &&
      decide (n.ssq.launch.length < 1024) && (match o.vaWords o.ssqWho 0x30000 16 with | .ok ws => ws == tLb 0 0 && !lbInvalid ws | .error _ => false) &&
      wordState (wordAt (tLb 0 9) 10) == 9 && wordJoin (wordAt (tLb 0 0) 10) == 0 && (match o.openQueue 0 9 with
        | some u => (match u.vaWrite u.ssqWho 0x30050 (leBytes 8 (joinWord 0 0 2).toNat) with | .ok _ => true | .error _ => false) | none => false) &&
      (match (l 7).waitkTest 0 (l 7).ssq.launch with | .ok b => b | .error _ => false) && (match (l 6).waitkTest 8 (l 6).ssq.launch with | .ok b => !b | .error _ => false) &&
      !s.postWaits 3 && ring.postWaits 3 && s.granger.state == .ready && s.ssq.writes == [] &&
      (let w := go.physWords go.config.sqblk 8; recBits w 264 264 == 1 && !go.ssqBlockBad w && decide (recBits w 159 128 ≤ recBits w 191 160)) &&
      bad.ssqBlockBad (bad.physWords bad.config.sqblk 8) && recBits (s.physWords s.config.sqblk 8) 264 264 == 0 && s.ssq.state == .idle && !s.ssq.second &&
      s.ssq.waiting == none) = true := by decide +kernel

/-- Slot 1 of core 0 in a state. -/
def tSlot1 (f : Context → Context) : State := t0.modCtx 0 1 f
theorem test_w_context_issue : (let f : Fetched := ⟨none, [⟨true, 0, .add 1 (.reg 2) (.reg 3)⟩], 1, false, false⟩
    let g : Fetched := ⟨none, [⟨true, 5, .add 1 (.reg 2) (.reg 3)⟩], 1, false, false⟩
    let s := tIssue (fun i => { i with fetched := some f }) t0
    let n := tRegs (fun r => { r with p := r.p.set 5 false }) (tIssue (fun i => { i with fetched := some g }) t0)
    let u := fun (s : State) (f : Fetched) => (s.modCtx 0 0 fun c => c.settle s.now).frameIssue 0 0 f
    let c := s.ctxAt 0 0
    (s.core 0).running == some 0 && s.issue.fetched == some f && c.state == .running && decide (c.notBefore ≤ s.now) && decide ((s.core 0).bubble ≤ s.now) &&
      !c.quiet && bcFields f.slots == (0, 0, false, 0, false, 0) && !(u s f).nullified f.slots && (u n g).nullified g.slots &&
      c.lastIssue == none && !(u s f).mustWait f.slots && (u s f).getSys rSBCHK != 1 && !c.preHit && decide (c.running ≤ ((u s f).getSys rPREBOUND).toNat) &&
      (u s f).recorded f.slots == none && (u s f).regill f.slots == none && { f with trap := some ⟨cPFAULT, 0⟩ }.trap.isSome) = true := by decide +kernel

theorem test_w_context_events : (let sel := tCore (fun c => { c with running := none }) (tSlot1 fun c => { c with state := .ready })
    let cl := fun (x : Closing) => tCtx (fun c => { c with state := .closing, closing := some x }) t0
    let lo := fun (f : Context → Context) => tSlot1 fun c => f { c with state := .loading }
    let ex := fun (m : Option Member) => tCtx (fun c => { c with state := .exiting, member := m }) t0
    (sel.core 0).running == none && sel.candidates 0 == [1] && (sel.selectSlot 0 (sel.candidates 0)).isSome &&
      ((tSlot1 fun c => { c with state := .stalled }).ctxAt 0 1).state == .stalled && t0.issue.outcome == .run &&
      ((lo fun c => { c with pc := 64 }).ctxAt 0 1).pc != 0 && decide (((lo id).ctxAt 0 1).loadAt ≤ 0) &&
      ((lo fun c => { c with restore := true }).ctxAt 0 1).restore && ((lo id).ctxAt 0 1).pc == 0 &&
      ((lo fun c => { c with member := some { tMember with trip := 1 } }).ctxAt 0 1).member == some { tMember with trip := 1 } &&
      { tMember with trip := 1 }.sect == .prologue && { tMember with trip := 1 }.trip != 0 &&
      decide ((((tCtx (fun c => { c with running := 65537 }) t0).ctxAt 0 0).sysv rPREBOUND).toNat < 65537) && ((cl .rfe).ctxAt 0 0).state == .closing &&
      (cl .halt).shadowDone 0 0 && (cl (.exit [])).acceptReady 0 0 && ((cl .sectionEnd).ctxAt 0 0).commitError == none &&
      (tCtx (fun c => { c with quiet := true }) t0).quietTest 0 0 == .boundary && (t0.ctxAt 0 0).save == none && (t0.ctxAt 0 0).state == .running &&
      ((ex none).ctxAt 0 0).handedOff && ((ex none).ctxAt 0 0).member == none && ((ex (some tMember)).ctxAt 0 0).member == some tMember && tMember.names == [] &&
      { tMember with names := [0x30080] }.names != [] && !(ex (some tMember)).namesPending 0 (.exit 0 0) && !(ex (some tMember)).marksPending 0 &&
      (ex (some tMember)).findRun 0 7 == none) = true := by decide +kernel

def tPhys (a : Nat) : Trans := ⟨.phys, a, 1, false, false, false, false, 0⟩
def tStore : StoreEntry := ⟨tPhys 0x21000, 0x21, 1, 0xFF, 0x5A, false, [], none, true, 0, []⟩
def tAtomic : AtomicReq := ⟨1, false, .field, tPhys 0x22000, 0x22, 1, 3, 1, 0⟩
theorem test_w_access_events : (let o := fun (h : List Handed) => tCtx (fun c => { c with outbox := h }) t0
    let a := o [.atomic tAtomic]
    let u := (a.modCtx 0 0 fun c => { c.spent with outbox := [] }).release 0 tAtomic.scope
    let bad := { u with poison := [0x22000 / 64] }
    let r := tCtx (fun c => { c with atomics := [(3, some 9)] }) t0
    let w := tW (tWin .active [])
    let x := (w.ctxAt 0 0).windrows[(3 : Fin 16)]
    let m := tCore (fun c => { c with move := some ⟨true, 7, 0⟩ }) t0
    ((o [.store tStore]).ctxAt 0 0).outbox == [.store tStore] && tStore.strl == none && tStore.mask != 0 && tStore.target.place == .phys &&
      (let d := o [.store tStore]
       ((d.setKid 1 { d.kidEntry 1 with state := .dead }).kidEntry 1).state == .dead && (d.kidEntry 1).state != .dead) && !((o []).ctxAt 0 0).returning && !((o []).ctxAt 0 0).pushesOut &&
      ((o [.release .field]).ctxAt 0 0).outbox == [.release .field] && (a.ctxAt 0 0).outbox == [.atomic tAtomic] && u.atomicError tAtomic == none &&
      (bad.atomicError tAtomic).isSome && (r.ctxAt 0 0).atomics == [(3, some 9)] && !((r.ctxAt 0 0).sysv rINJECT).getLsbD 63 && decide (0x20000 < loftBase) &&
      (t0.core 0).translates 1 && (t0.kidEntry 1).state == .live && (match t0.walk 1 0x20000 with | .ok _ => true | .error _ => false) &&
      (match t0.walk 1 0x400000000 with | .ok _ => false | .error _ => true) && x.width == some 32 && (w.ctxAt 0 0).resident && x.state == .active && !x.desc.dir &&
      decide (x.buf.length < x.desc.la.toNat) && decide (x.n + x.buf.length < x.desc.total) && (w.fetchElem 0 0 3 (x.ahead x.buf.length) 32).isSome &&
      ((tW (tWin .active [tElem false none])).ctxAt 0 0).windrows[(3 : Fin 16)].buf == [] ++ tElem false none :: [] &&
      (m.core 0).move == some ⟨true, 7, 0⟩ && decide (0 ≤ m.now)) = true := by decide +kernel

/-! ### Engines, base dies and Threshers -/

def tCmd8 (k : CmdKind) (b : List Word) : EngineCmd := ⟨k, 5, false, true, .pkg, 1, true, none, b, 0⟩
def tRun (k : CmdKind) (b : List Word) : EngineRun := ⟨9, tCmd8 k b, 0, 1, 3, 2, 0, none, none, false, false, 0⟩
def tEng (r : EngineRun) (s : State) : State := s.modField 0 fun f => { f with engines := [r] }
theorem test_w_engine_events : (let ix := recOf 8 [(0, 0x20000), (64, 0x21000), (192, 64), (128, 0x22000), (224, 2)]
    let hd := recOf 8 [(0, 2 ^ 44), (64, 0x21000), (192, 64), (448, 1)]
    let hb := recOf 8 [(0, 0x20000), (64, 0x21000), (384, 8), (416, 2), (352, 8), (320, 8), (483, 1)]
    let rb := recOf 8 [(0, 0x20000), (64, 0x21000), (448, 2), (492, 3)]
    let c := tEng (tRun .copy tCopy) t0
    let g := tEng (tRun .gath ix) t0
    let h := tEng { tRun .halo hb with posted := true } t0
    let r := tEng { tRun .red rb with posted := true } t0
    let y := fun (k : CmdKind) (f e : Bool) => (⟨5, tCmd8 k (recOf 8 [(0, 0x20000), (384, 256), (416, 3)]), 1, 0, f, e⟩ : Stream)
    let z := fun (s : Stream) (e : RingEntry → RingEntry) => (tRing id e t0).modSheaf 0 fun x => { x with streams := [s] }
    let rows := fun (s : State) => (s.modEngine 0 9 fun x => { x with matched := true })
    let p := (tRing id (fun e => { e with desc := { e.desc with mcast := true }, producer := some (0, 0), slots := [(0, { RingSlot.reset with state := .filling })] }) t0)
    (c.engineRun 0 9).isSome && cbSh tCopy == false && cbDh tCopy == false && (tRun .copy tCopy).status == none && (match g.indexOf (tCmd8 .gath ix) 0 with
        | .ok x => x == 0 | .error _ => false) && (match c.vaRead (tCmd8 .copy tCopy).who 0x20000 64 with | .ok _ => true | .error _ => false) &&
      (match c.vaRead (tCmd8 .copy tCopy).who 0x400000000 64 with | .ok _ => false | .error _ => true) &&
      (match c.engineWrite 0 1 (tCmd8 .copy tCopy) 0x21000 [1, 2] with | .ok _ => true | .error _ => false) && (c.operand 1 (cbSrc hd) (cbSh hd)) == none &&
      h.oldestExchange .halo 9 == some (0, { tRun .halo hb with posted := true }) && (match (rows h).readRows (tCmd8 .halo hb) (gbSrc hb) (hbSstr hb) (hbLen hb) (hbCount hb) with
        | .ok _ => (State.writeRows 0 1 (tCmd8 .halo hb) (gbDst hb) (hbDstr hb) (hbLen hb) (hbCount hb) (List.replicate 16 1) (rows h)).2 == none
        | .error _ => false) && r.oldestExchange .red 9 == some (0, { tRun .red rb with posted := true }) && (tRun .red rb).npkg != 0 && [[1, 2]].length + 1 == (tRun .red rb).npkg &&
      ([[1, 2]] : List (List (BitVec 32))).all (fun p => p.length == rbCount rb) &&
      (match (rows r).vaRead (tCmd8 .red rb).who (gbSrc rb) 8 with | .ok _ => true | .error _ => false) &&
      (let s := z (y .subs false false) id
       s.streamOn 0 5 == some (y .subs false false) && (s.ringEntry 0 5).freeFor s.now 1 && (s.ringEntry 0 5).next == 1 && decide (0 < sbCount (y .subs false false).cmd.block) &&
        (match s.vaRead (tCmd8 .subs []).who (y .subs false false).tileAddr 256 with | .ok _ => true | .error _ => false)) &&
      (z (y .subs true false) id).streamOn 0 5 == some (y .subs true false) && ((z (y .subs false true) id).ringEntry 0 5).cmask != 0 &&
      (let s := z (y .coll false false) fun e => { e with producer := some (0, 0), slots := [(0, { RingSlot.reset with state := .full, gpend := true })] }
       let e := s.ringEntry 0 5
       e.oldest == 0 && (e.slot 0).state == .full && (e.slot 0).gpend && !(e.slot 0).eos && decide (0 + 1 < sbCount (y .coll false false).cmd.block) &&
        (match s.engineWrite 0 1 (y .coll false false).cmd (y .coll false false).tileAddr (s.loftRead 0 (e.desc.slotOff 0) 256) with | .ok _ => true | .error _ => false)) &&
      (p.ringEntry 0 5).desc.mcast && ((p.ringEntry 0 5).slot 0).state == .filling && ((p.ringEntry 0 5).slot 0).tag == 0 && (p.ringEntry 0 5).ready &&
      !(p.ringEntry 0 5).desc.cons && (p.ringEntry 0 5).producer == some (0, 0)) = true := by decide +kernel

def tLine : CacheLine := ⟨0x21000 / 64, 1, 7, 0xFF, tPhys 0x21000, []⟩
theorem test_w_base_die : (let n := stackOfPa 0x21000
    let l := t0.modField 0 fun f => { f with l2 := [tLine] }
    let w := fun (f : Stack → Stack) => t0.modStack n f
    let q := w fun x => { x with writes := [⟨5, 1, 1, 7, false, false⟩], replies := [⟨3, 5, [], 1, 1, false, false⟩] }
    let r := w fun x => { x with replies := [⟨3, 5, [], 0, 1, false, false⟩] }
    let a := tCtx (fun c => { c with outbox := [.atomic tAtomic] }) t0
    let t := (a.modCtx 0 0 fun c => { c.spent with outbox := c.outbox.drop 1 }).release 0 tAtomic.scope
    t0.mayPacket n 0x21000 4095 64 && t0.mayPacket n 0x21000 0 256 && findLine (0x21000 / 64) 1 (l.field (0x21000 / 0x10000000000)).l2 == some tLine &&
      (q.stack n).writes == ⟨5, 1, 1, 7, false, false⟩ :: [] && (r.stack n).replies == [⟨3, 5, [], 0, 1, false, false⟩] && (⟨3, 5, [], 0, 1, false, false⟩ : Reply).left == 0 &&
      a.atomicSender 0x22000 1 1 false 1 0 == some (0, 0, tAtomic) && a.mayPacket (stackOfPa 0x22000) 0x22000 7 tAtomic.size && !a.inL1 tAtomic &&
      a.atomicError tAtomic == none && findLine (0x22000 / 64) 1 (t.field 0).l2 == none && (t.stack (stackOfPa 0x22000)).writes == [] &&
      decide (2 ^ t0.config.winlg ≤ (tget ⟨[], [], 0⟩ ((w fun x => { x with slices := [(2, ⟨[], [1], 2 ^ 20⟩)] }).stack n).slices 2).misses) &&
      !(t0.stack n).t1 && decide (t0.config.t1 < 86) && ((w fun x => { x with t1 := true }).stack n).t1 && decide (81 < t0.config.t1 - 3) && !(t0.stack n).t2 &&
      decide (t0.config.t2 < 96) && ((w fun x => { x with t2 := true }).stack n).t2 && decide (91 < t0.config.t2 - 3) && !(t0.stack n).t3) = true := by decide +kernel

def tHeld (st : LbState) (ws : List Word) : HeldLb := { (default : HeldLb) with run := 7, addr := 0x30000, kid := 1, queue := 9, words := ws, state := st }
/-- Queue 9 of field 0 in a state, with launch blocks on chip. -/
def tQ (st : QueueState) (ls : List HeldLb) (s : State) : State :=
  s.modField 0 fun f => { f with queues := [(9, { Queue.reset with state := st, desc := tQdesc })], lbs := ls }
def tReuseLb : List Word := recOf 16 [(64, 0x10000), (352, 1), (376, 1), (576, 4), (596, 2)]
theorem test_w_thresher_queues : (let nm := (tMem 0x30000 (tLb 1 1) t0).modField 0 fun f => { f with namings := [⟨0x30000, 1, 9, 0x40000, .skip 0, 2⟩] }
    let ar := fun (ws : List Word) (st : QueueState) (f : Queue → Queue) =>
      ((tQ st [] t0).modField 0 fun x => { x with arrivals := [⟨0x30000, ws, 1, 9, .skip 0⟩] }).modQueue 0 9 f
    let sp := ar (tLb 0 2) .spill fun q => { q with ringIn := 1, desc := recOf 8 [(0, 1), (128, 1), (192, 16), (320, 0x50000), (384, 4)] }
    let full := (tQ .open_ [tHeld .blocked []] t0).modField 0 fun f => { f with stuck := 4096, arrivals := [⟨0x30000, [], 1, 9, .skip 0⟩] }
    (match nm.vaWords (superWho 1) 0x30000 16 with | .ok ws => namedWord (wordAt ws 10) == some (joinWord (wordAt ws 10) 0 2, true) &&
        (match nm.vaWrite (superWho 1) 0x30050 (leBytes 8 0) with | .ok _ => true | .error _ => false) | .error _ => false) &&
      wordState 0x20001 == 2 && wordJoin 0x10002 == 2 && wordState 0x10001 == 1 && (ar (tLb 0 2) .open_ id).nextArrival 0 == some ⟨0x30000, tLb 0 2, 1, 9, .skip 0⟩ &&
      !lbInvalid (tLb 0 2) && lbInvalid [] && (ar [] .open_ id).nextArrival 0 == some ⟨0x30000, [], 1, 9, .skip 0⟩ && (sp.queue 0 9).ringCount == 1 &&
      (match sp.spillOne 0 9 0x30000 (tLb 0 2) with | .ok _ => true | .error _ => false) && sp.nextArrival 0 == some ⟨0x30000, tLb 0 2, 1, 9, .skip 0⟩ &&
      (((tQ .open_ [tHeld .enqueued (tLb 0 2)] t0).field 0).lbs.find? fun l => l.queue == 9 && l.state == .enqueued).isSome &&
      full.smallestStuck 0 (full.stuckQueues 0) == some 9 && decide (0 < full.pool) && ((tQ .held [] t0).queue 0 9).state == .held &&
      decide (((tQ .held [] t0).queue 0 9).retryAt ≤ 0) && (tQ .held [] t0).waiting 0 9 == 0) = true := by decide +kernel

theorem test_w_host_rings : (let r : HostRecord := ⟨3, List.replicate 8 0⟩
    let s := { t0 with mem := bsetN t0.mem (t0.ringDesc 3) (by8 (recOf 8 [(0, 1), (318, 2), (331, 1), (448, 0x600000)])), rings := [(3, ⟨1, 0⟩)], now := 2250 }
    takeRecord (fun _ => false) [r] == some (r, []) && hrCoalt (s.ringWords 3) == 1 && (s.hostRing 3).pending != 0 &&
      Nat.ble ((s.hostRing 3).oldest + 2250) s.now) = true := by decide +kernel

theorem test_w_thresher_runs : (let rd := tQ .open_ [tHeld .blocked tReuseLb] (tCore (fun c => { c with running := none, ctx := (Core.reset false).ctx }) t0)
    let go := tQ .open_ [tHeld .blocked (tLb 0 3)] (tCore (fun c => { c with running := none, ctx := (Core.reset false).ctx }) t0)
    let u := fun (s : State) (x : BitVec 4 × Word) => s.modRun 0 7 fun l => { l with lreq := x.1, sysw := x.2, remote := decide (1 < x.2.toNat / 2 ^ 16 % 2 ^ 13), code := s.codeView }
    let mk := t0.modField 0 fun f => { f with marks := [⟨5, 0x3F800000, false, none, 0⟩] }
    let me := (tMem1 tMember).modField 0 fun f => { f with lbs := [tHeld .running []] }
    (match (rd.field 0).lbs.find? fun l => l.queue == 9 && rd.undecided l with | some l => rd.probe 0 l.words == none && (rd.chooseWay 0 (lbKey l.words)).isSome | none => false) &&
      ((go.field 0).lbs.find? fun l => l.queue == 9 && go.undecided l) == none && go.servedQueue 0 == some 9 && (match go.readyHead 0 9 with
        | some l => l.started == 0 && !lbGang l.words && (match go.dispatchCheck l with
          | .ok x => (State.dispatchTo 0 7 [(0, 0)] (u go x)).isSome && (match (u go x).findRun 0 7 with
            | some l' => l'.undispatched && l'.started == 0 && !lbDup l'.words && (u go x).takes l'.words 0 l'.home 0 0
            | none => false)
          | .error _ => false)
        | none => false) &&
      (mk.field 0).marks == [⟨5, 0x3F800000, false, none, 0⟩] && (me.ctxAt 0 0).member == some tMember && me.findRun 0 7 == some (tHeld .running []) &&
      !(tHeld .running []).remote) = true := by decide +kernel

/-- Queue 9's head waits for core 0, whose slots are taken; slot 0 holds a member of queue 8, of a lower rank. -/
theorem test_w_thresher_preempts : (let hi : List Word := recOf 8 [(0, 1), (128, 1), (137, 1), (152, 3), (192, 4)]
    let lo : List Word := recOf 8 [(0, 1), (128, 1), (192, 4), (400, 1), (448, 0x60000)]
    let lb := { tHeld .dispatched (recOf 16 [(64, 0x10000), (352, 2)]) with started := 1, home := some 0 }
    let m := { tMember with queue := 8, run := 3 }
    let mem0 := { t0.cur with member := some m }
    let rdy := fun (c : Context) => { c with state := .ready }
    let c := tCore (fun c => { c with ctx := ((((c.ctx.set 0 mem0).set 1 (rdy c.ctx[1])).set 2 (rdy c.ctx[2])).set 3 (rdy c.ctx[3])) }) t0
    let s := c.modField 0 fun f => { f with queues := [(8, { Queue.reset with state := .open_, desc := lo }), (9, { Queue.reset with state := .open_, desc := hi })], lbs := [lb] }
    s.starved 0 == some (3, 1) && chooseVictim (s.victims 0 3) == some (0, 0, 0, 1) && (s.ctxAt 0 0).member == some m && s.savesComing 0 == 0 &&
      s.freeImage 0 8 == some 0x60000 && (match s.queuePage (s.queue 0 8).who 0x60000 with
        | some (_, t) => (t.queuePage (s.queue 0 8).who 0x61000).isSome | none => false)) = true := by decide +kernel

/-! ### Links, the guest, the platform and the whole machine -/

def tLink (n : Nat) (f : Link → Link) : State := t0.modLink n f
theorem test_w_links : (let l := fun (st : LinkState) => tLink 7 fun l => { l with state := st }
    let t := fun (n a : Nat) => tLink n fun l => { l with state := .training, attempts := a }
    let d := tLink 7 fun l => { l with state := .draining, txSeq := 3 }
    let r := { l .down with routes := [(5 * 3 + 3, ⟨1, some 2, false⟩)] }
    (t0.linkAt 23).state == .down && ((t 7 0).linkAt 7).state == .training && ((t 7 1).linkAt 7).attempts == 1 && ((t 6 2).linkAt 6).attempts == 2 &&
      ((t 5 2).linkAt 5).attempts == 2 && t0.granger.state == .ready && ((l .active).linkAt 7).state == .active && ((l .degraded).linkAt 7).state == .degraded &&
      ((l .draining).linkAt 7).txAcked == ((l .draining).linkAt 7).txSeq && (d.linkAt 7).txAcked != (d.linkAt 7).txSeq && ((l .active).linkAt 7).rxSeq == 0 &&
      (r.linkAt (r.routeLink 3 3)).state == .down && (r.route 3 3).alt.isSome) = true := by decide +kernel

theorem test_w_guest_events : (let g : GuestPacket := ⟨3, 5, 1, List.replicate 8 0⟩
    let q := fun (pidx : Nat) => { tCtx (fun c => { c with outbox := [.effect (.guest g)] }) t0 with
      mem := bsetN t0.mem (t0.config.gqtab + 64 * 3) (by8 (recOf 8 [(0, 0x500000), (256, 1), (312, 4), (320, 1), (448, pidx)])) }
    let gq : GuestQueue := { (default : GuestQueue) with posted := [(0, 5)], gpre := [⟨0, [], 0, 0, 7⟩] }
    let w := { q 1 with guest := { t0.guest with queues := [(3, gq)], invs := [0] } }
    let late := { w with now := 45001 }
    let inv := { w with now := 22501 }
    ((q 0).ctxAt 0 0).outbox == [.effect (.guest g)] && !((q 0).ctxAt 0 0).returning && !((q 0).ctxAt 0 0).pushesOut && (q 0).guest.breach == none &&
      gqUsed ((q 0).guestWords 3) != 2 ^ gqLg ((q 0).guestWords 3) && gqUsed ((q 16).guestWords 3) == 2 ^ gqLg ((q 16).guestWords 3) &&
      ({ w with guest := { w.guest with breach := some 2 } }).guest.breach == some 2 && (w.guestQueue 3).posted.contains (0, 5) && !(w.guestQueue 3).posted.contains (0, 6) &&
      (w.guestQueue 3).gpre == [⟨0, [], 0, 0, 7⟩] && Nat.ble w.now 45000 && Nat.blt 45000 late.now && w.guest.invs == [0] &&
      Nat.blt 22500 inv.now && (w.guestQueue 3).posted.any (fun y => y.1 == 0) && (match w.translate (w.guestWho 3) .read 0x20000 with | .ok _ _ => true | _ => false) &&
      (match w.translate (w.guestWho 3) .write 0x400000000 with | .fault _ => true | _ => false)) = true := by decide +kernel

theorem test_w_platform : (let b := fun (f : Granger → Granger) => { State.reset with granger := f State.reset.granger }
    let r := fun (f : Granger → Granger) => { t0 with granger := f t0.granger }
    let up := { tLink hostLink fun l => { l with state := .active } with config := { t0.config with cxlbase := 0x100000000, cxllen := 0x100000000 } }
    let dev := fun (code : Nat) => r fun g => { g with device := some (BitVec.ofNat 64 code, 1) }
    State.reset.granger.state == .booting && !(b fun g => { g with imageA := false, imageB := false }).granger.imageB && (b fun g => { g with blob := false }).granger.imageA &&
      State.reset.granger.blob && !({ State.reset with config := { State.reset.config with magic := 0 } }).config.valid &&
      Nat.blt (t0.config.plim * [2001].length) [2001].sum && Nat.blt (100 * [1899].sum) (95 * t0.config.plim * [1899].length) && t0.granger.state == .ready &&
      (up.linkAt hostLink).up && up.hostRanges.any (within 0x100000000 64) && !(up.hostRanges.any (within 0x20000 64)) &&
      t0.paKind (64 * 0x800) == .hbm 0 && !(t0.coh.any fun x => x.line == 0x800 && x.lost) && ({ t0 with coh := [⟨0x800, some 2, false⟩] }).coh == [⟨0x800, some 2, false⟩] &&
      (r fun g => { g with rung := true }).granger.rung && t0.granger.device == none && (dev 3).granger.device == some (3, 1) && (3#64).toNat % 256 == 3 &&
      ((tLink leanTo fun l => { l with state := .quarantined }).linkAt leanTo).state == .quarantined) = true := by decide +kernel

/-- A kernel header in memory, with the device mailbox's operand naming it. -/
theorem test_w_device_requests : (let q := { t0 with granger := { t0.granger with device := some ((7 : BitVec 64), (1 : BitVec 8)) } }
    q.granger.device == some ((7 : BitVec 64), (1 : BitVec 8)) && (7#64).toNat % 256 == 7 && q.deviceOperand == BitVec.ofNat 64 (0 + 16 * 0 + 256 * (0 : Fin 64).val) &&
      (match t0.vaWords (superWho 1) 0x20000 8 with | .ok _ => true | .error _ => false)) = true := by decide +kernel

theorem test_w_traps : (let s := tUser (tSys [(rTVEC, 0x40), (rREGLIM, 3)] t0)
    let ovr := tSys [(rREGCNT, 3)] s
    let c := s.cur.settle (s.now + 1)
    let o := ovr.cur.settle (ovr.now + 1)
    let cnt := fun (c : Context) => (if c.sysv rREGCNT < 255#64 then c.sysv rREGCNT + 1 else 255 : Word)
    cALIGN != cMXMIS && cALIGN != cYOKEMIS && cALIGN != cUCE && !c.super && cALIGN != cSYSCALL && decide (cnt c ≤ c.sysv rREGLIM) && !c.exl && c.sysv rTVEC != 0 &&
      decide (o.sysv rREGLIM < cnt o) && (t0.cur.settle 1).sysv rTVEC == 0 && t0.cur.outbox == [] && t0.cur.atomics == [] && t0.cur.flights == [] &&
      (tCtx (fun c => { c with outbox := [.release .pkg] }) t0).cur.outbox != []) = true := by decide +kernel

theorem test_w_translation : (let w := superWho 1
    (match t0.walk 1 0x20000 with | .ok e => (e.size == 0x400000000 && pteW e.leaf) | .error _ => false) &&
      (match t0.translate w .write 0x3FFFFFFFF with | .ok _ _ => true | _ => false) && decide (2 ^ 56 ≤ 2 ^ 56) && decide (loftBase ≤ loftBase) &&
      (t0.kidEntry 2).state != .live && (match t0.walk 1 0x400000000 with | .ok _ => false | .error _ => true) &&
      (match ({ t0 with mem := bsetN t0.mem 0x104000 (leBytes 8 0x0000080000000002) }).walk 1 0 with | .ok e => (!pteW e.leaf && !pteX e.leaf && !pteU e.leaf) | .error _ => false)) = true := by decide +kernel

theorem test_w_landing : (let s := tCtx (fun c => { c with flights := [tFlight] }) t0
    (RegVal.s 5 9).reg == some (.s 5) && Nat.blt 0 (s.now + 4) && s.cur.inFlight (.s 5) && s.slotReads (.add 1 (.reg 5) (.reg 0)) == [.s 5, .s 0] &&
      s.active [⟨true, 0, .add 1 (.reg 5) (.reg 0)⟩] == [(0, ⟨true, 0, .add 1 (.reg 5) (.reg 0)⟩)]) = true := by decide +kernel

theorem test_w_memory_step : Memory.wf t0.mem = true ∧ (∃ t, step { t0 with turn := some .tick } = .next t) := ⟨by decide +kernel, ⟨_, rfl⟩⟩

theorem test_w_coherent : (sheafOf 1 == sheafOf 0 && (0xFF#64).getLsbD 7 && t0.paKind 0x21000 == .hbm 0 && t0.paKind 0x10000021000 == .hbm 1 && (t0.kidEntry 1).state != .dead &&
    !(t0.coh.any fun z => z.line == 0x21000 / 64 && z.lost) && 0x21040 / 64 != 0x21000 / 64) = true := by decide +kernel

theorem test_w_reuse_ways : (let e := fun (st : ReuseState) (k : Nat) (a : BitVec 2) => ({ ReuseEntry.reset with state := st, key := BitVec.ofNat 32 k, age := a } : ReuseEntry)
    let key := lbKey tReuseLb
    let set := reuseSet key
    let s := fun (es : Fin 4 → ReuseEntry) => (tQ .open_ [tHeld .blocked tReuseLb] t0).modField 0 fun f =>
      { f with reuse := [(4 * set, es 0), (4 * set + 1, es 1), (4 * set + 2, es 2), (4 * set + 3, es 3)] }
    let old := s fun w => e .valid (w.val + 100) (BitVec.ofNat 2 w.val)
    let mine := s fun w => if w = 2 then e .valid key.toNat 0 else e .pending (w.val + 100) 0
    let busy := s fun w => e .pending (w.val + 100) 0
    old.findRun 0 7 == some (tHeld .blocked tReuseLb) && (tHeld .blocked tReuseLb).entry == none &&
      (List.finRange 4).all (fun w => (old.reuseAt 0 set w).state == .valid && (old.reuseAt 0 set w).key != key && (w == 3 || decide ((old.reuseAt 0 set w).age < (old.reuseAt 0 set 3).age))) &&
      (mine.reuseAt 0 set 2).key == key && (mine.reuseAt 0 set 2).state == .valid && (List.finRange 4).all (fun w => (busy.reuseAt 0 set w).state == .pending) &&
      (t0.reuseAt 0 set 0).state == .invalid) = true := by decide +kernel


/-! ### Further clauses: what waits, what stops and what fails -/

theorem test_w_windrow_atomics : (let s := (tW (tWin .active [tElem true none])).modCur fun c => { c with atomics := [(3, none)] }
    !((s.win 3).misused false 256) && s.cur.atomics != [] && s.issue.elems == [] && (tW (tWin .active [tElem true none])).cur.atomics == []) = true := by decide +kernel

/-- A context that has a release or a ring's effect on its way. -/
theorem test_w_rendezvous_waits : (let o := fun (h : List Handed) => tCtx (fun c => { c with outbox := h }) t0
    let u := o [.release .pkg]
    let e := o [.effect (.publish 2 0 1 5 false)]
    let x := tTok (.done .fault ⟨cALIGN, 7⟩) .copy
    let m := tMem1 { tMember with seenGen := tMember.seenGen.set 3 1 }
    let f := tSys [(rDOMAIN, BitVec.ofNat 64 (2 ^ 42))] (tCtx (fun c => { c with pos := c.pos.set 2 1 }) t0)
    u.cur.unsettled && u.cur.unperformed && u.cur.cnt[(0 : Fin 16)] == u.cur.pos[(0 : Fin 16)] && u.asked == none && u.cur.arr == u.gph &&
      !e.cur.unperformed && e.cur.unsettled && e.cur.effectsOut == [.publish 2 0 1 5 false] && (Effect.publish 2 0 1 5 false).ring == some 5 &&
      (x.cur.tokens[(5 : Fin 64)]).state == .done .fault ⟨cALIGN, 7⟩ && (x.cur.tokens[(5 : Fin 64)]).kind == .copy &&
      (match m.cur.member with | some m => m.seenGen[(3 : Fin 16)] != 0 | none => false) && m.cur.cnt[(3 : Fin 16)] == 0 && !m.flt &&
      f.flt && f.cur.cnt[(2 : Fin 16)] != f.cur.pos[(2 : Fin 16)] && f.asked == none) = true := by decide +kernel

theorem test_w_gphase : (let u := t0.phaseArrival t0.gph
    let m := tMem1 { tMember with seen := 1, seenGen := tMember.seenGen }
    let f := tSys [(rDOMAIN, BitVec.ofNat 64 (2 ^ 42))] t0
    let v := m.phaseArrival m.gph
    t0.cur.arr == t0.gph && !t0.cur.unsettled && t0.cur.member == none && !u.flt && (f.phaseArrival f.gph).flt && m.cur.arr == m.gph && !v.flt &&
      ((tMem1 tMember).phaseArrival 0).phaseSeen == 0 && (tCtx (fun c => { c with arr := 1 }) f).flt && (tCtx (fun c => { c with arr := 1 }) m).phaseSeen != m.gph &&
      (tCtx (fun c => { c with arr := 1 }) (tMem1 tMember)).phaseSeen == 0) = true := by decide +kernel

/-- Banks with a command pending, an error, a mismatch of a compare and a poisoned cell, and a write windrow that a drain's push has to wait for. -/
theorem test_w_matrix_errors : (let p := tCtx (fun c => { c with region := { c.region with deferred := [.mzero 0] } }) (tBank id)
    let e := tBank fun b => { b with state := .fault, error := some ⟨cRINGERR, 0⟩ }
    let c := tBank fun b => { b with compare := true, cells := [(0, 1)] }
    let u := tBank fun b => { b with poisoned := [3] }
    let w := (tLoft 0 [] (tBank id)).setWin 4 { tOut with width := some (tDesc.bytes 1024) }
    let full := w.setWin 4 { w.win 4 with state := .busy }
    p.bankPending 0 && (e.bank 0).error == some ⟨cRINGERR, 0⟩ && !e.bankBusy 0 && !e.bankPending 0 && (c.bank 0).compare && (c.bank 0).state == .live && c.bankBusy 0 == false &&
      (c.bank 0).mismatch == some 0 && decide (3 ∈ (u.bank 0).drainCells (drainCount 0)) && (u.bank 0).poisoned.contains 3 && (w.win 4).misused true 1024 == false && (w.win 3).misused true 1024 &&
      w.pushStops (.win 4) == none && (full.pushStops (.win 4)).isSome && tget [] (tBank id).myCore.store 9 == [] && !mpValid 1) = true := by decide +kernel

/-- The ring's slot is EOS, small or of another sparse count; or another register names no binding of the E role. -/
theorem test_w_micro_slots : (let m := tCall fun m => { m with cmd := { m.cmd with op := .call 0 (tParam + BitVec.ofNat 64 (2 * 2 ^ 38)) }, curA := some tSlot }
    let full : RingSlot := { RingSlot.reset with state := .full, pending := 1 }
    let eos := tRing id (fun e => { e with slots := [(0, { full with eos := true })] }) m
    let two := tRing id (fun e => { e with slots := [(0, full), (1, { full with tag := 1 })] }) m
    let left := tCall fun m => { m with left := 3 }
    let a := tCall fun m => { m with curA := some tSlot }
    !(eos.acquireSlot 0 0 2 256 0).1 && !(two.acquireSlot 0 0 2 100000 0).1 && !(two.acquireSlot 0 0 2 256 64).1 && two.slotPresent 0 0 2 1 && two.engineBound 0 0 2 &&
      !(tRing id id m).slotPresent 0 0 2 1 && (match (left.core 0).callOf 0 with | some m => decide (1 < m.left) | none => false) &&
      (match (a.core 0).callOf 0 with | some m => m.curA == some tSlot && m.curB == none | none => false)) = true := by decide +kernel

/-- A call that ended in an earlier cycle with its last terms due; a command whose call may not start. -/
theorem test_w_results_ended : (let t : MacTerms := ⟨0, [], [], 15, false, false⟩
    let a := { (tCall fun m => { m with macs := [t], ended := some 3 }) with now := 9 }
    let b := tCall fun m => { m with macs := [t, t], ended := some 0 }
    let w := tRing id id (tCall fun m => { m with waits := true })
    (match (a.core 0).callOf 0 with | some m => m.macs == t :: [] && m.ended == some 3 | none => false) && decide (t.land ≤ a.now) && decide (3 < a.now) && (a.core 0).mq == [] &&
      (match (b.core 0).callOf 0 with | some m => m.macs == t :: [t] | none => false) && ((tCall id).core 0).calls.all (fun m => !(tCall id).resumes 0 m) &&
      decide ((w.core 0).arrayAt ≤ w.now) && !(tCtx id t0).cur.regs.sys[rINJECT].getLsbD 63 && (RegVal.s 5 9).reg != some (.sys rINJECT)) = true := by decide +kernel

/-- Descriptors that rcfg refuses, and effects of the context on the ring that it waits for. -/
theorem test_w_ring_refused : (let words := recOf 4 [(0, (lo 0).toNat), (168, 5), (184, 2), (192, 1), (224, 1)]
    let n := tLoft 0x2000 words (tS [(1, lo 0x2000), (2, lo 0x2008)] t0)
    let out := n.modCur fun c => { c with outbox := [.effect (.release 2 0 1 5)] }
    let un := tRing id (fun e => { e with ready := false }) n
    let other := tRing (fun r => { r with p := true, pcur := true }) id t0
    okT (n.readTable (n.src (.reg 1)) 32 4) (fun ws _ => (RingDesc.ofNat (wordsNat ws)).valid (wordsNat ws) 0 && !(RingDesc.ofNat (wordsNat ws)).prod &&
        !(RingDesc.ofNat (wordsNat ws)).cons && (RingDesc.ofNat (wordsNat ws)).cmask.getLsbD (meBit 0 0)) && (n.src (.reg 2)).toNat % 32 != 0 &&
      out.cur.effectsOut == [.release 2 0 1 5] && (Effect.release 2 0 1 5).ring == some 5 && !(un.ringEntry 0 5).ready && (tRing id id n).cur.effectsOut == [] &&
      { (tRing id id n).ringEntry 0 5 with desc := tRingDesc }.desc == tRingDesc && !tRingDesc.maskOk 0 0x80000000 && (other.rb 2).pcur &&
      (tCtx (fun c => { c with region := { c.region with deferred := [.publish 2 0 1 5 false] } }) (tRing id id t0)).cur.region.publishes 5 0 &&
      !((RingDesc.ofNat 0).valid 0 0)) = true := by decide +kernel

/-- A slot with two consumers left, one held for the Gleaner and one that is not FULL. -/
theorem test_w_ring_releases : (let r := fun (sl : RingSlot) => tRing id (fun e => { e with slots := [(0, sl)] }) t0
    let full : RingSlot := { RingSlot.reset with state := .full }
    (((r { full with pending := 5 }).ringEntry 0 5).slot 0).pending &&& ~~~ (1#32 <<< meBit 0 0) != 0 && (((r { full with pending := 1, gpend := true }).ringEntry 0 5).slot 0).gpend &&
      (((r RingSlot.reset).ringEntry 0 5).slot 0).state != .full && !(((r { full with pending := 2 }).ringEntry 0 5).slot 0).pending.getLsbD (meBit 0 0)) = true := by
  decide +kernel

/-- Handles of a block that are good and that are not. -/
theorem test_w_engine_handles : (let ix := recOf 8 [(0, 0x20000), (64, 0x21000), (192, 64), (128, 0x22000), (224, 2)]
    let hd := recOf 8 [(0, 2 ^ 44), (64, 0x21000), (192, 64), (448, 1)]
    !cbSh tCopy && !cbDh tCopy && !cbSh ix && !cbDh ix && t0.handleBad t0.cur.kid (cbSrc hd) (cbLen hd) false && pagesBad ix && cbIdx ix != 0 && indexBad tCopy && haloBad [] &&
      reduceBad []) = true := by decide +kernel

/-- An address in the scratchpad's window and one above it, and an armed and a later launch block. -/
theorem test_w_task_more : (let s := tLoft 0 [0x30000] (tS [(1, lo 0), (2, 0x30000), (3, lo 0x80)] (tMem1 { tMember with parm := 0x20004 }))
    let o := s.openQueue 0 9
    decide (loftBase ≤ (s.src (.reg 3)).toNat) && (s.src (.reg 3)).toNat % 128 == 0 && decide ((s.src (.reg 3)).toNat < 2 ^ 56) &&
      (s.badAddress (BitVec.ofNat 64 0x20004) 8 0).isSome && o.isNone && lbStateCode (tLb 0 10) == 10 && !lbInvalid (tLb 0 0) &&
      (tCtx (fun c => { c with outbox := [.release .pkg] }) s).cur.unperformed && wordState (wordAt (tLb 0 0) 10) == 0 && wordJoin (wordAt (tLb 0 0) 10) == 0 &&
      (match ({ s with mem := bsetN s.mem (s.config.qtab + 64 * 9) (by8 (recOf 8 [(0, 1), (128, 1), (192, 1)])) } : State).openQueue 0 9 with | some _ => true | none => false)) = true := by
  decide +kernel

/-- A guest queue with an earlier request, and a PAUSED one. -/
theorem test_w_guest_more : (let w := recOf 8 [(0, 0x500000), (256, 1), (312, 4), (320, 1)]
    let s := fun (g : GuestQueue) => { t0 with mem := bsetN t0.mem (t0.config.gqtab + 64 * 3) (by8 w), guest := { t0.guest with queues := [(3, g)] } }
    let e := s { (default : GuestQueue) with gpre := [⟨0, [], 0, 0, 7⟩] }
    let p := s { (default : GuestQueue) with paused := true }
    gqEn (e.guestWords 3) && !(e.guestQueue 3).paused && (e.guestQueue 3).gpre != [] && e.asked == none && (p.guestQueue 3).paused &&
      (tCtx (fun c => { c with region := { c.region with deferred := [.guest ⟨3, 5, 1, []⟩] } }) t0).cur.region.posts 5 &&
      ((tTok (.done .quar ⟨cGUEST, 1⟩) (.guest 3)).cur.tokens[(5 : Fin 64)]).state == .done .quar ⟨cGUEST, 1⟩) = true := by decide +kernel

/-- Saved, restored, loaded and refused: the further clauses of the privileged slots. -/
theorem test_w_privileged_more : (let s := tLoft 0 [1, 0xE000] (tS [(1, 0x40000), (2, 1), (3, lo 0), (4, 255), (5, 0x1000), (6, 0x101), (7, 0x0100000000000000)] t0)
    let y := s.modCtx 0 1 fun c => { c with state := .yielded, save := some ⟨default, default, none, 0, 0⟩ }
    let l := y.modCore 0 fun c => { c with lastSave := some ⟨1, 0x40000⟩, lastRest := some ⟨1, 0x40000⟩ }
    let busy := tCall id
    let desc := recOf 8 [(64, 0x200000), (128, 0x300000), (192, 7), (256, 5)]
    let live := { tLoft 0 desc s with kids := [(255, { KidEntry.reset with state := .live, key1 := kdKey1 desc, key2 := kdKey2 desc })] }
    (y.ctxAt 0 1).save.isSome && (y.core 0).lastSave == none && (l.core 0).lastSave == some ⟨1, 0x40000⟩ && (l.core 0).lastRest == some ⟨1, 0x40000⟩ &&
      (l.ctxAt 0 1).state != .free && decide ((s.src (.reg 1)).toNat < loftBase) && !busy.engineIdle 0 && (s.src (.reg 7)).toNat % 4096 == 0 &&
      decide (2 ^ 56 ≤ (s.src (.reg 7)).toNat) && (live.kidEntry 255).state == .live &&
      okT (live.readTable (live.src (.reg 3)) 64 8) (fun w t => !kidInvalid w && !kdKeep w && (t.kidEntry 255).key1 == kdKey1 w && (t.kidEntry 255).key2 == kdKey2 w) &&
      (tCtx (fun c => { c with asks := [⟨0, 1, false⟩] }) s).asked.isSome) = true := by decide +kernel

/-- A bundle whose break holds, one whose previous bundle was in this cycle, a selection after another context and one after the same. -/
theorem test_w_context_more : (let f : Fetched := ⟨none, [⟨false, 0, .bc 0 false 0 0 true 0⟩, ⟨true, 0, .add 1 (.reg 2) (.reg 3)⟩], 2, false, false⟩
    let u := fun (s : State) (f : Fetched) => (s.modCtx 0 0 fun c => c.settle s.now).frameIssue 0 0 f
    let b := tSys [(rSTATUS, 0x11)] t0
    let sel := fun (n : Nat) => tCore (fun c => { c with running := none, ran := n }) (tSlot1 fun c => { c with state := .ready, ident := 4 })
    bcFields f.slots == (0, 0, true, 0, false, 0) && !(u t0 f).cur.bsup && (u b f).cur.bsup && !(u t0 f).nullified f.slots && !(u t0 f).mustWait f.slots &&
      ((sel 0).core 0).ran == 0 && ((sel 4).core 0).ran == ((sel 4).ctxAt 0 1).ident && ((sel 3).core 0).ran != 0 && ((sel 3).core 0).ran != ((sel 3).ctxAt 0 1).ident &&
      (sel 3).candidates 0 == [1]) = true := by decide +kernel

/-- A dropped store, a store in part, an atomic at the base die and one that its line's queued write holds up, and steps that move. -/
theorem test_w_access_more : (let o := fun (h : List Handed) => tCtx (fun c => { c with outbox := h }) t0
    let d := (o [.store tStore]).setKid 1 { t0.kidEntry 1 with state := .dead }
    let far := { o [.store tStore] with coh := [⟨0x21000 / 64, none, true⟩] }
    let a := o [.atomic tAtomic]
    let u := (a.modCtx 0 0 fun c => { c.spent with outbox := [] }).release 0 tAtomic.scope
    let busy := u.modStack (stackOfPa 0x22000) fun x => { x with writes := [⟨0x22000 / 64, 1, 1, 7, false, false⟩] }
    let m := fun (z : Bool) => tCore (fun c => { c with move := some ⟨z, 7, 0⟩, scr := 8 }) t0
    let held := { (tRing id id (m false)) with now := 0 }
    d.writeDropped tStore.target == some cKEYDEAD && (o [.store tStore]).writeDropped tStore.target == none && far.writeDropped tStore.target == some cPOISON &&
      tStore.mask &&& granuleMask 1 != 0 && u.atDie tAtomic && !u.dieBusy tAtomic && busy.dieBusy tAtomic && !(u.dieBusy tAtomic || (!u.inL1 tAtomic && u.linkWaits 0 tAtomic.target)) &&
      decide ((m false).loftFloor 0 < ((m false).core 0).scr) && ((m true).core 0).move == some ⟨true, 7, 0⟩ &&
      decide (((tCore (fun c => { c with scr := 0 }) held).core 0).scr ≤ (tCore (fun c => { c with scr := 0 }) held).loftFloor 0) &&
      (t0.walk 1 0x20000 |>.toOption |>.isSome)) = true := by decide +kernel

/-- KID 7 with a page of 4 KiB at virtual page 0x24 under a protection. -/
def tPage (pr : Nat) : State :=
  let e := fun (a n : Nat) (s : State) => { s with mem := bsetN s.mem a (leBytes 8 n) }
  let s := e 0x200000 0x204001 (e 0x204000 0x208001 (e 0x208000 0x20C001 (e 0x20C120 (0x0000380000300000 + 0xE + 128 * pr) t0)))
  { s with kids := tput s.kids 7 { KidEntry.reset with state := .live, root := 0x200000 } }
/-- A CLEAN page whose copy is due: free to be made, held by the guest, and with an invalidation still to be acknowledged. -/
theorem test_w_copy_more : (let c := fun (pr : Nat) => (tPage pr).modCore 0 fun c => { c with copies := [(7, 0x24)] }
    let held := { c 3 with mem := bsetN (c 3).mem ((c 3).config.gqtab + 64 * 3) (by8 (recOf 8 [(320, 7)])), guest := { (c 3).guest with held := [(3, 0x24)] } }
    let acked := { c 3 with guest := { (c 3).guest with invs := [0] } }
    (7, 0x24000 / 4096) ∈ ((c 3).core 0).copies && (c 3).guestAcked && !acked.guestAcked && (match (c 3).walk 7 0x24000 with
      | .ok e => ptePr e.leaf == 3 && (c 3).frameError e == none && !(c 3).guestHolds e.covers && held.guestHolds e.covers
      | .error _ => false) && (match (c 2).walk 7 0x24000 with | .ok e => ptePr e.leaf != 3 | .error _ => false)) = true := by decide +kernel

/-- A fetch that starts and one under way, whose bytes are read as it began or as it ends. -/
theorem test_w_fetch_more : (let w := tW (tWin .active [])
    let x := (w.ctxAt 0 0).windrows[(3 : Fin 16)]
    let e : WinEntry := ⟨false, 0, 0, none, List.replicate 32 1, false⟩
    let v := tW (tWin .active [e])
    let y := (v.ctxAt 0 0).windrows[(3 : Fin 16)]
    (match w.fetchElem 0 0 3 (x.ahead 0) 32 with | some (e, _) => e.fault == none && e.raw.length == 32 && !e.stale && !e.arrived | none => false) &&
      y.buf == [] ++ e :: [] && (match v.fetchElem 0 0 3 (y.ahead 0) 32 with | some (z, _) => z.fault == none && z.raw.length == e.raw.length | none => false) &&
      (y.ahead 0).addrs 32 != [] && !e.arrived && !e.stale && e.fault == none) = true := by decide +kernel

/-- A chunk of a copy between its start and its end, operands past their buffer, and places that cannot be written. -/
theorem test_w_chunks : (let c := tEng (tRun .copy tCopy) t0
    let who := (tCmd8 .copy tCopy).who
    let part : EngineChunk := ⟨[(0, tPhys 0x20000, 8, 0x20000)], List.replicate 8 0, [⟨tPhys 0x21000, 0xFF, 0, 0, 0, 0x21000, false, false⟩], [0x20], 1⟩
    let p := tEng { tRun .copy tCopy with part := some part } t0
    let u := (c.meetWalk 1 0x20000).meetWalk 1 0x21000
    let hd := recOf 8 [(0, 2 ^ 44), (64, 0x21000), (192, 64), (448, 1)]
    (match c.engineRun 0 9 with | some r => r.status == none && r.part == none | none => false) && c.operand 1 (cbSrc tCopy) false == some (0x20000, none) &&
      (operandAt (0x20000, none) 0 64).2 && !(operandAt (0x20000, some 63) 0 64).2 && (t0.operand 1 (cbSrc hd) (cbSh hd)).isNone &&
      (match u.vaSources who 0x20000 64 with | .ok xs => xs.length == 8 | .error _ => false) && (match u.vaSources who 0x400000000 64 with | .ok _ => false | .error _ => true) &&
      (match u.noteWrites (tCmd8 .copy tCopy) 0x21000 64 with
        | .ok v => (match v.vaPlaces who 0x21000 (List.replicate 64 0) with | .ok _ => true | .error _ => false)
        | .error _ => false) && (match u.vaPlaces who 0x400000000 (List.replicate 64 0) with | .ok _ => false | .error _ => true) &&
      (p.engineRun 0 9).map EngineRun.part == some (some part) && part.left != [] &&
      (match p.readGrains part.left part.bytes with | .ok bs => bs.length == 8 | .error _ => false) &&
      (match ({ p with poison := [0x20000 / 64] }).readGrains part.left part.bytes with | .ok _ => false | .error _ => true) &&
      (match p.readGrains [] part.bytes with | .ok _ => true | .error _ => false)) = true := by decide +kernel

/-- Pages for an eckpt: not CKPT, CLEAN, and DIRTY with nothing coming under them. -/
theorem test_w_ckpt_pages : (let w : Who := ⟨7, true, false⟩
    let ok := fun (pr : Nat) (f : TlbEntry → Bool) => match (tPage pr).translate w .read 0x24000 with | .ok _ e => f e | _ => false
    ok 0 (fun e => decide (ptePr e.leaf < 2)) && ok 3 (fun e => decide (2 < ptePr e.leaf)) &&
      ok 2 (fun e => ptePr e.leaf == 2 && !(tPage 2).guestHolds e.covers && !(tPage 2).comingUnder e.kid e.covers && !(tPage 2).chunkUnder e.covers && (tPage 2).guestAcked) &&
      (match (tPage 2).translate w .read 0x25000 with | .fault _ => true | _ => false)) = true := by decide +kernel

/-- Exchanges not yet sent, with their route up and down, and one alone in its group. -/
theorem test_w_exchanges : (let hb := recOf 8 [(0, 0x20000), (64, 0x21000), (384, 8), (416, 2), (352, 8), (320, 8), (483, 1)]
    let up := t0.modLink 6 fun l => { l with state := .active }
    let h := tEng { tRun .halo hb with posted := true } up
    let d := tEng { tRun .halo hb with posted := true } t0
    let rb := recOf 8 [(0, 0x20000), (64, 0x21000), (448, 2), (492, 3)]
    let r := tEng { tRun .red rb with posted := true } t0
    (tRun .halo hb).posted == false && up.routeUp (tRun .halo hb).dest (tRun .halo hb).cls && !t0.routeUp (tRun .halo hb).dest (tRun .halo hb).cls &&
      decide ({ tRun .red rb with npkg := 1 }.npkg ≤ 1) && decide (1 < (tRun .red rb).npkg) && (h.oldestExchange .halo 9).isSome && (d.oldestExchange .halo 9).isSome &&
      (match h.readRows (tCmd8 .halo hb) 0x400000000 8 8 2 with | .ok _ => false | .error _ => true) &&
      (match (State.writeRows 0 1 (tCmd8 .halo hb) 0x400000000 8 8 2 (List.replicate 16 1) h).2 with | some _ => true | none => false) &&
      hbCount hb * hbLen hb == 16 && [[1, 2]].length + 1 == (tRun .red rb).npkg &&
      (match r.vaRead (tCmd8 .red rb).who 0x400000000 8 with | .ok _ => false | .error _ => true) &&
      ([[1]] : List (List (BitVec 32))).foldl (fun m p => min m p.length) (rbCount rb) == 1 &&
      (State.writeRows 0 1 (tCmd8 .red rb) (gbDst rb) 4 4 2 (List.replicate 8 1) r.drawn).2 == none) = true := by decide +kernel

/-- A stream at its end, a collected EOS slot and tiles that cannot be read or written. -/
theorem test_w_streams_more : (let y := fun (k : CmdKind) (t : Nat) (f e : Bool) => (⟨5, tCmd8 k (recOf 8 [(0, 0x20000), (384, 256), (416, 3)]), 1, t, f, e⟩ : Stream)
    let z := fun (s : Stream) (e : RingEntry → RingEntry) => (tRing id e t0).modSheaf 0 fun x => { x with streams := [s] }
    let bad : Stream := ⟨5, tCmd8 .subs (recOf 8 [(0, 0x400000000), (384, 256), (416, 3)]), 1, 0, false, false⟩
    let last := z (y .subs 3 false false) id
    let full : RingSlot := { RingSlot.reset with state := .full, gpend := true, eos := true }
    let eos := z (y .coll 0 false false) fun e => { e with slots := [(0, full)] }
    let done := z (y .coll 2 false false) fun e => { e with producer := some (0, 0), slots := [(0, { full with eos := false })] }
    last.streamOn 0 5 == some (y .subs 3 false false) && sbCount (y .subs 3 false false).cmd.block == 3 && (last.ringEntry 0 5).freeFor last.now (last.ringEntry 0 5).next &&
      (last.ringEntry 0 5).cmask != 0 && !(last.ringEntry 0 5).desc.cons && (match (z bad id).vaRead bad.cmd.who bad.tileAddr 256 with | .ok _ => false | .error _ => true) &&
      (z (y .subs 3 false true) id).streamOn 0 5 == some (y .subs 3 false true) &&
      (let e := eos.ringEntry 0 5
       (e.slot e.oldest).state == .full && (e.slot e.oldest).gpend && (e.slot e.oldest).eos && (e.slot e.oldest).pending == 0 && decide ((e.slot e.oldest).visible ≤ eos.now)) &&
      decide (¬ 2 + 1 < sbCount (y .coll 2 false false).cmd.block) &&
      (match done.engineWrite 0 1 (tCmd8 .coll []) 0x400000000 [1] with | .ok _ => false | .error _ => true)) = true := by decide +kernel

/-- A read reply with its line, an atomic at the base die with its line's writes gone, and a carve that holds the line. -/
theorem test_w_base_die_more : (let n := stackOfPa 0x21000
    let r : Reply := ⟨3, 0x21000 / 64, List.replicate 64 0, 0, 1, false, false⟩
    let x := t0.modStack n fun x => { x with replies := [r] }
    let a := tCtx (fun c => { c with outbox := [.atomic tAtomic] }) t0
    let t := (a.modCtx 0 0 fun c => { c.spent with outbox := c.outbox.drop 1 }).release 0 tAtomic.scope
    ((x.stack n).replies.find? fun y => y.tag == 3) == some r && r.left == 0 && r.bytes.length == 64 && (x.kidEntry r.kid).state != .dead &&
      findLine r.line r.kid (x.field (64 * r.line / 0x10000000000)).l2 == none && x.dieLine r.kid r.line == lineOf r.bytes &&
      (List.range 4096).all (fun m => t0.mayPacket n 0x21000 m 64) && (t0.stack n).replies == [] && (t0.kidEntry 2).state != .dead && t0.kids.all (fun k => k.2.state != .dead) &&
      a.mayPacket (stackOfPa 0x22000) 0x22000 7 8 && t.atDie tAtomic && !t.dieBusy tAtomic && a.atomicError tAtomic == none && decide (23 < 24) && decide (105 < 106)) = true := by
  decide +kernel

/-- Queues and launch blocks of the further clauses: a repeated run with its key's way, a full skip buffer, a check that fails, a masked vector,
an arrival at a queue with no descriptor, and a held queue with nothing left. -/
theorem test_w_thresher_more : (let key := lbKey tReuseLb
    let l := tHeld .blocked tReuseLb
    let e : ReuseEntry := { ReuseEntry.reset with state := .valid, key := key, ins := lbIns tReuseLb, outs := lbOuts tReuseLb, snaps := [] }
    let s := fun (x : BitVec 64) => (tQ .open_ [l] t0).modField 0 fun f => { f with reuse := [(4 * reuseSet key + 1, e)], step := f.step.set 9 x }
    let skips := fun (n : Nat) => t0.modField 0 fun f => { f with arrivals := List.replicate n ⟨0x30000, [], 1, 9, .skip 0⟩ }
    let bad := tQ .open_ [tHeld .blocked (recOf 16 [(64, 0x10000), (352, 1), (256, 0x400000000), (656, 3)])] t0
    let masked := { t0 with msixTable := [(2 * 1 + 1, 2 ^ 32)] }
    (s 0).undecided l && (s 0).probe 0 tReuseLb == some 1 && lbDthsel tReuseLb == 0 && (s 0x3F800000).wouldSkip 0 tReuseLb 1 && !(s 0).wouldSkip 0 tReuseLb 1 &&
      (s 0).chooseWay 0 key == some 1 && (skips 256).skipsHeld 0 == 256 && (skips 255).skipsHeld 0 == 255 && masked.masked 1 && !t0.masked 1 &&
      queueInvalid (t0.queueDesc 0 9) && (t0.queue 0 9).state == .off && ((tQ .held [] t0).queue 0 9).ringCount == 0 && (skips 1).nextArrival 0 != none &&
      bad.servedQueue 0 == some 9 && (match bad.readyHead 0 9 with
        | some l => l.started == 0 && (match bad.dispatchCheck l with | .ok _ => false | .error _ => true)
        | none => false)) = true := by decide +kernel

/-- Links with and without lanes to lose, with packets that are not acknowledged, and routes that accept packets and do not. -/
theorem test_w_links_more : (let d := fun (n w : Nat) => tLink n fun l => { l with state := .degraded, worn := w }
    let f : Flit := ⟨0, 0, 3, [], 3, some 9⟩
    let lost := { tLink 6 (fun l => { l with lost := [f] }) with routes := [(5 * 3 + 0, ⟨0, some 2, false⟩)] }
    let r : EngineRun := { tRun .halo (recOf 8 [(0, 0x20000), (64, 0x21000), (384, 8), (416, 2), (352, 8), (320, 8), (483, 3)]) with posted := true }
    let l := lost.modField 0 fun x => { x with engines := [r] }
    decide (((d 7 0).linkAt 7).worn < spareLanes 7 + widths 7) && decide (¬ ((d 7 9).linkAt 7).worn < spareLanes 7 + widths 7) &&
      decide (spareLanes 5 + widths 5 ≤ ((d 5 99).linkAt 5).worn) && t0.granger.state == .ready && leanTo != 7 && !(lost.lostFlits 3 0).isEmpty &&
      (t0.linkAt (t0.routeLink 3 1)).state == .down && (tLink 6 fun l => { l with state := .active }).routeUp 3 1 && (l.engineRun 0 9).isSome && r.status == none && r.posted &&
      r.dest == 3 && (l.lostFlits 3 0).any (fun x => x.owner == some r.id) && ((tLink 7 fun l => { l with state := .degraded }).linkAt 7).rxSeq == 0) = true := by decide +kernel

/-- Fault packets in time, late and for no refusal, and requests and acknowledgements that are late or early. -/
theorem test_w_guest_late : (let gq : GuestQueue := { (default : GuestQueue) with posted := [(0, 5)], gpre := [⟨0, [(0, 5)], 0, 0, 7⟩, ⟨4, [], 0, 0, 8⟩] }
    let s := fun (n : Nat) => { t0 with now := n, guest := { t0.guest with queues := [(3, gq)], refused := [⟨3, 0, 0x20, cPPROT, 0⟩], invs := [0, 5] } }
    let find := fun (s : State) (p : Nat) (c : Cause) => s.guest.refused.find? fun r => r.queue == 3 && r.ctx == 0 && r.page == p && r.cause == c
    (find (s 22500) 0x20 cPPROT).isSome && Nat.ble 22500 (0 + 22500) && (find (s 22501) 0x20 cPPROT).isSome && Nat.blt 22500 (s 22501).now && find (s 0) 0x21 cPPROT == none &&
      find (s 0) 0x20 cKEYDEAD == none && ((s 0).guestQueue 3).gpre.length == 2 && ((s 0).guestQueue 3).gpre.head? == some ⟨0, [(0, 5)], 0, 0, 7⟩ &&
      (s 22501).guest.invs == 0 :: [5] && (s 22501).guest.late 22501 && ((s 45001).guestQueue 3).late 45001 && !((s 0).guestQueue 3).late 0 &&
      (s 0).guest.refused.all (fun r => Nat.ble (s 0).now (r.at_ + 22500)) &&
      (match (tPage 3).translate ⟨7, false, false⟩ .write 0x24000 with | .copy _ => true | _ => false)) = true := by decide +kernel

/-- A good record and table, a mailbox whose page asks for a request, and addresses inside and outside what the host may write. -/
theorem test_w_platform_more : (let boot := fun (f : Granger → Granger) => { State.reset with granger := f State.reset.granger }
    let ask := fun (code : Nat) => { t0 with granger := { t0.granger with rung := true, mbox := BitVec.ofNat 64 (t0.config.hostoff * 2 ^ 30 + 0x1000) }, mem := bsetN t0.mem 0x60000001000 [BitVec.ofNat 8 code] }
    let frozen := { t0 with granger := { t0.granger with state := .frozen } }
    let q := { t0 with granger := { t0.granger with device := some ((4 : BitVec 64), (1 : BitVec 8)) } }
    State.reset.granger.imageA && State.reset.granger.blob && State.reset.granger.record.valid && State.reset.granger.tableOk &&
      !(boot fun g => { g with record := { g.record with magic := 0 } }).granger.record.valid && !(boot fun g => { g with table := [(g.record.rtoff.toNat + 21, 255)] }).granger.tableOk &&
      (ask 5).hostAsks 5 && (ask 1).hostAsks 1 && leNat ((ask 1).hostRequest 8 32) == (0 : Nat) && (ask 1).granger.device == none && frozen.granger.state == .frozen &&
      within t0.config.dump 64 (t0.config.dump, 0x100000000) && q.granger.device == some ((4 : BitVec 64), (1 : BitVec 8)) && (4#64).toNat % 256 == 4 && q.granger.state == .ready &&
      ({ t0 with coh := [⟨0x800, some 2, false⟩] } : State).coh.any (fun x => x.line == 0x800 && x.owner.isSome && !x.lost)) = true := by decide +kernel

/-- A header with its magic and version, where the device mailbox's operand names it. -/
theorem test_w_header : (match (tMem 0x20000 [0x014B5A4E45] t0).vaWords (superWho 1) 0x20000 8 with | .ok ws => headerOk ws | .error _ => false) = true := by decide +kernel

/-- Nothing waits to be merged into MAXMAG or FPFLAGS; a maximum waits. -/
theorem test_w_landing_more : (let s := t0.putMag [5] 6
    t0.cur.pend.all (fun w => w.val.reg.isSome) && !(s.cur.pend.all fun w => w.val.reg.isSome) && rMAXMAG != rDOMAIN && rFPFLAGS != rDOMAIN) = true := by decide +kernel

/-- A line that no L1 holds under another KID, and one at another package's address. -/
theorem test_w_coherent_more : ((List.range 320).all (fun k => (t0.core k).l1.all fun z => z.line != 0x21000 / 64 || z.kid == 1) && decide (0x21000 / 64 < 2 ^ 37)) = true := by decide +kernel

/-! ### Clauses on what meets a wait, a drop, a row or a loss -/

/-- A SELECT of a core, and a WAKE. -/
theorem test_w_step_select : (let s := fun (i : Instr) => { t0 with turn := some (.event i) }
    (s (.contextSelect 0)).awake && (s (.contextSelect 0)).turn == some (.event (.contextSelect 0)) && (s (.contextWake 0 1)).turn == some (.event (.contextWake 0 1)) &&
      !isFixed (.flitReplayLimit 7) && isFixed (.clearComplete 0 0)) = true := by decide +kernel

theorem test_w_rounded : (FVal.fin false 1 0).Is 1 ∧ (FVal.fin true 3 (-1)).Is (-3 / 2) ∧ (∀ w, RMode.rne ≠ .sr w) ∧ (1 : ℝ) ≠ 0 ∧ (0 : ℝ) ≤ 1 := by
  refine ⟨by norm_num [FVal.Is], by norm_num [FVal.Is], fun w => nofun, one_ne_zero, zero_le_one⟩

/-- A replay table without entries, and one whose entry names register 63. -/
theorem test_w_replay_bad : (let z := tLoft 0 [0] (tS [(1, lo 0)] t0)
    let n := tLoft 0 [9] (tS [(1, lo 0)] t0)
    let b := tLoft 0 [1, BitVec.allOnes 64, 0, 0, 0] (tS [(1, lo 0)] t0)
    okT (z.readTable (z.src (.reg 1)) 8 1) (fun h _ => wordAt h 0 == 0) && okT (n.readTable (n.src (.reg 1)) 8 1) (fun h _ => decide (8 < (wordAt h 0).toNat)) &&
      okT (b.readTable (b.src (.reg 1)) 8 1) (fun h t => (wordAt h 0).toNat == 1 &&
        okT (t.readTable (b.src (.reg 1)) 8 5) (fun ws _ => deltaEntries ws 1 == none))) = true := by decide +kernel

/-- Reads of 512 bits of a windrow whose buffer has 256, and of one of no width yet; a seek below T and one to it. -/
theorem test_w_windrow_width : (let s := tW (tWin .active [])
    let n := tW { tWin .active [] with width := none }
    (s.win 3).state == .active && (s.win 3).width != some ((s.win 3).desc.bytes 512) && (n.win 3).width != some ((n.win 3).desc.bytes 256) &&
      decide ((s.win 3).desc.total ≤ 4) && decide (3 < (s.win 3).desc.total) && (s.win 3).state != .busy) = true := by decide +kernel

/-- First tries of rdv that go on: under FLT, in a group of its own, and with other members still to come. -/
theorem test_w_rdv_first : (let f := tSys [(rDOMAIN, BitVec.ofNat 64 (2 ^ 42))] t0
    let m := tMem1 tMember
    let v := fun (s : State) => (after s (.arrive 3)).ask
    f.asked == none && (after f (.arrive 3)).issue.outcome != .wait && (v f).flt && !(v t0).flt && (v t0).genSeen 3 == (v t0).cur.pos[(3 : Fin 16)] &&
      (after m (.arrive 3)).issue.outcome != .wait && !(v m).flt && (v m).genSeen 3 != (v m).cur.pos[(3 : Fin 16)]) = true := by decide +kernel

/-- The binding's entry behind the release at SHEAF scope, with a tile's slot to publish and one to release. -/
theorem test_w_ring_released : (let s := tRing id (fun e => { e with producer := some (0, 0) }) (tCtx (fun c => { c with outbox := [.effect (.release 2 0 1 5)] }) t0)
    let z := (s.modCtx 0 0 fun c => { c with outbox := [] }).release 0 .sheaf
    (z.ringEntry 0 5).ready && (z.ringEntry 0 5).epoch == 1 && ((z.ringEntry 0 5).slot 0).state == .full && (z.ctxAt 0 0).outbox == []) = true := by decide +kernel

/-- The guest's queue 3 of the context's KID, its descriptor met by the Crib. -/
theorem test_w_guest_meets : (let w := recOf 8 [(0, 0x500000), (256, 1), (312, 4), (320, 1)]
    let s := tLoft 0 [0, 0, 0, 0, 0, 0, 0, 0] (tS [(1, lo 0)] { t0 with mem := bsetN t0.mem (t0.config.gqtab + 64 * 3) (by8 w) })
    let m := s.meetGuest 3
    gqKid (s.guestWords 3) == s.cur.kid && okT (m.readTable (s.src (.reg 1)) 64 8) (fun _ _ => true) && m.asked == none && (m.guestQueue 3).posted == []) = true := by
  decide +kernel

/-- KIDs that are FREE, DEAD and LIVE; a kidset whose row comes too late; the pages of an image. -/
theorem test_w_kid_rows : (let desc := recOf 8 [(64, 0x200000), (128, 0x300000), (192, 7), (256, 5)]
    let s := tLoft 0 desc (tS [(1, 0x40000), (3, lo 0), (4, 255)] t0)
    let late := { s with rows := [(kidObject 255, 5)] }
    let dead := { s with kids := [(255, { KidEntry.reset with state := .dead })] }
    let live := { s with kids := [(255, { KidEntry.reset with state := .live })] }
    let owed := { live with guest := { live.guest with invs := [0] } }
    let asked := tCtx (fun c => { c with asks := [⟨0, 1, false⟩] }) s
    let i := tSys [(rKID, 7)] { tPage 0 with mem := bsetN (tPage 0).mem 0x20C128 (leBytes 8 (0x0000380000301000 + 0xE)) }
    okT (late.readTable (late.src (.reg 3)) 64 8) (fun w t => !kidInvalid w && t.tooLate (kidObject 255, t.kidRow 255 w)) &&
      okT (s.readTable (s.src (.reg 3)) 64 8) (fun w t => !kidInvalid w && !t.tooLate (kidObject 255, t.kidRow 255 w)) &&
      (s.kidEntry 255).state == .free && (dead.kidEntry 255).state == .dead && (live.kidEntry 255).state == .live && (live.endKid 255).guestAcked &&
      !(owed.endKid 255).guestAcked && asked.asked.isSome && s.asked == none &&
      (match i.imagePage 0x24000 with | (.ok _, t) => (match t.imagePage 0x25000 with | (.ok _, _) => true | _ => false) | _ => false)) = true := by decide +kernel

/-- Nodes after the Crib has met what they read: a launch with its queue, a record that can be posted and one that cannot, a doorbell's block. -/
theorem test_w_nodes_met : (let n := tMem 0x30000 (tLb 0 0) (tSsq id t0)
    let o := { n with mem := bsetN n.mem (n.config.qtab + 64 * 9) (by8 tQdesc) }
    let m := o.meetVa o.ssqWho 0x30000 128
    let full := { m with ssq := { m.ssq with launch := List.replicate 1024 (0x30000, 3) } }
    let ring := fun (s : State) => { s with mem := bsetN s.mem (s.ringDesc 3) (by8 (recOf 8 [(0, 1), (318, 2), (384, 4), (448, 0x600000)])) }
    let p := (ring n).meetVa n.ssqWho 0x30000 56
    let block := fun (xs : List (Nat × Nat)) (s : State) => { s with mem := bsetN s.mem s.config.sqblk (by8 (recOf 8 xs)) }
    let go := block [(0, 0x20000), (128, 4), (160, 4), (256, 1), (264, 1)] n
    let bad := block [(0, 0x20001), (256, 1), (264, 1)] n
    let met := fun (s : State) => s.meetPhys s.config.sqblk 64
    (match m.openQueue 0 9 with
      | some u => (match u.vaWrite u.ssqWho 0x30050 (leBytes 8 (joinWord 0 0 2).toNat) with | .ok _ => true | .error _ => false) | none => false) &&
      (match m.vaWrite m.ssqWho 0x30050 (leBytes 8 0) with | .ok _ => true | .error _ => false) && m.ssq.launch.length == 0 && full.ssq.launch.length == 1024 &&
      p.postWaits 3 && !m.postWaits 3 && !(met go).ssqBlockBad (go.physWords go.config.sqblk 8) && (met bad).ssqBlockBad (bad.physWords bad.config.sqblk 8)) = true := by
  decide +kernel

/-- The last member of a run that is held: both copies, of which one differs, and shadow pages. -/
theorem test_w_retires_held : (let m := { tMember with width := 1, index := 0 }
    let l := { tHeld .running (recOf 16 [(64, 0x10000), (352, 1)]) with started := 1 }
    let d := { tHeld .running (recOf 16 [(64, 0x10000), (352, 1), (377, 1)]) with started := 1, dupGroup := { l.dupGroup with retired := [0], sigs := [(0, 5)] } }
    let w := { d with dupGroup := { d.dupGroup with sigs := [(0, 0)] }, writeSet := [(3, 4)] }
    let s := fun (l : HeldLb) => (tCtx (fun c => { c with state := .exiting, member := some m }) t0).modField 0 fun f => { f with lbs := [l] }
    let u := fun (l : HeldLb) => (((s l).cancelSave 0 0).freeSlot 0 0).modRun 0 7 fun l => l.modGroup false fun g => g.retire (lbWidth l.words) 0 0 l.remote
    let two := { l with words := recOf 16 [(64, 0x10000), (352, 2)] }
    m.names == [] && !(s l).namesPending 0 (.exit 0 0) && !(s l).marksPending ((s l).ctxAt 0 0).ident && ((s l).ctxAt 0 0).handedOff &&
      (match (u l).findRun 0 7 with | some x => !x.differs 0 && x.finished && x.writeSet == [] | none => false) &&
      (match (u d).findRun 0 7 with | some x => x.differs 0 | none => false) && (match (u w).findRun 0 7 with | some x => !x.differs 0 && x.finished && x.writeSet != [] | none => false) &&
      (match (u two).findRun 0 7 with | some x => !x.differs 0 && !x.finished | none => false)) = true := by decide +kernel

/-- A store behind a push to its bytes and one that is not; a drop that is complete and one that waits; an atomic that is out. -/
theorem test_w_access_waits : (let push : Flight := ⟨2, .load, 0, [], some ⟨4, [tPhys 0x21003], [9], [0x21003]⟩⟩
    let behind := { tStore with after := 3 }
    let s := fun (e : StoreEntry) => tCtx (fun c => { c with outbox := [.store e], flights := [push] }) t0
    let held := fun (s : State) => ((firstOfLine [] (leadingStores s.cur.outbox)).filter fun x => !x.behindPush s.cur)
    let out := (tW (tWin .active [])).modCur fun c => { c with atomics := [(3, none)] }
    let all := fun (_ : BitVec 8) (_ : Nat) => true
    held (s behind) == [] && held (s tStore) == [tStore] && !(s tStore).cur.returning && sameLine (tPhys 0x21003) behind.target && behind.mask.getLsbD 3 &&
      decide (push.id < behind.after) && t0.dropDone 1 all && !({ t0 with guest := { t0.guest with invs := [0] } } : State).dropDone 1 all && out.cur.atomics != [] &&
      (match (tPage 3).walk 7 0x24000 with | .ok e => !(tPage 3).guestHolds e.covers && (tPage 3).dropDone e.kid e.covers | .error _ => false)) = true := by decide +kernel

/-- A page held by the guest, whose copy waits for it, and the same page free. -/
def tHeldPage (pr : Nat) : State :=
  { tPage pr with mem := bsetN (tPage pr).mem ((tPage pr).config.gqtab + 64 * 3) (by8 (recOf 8 [(0, 0x500000), (256, 1), (312, 4), (320, 7)])), guest := { t0.guest with held := [(3, 0x24)] } }
theorem test_w_engine_waits : (let hb := recOf 8 [(0, 0x20000), (64, 0x21000), (384, 8), (416, 2), (352, 8), (320, 8), (483, 1)]
    let rb := recOf 8 [(0, 0x20000), (64, 0x21000), (448, 2), (492, 3)]
    let f : Flit := ⟨0, 0, 3, [], 1, some 9⟩
    let h := { tRun .halo hb with posted := true, matched := true, status := some (.ok, ⟨0, 0⟩) }
    let q := tEng h (t0.modLink 6 fun l => { l with queue := [f] })
    let x := { (tEng { tRun .halo hb with posted := true } t0) with now := 2 ^ 32 }
    let w : Who := ⟨7, true, false⟩
    let one := tEng { tRun .red rb with posted := true, npkg := 1 } t0
    q.unsent 9 && !(tEng h t0).unsent 9 && (match x.engineRun 0 9 with | some r => r.expired x.now && !r.matched && r.status == none && !r.alone && Nat.ble (r.sent + 2 ^ 32) x.now | none => false) &&
      ((tHeldPage 3).copyHeld w 0x24000 8).isSome && (tPage 3).copyHeld w 0x24000 8 == none && (one.oldestExchange .red 9).isSome && ([] : List Nat).length + 1 == 1 &&
      (match (tHeldPage 2).translate w .read 0x24000 with | .ok _ e => (tHeldPage 2).guestHolds e.covers | _ => false) &&
      (let o := { tPage 2 with guest := { t0.guest with invs := [0] } }
       match o.translate w .read 0x24000 with | .ok _ e => !o.guestHolds e.covers && !o.dropDone e.kid e.covers | _ => false) &&
      (let r := { tCmd8 .halo (recOf 8 [(0, 0x20000), (64, 0x24000), (384, 8), (416, 1), (352, 8), (320, 8), (483, 1)]) with kid := 7 }
       ((tHeldPage 3).rowsHeld r (gbDst r.block) (hbDstr r.block) (hbLen r.block) (hbCount r.block)).isSome &&
         (tPage 3).rowsHeld r (gbDst r.block) (hbDstr r.block) (hbLen r.block) (hbCount r.block) == none)) = true := by decide +kernel

theorem test_w_stack_more : ((t0.stack 3).replies.length == 0 && ((t0.modStack 3 fun x => { x with t3 := true }).stack 3).t3) = true := by decide +kernel

/-- An arrival that opens its queue, full and with room; a skip that waits and one that does not; a saved member's slots; a SYS group's phase. -/
theorem test_w_thresher_waits : (let o := fun (cap : Nat) (n : Nat) => { (t0.modField 0 fun f =>
        { f with arrivals := [⟨0x30000, tLb 0 2, 1, 9, .skip 0⟩], lbs := List.replicate n { tHeld .blocked [] with queue := 9 } }) with
      mem := bsetN t0.mem (t0.config.qtab + 64 * 9) (by8 (recOf 8 [(0, 1), (128, 1), (192, cap)])) }
    let key := lbKey tReuseLb
    let l := tHeld .blocked tReuseLb
    let e : ReuseEntry := { ReuseEntry.reset with state := .valid, key := key, ins := lbIns tReuseLb, outs := lbOuts tReuseLb, snaps := [] }
    let s := fun (n : Nat) => (tQ .open_ [l] t0).modField 0 fun f =>
      { f with reuse := [(4 * reuseSet key + 1, e)], step := f.step.set 9 0x3F800000, arrivals := List.replicate n ⟨0x30000, [], 1, 8, .skip 0⟩ }
    let g := (tMem1 { tMember with width := 1, index := 0 }).modField 0 fun f =>
      { f with lbs := [{ tHeld .running (recOf 16 [(64, 0x10000), (352, 1)]) with remote := true, started := 1, group := { (default : HeldLb).group with arrived := [0] } }] }
    (o 1 1).nextArrival 0 == some ⟨0x30000, tLb 0 2, 1, 9, .skip 0⟩ && ((o 1 1).queue 0 9).state == .off && !lbInvalid (tLb 0 2) &&
      (match (o 1 1).openQueue 0 9 with | some u => u.queueFull 0 9 | none => false) && (match (o 2 1).openQueue 0 9 with | some u => !u.queueFull 0 9 | none => false) &&
      (s 0).probe 0 l.words == some 1 && (s 0).wouldSkip 0 l.words 1 && !(s 0).skipWaits 0 l && (s 256).skipWaits 0 l &&
      (((s 0).field 0).lbs.find? fun l => l.queue == 9 && (s 0).undecided l && !(s 0).skipWaits 0 l) == some l &&
      (((s 256).field 0).lbs.find? fun l => l.queue == 9 && (s 256).undecided l && !(s 256).skipWaits 0 l) == none &&
      ((t0.ctxAt 0 1).state == .free) && (t0.core 0).banks[(1 : Fin 4)].owner == none &&
      (match g.findRun 0 7 with | some l => l.remote && l.remotePhase false != l | none => false)) = true := by decide +kernel

/-- Packets before a link that takes them and one that does not, and a route with an alternate. -/
theorem test_w_packets : (let up := t0.modLink 6 fun l => { l with state := .active }
    let r := { t0 with routes := [(5 * 3 + 0, ⟨0, some 2, false⟩)] }
    t0.routeLink 3 0 == 6 && !(t0.linkAt 6).up && (up.linkAt 6).up && decide ((up.linkAt 6).flits.length ≤ 4095) && (r.route 3 0).alt.isSome &&
      (r.linkAt (r.routeLink 3 0)).state == .down && (up.routeUp 3 2)) = true := by decide +kernel

/-- A guest's request of a page whose copy waits for another queue, and of pages that it may have and may not. -/
theorem test_w_guest_copies : (let s := fun (h : List (Fin 8 × Nat)) => { tHeldPage 3 with guest := { t0.guest with held := h, queues := [(3, { (default : GuestQueue) with posted := [(0, 5)] })] } }
    let w := ((s []).meetGuest 3).meetWalk ((s []).guestWho 3).kid 0x24000
    ((s []).guestQueue 3).posted.any (fun y => y.1 == 0) && (s []).guest.breach == none && ((s [(3, 0x24)]).copyHeld ((s []).guestWho 3) 0x24000 1).isSome &&
      (s []).copyHeld ((s []).guestWho 3) 0x24000 1 == none && (match w.translate (w.guestWho 3) .write 0x24000 with | .copy _ => true | _ => false)) = true := by decide +kernel

/-- The host's link up and down, BOOTFAIL, and the dump area of a frozen machine. -/
theorem test_w_host_bar : (let up := tLink hostLink fun l => { l with state := .active }
    let st := fun (x : GrangerState) => { up with granger := { up.granger with state := x } }
    (up.linkAt hostLink).up && up.granger.state == .ready && !(t0.linkAt hostLink).up && (st .bootfail).granger.state == .bootfail && (st .frozen).granger.state == .frozen &&
      up.hostRanges.any (within up.config.dump 64) && !within up.config.qtab 64 (up.config.dump, 0x100000000) && up.hostRanges.any (within up.config.qtab 64) &&
      (st .bootfail).hostUp && !(st .booting).hostUp) = true := by decide +kernel

/-- A span that can be rewound, with a slot that its bank holds, and one that cannot. -/
theorem test_w_rewinds : (let s := tCtx (fun c => { c with span := { c.span with rewindable := true } }) (tBank fun b => { b with held := [⟨2, 5, 0, 1⟩] })
    let n := tCtx (fun c => { c with span := { c.span with rewindable := false }, outbox := [.release .pkg] }) t0
    let e := tCtx (fun c => { c with span := { c.span with rewindable := false } }) t0
    (s.cur.settle (s.now + 1)).span.rewindable && (s.core 0).banks[(0 : Fin 4)].owner == some 0 && (s.core 0).banks[(0 : Fin 4)].held == [⟨2, 5, 0, 1⟩] &&
      !(n.cur.settle 1).span.rewindable && n.cur.outbox != [] && !(e.cur.settle 1).span.rewindable && e.cur.outbox == [] && e.cur.atomics == [] && e.cur.flights == [] &&
      e.cur.sigs == []) = true := by decide +kernel

/-- A merge and flags on their way with a write of their register due before them. -/
theorem test_w_merges_land : (let m := tCtx (fun c => { c with pend := [⟨.mergeMag false 5, 9⟩] }) t0
    let f := tCtx (fun c => { c with pend := [⟨.orFlags 3, 9⟩] }) t0
    m.cur.pend == [⟨.mergeMag false 5, 9⟩] && f.cur.pend == [⟨.orFlags 3, 9⟩] && Nat.blt (m.now + 1) 9 && (RegVal.orFlags 3).reg == none && !t0.lostLine 5) = true := by
  decide +kernel

/-! ### What the model does at these points -/

/-- A write of SSQDB rings the SSQ's doorbell (R394). -/
theorem test_ssqdb_rings : (let s := (tLink hostLink fun l => { l with state := .active })
    let b := { s with mem := bsetN s.mem s.config.sqblk (by8 (recOf 8 [(0, 0x20001), (256, 1), (264, 1)])) }
    (after b (.hostRegisterWrite 0 0)).ssq.state == .faulted && (after s (.hostRegisterWrite 8 0)).granger.rung) = true := by decide +kernel

/-- A store that merges through a second page is found under it (R251). -/
theorem test_store_second_page : (match mergeStore tStore.target 0xFF00 0 (0x99, 1) 0 [tStore] with
    | some [e] => e.under (fun k p => k == 1 && p == 0x99) && e.under (fun k p => k == 1 && p == 0x21) && !e.under (fun k p => k == 1 && p == 0x98)
    | _ => false) = true := by decide +kernel

/-- A packet waits before a link that is DOWN, and leaves with its number as the link trains (R389, R390). -/
theorem test_packet_waits : (let s := t0.sendPacket 3 0 none []
    let t := s.modLink 6 fun l => { l with state := .training }
    (s.linkAt 6).queue.length == 1 && (s.linkAt 6).flits == [] && ((after t (.linkTrainingResult 6 true true)).linkAt 6).flits.length == 1 &&
      ((after t (.linkTrainingResult 6 true true)).linkAt 6).txSeq == 1) = true := by decide +kernel

/-- A kidkill of a FREE KID and a kidset in one cycle: the KID stays DEAD (R8, R252). -/
theorem test_kid_rows : (let s := tLoft 0 (recOf 8 [(64, 0x200000), (128, 0x300000), (192, 7), (256, 5)]) (tS [(3, lo 0), (4, 255)] t0)
    let t := after s (.kidkill (.reg 4))
    (t.kidEntry 255).state == .dead && (after t (.kidset (.reg 3) (.reg 4))).issue.outcome == .wait) = true := by decide +kernel

end Sys2Proof.Machine
end

section
/-! SUPPORT. Reads of the context's own scratchpad (R206, R210): the bytes of a Loft line, an access that crosses lines, and every load, lda and
table read from there. -/

namespace Sys2Proof.Machine

/-! ## The bytes of a line -/

/-- The i-th byte of a little-endian value (R2). -/
theorem ofNat_leNat_div (i : Nat) (bs : List Byte) : BitVec.ofNat 8 (leNat bs / 2 ^ (8 * i)) = bs.getD i 0 := by
  induction bs generalizing i with
  | nil => simp [leNat]
  | cons b bs ih =>
    have hb : b.toNat < 256 := b.isLt
    cases i with
    | zero =>
      apply BitVec.eq_of_toNat_eq
      simp only [leNat, Nat.mul_zero, pow_zero, Nat.div_one, List.getD_cons_zero, BitVec.toNat_ofNat]
      omega
    | succ i =>
      have hd : leNat (b :: bs) / 2 ^ 8 = leNat bs := by simp only [leNat]; omega
      rw [Nat.mul_succ, Nat.add_comm, pow_add, ← Nat.div_div_eq_div_mul, hd, ih, List.getD_cons_succ]

theorem lineByte_lineOf (bs : List Byte) {i : Nat} (hi : i < 64) : lineByte (lineOf bs) i = bs.getD i 0 := by
  rw [← ofNat_leNat_div, lineByte, lineOf]
  ext j hj
  rw [BitVec.getElem_extractLsb', ← BitVec.getLsbD_eq_getElem]
  simp only [BitVec.getLsbD_ofNat, Nat.testBit_div_two_pow, Nat.add_comm j, show 8 * i + j < 512 by omega, hj, decide_true, Bool.true_and]

/-- A line gives back the 64 bytes that it was made of. -/
theorem lineBytes_lineOf {bs : List Byte} (h : bs.length = 64) : lineBytes (lineOf bs) = bs := by
  apply List.ext_getElem
  · simp [lineBytes, h]
  · intro i h1 h2
    simp only [lineBytes, List.getElem_map, List.getElem_range]
    rw [lineByte_lineOf bs (by omega), List.getD_eq_getElem _ _ h2]

theorem bgetN_add (m : Bytes) (n k a : Nat) : bgetN m a (n + k) = bgetN m a n ++ bgetN m (a + n) k := by
  induction n generalizing a with
  | zero => simp [bgetN]
  | succ n ih =>
    rw [Nat.add_right_comm]
    simp only [bgetN, ih, List.cons_append]
    rw [Nat.add_assoc, Nat.add_comm 1 n]

/-- A part of a run of bytes. -/
theorem take_drop_bgetN (m : Bytes) (a : Nat) {n i k : Nat} (h : i + k ≤ n) : ((bgetN m a n).drop i).take k = bgetN m (a + i) k := by
  obtain ⟨r, rfl⟩ := Nat.exists_eq_add_of_le h
  rw [Nat.add_assoc, bgetN_add, bgetN_add, List.drop_left' (bgetN_length m i a), List.take_left' (bgetN_length m k _)]

/-! ## One run in the scratchpad -/

/-- The place of a byte of core k's Loft (R206). -/
def loftTrans (k addr : Nat) : Trans := ⟨.loft k, addr, 0, false, false, false, false, 0⟩

/-- The n bytes from an address lie in the scratchpad of the context that issues, in steps that belong to it (R206, R210). -/
def State.OwnsRange (s : State) (va n : Nat) : Prop :=
  loftBase ≤ va ∧ va + n ≤ 2 ^ 56 ∧ ∀ i < n, s.myCore.stepAccess ((va + i - loftBase) / 0x40000) = .go

/-- Nothing of the context stands between its loads and memory: no store buffered or on its way, no push, no atomic and no granule read early
(R140, R227, R240, R271). -/
structure State.NothingPending (s : State) : Prop where
  outbox  : s.cur.outbox = []
  flights : s.cur.flights = []
  atomics : s.cur.atomics = []
  loads   : s.issue.loads = []
  early   : s.cur.early = []

/-- What is left of a range behind its first m bytes lies there too. -/
theorem State.OwnsRange.tail {s : State} {va n m : Nat} (h : s.OwnsRange va n) (hm : m ≤ n) : s.OwnsRange (va + m) (n - m) := by
  obtain ⟨hlo, hhi, hgo⟩ := h
  refine ⟨by omega, by omega, fun i hi => ?_⟩
  rw [Nat.add_assoc]
  exact hgo (m + i) (by omega)

theorem State.OwnsRange.lt {s : State} {va n : Nat} (h : s.OwnsRange va n) (hn : 0 < n) : va < 2 ^ 56 := by
  obtain ⟨_, hhi, _⟩ := h
  omega

theorem State.OwnsRange.locate {s : State} {va n : Nat} (h : s.OwnsRange va n) (hn : 0 < n) (acc : Access) (win kind : Nat) :
    s.locate acc va win kind = (.ok (loftTrans s.issue.core (va - loftBase)), s) := by
  have ⟨hlo, _, hsteps⟩ := h
  have hgo : (s.core s.issue.core).stepAccess ((va - loftBase) / 0x40000) = .go := hsteps 0 hn
  rw [State.locate, State.locateFor, if_pos ⟨hlo, h.lt hn⟩, hgo]
  rfl

/-! A byte of the Loft meets no error, no link and no store of the core on its way; its line is read from the Loft itself. -/

@[simp] theorem State.lineError_loft (s : State) (k addr : Nat) : s.lineError (loftTrans k addr) = none := rfl

@[simp] theorem State.readLine_loft (s : State) (j k addr : Nat) :
    s.readLine j (loftTrans k addr) = (lineOf (bgetN (s.core k).loft (64 * (addr / 64)) 64), s) := rfl

@[simp] theorem State.linkWaits_loft (s : State) (j k addr : Nat) : s.linkWaits j (loftTrans k addr) = false := rfl

@[simp] theorem State.behindStore_loft (s : State) (j k addr : Nat) : s.behindStore j (loftTrans k addr) = false := rfl

/-! With nothing pending, a load waits for nothing of its context's own and finds a line as memory has it. -/

theorem State.NothingPending.noStores {s : State} (h : s.NothingPending) : s.cur.outStores = [] := by
  rw [Context.outStores, h.outbox]; rfl

theorem State.NothingPending.atomicOut {s : State} (h : s.NothingPending) : s.cur.atomicOut = false := by
  rw [Context.atomicOut, h.atomics]; rfl

theorem State.NothingPending.pushCovers {s : State} (h : s.NothingPending) (before : Nat) (t : Trans) (m : Nat) :
    s.cur.pushCovers before t m = false := by
  rw [Context.pushCovers, h.flights]; rfl

theorem State.NothingPending.mixEarly {s : State} (h : s.NothingPending) (t : Trans) (x : Line) : s.mixEarly t x = x := by
  rw [State.mixEarly, h.early]; rfl

/-- A run within one line adds the bytes of the Loft. -/
theorem State.readRunsFor_loft {s : State} (h : s.NothingPending) (win kind : Nat) {a m n : Nat} (hn : 0 < n) (ho : s.OwnsRange a n)
    (hm : a % 64 + m ≤ 64) (rest : List (Nat × Nat)) (acc : List Byte) (loft : Bool) :
    State.readRunsFor s.issue.core s.issue.slot win kind true ((a, m) :: rest) acc loft s =
      State.readRunsFor s.issue.core s.issue.slot win kind true rest (acc ++ bgetN s.myCore.loft (a - loftBase) m) loft s := by
  have hloc := ho.locate hn .read win kind
  have hbytes : ((lineBytes (lineOf (bgetN s.myCore.loft (64 * ((a - loftBase) / 64)) 64))).drop (a % 64)).take m =
      bgetN s.myCore.loft (a - loftBase) m := by
    rw [lineBytes_lineOf (bgetN_length _ _ _), take_drop_bgetN _ _ hm]
    have hpos : 64 * ((a - loftBase) / 64) + a % 64 = a - loftBase := by
      have hlo := ho.1
      simp only [loftBase] at hlo ⊢
      omega
    rw [hpos]
  have hcur : s.ctxAt s.issue.core s.issue.slot = s.cur := rfl
  have hcore : s.core s.issue.core = s.myCore := rfl
  rw [State.locate] at hloc
  simp only [State.readRunsFor, hloc, hcur, hcore, h.pushCovers, h.atomicOut, h.mixEarly, h.noStores, h.loads, overlayStores, List.foldl_nil,
    State.linkWaits_loft, State.behindStore_loft, State.lineError_loft, State.readLine_loft, if_true, hbytes, Bool.false_eq_true, and_false, or_self,
    if_false]
  simp only [loftTrans, Bool.and_true]

/-- The runs of an access in the scratchpad, line by line. -/
theorem State.readRunsFor_pieces {s : State} (h : s.NothingPending) (win kind fuel : Nat) {a n : Nat} (hf : n ≤ fuel) (ho : s.OwnsRange a n)
    (acc : List Byte) :
    State.readRunsFor s.issue.core s.issue.slot win kind true (pieces fuel a n) acc true s =
      (.ok (acc ++ bgetN s.myCore.loft (a - loftBase) n) true, s) := by
  induction fuel generalizing a n acc with
  | zero =>
    obtain rfl : n = 0 := by omega
    simp [pieces, State.readRunsFor, bgetN]
  | succ fuel ih =>
    by_cases hn : n = 0
    · subst hn
      simp [pieces, State.readRunsFor, bgetN]
    · have hlt : a % 64 < 64 := Nat.mod_lt _ (by omega)
      have hlo := ho.1
      simp only [pieces, if_neg hn]
      generalize hm : min n (64 - a % 64) = m
      have hsum : m + (n - m) = n := by omega
      rw [State.readRunsFor_loft h win kind (by omega) ho (by omega), ih (by omega) (ho.tail (by omega)), List.append_assoc,
        Nat.sub_add_comm hlo, ← bgetN_add, hsum]

/-- A read of the scratchpad gives its bytes and changes nothing. -/
theorem State.readVa_loft {s : State} (h : s.NothingPending) {va n : Nat} (ho : s.OwnsRange va n) (kind : Nat) :
    s.readVa va n kind = (.ok (bgetN s.myCore.loft (va - loftBase) n) true, s) := by
  rw [State.readVa, State.readRunsFor_pieces h 0 kind n le_rfl ho, List.nil_append]

theorem State.readTable_loft {s : State} (h : s.NothingPending) (a : Word) (align words : Nat) (hal : a.toNat % align = 0)
    (ho : s.OwnsRange a.toNat (8 * words)) : s.readTable a align words = (.ok (wordsOf (bgetN s.myCore.loft (a.toNat - loftBase) (8 * words))), s) := by
  simp only [State.readTable, hal, ne_eq, not_true, if_false, State.readVa_loft h ho]

/-! ## Loads -/

/-- An address beyond 56 bits raises PFAULT (R244). -/
theorem State.loadBytes_beyond (s : State) (b : Src) (n al : Nat) (h : 2 ^ 56 ≤ (s.src b).toNat) :
    s.loadBytes b n al = .stop (s.raise cPFAULT (info249 0 0 (s.src b).toNat)) := by
  simp only [State.loadBytes, State.badAddress, if_pos h]

/-- A misaligned address raises ALIGN (R143). -/
theorem State.loadBytes_misaligned (s : State) (b : Src) (n al : Nat) (h : (s.src b).toNat < 2 ^ 56) (hal : (s.src b).toNat % al ≠ 0) :
    s.loadBytes b n al = .stop (s.raise cALIGN s.slotInfo) := by
  simp only [State.loadBytes, State.badAddress, if_neg (Nat.not_le.mpr h), if_pos hal]

theorem State.badAddress_none {s : State} {ea : Word} {align : Nat} (h : ea.toNat < 2 ^ 56) (hal : ea.toNat % align = 0) (kind : Nat) :
    s.badAddress ea align kind = none := by
  rw [State.badAddress, if_neg (Nat.not_le.mpr h), if_neg (not_not.mpr hal)]

section
variable {s : State} {b : Src} {n al : Nat} (h : s.NothingPending) (hn : 0 < n) (hal : (s.src b).toNat % al = 0) (ho : s.OwnsRange (s.src b).toNat n)
include h hn hal ho

/-- An aligned load reads the bytes of the scratchpad and changes nothing. -/
theorem State.loadBytes_loft : s.loadBytes b n al = .ok (bgetN s.myCore.loft ((s.src b).toNat - loftBase) n, true) s := by
  simp only [State.loadBytes, State.badAddress_none (ho.lt hn) hal, State.readVa_loft h ho]

/-- A vector load into a register writes the value of the bytes after five cycles (R31, R143). -/
theorem State.loadV_loft (r : Fin 16) (m : Fin 8) (inc : BitVec 4) (bits : Nat) (value : List Byte → Vec) :
    s.loadV (.reg r) b m inc n al bits value =
      .next ((s.put (.v r (value (bgetN s.myCore.loft ((s.src b).toNat - loftBase) n))) 5).advance b m inc n) := by
  simp only [State.loadV, State.loadBytes_loft h hn hal ho, State.finishLoad, if_true, State.done_eq]

end

/-- A scalar load zero-extends its bytes into its register after five cycles (R31, R143). -/
theorem State.loadS_loft {s : State} {b : Src} {n : Nat} (h : s.NothingPending) (hn : 0 < n) (hal : (s.src b).toNat % n = 0)
    (ho : s.OwnsRange (s.src b).toNat n) (d : SReg) (m : Fin 8) (inc : BitVec 4) :
    s.loadS d b m inc n =
      .next ((s.putS d (BitVec.ofNat 64 (leNat (bgetN s.myCore.loft ((s.src b).toNat - loftBase) n))) 5).advance b m inc n) := by
  simp only [State.loadS, State.loadBytes_loft h hn hal ho, State.finishLoad, if_true, State.done_eq]

/-- lda takes its bytes and then acquires (R236). -/
theorem exec_lda_loft {s : State} {b : Src} (h : s.NothingPending) (z : Bool) (hal : (s.src b).toNat % szBytes z = 0)
    (ho : s.OwnsRange (s.src b).toNat (szBytes z)) (d : SReg) (x : Scope) :
    exec (.lda d b x z) s =
      .next ((s.flyS .load d (BitVec.ofNat 64 (leNat (bgetN s.myCore.loft ((s.src b).toNat - loftBase) (szBytes z)))) 1).acquire
        s.issue.core s.issue.slot x) := by
  have hn : 0 < szBytes z := by cases z <;> decide
  rw [exec_lda, execLda, State.loadBytes_loft h hn hal ho]
  rfl

/-- Settles O27: a run within a line gives the Loft's bytes, an access is its runs line by line, and every load is one read. -/
theorem loftLoads : Obligations.LoftLoads := by
  unfold Obligations.LoftLoads
  intro s b d r m inc z ea own there value
  refine ⟨fun n al _ => ⟨s.loadBytes_beyond b n al, s.loadBytes_misaligned b n al⟩, fun hout hfly hatm hlds hear => ?_⟩
  have h : s.NothingPending := ⟨hout, hfly, hatm, hlds, hear⟩
  refine ⟨fun n al hmem hal ho => ?bytes, fun i n hmem hal ho => ?scalar, fun i n hmem hal ho => ?vector, fun hal ho => ⟨?broadcast, ?lda4⟩,
    fun hal ho => ?lda8, fun align words hal ho => ?table⟩
  case bytes =>
    have hn : 0 < n := by
      simp only [List.mem_cons, Prod.mk.injEq, List.not_mem_nil, or_false] at hmem
      omega
    exact State.loadBytes_loft h hn hal ho
  case scalar =>
    simp only [List.mem_cons, Prod.mk.injEq, List.not_mem_nil, or_false] at hmem
    obtain ⟨rfl, rfl⟩ | ⟨rfl, rfl⟩ | ⟨rfl, rfl⟩ | ⟨rfl, rfl⟩ := hmem <;> exact State.loadS_loft h (by decide) hal ho d m inc
  case vector =>
    simp only [List.mem_cons, Prod.mk.injEq, List.not_mem_nil, or_false] at hmem
    obtain ⟨rfl, rfl⟩ | ⟨rfl, rfl⟩ | ⟨rfl, rfl⟩ := hmem
    · exact State.loadV_loft h (by decide) hal ho r m inc 256 vecOfBytes
    · exact State.loadV_loft h (by decide) hal ho r m inc 512 vecOfBytes
    · exact State.loadV_loft h (by decide) hal ho r m inc 1024 vecOfBytes
  case broadcast => exact State.loadV_loft h (by decide) hal ho r m inc 1024 broadcast4
  case lda4 => exact exec_lda_loft h false hal ho d z
  case lda8 => exact exec_lda_loft h true hal ho d z
  case table => exact State.readTable_loft h (s.src b) align words hal ho

end Sys2Proof.Machine
end

section
/-! SUPPORT. Slot words (R20 to R45): the fields of a word, what a decoder reads of an operand that the encoder wrote, and the round trip of every
slot form. -/

namespace Sys2Proof

/-! ## Fields of a word -/

/-- A word with a value written to the bits from s on, where it held zeros. -/
def putField (x v : Nat) : Nat → Nat
  | 0 => x + v
  | s + 1 => x + v * 2 ^ (s + 1)

theorem putField_eq (x v s : Nat) : putField x v s = x + v * 2 ^ s := by cases s <;> simp [putField]

theorem fld_add (x s lo n : Nat) : fld x (s + lo) n = fld (x / 2 ^ s) lo n := by
  rw [fld, fld, Nat.pow_add, Nat.div_div_eq_div_mul]

/-- A field below bit k does not see the bits from k on. -/
theorem fld_mod {w lo n k : Nat} (h : lo + n ≤ k) : fld (w % 2 ^ k) lo n = fld w lo n := by
  obtain ⟨j, rfl⟩ := Nat.exists_eq_add_of_le h
  rw [Nat.add_assoc, fld, fld, Nat.pow_add 2 lo, Nat.mod_mul_right_div_self, Nat.pow_add 2 n, Nat.mod_mod_of_dvd _ (Nat.dvd_mul_right _ _)]

/-- A field in two parts. -/
theorem fld_split (w lo m n : Nat) : fld w lo (m + n) = fld w lo m + 2 ^ m * fld w (lo + m) n := by
  simp only [fld, Nat.pow_add, Nat.mod_mul, Nat.div_div_eq_div_mul]

/-- Two ranges of bits, each a lowest bit and a width, have none in common. -/
def apart (p q : Nat × Nat) : Bool := decide (q.1 + q.2 ≤ p.1) || decide (p.1 + p.2 ≤ q.1)

theorem apart_comm (p q : Nat × Nat) : apart p q = apart q p := Bool.or_comm _ _

section
variable {x v s n : Nat} (h : fld x s n = 0) (hv : v < 2 ^ n)
include h hv

theorem fld_putField_self : fld (putField x v s) s n = v := by
  rw [fld] at h
  rw [putField_eq, fld, Nat.add_mul_div_right _ _ (Nat.two_pow_pos _), Nat.add_mod, h, Nat.zero_add, Nat.mod_mod, Nat.mod_eq_of_lt hv]

theorem fld_putField_apart {q : Nat × Nat} (ha : apart (s, n) q = true) : fld (putField x v s) q.1 q.2 = fld x q.1 q.2 := by
  obtain ⟨lo, m⟩ := q
  simp only [apart, Bool.or_eq_true, decide_eq_true_eq] at ha ⊢
  rw [putField_eq]
  rcases ha with hl | hl
  · obtain ⟨k, hk⟩ := Nat.exists_eq_add_of_le hl
    have e : v * 2 ^ s = 2 ^ lo * (2 ^ m * (2 ^ k * v)) := by rw [hk]; ring
    rw [e, fld, Nat.add_mul_div_left _ _ (Nat.two_pow_pos lo), Nat.add_mul_mod_self_left, fld]
  · obtain ⟨k, rfl⟩ := Nat.exists_eq_add_of_le hl
    obtain ⟨y, hy⟩ : 2 ^ n ∣ x / 2 ^ s := Nat.dvd_of_mod_eq_zero h
    rw [Nat.add_assoc, fld_add, fld_add, Nat.add_mul_div_right _ _ (Nat.two_pow_pos _), fld_add, fld_add, hy, Nat.add_comm (2 ^ n * y),
      Nat.add_mul_div_left _ _ (Nat.two_pow_pos _), Nat.div_eq_of_lt hv, Nat.zero_add, Nat.mul_div_cancel_left _ (Nat.two_pow_pos _)]

end

/-! ## Operands -/

/-- A literal word is the one that the field names, if it names one (R23). -/
def Src.Fits (lit : BitVec 32) : Src → Prop
  | .reg _ => True
  | .lit x => lit = x

/-- An operand by the kind of its field (R36). -/
inductive Operand where
  | src (a : Src)
  | dst (d : SReg)
  | vec (o : VOp)
  | width (w : Width)
  | scope (s : Scope)
  | order (o : Order)
  | bit (b : Bool)
  | size (b : Bool)
  | half (b : Bool)
  | sel (b : Bool)
  | full (n : Nat) (x : Fin (2 ^ n))
  | upTo (n limit : Nat) (h : limit ≤ 2 ^ n) (x : Fin limit)
  | bits (n : Nat) (x : BitVec n)

/-- Its field's width. -/
def Operand.bitsOf : Operand → Nat
  | .src _ => 6
  | .dst _ => 6
  | .vec _ => 5
  | .width _ => 2
  | .scope _ => 3
  | .order _ => 2
  | .bit _ => 1
  | .size _ => 2
  | .half _ => 3
  | .sel _ => 4
  | .full n _ => n
  | .upTo n _ _ _ => n
  | .bits n _ => n

/-- Its field's value. -/
def Operand.enc : Operand → Nat
  | .src a => encSrc a
  | .dst d => d.val
  | .vec o => encVOp o
  | .width w => encWidth w
  | .scope s => encScope s
  | .order o => encOrder o
  | .bit b => encBit b
  | .size b => encBit b
  | .half b => encBit b
  | .sel b => encBit b
  | .full _ x => x.val
  | .upTo _ _ _ x => x.val
  | .bits _ x => x.toNat

/-- A word, with its literal word, gives the operand at a bit. -/
abbrev Operand.At (w : Nat) (lit : BitVec 32) (lo : Nat) : Operand → Prop
  | .src a => decSrc w lo lit = a
  | .dst d => decDst w lo = .ok d
  | .vec o => decVOp w lo = o
  | .width x => decWidth w lo = .ok x
  | .scope s => decScope w lo = .ok s
  | .order o => decOrder w lo = .ok o
  | .bit b => decBit w lo = b
  | .size b => decSz w lo = .ok b
  | .half b => decHalf w lo = .ok b
  | .sel b => decSel w lo = .ok b
  | .full n x => decFull w lo n = x
  | .upTo n limit _ x => decBounded w lo n limit = .ok x
  | .bits n x => decBits w lo n = x

/-- The scalar source that an operand is (R36). -/
def Operand.srcs : Operand → List Src
  | .src a => [a]
  | _ => []

theorem encSrc_lt (a : Src) : encSrc a < 2 ^ 6 := by
  cases a with
  | reg r => exact r.isLt.trans (by decide)
  | lit w => exact (by decide : 63 < 64)

theorem encVOp_lt (o : VOp) : encVOp o < 2 ^ 5 := by cases o <;> simp only [encVOp] <;> omega

theorem Operand.enc_lt (o : Operand) : o.enc < 2 ^ o.bitsOf := by
  cases o with
  | src a => exact encSrc_lt a
  | dst d => exact d.isLt.trans (show 63 < 2 ^ 6 by decide)
  | vec o => exact encVOp_lt o
  | width w => cases w <;> decide
  | scope s => cases s <;> decide
  | order o => cases o <;> decide
  | bit b | size b | half b | sel b => cases b <;> decide
  | full n x => exact x.isLt
  | upTo n limit h x => exact x.isLt.trans_le h
  | bits n x => exact x.isLt

theorem decSrc_of {w lo : Nat} {lit : BitVec 32} {a : Src} (h : fld w lo 6 = encSrc a) (hf : a.Fits lit) : decSrc w lo lit = a := by
  cases a with
  | reg r => simp [decSrc, h, encSrc]
  | lit x => simp only [decSrc, h, encSrc, lt_irrefl, dite_false]; exact congrArg _ hf

theorem decVOp_of {w lo : Nat} {o : VOp} (h : fld w lo 5 = encVOp o) : decVOp w lo = o := by
  cases o with
  | reg v => simp [decVOp, h, encVOp, Nat.mod_eq_of_lt v.isLt]
  | win v => simp [decVOp, h, encVOp, Nat.mod_eq_of_lt v.isLt]

/-- The decoder reads the operand that its field holds. -/
theorem Operand.at_of_fld {o : Operand} {w lo : Nat} {lit : BitVec 32} (h : fld w lo o.bitsOf = o.enc) (hf : ∀ a ∈ o.srcs, a.Fits lit) : o.At w lit lo := by
  cases o with
  | src a => exact decSrc_of h (hf a (.head _))
  | dst d => simp only [bitsOf, enc] at h; simp [At, decDst, h]
  | vec o => exact decVOp_of h
  | width x => simp only [bitsOf, enc] at h; cases x <;> simp [At, decWidth, h, encWidth]
  | scope s => simp only [bitsOf, enc] at h; cases s <;> simp [At, decScope, h, encScope]
  | order o => simp only [bitsOf, enc] at h; cases o <;> simp [At, decOrder, h, encOrder]
  | bit b => simp only [bitsOf, enc] at h; cases b <;> simp [At, decBit, h, encBit]
  | size b => simp only [bitsOf, enc] at h; cases b <;> simp [At, decSz, h, encBit]
  | half b => simp only [bitsOf, enc] at h; cases b <;> simp [At, decHalf, h, encBit]
  | sel b => simp only [bitsOf, enc] at h; cases b <;> simp [At, decSel, h, encBit]
  | full n x => exact Fin.ext h
  | upTo n limit hl x => simp only [bitsOf, enc] at h; simp [At, decBounded, h]
  | bits n x => exact BitVec.eq_of_toNat_eq ((BitVec.toNat_ofNat _ _).trans h)

/-! ## Forms -/

/-- The fields of a form, the lowest first: the lowest bit and the width of each. -/
abbrev Shape := List (Nat × Nat)

/-- The bits c that a form fixes with operands in its fields. -/
def layout (c : Nat) : Shape → List Operand → Nat
  | (s, _) :: sh, o :: os => putField (layout c sh os) o.enc s
  | _, _ => c

/-- The fields lie in a word of 32 bits and have no bits in common, and the form fixes none of them to 1. -/
def Shape.fits (c : Nat) : Shape → Bool
  | [] => true
  | p :: sh => fld c p.1 p.2 == 0 && decide (p.1 + p.2 ≤ 32) && sh.all (fun q => apart q p) && Shape.fits c sh

/-- A word gives each operand at its field. -/
def Shape.Gives (w : Nat) (lit : BitVec 32) : Shape → List Operand → Prop
  | (lo, _) :: sh, o :: os => o.At w lit lo ∧ Shape.Gives w lit sh os
  | _, _ => True

theorem Shape.fits_cons {c : Nat} {p : Nat × Nat} {sh : Shape} :
    Shape.fits c (p :: sh) = true ↔ fld c p.1 p.2 = 0 ∧ p.1 + p.2 ≤ 32 ∧ (∀ q ∈ sh, apart q p = true) ∧ sh.fits c = true := by
  simp [fits, and_assoc]

theorem Shape.fits_le {c : Nat} : ∀ {sh : Shape}, sh.fits c = true → ∀ p ∈ sh, p.1 + p.2 ≤ 32
  | [], _ => by simp
  | _ :: _, h => by
    obtain ⟨-, hp, -, hok⟩ := Shape.fits_cons.mp h
    exact List.forall_mem_cons.mpr ⟨hp, Shape.fits_le hok⟩

/-- The operands are of their fields' widths. -/
def Shape.Takes (sh : Shape) (os : List Operand) : Prop := os.map Operand.bitsOf = sh.map Prod.snd

/-- Bits that are in no field are those that the form fixes. -/
theorem fld_layout_apart {c : Nat} {q : Nat × Nat} : ∀ {sh : Shape} {os : List Operand}, sh.fits c = true → sh.Takes os →
    (∀ p ∈ sh, apart p q = true) → fld (layout c sh os) q.1 q.2 = fld c q.1 q.2
  | [], [], _, _, _ => rfl
  | p :: sh, o :: os, h, ht, ha => by
    obtain ⟨hz, -, hp, hok⟩ := Shape.fits_cons.mp h
    obtain ⟨hn, hts⟩ := List.cons_eq_cons.mp ht
    obtain ⟨hap, has⟩ := List.forall_mem_cons.mp ha
    have hrest := fld_layout_apart (q := p) hok hts hp
    rw [layout, fld_putField_apart (hrest.trans hz) (hn ▸ o.enc_lt) hap, fld_layout_apart hok hts has]

/-- A word whose fields hold what a layout puts there gives the layout's operands. -/
theorem Shape.gives_of_layout {c w : Nat} {lit : BitVec 32} : ∀ {sh : Shape} {os : List Operand}, sh.fits c = true → sh.Takes os →
    (∀ a ∈ os.flatMap Operand.srcs, a.Fits lit) → (∀ p ∈ sh, fld w p.1 p.2 = fld (layout c sh os) p.1 p.2) → sh.Gives w lit os
  | [], [], _, _, _, _ => trivial
  | p :: sh, o :: os, h, ht, hf, hw => by
    obtain ⟨hz, -, hp, hok⟩ := Shape.fits_cons.mp h
    obtain ⟨hn, hts⟩ := List.cons_eq_cons.mp ht
    obtain ⟨hwp, hws⟩ := List.forall_mem_cons.mp hw
    have h0 : fld (layout c sh os) p.1 p.2 = 0 := (fld_layout_apart hok hts hp).trans hz
    have hv : o.enc < 2 ^ p.2 := hn ▸ o.enc_lt
    rw [List.flatMap_cons] at hf
    refine ⟨Operand.at_of_fld ?_ fun a ha => hf a (List.mem_append_left _ ha),
      Shape.gives_of_layout hok hts (fun a ha => hf a (List.mem_append_right _ ha)) fun q hq => ?_⟩
    · rw [hn, hwp, layout, fld_putField_self h0 hv]
    · rw [hws q hq, layout, fld_putField_apart h0 hv ((apart_comm p q).trans (hp q hq))]

/-- The fields of a slot word: its header over those of its instruction (R20). -/
def Shape.slot (sh : Shape) : Shape := (31, 1) :: (22, 4) :: sh

/-- Bits of a slot word that no operand is to take. -/
def Shape.free (sh : Shape) (lo m : Nat) : Bool := decide (lo + m ≤ 32) && sh.slot.all fun p => apart p (lo, m)

/-- The word of every slot with the instruction gives it back, and the slot's header (R20, R26). -/
def ReadsBack (i : Instr) : Prop :=
  ∀ (l : Bool) (g : Fin 16) (lit : BitVec 32), (i.group = .bc → g = 0) → (∀ a ∈ i.srcs, a.Fits lit) →
    decodeFields (encodeSlot ⟨l, g, i⟩).toNat lit = .ok i ∧ decBit (encodeSlot ⟨l, g, i⟩).toNat 31 = l ∧ decFull (encodeSlot ⟨l, g, i⟩).toNat 22 4 = g

/-- An instruction is read back where its encoding is a form's fixed bits with operands in their fields, and the decoder, given those bits and
operands, answers it. -/
theorem ReadsBack.of {i : Instr} (c : Nat) (sh : Shape) (os : List Operand) (enc : encodeBody i = layout c sh os) (ht : sh.Takes os)
    (hs : (os.flatMap Operand.srcs).reverse = i.srcs) (fit : sh.slot.fits c = true)
    (dec : ∀ (w : Nat) (lit : BitVec 32), (i.group = .bc → fld w 22 4 = 0) → (∀ lo m, sh.free lo m = true → fld w lo m = c / 2 ^ lo % 2 ^ m) →
      sh.Gives w lit os → decodeFields w lit = .ok i) : ReadsBack i := by
  intro l g lit hg hlit
  set w := (encodeSlot ⟨l, g, i⟩).toNat with hw
  have hts : sh.slot.Takes (.bit l :: .full 4 g :: os) := congrArg (fun ns => 1 :: 4 :: ns) ht
  have hwf : ∀ lo m, lo + m ≤ 32 → fld w lo m = fld (layout c sh.slot (.bit l :: .full 4 g :: os)) lo m := by
    intro lo m h
    have e : encBit l * 2 ^ 31 + g.val * 2 ^ 22 + encodeBody i = layout c sh.slot (.bit l :: .full 4 g :: os) := by
      rw [enc, Shape.slot, layout, layout, putField_eq, putField_eq, Operand.enc, Operand.enc]; ring
    rw [hw, encodeSlot, BitVec.toNat_ofNat, fld_mod h, e]
  have hgives : sh.slot.Gives w lit (.bit l :: .full 4 g :: os) := by
    refine Shape.gives_of_layout fit hts (fun a ha => hlit a ?_) fun p hp => hwf p.1 p.2 (Shape.fits_le fit p hp)
    rw [← hs, List.mem_reverse]
    exact ha
  obtain ⟨hl, hgd, hos⟩ := hgives
  refine ⟨dec w lit (fun hb => ?_) (fun lo m h => ?_) hos, hl, hgd⟩
  · rw [hg hb] at hgd
    exact congrArg Fin.val hgd
  · simp only [Shape.free, Bool.and_eq_true, decide_eq_true_eq, List.all_eq_true] at h
    rw [hwf lo m h.1, fld_layout_apart (q := (lo, m)) fit hts h.2, fld]

/-! ## Every form, by its class and group (R36 to R44) -/

section
variable {u : Nat} {lit : BitVec 32}

theorem decodeFields_bc (h : fld u 26 5 = 0) : decodeFields u lit = decodeBc u := by simp only [decodeFields, h]
theorem decodeFields_sar (h : fld u 26 5 = 1) : decodeFields u lit = decodeSar u lit := by simp only [decodeFields, h]
theorem decodeFields_sai (h : fld u 26 5 = 2) : decodeFields u lit = decodeSai u lit := by simp only [decodeFields, h]
theorem decodeFields_smx (h : fld u 26 5 = 3) : decodeFields u lit = decodeSmx u lit := by simp only [decodeFields, h]
theorem decodeFields_sfp (h : fld u 26 5 = 4) : decodeFields u lit = decodeSfp u lit := by simp only [decodeFields, h]
theorem decodeFields_scp (h : fld u 26 5 = 5) : decodeFields u lit = decodeScp u lit := by simp only [decodeFields, h]
theorem decodeFields_br (h : fld u 26 5 = 6) : decodeFields u lit = decodeBr u lit := by simp only [decodeFields, h]
theorem decodeFields_loop (h : fld u 26 5 = 7) : decodeFields u lit = decodeLoop u lit := by simp only [decodeFields, h]
theorem decodeFields_ld (h : fld u 26 5 = 8) : decodeFields u lit = decodeLd u lit := by simp only [decodeFields, h]
theorem decodeFields_st (h : fld u 26 5 = 9) : decodeFields u lit = decodeSt u lit := by simp only [decodeFields, h]
theorem decodeFields_atm (h : fld u 26 5 = 10) : decodeFields u lit = decodeAtm u := by simp only [decodeFields, h]
theorem decodeFields_sync (h : fld u 26 5 = 11) : decodeFields u lit = decodeSync u lit := by simp only [decodeFields, h]
theorem decodeFields_via (h : fld u 26 5 = 12) : decodeFields u lit = decodeVia u := by simp only [decodeFields, h]
theorem decodeFields_vfa (h : fld u 26 5 = 13) : decodeFields u lit = decodeVfa u := by simp only [decodeFields, h]
theorem decodeFields_vcv (h : fld u 26 5 = 14) : decodeFields u lit = decodeVcv u lit := by simp only [decodeFields, h]
theorem decodeFields_vrd (h : fld u 26 5 = 15) : decodeFields u lit = decodeVrd u := by simp only [decodeFields, h]
theorem decodeFields_vpm (h : fld u 26 5 = 16) : decodeFields u lit = decodeVpm u lit := by simp only [decodeFields, h]
theorem decodeFields_sfu (h : fld u 26 5 = 17) : decodeFields u lit = decodeSfu u := by simp only [decodeFields, h]
theorem decodeFields_win (h : fld u 26 5 = 18) : decodeFields u lit = decodeWin u lit := by simp only [decodeFields, h]
theorem decodeFields_mxc (h : fld u 26 5 = 19) : decodeFields u lit = decodeMxc u lit := by simp only [decodeFields, h]
theorem decodeFields_rng (h : fld u 26 5 = 20) : decodeFields u lit = decodeRng u lit := by simp only [decodeFields, h]
theorem decodeFields_eng (h : fld u 26 5 = 21) : decodeFields u lit = decodeEng u lit := by simp only [decodeFields, h]
theorem decodeFields_tsk (h : fld u 26 5 = 22) : decodeFields u lit = decodeTsk u lit := by simp only [decodeFields, h]
theorem decodeFields_stp (h : fld u 26 5 = 23) : decodeFields u lit = decodeStp u lit := by simp only [decodeFields, h]
theorem decodeFields_gst (h : fld u 26 5 = 24) : decodeFields u lit = decodeGst u lit := by simp only [decodeFields, h]
theorem decodeFields_chk (h : fld u 26 5 = 25) : decodeFields u lit = decodeChk u lit := by simp only [decodeFields, h]
theorem decodeFields_sys (h : fld u 26 5 = 26) : decodeFields u lit = decodeSys u lit := by simp only [decodeFields, h]
theorem decodeFields_prv (h : fld u 26 5 = 27) : decodeFields u lit = decodePrv u lit := by simp only [decodeFields, h]

end

/-! Each arm names the fields of its forms, the lowest first, with the operands in them, and runs the class's decoder on a word that holds them. -/

theorem readsBack_bc {i : Instr} (h : i.group = .bc) : ReadsBack i := by
  cases i with
  | bc stall y ln rm brk run =>
    refine .of _ [(0, 11), (11, 1), (12, 2), (14, 3), (17, 1), (18, 4)] [.bits 11 run, .bit brk, .bits 2 rm, .upTo 3 7 (by decide) ln, .bit y, .bits 4
      stall] rfl rfl rfl rfl fun u lit hg hc ⟨hrun, hbrk, hrm, hln, hy, hstall, _⟩ => ?_
    rw [decodeFields_bc (hc 26 5 rfl), decodeBc]
    simp [hg rfl, hrun, hbrk, hrm, hln, hy, hstall, Except.bind]
  | _ => exact absurd h Group.noConfusion

theorem readsBack_scalar {i : Instr} (h : i.group = .scalar) : ReadsBack i := by
  cases i with
  | add d a b | sub d a b | mul d a b | mulh d a b | mulhn d a b | and d a b | or d a b | xor d a b | andn d a b | shl d a b | shr d a b
  | sar d a b | min d a b | max d a b | minn d a b | maxn d a b =>
    refine .of _ [(4, 6), (10, 6), (16, 6)] [.src b, .src a, .dst d] rfl rfl rfl rfl fun u lit _ hc ⟨hb, ha, hd, _⟩ => ?_
    rw [decodeFields_sar (hc 26 5 rfl), decodeSar, hc 0 4 rfl]
    simp [hb, ha, hd, Except.bind]
  | addi d a x | andi d a x | ori d a x | xori d a x | rsubi d a x =>
    refine .of _ [(0, 7), (10, 6), (16, 6)] [.bits 7 x, .src a, .dst d] rfl rfl rfl rfl fun u lit _ hc ⟨hx, ha, hd, _⟩ => ?_
    rw [decodeFields_sai (hc 26 5 rfl), decodeSai, hc 7 3 rfl]
    simp [hx, ha, hd, Except.bind]
  | shli d a x | shri d a x | sari d a x =>
    refine .of _ [(0, 6), (10, 6), (16, 6)] [.bits 6 x, .src a, .dst d] rfl rfl rfl rfl fun u lit _ hc ⟨hx, ha, hd, _⟩ => ?_
    rw [decodeFields_sai (hc 26 5 rfl), decodeSai, hc 7 3 rfl]
    simp [hc 6 1 rfl, hx, ha, hd, Except.bind]
  | div d a b | divn d a b | rem d a b | remn d a b | sext d a b | zext d a b | bfx d a b | bfi d a b =>
    refine .of _ [(4, 6), (10, 6), (16, 6)] [.src b, .src a, .dst d] rfl rfl rfl rfl fun u lit _ hc ⟨hb, ha, hd, _⟩ => ?_
    rw [decodeFields_smx (hc 26 5 rfl), decodeSmx, hc 0 4 rfl]
    simp [hb, ha, hd, Except.bind]
  | clz d a | ctz d a | popc d a | brev d a | bswap d a | abs d a | neg d a =>
    refine .of _ [(10, 6), (16, 6)] [.src a, .dst d] rfl rfl rfl rfl fun u lit _ hc ⟨ha, hd, _⟩ => ?_
    rw [decodeFields_smx (hc 26 5 rfl), decodeSmx, hc 0 4 rfl]
    simp [hc 4 6 rfl, ha, hd, Except.bind]
  | fadd d a b | fsub d a b | fmul d a b | fdiv d a b | fmin d a b | fmax d a b =>
    refine .of _ [(4, 6), (10, 6), (16, 6)] [.src b, .src a, .dst d] rfl rfl rfl rfl fun u lit _ hc ⟨hb, ha, hd, _⟩ => ?_
    rw [decodeFields_sfp (hc 26 5 rfl), decodeSfp, hc 0 4 rfl]
    simp [hb, ha, hd, Except.bind]
  | fsqrt d a | fabs d a | fneg d a | fitof d a | ftoi d a | fround d a =>
    refine .of _ [(10, 6), (16, 6)] [.src a, .dst d] rfl rfl rfl rfl fun u lit _ hc ⟨ha, hd, _⟩ => ?_
    rw [decodeFields_sfp (hc 26 5 rfl), decodeSfp, hc 0 4 rfl]
    simp [hc 4 6 rfl, ha, hd, Except.bind]
  | ceq p cf a b | cne p cf a b | clt p cf a b | cge p cf a b | cltn p cf a b | cgen p cf a b | ctst p cf a b | fceq p cf a b | fclt p cf a b
  | fcle p cf a b | fcun p cf a b =>
    refine .of _ [(5, 6), (11, 6), (17, 1), (18, 4)] [.src b, .src a, .bit cf, .full 4 p] rfl rfl rfl rfl fun u lit _ hc ⟨hb, ha, hcf, hp, _⟩ => ?_
    rw [decodeFields_scp (hc 26 5 rfl), decodeScp, hc 0 5 rfl]
    simp [hb, ha, hcf, hp]
  | pand p cf q r | por p cf q r | pxor p cf q r | pandn p cf q r =>
    refine .of _ [(5, 4), (11, 4), (17, 1), (18, 4)] [.full 4 r, .full 4 q, .bit cf, .full 4 p] rfl rfl rfl rfl fun u lit _ hc ⟨hr, hq, hcf, hp, _⟩ =>
      ?_
    rw [decodeFields_scp (hc 26 5 rfl), decodeScp, hc 0 5 rfl]
    simp [hc 9 2 rfl, hc 15 2 rfl, hr, hq, hcf, hp]
  | pset p cf v =>
    refine .of _ [(11, 1), (17, 1), (18, 4)] [.bit v, .bit cf, .full 4 p] rfl rfl rfl rfl fun u lit _ hc ⟨hv, hcf, hp, _⟩ => ?_
    rw [decodeFields_scp (hc 26 5 rfl), decodeScp, hc 0 5 rfl]
    simp [hc 5 6 rfl, hc 12 5 rfl, hv, hcf, hp]
  | kany p cf k | kall p cf k | knone p cf k =>
    refine .of _ [(11, 3), (17, 1), (18, 4)] [.full 3 k, .bit cf, .full 4 p] rfl rfl rfl rfl fun u lit _ hc ⟨hk, hcf, hp, _⟩ => ?_
    rw [decodeFields_scp (hc 26 5 rfl), decodeScp, hc 0 5 rfl]
    simp [hc 5 6 rfl, hc 14 3 rfl, hk, hcf, hp]
  | _ => exact absurd h Group.noConfusion

theorem readsBack_vector {i : Instr} (h : i.group = .vector) : ReadsBack i := by
  cases i with
  | vaddI8 w d a b | vaddI16 w d a b | vaddI32 w d a b | vsubI8 w d a b | vsubI16 w d a b | vsubI32 w d a b | vmulI16 w d a b | vmulI32 w d a b
  | vmulhI32 w d a b | vminI32 w d a b | vmaxI32 w d a b | vminnN32 w d a b | vmaxnN32 w d a b | vand w d a b | vor w d a b | vxor w d a b
  | vandn w d a b | vshlI32 w d a b | vshrN32 w d a b | vsarI32 w d a b | vaddsI8 w d a b | vaddsI16 w d a b | vsubsI8 w d a b | vsubsI16 w d a b
  | vmadI16 w d a b | vdot4I8 w d a b =>
    refine .of _ [(0, 5), (5, 5), (10, 5), (20, 2)] [.vec b, .vec a, .vec d, .width w] rfl rfl rfl rfl fun u lit _ hc ⟨hb, ha, hd, hw, _⟩ => ?_
    rw [decodeFields_via (hc 26 5 rfl), decodeVia, hc 15 5 rfl]
    simp [hb, ha, hd, hw, Except.bind]
  | vceqI32 w k a b | vcltI32 w k a b | vcltnN32 w k a b =>
    refine .of _ [(0, 5), (5, 5), (10, 3), (20, 2)] [.vec b, .vec a, .full 3 k, .width w] rfl rfl rfl rfl fun u lit _ hc ⟨hb, ha, hk, hw, _⟩ => ?_
    rw [decodeFields_via (hc 26 5 rfl), decodeVia, hc 15 5 rfl]
    simp [hc 13 2 rfl, hb, ha, hk, hw, Except.bind]
  | vabsI32 w d a | vclzI32 w d a | vpopcI32 w d a =>
    refine .of _ [(5, 5), (10, 5), (20, 2)] [.vec a, .vec d, .width w] rfl rfl rfl rfl fun u lit _ hc ⟨ha, hd, hw, _⟩ => ?_
    rw [decodeFields_via (hc 26 5 rfl), decodeVia, hc 15 5 rfl]
    simp [hc 0 5 rfl, ha, hd, hw, Except.bind]
  | vfaddF32 w d a b | vfsubF32 w d a b | vfmulF32 w d a b | vfmaF32 w d a b | vfmsF32 w d a b | vfminF32 w d a b | vfmaxF32 w d a b
  | vfdivF32 w d a b | vfaddBf16 w d a b | vfmulBf16 w d a b | vfmaBf16 w d a b | vfminBf16 w d a b | vfmaxBf16 w d a b | vfsclF32 w d a b
  | vfamaxF32 w d a b =>
    refine .of _ [(0, 5), (5, 5), (10, 5), (20, 2)] [.vec b, .vec a, .vec d, .width w] rfl rfl rfl rfl fun u lit _ hc ⟨hb, ha, hd, hw, _⟩ => ?_
    rw [decodeFields_vfa (hc 26 5 rfl), decodeVfa, hc 15 5 rfl]
    simp [hb, ha, hd, hw, Except.bind]
  | vfabsF32 w d a | vfnegF32 w d a | vfsqrtF32 w d a | vfrndF32 w d a =>
    refine .of _ [(5, 5), (10, 5), (20, 2)] [.vec a, .vec d, .width w] rfl rfl rfl rfl fun u lit _ hc ⟨ha, hd, hw, _⟩ => ?_
    rw [decodeFields_vfa (hc 26 5 rfl), decodeVfa, hc 15 5 rfl]
    simp [hc 0 5 rfl, ha, hd, hw, Except.bind]
  | vfceqF32 w k a b | vfcltF32 w k a b | vfcleF32 w k a b | vfcunF32 w k a b =>
    refine .of _ [(0, 5), (5, 5), (10, 3), (20, 2)] [.vec b, .vec a, .full 3 k, .width w] rfl rfl rfl rfl fun u lit _ hc ⟨hb, ha, hk, hw, _⟩ => ?_
    rw [decodeFields_vfa (hc 26 5 rfl), decodeVfa, hc 15 5 rfl]
    simp [hc 13 2 rfl, hb, ha, hk, hw, Except.bind]
  | cvtF32Bf16 w d a | cvtBf16F32 w d a | cvtF32I32 w d a | cvtI32F32 w d a | cvtF8e4F32 w d a | cvtF32F8e4 w d a | cvtF8e5F32 w d a
  | cvtF32F8e5 w d a | cvtBf16F32Sr w d a =>
    refine .of _ [(6, 5), (11, 5), (20, 2)] [.vec a, .vec d, .width w] rfl rfl rfl rfl fun u lit _ hc ⟨ha, hd, hw, _⟩ => ?_
    rw [decodeFields_vcv (hc 26 5 rfl), decodeVcv, hc 16 4 rfl]
    simp [hc 0 6 rfl, ha, hd, hw, Except.bind]
  | cvtMx8F32 d a s | cvtMx6F32 d a s | cvtMx4F32 d a s | cvtF32Mx8 d a s | cvtF32Mx6 d a s | cvtF32Mx4 d a s =>
    refine .of _ [(0, 6), (6, 5), (11, 5)] [.src s, .vec a, .vec d] rfl rfl rfl rfl fun u lit _ hc ⟨hs, ha, hd, _⟩ => ?_
    rw [decodeFields_vcv (hc 26 5 rfl), decodeVcv, hc 16 4 rfl]
    simp [hc 20 2 rfl, hs, ha, hd]
  | bscale d a =>
    refine .of _ [(6, 5), (11, 5)] [.vec a, .vec d] rfl rfl rfl rfl fun u lit _ hc ⟨ha, hd, _⟩ => ?_
    rw [decodeFields_vcv (hc 26 5 rfl), decodeVcv, hc 16 4 rfl]
    simp [hc 0 6 rfl, hc 20 2 rfl, ha, hd]
  | vrsumF32 w d a | vrmaxF32 w d a | vrminF32 w d a | vrsumI32 w d a | vrmaxI32 w d a | vrminI32 w d a | vramaxF32 w d a | vmaxmagF32 w d a
  | vmaxmagBf16 w d a | vscanF32 w d a | vscanI32 w d a =>
    refine .of _ [(5, 5), (10, 5), (20, 2)] [.vec a, .vec d, .width w] rfl rfl rfl rfl fun u lit _ hc ⟨ha, hd, hw, _⟩ => ?_
    rw [decodeFields_vrd (hc 26 5 rfl), decodeVrd, hc 15 5 rfl]
    simp [hc 0 5 rfl, ha, hd, hw, Except.bind]
  | vdeltaF32 w d a b | vdeltaBf16 w d a b =>
    refine .of _ [(0, 5), (5, 5), (10, 5), (20, 2)] [.vec b, .vec a, .vec d, .width w] rfl rfl rfl rfl fun u lit _ hc ⟨hb, ha, hd, hw, _⟩ => ?_
    rw [decodeFields_vrd (hc 26 5 rfl), decodeVrd, hc 15 5 rfl]
    simp [hb, ha, hd, hw, Except.bind]
  | kcnt w d k =>
    refine .of _ [(5, 3), (10, 5), (20, 2)] [.full 3 k, .vec d, .width w] rfl rfl rfl rfl fun u lit _ hc ⟨hk, hd, hw, _⟩ => ?_
    rw [decodeFields_vrd (hc 26 5 rfl), decodeVrd, hc 15 5 rfl]
    simp [hc 0 5 rfl, hc 8 2 rfl, hk, hd, hw, Except.bind]
  | vmov w d a =>
    refine .of _ [(5, 5), (10, 5), (20, 2)] [.vec a, .vec d, .width w] rfl rfl rfl rfl fun u lit _ hc ⟨ha, hd, hw, _⟩ => ?_
    rw [decodeFields_vpm (hc 26 5 rfl), decodeVpm, hc 15 5 rfl]
    simp [hc 0 5 rfl, ha, hd, hw, Except.bind]
  | vbc w d i s | vins w d i s =>
    refine .of _ [(0, 6), (6, 4), (10, 5), (20, 2)] [.src s, .bits 4 i, .vec d, .width w] rfl rfl rfl rfl fun u lit _ hc ⟨hs, hi, hd, hw, _⟩ => ?_
    rw [decodeFields_vpm (hc 26 5 rfl), decodeVpm, hc 15 5 rfl]
    simp [hs, hi, hd, hw, Except.bind]
  | vext w d a i =>
    refine .of _ [(0, 4), (4, 5), (9, 6), (20, 2)] [.bits 4 i, .vec a, .dst d, .width w] rfl rfl rfl rfl fun u lit _ hc ⟨hi, ha, hd, hw, _⟩ => ?_
    rw [decodeFields_vpm (hc 26 5 rfl), decodeVpm, hc 15 5 rfl]
    simp [hi, ha, hd, hw, Except.bind]
  | vperm w d a b | vzip w d a b | vunzip w d a b =>
    refine .of _ [(0, 5), (5, 5), (10, 5), (20, 2)] [.vec b, .vec a, .vec d, .width w] rfl rfl rfl rfl fun u lit _ hc ⟨hb, ha, hd, hw, _⟩ => ?_
    rw [decodeFields_vpm (hc 26 5 rfl), decodeVpm, hc 15 5 rfl]
    simp [hb, ha, hd, hw, Except.bind]
  | vrotl w d a e =>
    refine .of _ [(0, 5), (5, 5), (10, 5), (20, 2)] [.bits 5 e, .vec a, .vec d, .width w] rfl rfl rfl rfl fun u lit _ hc ⟨he, ha, hd, hw, _⟩ => ?_
    rw [decodeFields_vpm (hc 26 5 rfl), decodeVpm, hc 15 5 rfl]
    simp [he, ha, hd, hw, Except.bind]
  | vsel w j d a b =>
    refine .of _ [(0, 5), (5, 5), (10, 5), (15, 3), (20, 2)] [.vec b, .vec a, .vec d, .full 3 j, .width w] rfl rfl rfl rfl fun u lit _ hc ⟨hb, ha, hd,
      hj, hw, _⟩ => ?_
    have hm : fld u 15 5 = j.val + 8 := by rw [fld_split u 15 3 2, hc 18 2 rfl, ← hj]; rfl
    have hv : decodeVpm u lit = (decWidth u 20).bind fun w => .ok (.vsel w (decFull u 15 3) (decVOp u 10) (decVOp u 5) (decVOp u 0)) := by
      rw [decodeVpm, hm]
      fin_cases j <;> rfl
    rw [decodeFields_vpm (hc 26 5 rfl), hv]
    simp [hb, ha, hd, hj, hw, Except.bind]
  | kand k a b | kor k a b | kxor k a b =>
    refine .of _ [(6, 3), (9, 3), (12, 3)] [.full 3 b, .full 3 a, .full 3 k] rfl rfl rfl rfl fun u lit _ hc ⟨hb, ha, hk, _⟩ => ?_
    rw [decodeFields_vpm (hc 26 5 rfl), decodeVpm, hc 15 5 rfl]
    simp [hc 0 6 rfl, hc 20 2 rfl, hb, ha, hk]
  | knot k a =>
    refine .of _ [(9, 3), (12, 3)] [.full 3 a, .full 3 k] rfl rfl rfl rfl fun u lit _ hc ⟨ha, hk, _⟩ => ?_
    rw [decodeFields_vpm (hc 26 5 rfl), decodeVpm, hc 15 5 rfl]
    simp [hc 0 9 rfl, hc 20 2 rfl, ha, hk]
  | kfroms k up s =>
    refine .of _ [(0, 6), (6, 3), (12, 3)] [.src s, .half up, .full 3 k] rfl rfl rfl rfl fun u lit _ hc ⟨hs, hup, hk, _⟩ => ?_
    rw [decodeFields_vpm (hc 26 5 rfl), decodeVpm, hc 15 5 rfl]
    simp [hc 9 3 rfl, hc 20 2 rfl, hs, hup, hk, Except.bind]
  | ktos a up d =>
    refine .of _ [(0, 6), (6, 3), (9, 3)] [.dst d, .half up, .full 3 a] rfl rfl rfl rfl fun u lit _ hc ⟨hd, hup, ha, _⟩ => ?_
    rw [decodeFields_vpm (hc 26 5 rfl), decodeVpm, hc 15 5 rfl]
    simp [hc 12 3 rfl, hc 20 2 rfl, hd, hup, ha, Except.bind]
  | viota w d =>
    refine .of _ [(10, 5), (20, 2)] [.vec d, .width w] rfl rfl rfl rfl fun u lit _ hc ⟨hd, hw, _⟩ => ?_
    rw [decodeFields_vpm (hc 26 5 rfl), decodeVpm, hc 15 5 rfl]
    simp [hc 0 10 rfl, hd, hw, Except.bind]
  | _ => exact absurd h Group.noConfusion

theorem readsBack_sfu {i : Instr} (h : i.group = .sfu) : ReadsBack i := by
  cases i with
  | vexp2 w d a | vexp w d a | vlog2 w d a | vrcp w d a | vrsqrt w d a | vlog w d a | vsin w d a | vcos w d a | vtanh w d a | vsigm w d a
  | verf w d a | vsilu w d a =>
    refine .of _ [(5, 5), (10, 5), (20, 1)] [.vec a, .vec d, .bit w] rfl rfl rfl rfl fun u lit _ hc ⟨ha, hd, hw, _⟩ => ?_
    rw [decodeFields_sfu (hc 26 5 rfl), decodeSfu, hc 15 5 rfl]
    simp [hc 0 5 rfl, hc 21 1 rfl, ha, hd, hw]
  | _ => exact absurd h Group.noConfusion

theorem readsBack_mem {i : Instr} (h : i.group = .mem) : ReadsBack i := by
  cases i with
  | ldb d b m i | ldh d b m i | ldw d b m i | ldd d b m i =>
    refine .of _ [(0, 4), (4, 3), (7, 6), (13, 6)] [.bits 4 i, .full 3 m, .src b, .dst d] rfl rfl rfl rfl fun u lit _ hc ⟨hi, hm, hb, hd, _⟩ => ?_
    rw [decodeFields_ld (hc 26 5 rfl), decodeLd, hc 19 3 rfl]
    simp [hi, hm, hb, hd, Except.bind]
  | ldv256 v b m i | ldv512 v b m i | ldv1k v b m i | ldbc v b m i =>
    refine .of _ [(0, 4), (4, 3), (7, 6), (13, 5)] [.bits 4 i, .full 3 m, .src b, .vec v] rfl rfl rfl rfl fun u lit _ hc ⟨hi, hm, hb, hv, _⟩ => ?_
    rw [decodeFields_ld (hc 26 5 rfl), decodeLd, hc 19 3 rfl]
    simp [hc 18 1 rfl, hi, hm, hb, hv]
  | stb a b m i | sth a b m i | stw a b m i | std a b m i =>
    refine .of _ [(0, 4), (4, 3), (7, 6), (13, 6)] [.bits 4 i, .full 3 m, .src b, .src a] rfl rfl rfl rfl fun u lit _ hc ⟨hi, hm, hb, ha, _⟩ => ?_
    rw [decodeFields_st (hc 26 5 rfl), decodeSt, hc 19 3 rfl]
    simp [hi, hm, hb, ha]
  | stv256 v b m i | stv512 v b m i | stv1k v b m i | stvk v b m i =>
    refine .of _ [(0, 4), (4, 3), (7, 6), (13, 5)] [.bits 4 i, .full 3 m, .src b, .vec v] rfl rfl rfl rfl fun u lit _ hc ⟨hi, hm, hb, hv, _⟩ => ?_
    rw [decodeFields_st (hc 26 5 rfl), decodeSt, hc 19 3 rfl]
    simp [hc 18 1 rfl, hi, hm, hb, hv]
  | aswap d a b s z | aadd d a b s z | aand d a b s z | aor d a b s z | amax d a b s z | amin d a b s z | acas d a b s z =>
    refine .of _ [(0, 1), (1, 3), (7, 5), (12, 5), (17, 5)] [.bit z, .scope s, .full 5 b, .full 5 a, .full 5 d] rfl rfl rfl rfl fun u lit _ hc ⟨hz,
      hs, hb, ha, hd, _⟩ => ?_
    rw [decodeFields_atm (hc 26 5 rfl), decodeAtm, hc 4 3 rfl]
    simp [hz, hs, hb, ha, hd, Except.bind]
  | afadd d a b s =>
    refine .of _ [(1, 3), (7, 5), (12, 5), (17, 5)] [.scope s, .full 5 b, .full 5 a, .full 5 d] rfl rfl rfl rfl fun u lit _ hc ⟨hs, hb, ha, hd, _⟩ =>
      ?_
    rw [decodeFields_atm (hc 26 5 rfl), decodeAtm, hc 4 3 rfl]
    simp [hc 0 1 rfl, hs, hb, ha, hd, Except.bind]
  | _ => exact absurd h Group.noConfusion

theorem readsBack_branch {i : Instr} (h : i.group = .branch) : ReadsBack i := by
  cases i with
  | br o | call o =>
    refine .of _ [(0, 19)] [.bits 19 o] rfl rfl rfl rfl fun u lit _ hc ⟨ho, _⟩ => ?_
    rw [decodeFields_br (hc 26 5 rfl), decodeBr, hc 19 3 rfl]
    simp [ho]
  | bi a | calli a | ret a =>
    refine .of _ [(13, 6)] [.src a] rfl rfl rfl rfl fun u lit _ hc ⟨ha, _⟩ => ?_
    rw [decodeFields_br (hc 26 5 rfl), decodeBr, hc 19 3 rfl]
    simp [hc 0 13 rfl, ha]
  | bk k o | bkn k o =>
    refine .of _ [(0, 16), (16, 3)] [.bits 16 o, .full 3 k] rfl rfl rfl rfl fun u lit _ hc ⟨ho, hk, _⟩ => ?_
    rw [decodeFields_br (hc 26 5 rfl), decodeBr, hc 19 3 rfl]
    simp [ho, hk]
  | loop a o =>
    refine .of _ [(0, 13), (13, 6)] [.bits 13 o, .src a] rfl rfl rfl rfl fun u lit _ hc ⟨ho, ha, _⟩ => ?_
    rw [decodeFields_loop (hc 26 5 rfl), decodeLoop, hc 19 3 rfl]
    simp [ho, ha]
  | loopi n o =>
    refine .of _ [(0, 10), (10, 9)] [.bits 10 o, .bits 9 n] rfl rfl rfl rfl fun u lit _ hc ⟨ho, hn, _⟩ => ?_
    rw [decodeFields_loop (hc 26 5 rfl), decodeLoop, hc 19 3 rfl]
    simp [ho, hn]
  | lexit l =>
    refine .of _ [(16, 3)] [.upTo 3 6 (by decide) l] rfl rfl rfl rfl fun u lit _ hc ⟨hl, _⟩ => ?_
    rw [decodeFields_loop (hc 26 5 rfl), decodeLoop, hc 19 3 rfl]
    simp [hc 0 16 rfl, hl, Except.bind]
  | rdlp d x l =>
    refine .of _ [(9, 3), (12, 1), (13, 6)] [.upTo 3 6 (by decide) l, .bit x, .dst d] rfl rfl rfl rfl fun u lit _ hc ⟨hl, hx, hd, _⟩ => ?_
    rw [decodeFields_loop (hc 26 5 rfl), decodeLoop, hc 19 3 rfl]
    simp [hc 0 9 rfl, hl, hx, hd, Except.bind]
  | wrlp a x l =>
    refine .of _ [(9, 3), (12, 1), (13, 6)] [.upTo 3 6 (by decide) l, .bit x, .src a] rfl rfl rfl rfl fun u lit _ hc ⟨hl, hx, ha, _⟩ => ?_
    rw [decodeFields_loop (hc 26 5 rfl), decodeLoop, hc 19 3 rfl]
    simp [hc 0 9 rfl, hl, hx, ha, Except.bind]
  | replay a n =>
    refine .of _ [(7, 6), (13, 6)] [.bits 6 n, .src a] rfl rfl rfl rfl fun u lit _ hc ⟨hn, ha, _⟩ => ?_
    rw [decodeFields_loop (hc 26 5 rfl), decodeLoop, hc 19 3 rfl]
    simp [hc 0 7 rfl, hn, ha]
  | stgset p n =>
    refine .of _ [(12, 3), (15, 4)] [.bits 3 n, .full 4 p] rfl rfl rfl rfl fun u lit _ hc ⟨hn, hp, _⟩ => ?_
    rw [decodeFields_loop (hc 26 5 rfl), decodeLoop, hc 19 3 rfl]
    simp [hc 0 12 rfl, hn, hp]
  | _ => exact absurd h Group.noConfusion

theorem readsBack_other {i : Instr} (h : i.group = .other) : ReadsBack i := by
  cases i with
  | fence s o =>
    refine .of _ [(13, 2), (15, 3)] [.order o, .scope s] rfl rfl rfl rfl fun u lit _ hc ⟨ho, hs, _⟩ => ?_
    rw [decodeFields_sync (hc 26 5 rfl), decodeSync, hc 18 4 rfl]
    simp [hc 0 13 rfl, ho, hs, Except.bind]
  | drain | gphase =>
    refine .of _ [] [] rfl rfl rfl rfl fun u lit _ hc _ => ?_
    rw [decodeFields_sync (hc 26 5 rfl), decodeSync, hc 18 4 rfl]
    simp [hc 0 18 rfl]
  | lda d b s z =>
    refine .of _ [(1, 2), (3, 3), (6, 6), (12, 6)] [.size z, .scope s, .src b, .dst d] rfl rfl rfl rfl fun u lit _ hc ⟨hz, hs, hb, hd, _⟩ => ?_
    rw [decodeFields_sync (hc 26 5 rfl), decodeSync, hc 18 4 rfl]
    simp [hc 0 1 rfl, hz, hs, hb, hd, Except.bind]
  | strl a b s z =>
    refine .of _ [(1, 2), (3, 3), (6, 6), (12, 6)] [.size z, .scope s, .src b, .src a] rfl rfl rfl rfl fun u lit _ hc ⟨hz, hs, hb, ha, _⟩ => ?_
    rw [decodeFields_sync (hc 26 5 rfl), decodeSync, hc 18 4 rfl]
    simp [hc 0 1 rfl, hz, hs, hb, ha, Except.bind]
  | waiteng t =>
    refine .of _ [(12, 6)] [.full 6 t] rfl rfl rfl rfl fun u lit _ hc ⟨ht, _⟩ => ?_
    rw [decodeFields_sync (hc 26 5 rfl), decodeSync, hc 18 4 rfl]
    simp [hc 0 12 rfl, ht]
  | arrive b | waitb b | rdv b =>
    refine .of _ [(14, 4)] [.full 4 b] rfl rfl rfl rfl fun u lit _ hc ⟨hb, _⟩ => ?_
    rw [decodeFields_sync (hc 26 5 rfl), decodeSync, hc 18 4 rfl]
    simp [hc 0 14 rfl, hb]
  | wcfg w s | wskip w s | wicnt w s =>
    refine .of _ [(9, 6), (15, 4)] [.src s, .full 4 w] rfl rfl rfl rfl fun u lit _ hc ⟨hs, hw, _⟩ => ?_
    rw [decodeFields_win (hc 26 5 rfl), decodeWin, hc 19 3 rfl]
    simp [hc 0 9 rfl, hs, hw]
  | wset w s t =>
    refine .of _ [(3, 6), (9, 6), (15, 4)] [.src t, .src s, .full 4 w] rfl rfl rfl rfl fun u lit _ hc ⟨ht, hs, hw, _⟩ => ?_
    rw [decodeFields_win (hc 26 5 rfl), decodeWin, hc 19 3 rfl]
    simp [hc 0 3 rfl, ht, hs, hw]
  | wget w s t =>
    refine .of _ [(3, 6), (9, 6), (15, 4)] [.src t, .dst s, .full 4 w] rfl rfl rfl rfl fun u lit _ hc ⟨ht, hs, hw, _⟩ => ?_
    rw [decodeFields_win (hc 26 5 rfl), decodeWin, hc 19 3 rfl]
    simp [hc 0 3 rfl, ht, hs, hw, Except.bind]
  | wrst w | wisect w =>
    refine .of _ [(15, 4)] [.full 4 w] rfl rfl rfl rfl fun u lit _ hc ⟨hw, _⟩ => ?_
    rw [decodeFields_win (hc 26 5 rfl), decodeWin, hc 19 3 rfl]
    simp [hc 0 15 rfl, hw]
  | wstat w s =>
    refine .of _ [(9, 6), (15, 4)] [.dst s, .full 4 w] rfl rfl rfl rfl fun u lit _ hc ⟨hs, hw, _⟩ => ?_
    rw [decodeFields_win (hc 26 5 rfl), decodeWin, hc 19 3 rfl]
    simp [hc 0 9 rfl, hs, hw, Except.bind]
  | mcall a r m =>
    refine .of _ [(6, 3), (9, 8), (17, 2)] [.full 3 m, .bits 8 r, .full 2 a] rfl rfl rfl rfl fun u lit _ hc ⟨hm, hr, ha, _⟩ => ?_
    rw [decodeFields_mxc (hc 26 5 rfl), decodeMxc, hc 19 3 rfl]
    simp [hc 0 6 rfl, hm, hr, ha]
  | mset m a =>
    refine .of _ [(10, 6), (16, 3)] [.src a, .full 3 m] rfl rfl rfl rfl fun u lit _ hc ⟨ha, hm, _⟩ => ?_
    rw [decodeFields_mxc (hc 26 5 rfl), decodeMxc, hc 19 3 rfl]
    simp [hc 0 10 rfl, ha, hm]
  | mget m d =>
    refine .of _ [(10, 6), (16, 3)] [.dst d, .full 3 m] rfl rfl rfl rfl fun u lit _ hc ⟨hd, hm, _⟩ => ?_
    rw [decodeFields_mxc (hc 26 5 rfl), decodeMxc, hc 19 3 rfl]
    simp [hc 0 10 rfl, hd, hm, Except.bind]
  | mzero a | mwait a =>
    refine .of _ [(17, 2)] [.full 2 a] rfl rfl rfl rfl fun u lit _ hc ⟨ha, _⟩ => ?_
    rw [decodeFields_mxc (hc 26 5 rfl), decodeMxc, hc 19 3 rfl]
    simp [hc 0 17 rfl, ha]
  | mdrain a clr v f =>
    refine .of _ [(8, 3), (11, 5), (16, 1), (17, 2)] [.upTo 3 6 (by decide) f, .vec v, .bit clr, .full 2 a] rfl rfl rfl rfl fun u lit _ hc ⟨hf, hv,
      hclr, ha, _⟩ => ?_
    rw [decodeFields_mxc (hc 26 5 rfl), decodeMxc, hc 19 3 rfl]
    simp [hc 0 8 rfl, hf, hv, hclr, ha, Except.bind]
  | mstat a d =>
    refine .of _ [(10, 6), (17, 2)] [.dst d, .full 2 a] rfl rfl rfl rfl fun u lit _ hc ⟨hd, ha, _⟩ => ?_
    rw [decodeFields_mxc (hc 26 5 rfl), decodeMxc, hc 19 3 rfl]
    simp [hc 0 10 rfl, hc 16 1 rfl, hd, ha, Except.bind]
  | mcfg a s =>
    refine .of _ [(6, 4), (10, 6)] [.sel s, .src a] rfl rfl rfl rfl fun u lit _ hc ⟨hs, ha, _⟩ => ?_
    rw [decodeFields_mxc (hc 26 5 rfl), decodeMxc, hc 19 3 rfl]
    simp [hc 0 6 rfl, hc 16 3 rfl, hs, ha, Except.bind]
  | rcfg b s i p e n =>
    refine .of _ [(5, 1), (6, 1), (7, 1), (8, 1), (9, 6), (15, 4)] [.bit n, .bit e, .bit p, .bit i, .src s, .full 4 b] rfl rfl rfl rfl fun u lit _ hc
      ⟨hn, he, hp, hi, hs, hb, _⟩ => ?_
    rw [decodeFields_rng (hc 26 5 rfl), decodeRng, hc 19 3 rfl]
    simp [hc 0 5 rfl, hn, he, hp, hi, hs, hb]
  | racq b | rpub b | rwait b | rrel b | reos b =>
    refine .of _ [(15, 4)] [.full 4 b] rfl rfl rfl rfl fun u lit _ hc ⟨hb, _⟩ => ?_
    rw [decodeFields_rng (hc 26 5 rfl), decodeRng, hc 19 3 rfl]
    simp [hc 0 15 rfl, hb]
  | rstat b d i =>
    refine .of _ [(0, 9), (9, 6), (15, 4)] [.upTo 9 7 (by decide) i, .dst d, .full 4 b] rfl rfl rfl rfl fun u lit _ hc ⟨hi, hd, hb, _⟩ => ?_
    rw [decodeFields_rng (hc 26 5 rfl), decodeRng, hc 19 3 rfl]
    simp [hi, hd, hb, Except.bind]
  | rmask b s =>
    refine .of _ [(9, 6), (15, 4)] [.src s, .full 4 b] rfl rfl rfl rfl fun u lit _ hc ⟨hs, hb, _⟩ => ?_
    rw [decodeFields_rng (hc 26 5 rfl), decodeRng, hc 19 3 rfl]
    simp [hc 0 9 rfl, hs, hb]
  | ecopy a l s e t | egath a l s e t | escat a l s e t | esubs a l s e t | ecoll a l s e t | eckpt a l s e t | erolb a l s e t =>
    refine .of _ [(1, 6), (7, 6), (13, 3), (16, 1), (17, 1)] [.full 6 t, .src e, .scope s, .bit l, .bit a] rfl rfl rfl rfl fun u lit _ hc ⟨ht, he, hs,
      hl, ha, _⟩ => ?_
    rw [decodeFields_eng (hc 26 5 rfl), decodeEng, hc 18 4 rfl]
    simp [hc 0 1 rfl, ht, he, hs, hl, ha, Except.bind]
  | ehalo a l e t | ered a l e t =>
    refine .of _ [(1, 6), (7, 6), (16, 1), (17, 1)] [.full 6 t, .src e, .bit l, .bit a] rfl rfl rfl rfl fun u lit _ hc ⟨ht, he, hl, ha, _⟩ => ?_
    rw [decodeFields_eng (hc 26 5 rfl), decodeEng, hc 18 4 rfl]
    simp [hc 0 1 rfl, hc 13 3 rfl, ht, he, hl, ha]
  | enq q a =>
    refine .of _ [(8, 6), (14, 6)] [.src a, .full 6 q] rfl rfl rfl rfl fun u lit _ hc ⟨ha, hq, _⟩ => ?_
    rw [decodeFields_tsk (hc 26 5 rfl), decodeTsk, hc 20 2 rfl]
    simp [hc 0 8 rfl, ha, hq]
  | exit a n =>
    refine .of _ [(11, 3), (14, 6)] [.upTo 3 5 (by decide) n, .src a] rfl rfl rfl rfl fun u lit _ hc ⟨hn, ha, _⟩ => ?_
    rw [decodeFields_tsk (hc 26 5 rfl), decodeTsk, hc 20 2 rfl]
    simp [hc 0 11 rfl, hn, ha, Except.bind]
  | tid d =>
    refine .of _ [(13, 6)] [.dst d] rfl rfl rfl rfl fun u lit _ hc ⟨hd, _⟩ => ?_
    rw [decodeFields_tsk (hc 26 5 rfl), decodeTsk, hc 20 2 rfl]
    simp [hc 19 1 rfl, hc 0 13 rfl, hd, Except.bind]
  | tparm d j =>
    refine .of _ [(7, 6), (13, 6)] [.full 6 j, .dst d] rfl rfl rfl rfl fun u lit _ hc ⟨hj, hd, _⟩ => ?_
    rw [decodeFields_tsk (hc 26 5 rfl), decodeTsk, hc 20 2 rfl]
    simp [hc 0 7 rfl, hc 19 1 rfl, hj, hd, Except.bind]
  | qstat d q =>
    refine .of _ [(8, 6), (14, 6)] [.full 6 q, .dst d] rfl rfl rfl rfl fun u lit _ hc ⟨hq, hd, _⟩ => ?_
    rw [decodeFields_tsk (hc 26 5 rfl), decodeTsk, hc 20 2 rfl]
    simp [hc 0 8 rfl, hq, hd, Except.bind]
  | srd d s =>
    refine .of _ [(8, 5), (13, 6)] [.upTo 5 17 (by decide) s, .dst d] rfl rfl rfl rfl fun u lit _ hc ⟨hs, hd, _⟩ => ?_
    rw [decodeFields_stp (hc 26 5 rfl), decodeStp, hc 19 3 rfl]
    simp [hc 0 8 rfl, hs, hd, Except.bind]
  | swr a s =>
    refine .of _ [(8, 5), (13, 6)] [.upTo 5 17 (by decide) s, .src a] rfl rfl rfl rfl fun u lit _ hc ⟨hs, ha, _⟩ => ?_
    rw [decodeFields_stp (hc 26 5 rfl), decodeStp, hc 19 3 rfl]
    simp [hc 0 8 rfl, hs, ha, Except.bind]
  | tmark a b =>
    refine .of _ [(7, 6), (13, 6)] [.src b, .src a] rfl rfl rfl rfl fun u lit _ hc ⟨hb, ha, _⟩ => ?_
    rw [decodeFields_stp (hc 26 5 rfl), decodeStp, hc 19 3 rfl]
    simp [hc 0 7 rfl, hb, ha]
  | rrec a | rgate a =>
    refine .of _ [(13, 6)] [.src a] rfl rfl rfl rfl fun u lit _ hc ⟨ha, _⟩ => ?_
    rw [decodeFields_stp (hc 26 5 rfl), decodeStp, hc 19 3 rfl]
    simp [hc 0 13 rfl, ha]
  | rprobe d a =>
    refine .of _ [(7, 6), (13, 6)] [.src a, .dst d] rfl rfl rfl rfl fun u lit _ hc ⟨ha, hd, _⟩ => ?_
    rw [decodeFields_stp (hc 26 5 rfl), decodeStp, hc 19 3 rfl]
    simp [hc 0 7 rfl, ha, hd, Except.bind]
  | mmrd d =>
    refine .of _ [(13, 6)] [.dst d] rfl rfl rfl rfl fun u lit _ hc ⟨hd, _⟩ => ?_
    rw [decodeFields_stp (hc 26 5 rfl), decodeStp, hc 19 3 rfl]
    simp [hc 0 13 rfl, hd, Except.bind]
  | mmclr =>
    refine .of _ [] [] rfl rfl rfl rfl fun u lit _ hc _ => ?_
    rw [decodeFields_stp (hc 26 5 rfl), decodeStp, hc 19 3 rfl]
    simp [hc 0 19 rfl]
  | gpost q a t =>
    refine .of _ [(5, 6), (11, 6), (17, 3)] [.full 6 t, .src a, .full 3 q] rfl rfl rfl rfl fun u lit _ hc ⟨ht, ha, hq, _⟩ => ?_
    rw [decodeFields_gst (hc 26 5 rfl), decodeGst, hc 20 2 rfl]
    simp [hc 0 5 rfl, ht, ha, hq]
  | gwait q t =>
    refine .of _ [(5, 6), (17, 3)] [.full 6 t, .full 3 q] rfl rfl rfl rfl fun u lit _ hc ⟨ht, hq, _⟩ => ?_
    rw [decodeFields_gst (hc 26 5 rfl), decodeGst, hc 20 2 rfl]
    simp [hc 0 5 rfl, hc 11 6 rfl, ht, hq]
  | gstat q a d =>
    refine .of _ [(5, 6), (11, 6), (17, 3)] [.dst d, .src a, .full 3 q] rfl rfl rfl rfl fun u lit _ hc ⟨hd, ha, hq, _⟩ => ?_
    rw [decodeFields_gst (hc 26 5 rfl), decodeGst, hc 20 2 rfl]
    simp [hc 0 5 rfl, hd, ha, hq, Except.bind]
  | gpre q =>
    refine .of _ [(17, 3)] [.full 3 q] rfl rfl rfl rfl fun u lit _ hc ⟨hq, _⟩ => ?_
    rw [decodeFields_gst (hc 26 5 rfl), decodeGst, hc 20 2 rfl]
    simp [hc 0 17 rfl, hq]
  | chkeq a b =>
    refine .of _ [(7, 6), (13, 6)] [.src b, .src a] rfl rfl rfl rfl fun u lit _ hc ⟨hb, ha, _⟩ => ?_
    rw [decodeFields_chk (hc 26 5 rfl), decodeChk, hc 19 3 rfl]
    simp [hc 0 7 rfl, hb, ha]
  | chkv v w =>
    refine .of _ [(9, 5), (14, 5)] [.upTo 5 16 (by decide) w, .upTo 5 16 (by decide) v] rfl rfl rfl rfl fun u lit _ hc ⟨hw, hv, _⟩ => ?_
    rw [decodeFields_chk (hc 26 5 rfl), decodeChk, hc 19 3 rfl]
    simp [hc 0 9 rfl, hw, hv, Except.bind]
  | sig a =>
    refine .of _ [(13, 6)] [.src a] rfl rfl rfl rfl fun u lit _ hc ⟨ha, _⟩ => ?_
    rw [decodeFields_chk (hc 26 5 rfl), decodeChk, hc 19 3 rfl]
    simp [hc 0 13 rfl, ha]
  | sigrd d =>
    refine .of _ [(13, 6)] [.dst d] rfl rfl rfl rfl fun u lit _ hc ⟨hd, _⟩ => ?_
    rw [decodeFields_chk (hc 26 5 rfl), decodeChk, hc 19 3 rfl]
    simp [hc 0 13 rfl, hd, Except.bind]
  | sigclr =>
    refine .of _ [] [] rfl rfl rfl rfl fun u lit _ hc _ => ?_
    rw [decodeFields_chk (hc 26 5 rfl), decodeChk, hc 19 3 rfl]
    simp [hc 0 19 rfl]
  | trap e | brk e =>
    refine .of _ [(7, 12)] [.bits 12 e] rfl rfl rfl rfl fun u lit _ hc ⟨he, _⟩ => ?_
    rw [decodeFields_sys (hc 26 5 rfl), decodeSys, hc 19 3 rfl]
    simp [hc 0 7 rfl, he]
  | rdsys d r =>
    refine .of _ [(7, 6), (13, 6)] [.upTo 6 20 (by decide) r, .dst d] rfl rfl rfl rfl fun u lit _ hc ⟨hr, hd, _⟩ => ?_
    rw [decodeFields_sys (hc 26 5 rfl), decodeSys, hc 19 3 rfl]
    simp [hc 0 7 rfl, hr, hd, Except.bind]
  | wrsys a r =>
    refine .of _ [(7, 6), (13, 6)] [.upTo 6 20 (by decide) r, .src a] rfl rfl rfl rfl fun u lit _ hc ⟨hr, ha, _⟩ => ?_
    rw [decodeFields_sys (hc 26 5 rfl), decodeSys, hc 19 3 rfl]
    simp [hc 0 7 rfl, hr, ha, Except.bind]
  | lphase n =>
    refine .of _ [(15, 4)] [.upTo 4 15 (by decide) n] rfl rfl rfl rfl fun u lit _ hc ⟨hn, _⟩ => ?_
    rw [decodeFields_sys (hc 26 5 rfl), decodeSys, hc 19 3 rfl]
    simp [hc 0 15 rfl, hn, Except.bind]
  | rfe | halt =>
    refine .of _ [] [] rfl rfl rfl rfl fun u lit _ hc _ => ?_
    rw [decodeFields_prv (hc 26 5 rfl), decodePrv, hc 18 4 rfl]
    simp [hc 0 18 rfl]
  | ctxsave a b | ctxrest a b | mpld a b | tlbinv a b | kidset a b =>
    refine .of _ [(6, 6), (12, 6)] [.src b, .src a] rfl rfl rfl rfl fun u lit _ hc ⟨hb, ha, _⟩ => ?_
    rw [decodeFields_prv (hc 26 5 rfl), decodePrv, hc 18 4 rfl]
    simp [hc 0 6 rfl, hb, ha]
  | wrsysp a r =>
    refine .of _ [(6, 6), (12, 6)] [.upTo 6 20 (by decide) r, .src a] rfl rfl rfl rfl fun u lit _ hc ⟨hr, ha, _⟩ => ?_
    rw [decodeFields_prv (hc 26 5 rfl), decodePrv, hc 18 4 rfl]
    simp [hc 0 6 rfl, hr, ha, Except.bind]
  | kidkill a =>
    refine .of _ [(12, 6)] [.src a] rfl rfl rfl rfl fun u lit _ hc ⟨ha, _⟩ => ?_
    rw [decodeFields_prv (hc 26 5 rfl), decodePrv, hc 18 4 rfl]
    simp [hc 0 12 rfl, ha]
  | _ => exact absurd h Group.noConfusion

/-- Every slot form is read back (R36 to R44). -/
theorem readsBack_of_slot {i : Instr} (h : i.group ≠ .notSlot) : ReadsBack i := by
  cases hg : i.group with
  | bc => exact readsBack_bc hg
  | scalar => exact readsBack_scalar hg
  | vector => exact readsBack_vector hg
  | sfu => exact readsBack_sfu hg
  | mem => exact readsBack_mem hg
  | branch => exact readsBack_branch hg
  | other => exact readsBack_other hg
  | notSlot => exact absurd hg h

/-! ## Literal words -/

/-- No form has more than two scalar source fields (R36). -/
theorem Instr.srcs_length_le (i : Instr) : i.srcs.length ≤ 2 := by
  cases i <;> exact Nat.le_of_ble_eq_true rfl

/-- Two sources with at most one literal word between them both fit the first that is named (R23). -/
theorem Src.fits_of_oneLit {i : Instr} (h : i.oneLit = true) : ∀ a ∈ i.srcs, a.Fits i.litWord := by
  have hl := i.srcs_length_le
  unfold Instr.litWord
  unfold Instr.oneLit at h
  unfold Instr.lits at h ⊢
  generalize i.srcs = l at h hl ⊢
  match l, hl with
  | [], _ => simp
  | [a], _ => cases a <;> simp [Src.Fits]
  | [a, b], _ => cases a <;> cases b <;> simp_all [Src.Fits]

/-- A decoder that reads a well-formed instruction's fields answers it (R45). -/
theorem decodeBody_of_fields {u : Nat} {lit : BitVec 32} {i : Instr} (h : decodeFields u lit = .ok i) (hwf : i.wf = true) : decodeBody u lit = .ok i := by
  rw [decodeBody, h, Except.bind, if_pos hwf]

/-- Settles O1: each form's word is its fixed bits with the operands in its fields, and the decoder reads every field back. -/
theorem slotEncodingRoundTrip : Obligations.SlotEncodingRoundTrip := by
  rintro ⟨l, g, i⟩ hwf hg hbc
  have hlit := Src.fits_of_oneLit (Bool.and_eq_true_iff.mp hwf).2
  obtain ⟨hi, hl, hgd⟩ := readsBack_of_slot hg l g i.litWord hbc hlit
  rw [decodeSlot, decodeBody_of_fields hi hwf, hl, hgd, Except.bind]

end Sys2Proof
end

section
/-! SUPPORT. Results on their way to registers (R31, R32): where a new one takes its place, which registers a landing leaves alone, and what a
register reads once its result has landed. -/

namespace Sys2Proof.Machine

/-! ## Two register files alike at one register -/

/-- Two register files hold the same at a register. -/
def Regs.SameAt (r r' : Regs) : Reg → Prop
  | .s i => r'.s[i] = r.s[i]
  | .p i => r'.p[i] = r.p[i]
  | .v i => r'.v[i] = r.v[i]
  | .k i => r'.k[i] = r.k[i]
  | .sys i => r'.sys[i] = r.sys[i]
  | .mp i => r'.mp[i] = r.mp[i]
  | .md i => r'.mb[i] = r.mb[i] ∧ r'.mlen[i] = r.mlen[i] ∧ r'.mstep[i] = r.mstep[i]
  | .mxcfg => r'.drm = r.drm ∧ r'.dsat = r.dsat

theorem Regs.SameAt.refl (r : Regs) (g : Reg) : r.SameAt r g := by cases g <;> simp [SameAt]

theorem Regs.SameAt.symm {r r' : Regs} {g : Reg} (h : r.SameAt r' g) : r'.SameAt r g := by
  cases g <;> simp_all [SameAt]

theorem Regs.SameAt.trans {r r' r'' : Regs} {g : Reg} (h : r.SameAt r' g) (h' : r'.SameAt r'' g) : r.SameAt r'' g := by
  cases g <;> simp_all [SameAt]

/-- Contexts whose registers are alike at every later cycle, but for those that a test names. -/
theorem sameRegs_of_sameAt {c c' : Context} {but : Reg → Bool} (h : ∀ n g, but g = false → (c.settle n).regs.SameAt (c'.settle n).regs g) :
    SameRegs c c' but := fun n =>
  ⟨fun i => h n (.s i), fun i => h n (.p i), fun i => h n (.v i), fun i => h n (.k i), fun i => h n (.sys i), fun i => h n (.mp i), fun i => h n (.md i)⟩

/-! ## One landing -/

/-- The register that a landing value changes: the one it goes to, MAXMAG or FPFLAGS where it is an update of them (R76, R77). -/
def RegVal.target : RegVal → Reg
  | .s r _ => .s r
  | .p r _ => .p r
  | .v r _ => .v r
  | .k r _ => .k r
  | .sys r _ => .sys r
  | .mp r _ => .mp r
  | .orFlags _ => .sys rFPFLAGS
  | .mergeMag _ _ => .sys rMAXMAG

theorem RegVal.target_of_reg {v : RegVal} {q : Reg} (h : v.reg = some q) : v.target = q := by
  cases v <;> simp_all [reg, target]

theorem RegVal.target_of_merge {v : RegVal} (h : v.reg = none) : v.target = .sys rMAXMAG ∨ v.target = .sys rFPFLAGS := by
  cases v <;> simp_all [reg, target]

theorem getElem_set_fin {α : Type} {n : Nat} (xs : Vector α n) (i j : Fin n) (x : α) :
    (xs.set i x)[(j : Nat)] = if i = j then x else xs[(j : Nat)] := by
  simp [Vector.getElem_set, Fin.ext_iff]

/-- A landing leaves every other register alone. -/
theorem Regs.land_sameAt {v : RegVal} {g : Reg} (h : v.target ≠ g) (r : Regs) : r.SameAt (r.land v) g := by
  cases v with
  | s n x | p n x => simp only [land]; split <;> cases g <;> simp_all [SameAt, getElem_set_fin, RegVal.target]
  | v n x | k n x | sys n x | mp n x | orFlags f | mergeMag nan m => cases g <;> simp_all [SameAt, land, getElem_set_fin, RegVal.target]

/-- What a landing makes of a register depends on that register only. -/
theorem Regs.SameAt.land {r r' : Regs} {g : Reg} (h : r.SameAt r' g) (v : RegVal) : (r.land v).SameAt (r'.land v) g := by
  by_cases ht : v.target = g
  · subst ht
    cases v with
    | s n x | p n x => simp only [Regs.land]; split <;> simp_all [SameAt, RegVal.target]
    | sys n x => by_cases hn : n = rDOMAIN <;> simp_all [SameAt, Regs.land, RegVal.target]
    | v n x | k n x | mp n x | orFlags f | mergeMag nan m => simp_all [SameAt, Regs.land, RegVal.target]
  · exact ((Regs.land_sameAt ht r).symm.trans h).trans (Regs.land_sameAt ht r')

/-! ## Many landings -/

/-- Results land in their order. -/
def Regs.landAll (r : Regs) (ps : List PendingWrite) : Regs := ps.foldl (fun r w => r.land w.val) r

theorem Regs.SameAt.landAll {g : Reg} : ∀ (ps : List PendingWrite) {r r' : Regs}, r.SameAt r' g → (r.landAll ps).SameAt (r'.landAll ps) g
  | [], _, _, h => h
  | w :: ps, _, _, h => Regs.SameAt.landAll ps (h.land w.val)

/-- Results for other registers leave a register alone, and so does dropping them. -/
theorem Regs.landAll_filter {g : Reg} {keep : PendingWrite → Bool} : ∀ (ps : List PendingWrite) (r : Regs),
    (∀ w ∈ ps, keep w = false → w.val.target ≠ g) → (r.landAll ps).SameAt (r.landAll (ps.filter keep)) g
  | [], r, _ => .refl r g
  | w :: ps, r, h => by
    obtain ⟨hw, hps⟩ := List.forall_mem_cons.mp h
    cases hk : keep w with
    | true => simpa [hk, landAll] using Regs.landAll_filter ps (r.land w.val) hps
    | false =>
      rw [List.filter_cons_of_neg (by simp [hk])]
      exact (((Regs.land_sameAt (hw hk) r).symm).landAll ps).trans (Regs.landAll_filter ps r hps)

theorem Regs.landAll_sameAt {g : Reg} (ps : List PendingWrite) (r : Regs) (h : ∀ w ∈ ps, w.val.target ≠ g) : r.SameAt (r.landAll ps) g := by
  have := Regs.landAll_filter (keep := fun _ => false) ps r fun w hw _ => h w hw
  rw [List.filter_false] at this
  exact this.symm

theorem Regs.landAll_append (r : Regs) (as bs : List PendingWrite) : r.landAll (as ++ bs) = (r.landAll as).landAll bs := List.foldl_append

/-- A masked write keeps the bits of the mask. -/
theorem and_or_andNot_and {n : Nat} (a x m : BitVec n) : ((a &&& m) ||| (x &&& ~~~m)) &&& m = a &&& m := by
  ext i hi
  cases h : m[i] <;> simp [h]

/-- DOMAIN keeps its read-only fields (R336). -/
theorem Regs.land_domainRo (r : Regs) (v : RegVal) : (r.land v).sys[rDOMAIN] &&& domainRo = r.sys[rDOMAIN] &&& domainRo := by
  by_cases ht : v.target = .sys rDOMAIN
  · cases v with
    | sys n x =>
      obtain rfl : n = rDOMAIN := by simpa [RegVal.target] using ht
      simp [land, and_or_andNot_and]
    | orFlags f => exact absurd (Reg.sys.inj ht) (by decide)
    | mergeMag nan m => exact absurd (Reg.sys.inj ht) (by decide)
    | _ => simp [RegVal.target] at ht
  · have : (r.land v).sys[rDOMAIN] = r.sys[rDOMAIN] := Regs.land_sameAt ht r
    rw [this]

theorem Regs.landAll_domainRo : ∀ (ps : List PendingWrite) (r : Regs), (r.landAll ps).sys[rDOMAIN] &&& domainRo = r.sys[rDOMAIN] &&& domainRo
  | [], _ => rfl
  | w :: ps, r => (Regs.landAll_domainRo ps _).trans (r.land_domainRo w.val)

/-! ## The place of a new result -/

/-- A result goes after every one that is due no later, before those that are due later. -/
theorem insertDue_eq (w : PendingWrite) : ∀ ps, ∃ as bs, ps = as ++ bs ∧ insertDue w ps = as ++ w :: bs ∧ ∀ x ∈ bs, w.due < x.due
  | [] => ⟨[], [], rfl, rfl, by simp⟩
  | x :: xs => by
    obtain ⟨as, bs, hxs, hins, hbs⟩ := insertDue_eq w xs
    unfold insertDue
    split
    next => exact ⟨x :: as, bs, by rw [hxs, List.cons_append], by rw [hins, List.cons_append], hbs⟩
    next h =>
      simp only [List.any_eq_true, decide_eq_true_eq, not_or, not_exists, not_and, not_le] at h
      exact ⟨[], x :: xs, rfl, rfl, List.forall_mem_cons.mpr h⟩

/-- The results that a new one to a register leaves (R32). -/
def outlives (q : Reg) (due : Nat) (w : PendingWrite) : Bool := !(w.val.reg == some q && decide (due ≤ w.due))

/-- Where a new result stands among those that it leaves. -/
theorem addPend_eq {v : RegVal} {q : Reg} (h : v.reg = some q) (ps : List PendingWrite) (due : Nat) :
    ∃ as bs, ps.filter (outlives q due) = as ++ bs ∧ addPend ps v due = as ++ ⟨v, due⟩ :: bs ∧ (∀ x ∈ bs, due < x.due) ∧ ∀ x ∈ bs, x.val.reg ≠ some q := by
  have hf : (ps.filter fun w => !(w.val.reg.isSome && w.val.reg == v.reg && due ≤ w.due)) = ps.filter (outlives q due) := by
    refine List.filter_congr fun w _ => ?_
    rw [outlives, h]
    cases w.val.reg <;> simp
  obtain ⟨as, bs, hps, hins, hbs⟩ := insertDue_eq ⟨v, due⟩ (ps.filter (outlives q due))
  refine ⟨as, bs, hps, by rw [addPend, hf, hins], hbs, fun x hx hq => ?_⟩
  have hx' : x ∈ ps.filter (outlives q due) := hps ▸ List.mem_append_right _ hx
  have hd : due < x.due := hbs x hx
  have ho := (List.mem_filter.mp hx').2
  simp only [outlives, hq, beq_self_eq_true, Bool.true_and, Bool.not_eq_true', decide_eq_false_iff_not] at ho
  omega

/-! ## A result that is put -/

theorem Context.settle_regs (c : Context) (m : Nat) : (c.settle m).regs = c.regs.landAll (c.pend.filter fun w => w.due ≤ m) := rfl

theorem State.put_cur (s : State) (v : RegVal) (n : Nat) : (s.put v n).cur = { s.cur with pend := addPend s.cur.pend v (s.now + n) } := by
  simp [put]

theorem State.put_regs (s : State) (v : RegVal) (n m : Nat) :
    ((s.put v n).cur.settle m).regs = s.cur.regs.landAll ((addPend s.cur.pend v (s.now + n)).filter fun w => w.due ≤ m) := by
  rw [put_cur]
  rfl

/-- Nothing that is due after a cycle lands by an earlier one. -/
theorem filter_due_of_later {bs : List PendingWrite} {d m : Nat} (h : ∀ x ∈ bs, d < x.due) (hm : m < d) : (bs.filter fun w => decide (w.due ≤ m)) = [] :=
  List.filter_eq_nil_iff.mpr fun x hx => by
    have := h x hx
    simp only [decide_eq_true_eq]
    omega

/-- The registers with a result put, as they stand once it has landed and before. -/
theorem State.put_settle_regs {v : RegVal} {q : Reg} (h : v.reg = some q) (s : State) (n : Nat) : ∃ as bs,
    s.cur.pend.filter (outlives q (s.now + n)) = as ++ bs ∧ (∀ x ∈ bs, s.now + n < x.due) ∧ (∀ x ∈ bs, x.val.reg ≠ some q) ∧ ∀ m,
    ((s.put v n).cur.settle m).regs = if s.now + n ≤ m then (((s.cur.regs.landAll (as.filter fun w => w.due ≤ m)).land v).landAll (bs.filter fun w => w.due ≤ m))
      else s.cur.regs.landAll (as.filter fun w => w.due ≤ m) := by
  obtain ⟨as, bs, hps, hadd, hbs, hq⟩ := addPend_eq h s.cur.pend (s.now + n)
  refine ⟨as, bs, hps, hbs, hq, fun m => ?_⟩
  rw [State.put_regs, hadd, List.filter_append]
  split
  next hm => rw [List.filter_cons_of_pos (by simpa using hm), Regs.landAll_append]; rfl
  next hm =>
    rw [List.filter_cons_of_neg (by simpa using hm), filter_due_of_later hbs (Nat.not_le.mp hm), List.append_nil]

/-- Before it lands, a result that is put changes no register (R31). -/
theorem State.put_settle_before {v : RegVal} {q : Reg} (h : v.reg = some q) (s : State) {n m : Nat} (hm : m < s.now + n) :
    ((s.put v n).cur.settle m).regs = (s.cur.settle m).regs := by
  obtain ⟨as, bs, hps, hbs, -, hregs⟩ := s.put_settle_regs h n
  rw [hregs, if_neg (Nat.not_le.mpr hm), Context.settle_regs]
  have hall : s.cur.pend.filter (fun w => decide (w.due ≤ m)) = (as ++ bs).filter fun w => decide (w.due ≤ m) := by
    rw [← hps, List.filter_filter]
    refine List.filter_congr fun w _ => ?_
    by_cases hw : w.due ≤ m
    · have : ¬ s.now + n ≤ w.due := by omega
      simp [outlives, hw, this]
    · simp [hw]
  rw [hall, List.filter_append, filter_due_of_later hbs hm, List.append_nil]

/-- A result that is put changes no register but its own, at any cycle. -/
theorem State.put_sameAt {v : RegVal} {q g : Reg} (h : v.reg = some q) (hg : q ≠ g) (s : State) (n m : Nat) :
    (s.cur.settle m).regs.SameAt ((s.put v n).cur.settle m).regs g := by
  by_cases hm : m < s.now + n
  · rw [State.put_settle_before h s hm]; exact .refl _ g
  · obtain ⟨as, bs, hps, hbs, -, hregs⟩ := s.put_settle_regs h n
    rw [hregs, if_pos (Nat.not_lt.mp hm), Context.settle_regs]
    have hdrop := Regs.landAll_filter (g := g) (keep := outlives q (s.now + n)) (s.cur.pend.filter fun w => decide (w.due ≤ m)) s.cur.regs
      fun w _ hw => by
        simp only [outlives, Bool.not_eq_false', Bool.and_eq_true, beq_iff_eq] at hw
        rw [RegVal.target_of_reg hw.1]
        exact hg
    have hcomm : (s.cur.pend.filter fun w => decide (w.due ≤ m)).filter (outlives q (s.now + n)) =
        as.filter (fun w => decide (w.due ≤ m)) ++ bs.filter fun w => decide (w.due ≤ m) := by
      rw [← List.filter_append, ← hps, List.filter_comm]
    rw [hcomm, Regs.landAll_append] at hdrop
    exact hdrop.trans ((Regs.land_sameAt (by rwa [RegVal.target_of_reg h]) _).landAll _)

/-- Once it has landed, a register reads a result that was put, where no update of MAXMAG or FPFLAGS is to land there later. -/
theorem State.put_settle_after {v : RegVal} {q : Reg} (h : v.reg = some q) (s : State) {n m : Nat} (hm : s.now + n ≤ m)
    (hmerge : ∀ w ∈ s.cur.pend, w.val.reg = none → w.val.target ≠ q) :
    ∃ r : Regs, r.sys[rDOMAIN] &&& domainRo = s.cur.sysv rDOMAIN &&& domainRo ∧ (r.land v).SameAt ((s.put v n).cur.settle m).regs q := by
  obtain ⟨as, bs, hps, hbs, hq, hregs⟩ := s.put_settle_regs h n
  refine ⟨_, Regs.landAll_domainRo (as.filter fun w => decide (w.due ≤ m)) s.cur.regs, ?_⟩
  rw [hregs, if_pos hm]
  refine Regs.landAll_sameAt _ _ fun w hw => ?_
  have hwb := (List.mem_filter.mp hw).1
  cases hr : w.val.reg with
  | none =>
    have hwp : w ∈ s.cur.pend.filter (outlives q (s.now + n)) := hps ▸ List.mem_append_right _ hwb
    exact hmerge w (List.mem_filter.mp hwp).1 hr
  | some g =>
    rw [RegVal.target_of_reg hr]
    exact fun hgq => hq w hwb (hgq ▸ hr)

/-- A result that is put drops no update of MAXMAG or FPFLAGS (log 79). -/
theorem State.mem_put_of_merge {w : PendingWrite} {s : State} (hw : w ∈ s.cur.pend) (hr : w.val.reg = none) (v : RegVal) (n : Nat) : w ∈ (s.put v n).cur.pend := by
  rw [State.put_cur]
  exact (mem_insertDue _ _ _).mpr (.inr (List.mem_filter.mpr ⟨hw, by simp [hr]⟩))

/-- An update of MAXMAG or FPFLAGS that is due later lands on the result that was put (log 79). -/
theorem State.put_settle_merge {s : State} {u : RegVal} {due n m : Nat} (hp : s.cur.pend = [⟨u, due⟩]) (hu : u.reg = none) (hdue : s.now + n < due)
    (hm : due ≤ m) {v : RegVal} : ((s.put v n).cur.settle m).regs = (s.cur.regs.land v).land u := by
  rw [State.put_regs, hp]
  have hadd : addPend [⟨u, due⟩] v (s.now + n) = [⟨v, s.now + n⟩, ⟨u, due⟩] := by simp [addPend, insertDue, hu, Nat.not_le.mpr hdue]
  rw [hadd]
  simp [hdue.le.trans hm, hm, Regs.landAll]

/-- A bundle waits for an interlocked result that one of its slots reads or writes (R33). -/
theorem State.mustWait_of_inFlight {s : State} {ss : List Slot} {x : Indexed} {r : Reg} (hx : x ∈ s.active ss)
    (hr : r ∈ s.slotReads x.2.op ++ s.slotWrites x.2.op) (hf : s.cur.inFlight r = true) : s.mustWait ss = true := by
  have : (s.active ss).any (fun x => ((s.slotReads x.2.op ++ s.slotWrites x.2.op).any fun r => s.cur.inFlight r) ||
      ((s.slotWins x.2.op).any fun w => s.cur.windrows[w].state == .busy)) = true :=
    List.any_eq_true.mpr ⟨x, hx, by simp only [Bool.or_eq_true]; exact .inl (List.any_eq_true.mpr ⟨r, hr, hf⟩)⟩
  simp only [mustWait, this, Bool.or_true, Bool.true_or]

/-- Settles O55: a result goes behind those due no later, and landings at other registers do not touch its own. -/
theorem landingAndLatency : Obligations.LandingAndLatency := by
  intro s n
  refine ⟨fun v r h => ⟨fun m hm => s.put_settle_before h hm, sameRegs_of_sameAt fun m g hg => s.put_sameAt h (beq_eq_false_iff_ne.mp hg).symm n m⟩,
    fun m hm => ?_, fun v w hw hr => State.mem_put_of_merge hw hr v n, fun x nan mag f due m hdue hm => ?_,
    fun ss x r hx hr hf => State.mustWait_of_inFlight hx hr hf⟩
  · have hmerge : ∀ q : Reg, q ≠ .sys rMAXMAG → q ≠ .sys rFPFLAGS → ∀ w ∈ s.cur.pend, w.val.reg = none → w.val.target ≠ q :=
      fun q hmag hflags w _ hr => by rcases RegVal.target_of_merge hr with h | h <;> rw [h] <;> exact Ne.symm ‹_›
    have hnone : ∀ q : Reg, (∀ w ∈ s.cur.pend, w.val.reg ≠ none) → ∀ w ∈ s.cur.pend, w.val.reg = none → w.val.target ≠ q :=
      fun q h w hw hr => absurd hr (h w hw)
    refine ⟨fun r x hr => ?_, fun r x hr => ?_, fun r x => ?_, fun r x => ?_, fun r x hd hmag hflags => ?_, fun r x hd hno => ?_, fun x => ?_, fun r x => ?_⟩
    · obtain ⟨r', -, h⟩ := State.put_settle_after (v := .s r x) rfl s hm (hmerge _ (by simp) (by simp))
      simpa [Regs.SameAt, Regs.land, hr] using h
    · obtain ⟨r', -, h⟩ := State.put_settle_after (v := .p r x) rfl s hm (hmerge _ (by simp) (by simp))
      simpa [Regs.SameAt, Regs.land, hr] using h
    · obtain ⟨r', -, h⟩ := State.put_settle_after (v := .v r x) rfl s hm (hmerge _ (by simp) (by simp))
      simpa [Regs.SameAt] using h
    · obtain ⟨r', -, h⟩ := State.put_settle_after (v := .k r x) rfl s hm (hmerge _ (by simp) (by simp))
      simpa [Regs.SameAt] using h
    · obtain ⟨r', -, h⟩ := State.put_settle_after (v := .sys r x) rfl s hm (hmerge _ (by simpa using hmag) (by simpa using hflags))
      simpa [Regs.SameAt, hd] using h
    · obtain ⟨r', -, h⟩ := State.put_settle_after (v := .sys r x) rfl s hm (hnone _ hno)
      simpa [Regs.SameAt, hd] using h
    · obtain ⟨r', hro, h⟩ := State.put_settle_after (v := .sys rDOMAIN x) rfl s hm (hmerge _ (by decide) (by decide))
      rw [← hro]
      simpa [Regs.SameAt, Regs.land] using h
    · obtain ⟨r', -, h⟩ := State.put_settle_after (v := .mp r x) rfl s hm (hmerge _ (by simp) (by simp))
      simpa [Regs.SameAt] using h
  · have hne : rMAXMAG ≠ rDOMAIN ∧ rFPFLAGS ≠ rDOMAIN := by decide
    refine ⟨fun hp => ?_, fun hp => ?_⟩
    · simp [State.put_settle_merge hp rfl hdue hm, Regs.land, hne.1]
    · simp [State.put_settle_merge hp rfl hdue hm, Regs.land, hne.2]

end Sys2Proof.Machine
end

section
/-! SUPPORT. Register forms (R86 to R92): a state that differs from another in the registers of the issuing context, what is on its way to them
included, and what a scalar or predicate result leaves alone (R31, R415). -/

namespace Sys2Proof.Machine

/-! ## Two changes of one place -/

theorem tput_tput {α : Type} (t : Table α) (k : Nat) (x y : α) : tput (tput t k x) k y = tput t k y := by
  induction t with
  | nil => simp [tput]
  | cons p t ih =>
    obtain ⟨j, z⟩ := p
    by_cases h : k < j
    · simp [tput, h]
    · by_cases he : k = j
      · subst he; simp [tput]
      · simp [tput, h, he, ih]

theorem State.modCtx_modCtx (s : State) (k : Nat) (j : Fin 4) (f g : Context → Context) : (s.modCtx k j f).modCtx k j g = s.modCtx k j fun c => g (f c) := by
  simp only [State.modCtx, State.core_setCore_self, State.ctxAt]
  simp [State.setCore, tput_tput, Core.setCtx]

theorem State.modCur_modCur (s : State) (f g : Context → Context) : (s.modCur f).modCur g = s.modCur fun c => g (f c) := s.modCtx_modCtx _ _ f g

/-- A change of the issuing context depends on what it makes of the context as it stands. -/
theorem State.modCur_congr {s : State} {f g : Context → Context} (h : f s.cur = g s.cur) : s.modCur f = s.modCur g := by
  simp only [State.modCur, State.modCtx]
  rw [show f (s.ctxAt s.issue.core s.issue.slot) = g (s.ctxAt s.issue.core s.issue.slot) from h]

/-! ## States that differ in registers -/

/-- t is s but for the registers of the issuing context, what is on its way to them included. -/
def OnlyRegs (s t : State) : Prop := t = s ∨ ∃ regs pend, t = s.modCur fun c => { c with regs := regs, pend := pend }

namespace OnlyRegs

variable {s t u : State}

theorem refl (s : State) : OnlyRegs s s := .inl rfl

theorem modCur (s : State) (f : Context → Regs) (g : Context → List PendingWrite) : OnlyRegs s (s.modCur fun c => { c with regs := f c, pend := g c }) :=
  .inr ⟨f s.cur, g s.cur, State.modCur_congr rfl⟩

theorem trans (h : OnlyRegs s t) (h' : OnlyRegs t u) : OnlyRegs s u := by
  obtain rfl | ⟨r, p, rfl⟩ := h
  · exact h'
  · obtain rfl | ⟨r', p', rfl⟩ := h'
    · exact .inr ⟨r, p, rfl⟩
    · exact .inr ⟨r', p', State.modCur_modCur ..⟩

variable (h : OnlyRegs s t)
include h

theorem onlyCur : t = s ∨ OnlyCur s t := by
  obtain rfl | ⟨r, p, rfl⟩ := h
  · exact .inl rfl
  · exact .inr (s.modCur_onlyCur _)

theorem issue : t.issue = s.issue := by
  obtain rfl | ⟨r, p, rfl⟩ := h <;> rfl

theorem mem : t.mem = s.mem := by
  obtain rfl | ⟨r, p, rfl⟩ := h <;> rfl

theorem loft (n : Nat) : (t.core n).loft = (s.core n).loft := by
  obtain rfl | ⟨r, p, rfl⟩ := h
  · rfl
  · rw [State.modCur, State.modCtx, State.core_setCore]
    split
    · subst_vars; rfl
    · rfl

/-- The rest of the issuing context. -/
theorem cur : t.cur.windrows = s.cur.windrows ∧ t.cur.rings = s.cur.rings ∧ t.cur.tokens = s.cur.tokens ∧ t.cur.loop = s.cur.loop ∧
    t.cur.region = s.cur.region ∧ t.cur.pc = s.cur.pc := by
  obtain rfl | ⟨r, p, rfl⟩ := h
  · exact ⟨rfl, rfl, rfl, rfl, rfl, rfl⟩
  · rw [State.cur_modCur]
    exact ⟨rfl, rfl, rfl, rfl, rfl, rfl⟩

end OnlyRegs

/-! ## Results -/

theorem SameRegs.refl (c : Context) (but : Reg → Bool) : SameRegs c c but := sameRegs_of_sameAt fun _ g _ => .refl _ g

theorem State.put_onlyRegs (s : State) (v : RegVal) (n : Nat) : OnlyRegs s (s.put v n) := .modCur s Context.regs _

/-- A scalar write clears INJECT where it disarms it, and no more (R415). -/
theorem injectScalar_eq (c : Context) (r : Fin 63) (v : Word) : ∃ v', injectScalar c r v = (v', c) ∨ injectScalar c r v = (v', c.setSys rINJECT 0) := by
  unfold injectScalar
  dsimp only
  split
  · exact ⟨_, .inr rfl⟩
  · exact ⟨_, .inl rfl⟩

/-- A scalar result is a result that is put, after INJECT is cleared where it is disarmed. -/
theorem State.putS_eq (s : State) {r : Fin 63} (hr : r.val ≠ 0) (v : Word) (n : Nat) :
    ∃ v' t, s.putS r v n = t.put (.s r v') n ∧ (t = s ∨ t = s.modCur fun c => c.setSys rINJECT 0) := by
  rw [putS, if_neg hr]
  obtain ⟨v', hi | hi⟩ := injectScalar_eq s.cur r v
  · exact ⟨v', s, State.modCur_congr (by dsimp only; rw [hi]), .inl rfl⟩
  · refine ⟨v', _, ?_, .inr rfl⟩
    rw [put, State.modCur_modCur]
    exact State.modCur_congr (by dsimp only; rw [hi]; rfl)

theorem State.setSys_onlyRegs (s : State) (r : Fin 20) (v : Word) : OnlyRegs s (s.modCur fun c => c.setSys r v) :=
  .modCur s (fun c => { c.regs with sys := c.regs.sys.set r v }) Context.pend

/-- A scalar result is for the registers alone. -/
theorem State.putS_onlyRegs (s : State) (r : Fin 63) (v : Word) (n : Nat) : OnlyRegs s (s.putS r v n) := by
  by_cases hr : r.val = 0
  · rw [putS, if_pos hr]; exact .refl s
  · obtain ⟨v', t, ht, rfl | rfl⟩ := s.putS_eq hr v n
    · rw [ht]; exact put_onlyRegs ..
    · rw [ht]; exact (setSys_onlyRegs ..).trans (put_onlyRegs ..)

/-- A scalar result changes its register, and INJECT where it disarms it. -/
theorem State.putS_sameRegs (s : State) (r : Fin 63) (v : Word) (n : Nat) : SameRegs s.cur (s.putS r v n).cur fun g => g == .s r || g == .sys rINJECT := by
  by_cases hr : r.val = 0
  · rw [putS, if_pos hr]; exact .refl _ _
  · obtain ⟨v', t, ht, hs⟩ := s.putS_eq hr v n
    refine sameRegs_of_sameAt fun m g hg => ?_
    simp only [Bool.or_eq_false_iff, beq_eq_false_iff_ne] at hg
    have hinj : (s.cur.settle m).regs.SameAt (t.cur.settle m).regs g := by
      obtain rfl | rfl := hs
      · exact .refl _ g
      · rw [State.cur_modCur]
        refine Regs.SameAt.landAll _ ?_
        cases g <;> simp_all [Regs.SameAt, Context.setSys, getElem_set_fin, eq_comm]
    rw [ht]
    exact hinj.trans (t.put_sameAt rfl (Ne.symm hg.1) n m)

theorem State.putP_onlyRegs (s : State) (r : Fin 16) (v : Bool) (n : Nat) : OnlyRegs s (s.putP r v n) := by
  unfold putP
  split
  · exact .refl s
  · exact put_onlyRegs ..

theorem State.putP_sameAt (s : State) (r : Fin 16) (v : Bool) (n m : Nat) {g : Reg} (hg : .p r ≠ g) :
    (s.cur.settle m).regs.SameAt ((s.putP r v n).cur.settle m).regs g := by
  unfold putP
  split
  · exact .refl _ g
  · exact s.put_sameAt rfl hg n m

/-- A truth value is for the registers alone. -/
theorem State.putT_onlyRegs (s : State) (p : Fin 16) (z x : Bool) : OnlyRegs s (s.putT p z x) := by
  cases z with
  | false => exact putP_onlyRegs ..
  | true => exact (putP_onlyRegs ..).trans (putP_onlyRegs ..)

/-- A truth value changes its predicate, and with C the next one (R91). -/
theorem State.putT_sameRegs (s : State) (p : Fin 16) (z x : Bool) : SameRegs s.cur (s.putT p z x).cur fun g => g == .p p || (z && g == .p (p + 1)) := by
  refine sameRegs_of_sameAt fun m g hg => ?_
  simp only [Bool.or_eq_false_iff, Bool.and_eq_false_iff, beq_eq_false_iff_ne] at hg
  obtain ⟨hp, hz⟩ := hg
  have h1 := s.putP_sameAt p x 1 m (Ne.symm hp)
  cases z with
  | false => exact h1
  | true => exact h1.trans (putP_sameAt _ _ _ _ _ (Ne.symm (hz.resolve_left Bool.noConfusion)))

/-- Settles O56: every scalar form puts one scalar result, every compare one truth value. -/
theorem registerFormFrame : Obligations.RegisterFormFrame := by
  intro s d a b p q r m c z k x y
  refine ⟨fun i hi => ?_, fun i hi => ?_⟩
  · obtain ⟨v, n, hv⟩ : ∃ v n, exec i s = .next (s.putS d v n) := by
      fin_cases hi <;> exact ⟨_, _, rfl⟩
    have h := s.putS_onlyRegs d v n
    obtain ⟨hw, hr, ht, hl, hg, hpc⟩ := h.cur
    exact ⟨_, hv, h.onlyCur, h.issue, s.putS_sameRegs d v n, hw, hr, ht, hl, hg, hpc, h.mem, h.loft⟩
  · obtain ⟨v, hv⟩ : ∃ v, exec i s = .next (s.putT p z v) := by
      fin_cases hi <;> exact ⟨_, rfl⟩
    have h := s.putT_onlyRegs p z v
    obtain ⟨hw, hr, ht, hl, hg, hpc⟩ := h.cur
    exact ⟨_, hv, h.onlyCur, h.issue, s.putT_sameRegs p z v, hw, hl, hg, hpc, h.mem, h.loft⟩

end Sys2Proof.Machine
end

section
/-! SUPPORT. Reads of a windrow by a slot (R138, R141): one lemma for each way in which a read ends. -/

namespace Sys2Proof.Machine

/-- A bundle's first read of a windrow: what it leaves of the windrow, and the element vector that the bundle's later reads of it get (R24). -/
def State.consumed (s : State) (w : Fin 16) (x : Windrow) (v : Vec) : State :=
  { s.setWin w x with issue := { s.issue with elems := (w, v) :: s.issue.elems } }

theorem State.win_consumed (s : State) (w y : Fin 16) (x : Windrow) (v : Vec) : (s.consumed w x v).win y = if w = y then x else s.win y :=
  s.win_setWin w y x

/-- A windrow that the bundle has read gives the same element vector again. -/
theorem State.readWin_again {s : State} {w : Fin 16} {v : Vec} {l l' : List (Fin 16 × Vec)} (h : s.issue.elems = l ++ (w, v) :: l')
    (hl : ∀ y ∈ l, y.1 ≠ w) (bits : Nat) : s.readWin w bits = .ok v s := by
  have hf : (s.issue.elems.find? fun x => x.1 == w) = some (w, v) := by
    rw [h, List.find?_append, List.find?_eq_none.mpr fun y hy => by simpa using hl y hy]
    simp
  simp only [readWin, hf]

theorem State.readWin_consumed (s : State) (w : Fin 16) (x : Windrow) (v : Vec) (bits : Nat) :
    (s.consumed w x v).readWin w bits = .ok v (s.consumed w x v) := readWin_again (l := []) rfl (by simp) bits

section
variable {s : State} {w : Fin 16} {bits : Nat} (fresh : ∀ y ∈ s.issue.elems, y.1 ≠ w)
include fresh

theorem State.elems_find_none : (s.issue.elems.find? fun x => x.1 == w) = none := List.find?_eq_none.mpr fun y hy => by simpa using fresh y hy

theorem State.readWin_misused (h : (s.win w).misused false bits = true) : s.readWin w bits = .stop s.illop := by
  simp [readWin, elems_find_none fresh, h]

variable (used : (s.win w).misused false bits = false)
include used

theorem State.readWin_atomicOut (h : s.cur.atomicOut = true) : s.readWin w bits = .stop s.wait := by
  simp [readWin, elems_find_none fresh, used, h]

variable (quiet : s.cur.atomicOut = false)
include quiet

theorem State.readWin_busy (h : (s.win w).state = .busy) : s.readWin w bits = .stop s.wait := by
  simp [readWin, elems_find_none fresh, used, quiet, h]

theorem State.readWin_done (h : (s.win w).state = .done) : s.readWin w bits = .ok 0 (s.consumed w { s.win w with ovr := true } 0) := by
  simp [readWin, elems_find_none fresh, used, quiet, h, consumed, setWin]

variable (active : (s.win w).state = .active)
include active

theorem State.readWin_width (h : (s.win w).width ≠ some ((s.win w).desc.bytes bits)) :
    s.readWin w bits = .stop (s.setWin w { s.win w with width := some ((s.win w).desc.bytes bits), buf := [] }).wait := by
  simp [readWin, elems_find_none fresh, used, quiet, active, h]

variable (width : (s.win w).width = some ((s.win w).desc.bytes bits))
include width

theorem State.readWin_empty (h : (s.win w).buf = []) : s.readWin w bits = .stop s.wait := by
  simp [readWin, elems_find_none fresh, used, quiet, active, width, h]

variable {e : WinEntry} {rest : List WinEntry} (buf : (s.win w).buf = e :: rest)
include buf

theorem State.readWin_coming (h : e.arrived = false) : s.readWin w bits = .stop s.wait := by
  simp [readWin, elems_find_none fresh, used, quiet, active, width, buf, h]

theorem State.readWin_fault {v : TrapVal} (h : e.arrived = true) (hv : e.fault = some v) : s.readWin w bits = .stop (s.raise v.cause v.info) := by
  simp [readWin, elems_find_none fresh, used, quiet, active, width, buf, h, hv]

theorem State.readWin_element (h : e.arrived = true) (hv : e.fault = none) : s.readWin w bits =
    .ok e.data (s.consumed w { s.win w with buf := rest, scale := if (s.win w).desc.scen then e.scale else (s.win w).scale }.advance e.data) := by
  simp [readWin, elems_find_none fresh, used, quiet, active, width, buf, h, hv, consumed, setWin]

end

/-- The cursor's move reaches the end with the last element vector (R134). -/
theorem Windrow.advance_state (x : Windrow) : x.advance.state = if x.n + 1 = x.desc.total then .done else x.state := rfl

/-- A slot may read a windrow in use (R141). -/
theorem Windrow.misused_read {x : Windrow} {bits : Nat} : x.misused false bits = true ↔
    x.state = .idle ∨ x.desc.dir = true ∨ x.desc.fmt = 2 ∨ (x.desc.fmt = 1 ∧ bits ≠ 256) := by
  simp [misused, or_assoc]

/-- Settles O24: the ways in which a read ends, by what the bundle has read of the windrow, its state, its width and its buffer. -/
theorem windrowReads : Obligations.WindrowReads := by
  intro s w r bits x
  refine ⟨rfl, fun v ⟨l, l', h, hl⟩ => State.readWin_again h hl bits, fun fresh => ⟨fun h => State.readWin_misused fresh (Windrow.misused_read.mpr h),
    fun hu ha => State.readWin_atomicOut fresh hu (by simpa [Context.atomicOut] using ha), fun hidle hdir hidx hmx ha => ?_⟩⟩
  have used : x.misused false bits = false := by
    rw [← Bool.not_eq_true, Windrow.misused_read]
    rintro (h | h | h | ⟨h, hb⟩)
    · exact hidle h
    · simp [hdir] at h
    · exact hidx h
    · exact hb (hmx h)
  have quiet : s.cur.atomicOut = false := by simp [Context.atomicOut, ha]
  have others : ∀ y v u, u ≠ w → (s.consumed w y v).win u = s.win u := fun y v u hu => by rw [State.win_consumed, if_neg (Ne.symm hu)]
  refine ⟨State.readWin_busy fresh used quiet, fun hd => ?_, fun e rest hact hwid hbuf => ⟨?_, ?_, fun har hf => ?_⟩, ?_, ?_⟩
  · exact ⟨_, State.readWin_done fresh used quiet hd, by rw [State.win_consumed, if_pos rfl], others _ _, State.readWin_consumed ..⟩
  · exact State.readWin_coming fresh used quiet hact hwid hbuf
  · exact fun v => State.readWin_fault fresh used quiet hact hwid hbuf
  · refine ⟨_, State.readWin_element fresh used quiet hact hwid hbuf har hf, ?_, ?_, ?_, ?_, others _ _, State.readWin_consumed ..⟩ <;>
      rw [State.win_consumed, if_pos rfl]
    · rfl
    · rfl
    · rw [Windrow.advance_state, hact]
    · rfl
  · exact State.readWin_empty fresh used quiet
  · exact State.readWin_width fresh used quiet

end Sys2Proof.Machine
end

section
/-! SUPPORT. Stores to the context's own scratchpad (R143, R271): how a part of a line enters the region's buffer, how a store that crosses lines
completes, and what a store form does. -/

namespace Sys2Proof.Machine

/-! ## The region of the issuing context -/

/-- t is s but for the open region of the issuing context. -/
def State.withRegion (s : State) (r : Region) : State := s.modCur fun c => { c with region := r }

@[simp] theorem State.withRegion_cur (s : State) (r : Region) : (s.withRegion r).cur = { s.cur with region := r } := by simp [withRegion]

@[simp] theorem State.withRegion_issue (s : State) (r : Region) : (s.withRegion r).issue = s.issue := rfl

theorem State.withRegion_withRegion (s : State) (r r' : Region) : (s.withRegion r).withRegion r' = s.withRegion r' := s.modCur_modCur _ _

/-- The step that a target asks for depends on the contexts' states and LREQ only (R207). -/
theorem Core.target_setCtx (c : Core) (j : Fin 4) (x : Context) (hs : x.state = c.ctx[j].state) (hl : x.lreq = c.ctx[j].lreq) :
    (c.setCtx j x).target = c.target := by
  have key : ∀ l : List Context, l.foldl (fun n x => if x.state = .free then n else max n x.lreq.toNat) 0 =
      (l.map fun x => (x.state, x.lreq)).foldl (fun n y => if y.1 = .free then n else max n y.2.toNat) 0 := fun l => by rw [List.foldl_map]
  have hset : ((c.ctx.set j x).toList.map fun x => (x.state, x.lreq)) = c.ctx.toList.map fun x => (x.state, x.lreq) := by
    rw [Vector.toList_set, List.map_set]
    apply List.ext_getElem (by simp)
    intro i h1 h2
    rw [List.getElem_set]
    split
    · subst_vars; simp_all
    · rfl
  simp only [target, setCtx, key, hset]

theorem Core.stepAccess_setCtx (c : Core) (j : Fin 4) (x : Context) (hs : x.state = c.ctx[j].state) (hl : x.lreq = c.ctx[j].lreq) (step : Nat) :
    (c.setCtx j x).stepAccess step = c.stepAccess step := by
  rw [stepAccess, c.target_setCtx j x hs hl]
  rfl

theorem State.withRegion_myCore (s : State) (r : Region) : (s.withRegion r).myCore = s.myCore.setCtx s.issue.slot { s.cur with region := r } := by
  simp [myCore, withRegion, modCur, modCtx, cur]

@[simp] theorem State.withRegion_stepAccess (s : State) (r : Region) (step : Nat) : (s.withRegion r).myCore.stepAccess step = s.myCore.stepAccess step := by
  rw [withRegion_myCore]
  exact Core.stepAccess_setCtx s.myCore s.issue.slot { s.cur with region := r } (by rfl) (by rfl) step

theorem State.OwnsRange.withRegion {s : State} {va n : Nat} (h : s.OwnsRange va n) (r : Region) : (s.withRegion r).OwnsRange va n := by
  obtain ⟨hlo, hhi, hgo⟩ := h
  exact ⟨hlo, hhi, fun i hi => by rw [State.withRegion_stepAccess]; exact hgo i hi⟩

/-! ## One part of a store -/

/-- A part's place in the buffer, where its region and the stores on their way leave it room: merged into the line's latest entry, or an entry of
its own (R237, R271). -/
def Context.bufferPart (c : Context) (strl : Option Scope) (t : Trans) (a : Nat) (mask : BitVec 64) (data : Line) : Region :=
  match if strl.isSome then none else mergeStore t mask data (a / 4096, c.kid) c.nextId c.region.buffer with
  | some es => { c.region with buffer := es }
  | none =>
    let old := if strl.isSome then c.region.buffer.map fun x => { x with sealed := true } else c.region.buffer
    { c.region with fences := [], buffer := old ++
        [⟨{ t with addr := t.addr / 64 * 64 }, a / 4096, c.kid, mask, data, strl.isSome, c.region.fences, strl, c.super, c.nextId, []⟩] }

theorem State.storeParts_cons {s : State} {t : Trans} {a : Nat} (hl : s.locate .write a 0 1 = (.ok t, s)) (hlost : s.isLost t = false)
    (room : s.cur.region.buffer.length + s.cur.outStores.length < 32) (strl : Option Scope) (mask : BitVec 64) (data : Line)
    (rest : List (Nat × BitVec 64 × Line)) :
    State.storeParts strl ((a, mask, data) :: rest) s = State.storeParts strl rest (s.withRegion (s.cur.bufferPart strl t a mask data)) := by
  have h1 : ¬ 32 ≤ s.cur.region.buffer.length := by omega
  have h2 : ¬ 32 ≤ s.cur.region.buffer.length + s.cur.outStores.length := by omega
  rw [State.storeParts, hl]
  simp only [hlost, Bool.false_eq_true, if_false, h1, h2, Context.bufferPart]
  cases if strl.isSome then none else mergeStore t mask data (a / 4096, s.cur.kid) s.cur.nextId s.cur.region.buffer with
  | some es => exact congrArg (State.storeParts strl rest) (State.modCur_congr rfl)
  | none => exact congrArg (State.storeParts strl rest) (State.modCur_congr rfl)

/-- Merging adds no entry. -/
theorem mergeStore_length {t : Trans} {mask : BitVec 64} {data : Line} {page : Nat × BitVec 8} {after : Nat} :
    ∀ {es es' : List StoreEntry}, mergeStore t mask data page after es = some es' → es'.length = es.length
  | e :: es, es', h => by
    unfold mergeStore at h
    split at h
    · obtain ⟨xs, hxs, rfl⟩ := Option.map_eq_some_iff.mp h
      rw [List.length_cons, mergeStore_length hxs, List.length_cons]
    · split at h
      · simp only [Option.some.injEq] at h
        rw [← h, List.length_cons, List.length_cons]
      · simp at h

theorem Context.bufferPart_length (c : Context) (strl : Option Scope) (t : Trans) (a : Nat) (mask : BitVec 64) (data : Line) :
    (c.bufferPart strl t a mask data).buffer.length ≤ c.region.buffer.length + 1 := by
  unfold bufferPart
  split
  next es h =>
    cases strl with
    | some z => simp at h
    | none => rw [mergeStore_length (by simpa using h)]; omega
  next => cases strl <;> simp

/-! ## A store in parts -/

/-- Parts of a store that lie in the scratchpad complete while the buffer and the stores on their way leave each an entry (R271). -/
theorem State.storeParts_loft (strl : Option Scope) : ∀ (ps : List (Nat × BitVec 64 × Line)) (s : State), ps ≠ [] →
    (∀ p ∈ ps, s.OwnsRange p.1 1) → s.cur.region.buffer.length + s.cur.outStores.length + ps.length ≤ 32 →
    ∃ r, State.storeParts strl ps s = (.ok, s.withRegion r)
  | [], _, h, _, _ => absurd rfl h
  | (a, mask, data) :: rest, s, _, ho, hlen => by
    obtain ⟨ha, hrest⟩ := List.forall_mem_cons.mp ho
    simp only [List.length_cons] at hlen
    rw [State.storeParts_cons (ha.locate Nat.one_pos .write 0 1) rfl (by omega)]
    by_cases hr : rest = []
    · subst hr
      exact ⟨_, rfl⟩
    · have hb := s.cur.bufferPart_length strl (loftTrans s.issue.core (a - loftBase)) a mask data
      obtain ⟨r, h⟩ := State.storeParts_loft strl rest (s.withRegion (s.cur.bufferPart strl (loftTrans s.issue.core (a - loftBase)) a mask data)) hr
        (fun p hp => (hrest p hp).withRegion _) (by simp only [State.withRegion_cur, Context.outStores] at *; omega)
      exact ⟨r, by rw [h, State.withRegion_withRegion]⟩

/-- The pieces of a range start in it. -/
theorem mem_pieces : ∀ (fuel a n : Nat), ∀ p ∈ pieces fuel a n, a ≤ p.1 ∧ p.1 < a + n
  | 0, _, _ => by simp [pieces]
  | fuel + 1, a, n => by
    unfold pieces
    split
    · simp
    · intro p hp
      rcases List.mem_cons.mp hp with rfl | hp
      · simp only; omega
      · have := mem_pieces fuel _ _ p hp
        omega

theorem pieces_zero (fuel a : Nat) : pieces fuel a 0 = [] := by cases fuel <;> simp [pieces]

/-- A range has no more pieces than lines. -/
theorem length_pieces_le : ∀ (fuel a n : Nat), (pieces fuel a n).length ≤ (a % 64 + n + 63) / 64
  | 0, _, _ => by simp [pieces]
  | fuel + 1, a, n => by
    unfold pieces
    split
    · simp
    · dsimp only
      rw [List.length_cons]
      by_cases h : n ≤ 64 - a % 64
      · rw [Nat.min_eq_left h, Nat.sub_self, pieces_zero, List.length_nil]
        omega
      · rw [Nat.min_eq_right (by omega)]
        have := length_pieces_le fuel (a + (64 - a % 64)) (n - (64 - a % 64))
        omega

/-- A store of at most 128 bytes to the scratchpad completes while 30 lines are not yet buffered or on their way (R271). -/
theorem State.storeVa_loft {s : State} {va : Nat} {bs : List Byte} (hn : 0 < bs.length) (hn' : bs.length ≤ 128) (ho : s.OwnsRange va bs.length)
    (room : s.cur.region.buffer.length + s.cur.outStores.length < 30) (keep : Nat → Bool) (strl : Option Scope) :
    ∃ r, s.storeVa va bs keep strl = (.ok, s.withRegion r) := by
  have hlen : (lineParts va bs keep).length ≤ 3 := by
    have := length_pieces_le bs.length va bs.length
    rw [lineParts, List.length_map]
    omega
  have hne : lineParts va bs keep ≠ [] := by
    obtain ⟨n, hl⟩ := Nat.exists_eq_succ_of_ne_zero hn.ne'
    simp [lineParts, hl, pieces]
  have hown : ∀ p ∈ lineParts va bs keep, s.OwnsRange p.1 1 := by
    intro p hp
    obtain ⟨q, hq, rfl⟩ := List.mem_map.mp hp
    obtain ⟨hlo, hhi, hgo⟩ := ho
    have hmem := mem_pieces _ _ _ q hq
    refine ⟨by simp only; omega, by simp only; omega, fun i hi => ?_⟩
    have := hgo (q.1 - va) (by omega)
    rwa [show va + (q.1 - va) = q.1 + i by omega] at this
  obtain ⟨r, h⟩ := State.storeParts_loft strl (lineParts va bs keep) s hne hown (by omega)
  exact ⟨r, by simp only [storeVa, h]⟩

/-! ## Store forms -/

/-- The low bytes of a value depend on its low bits. -/
theorem leBytes_mod (n v : Nat) : leBytes n (v % 2 ^ (8 * n)) = leBytes n v := by
  induction n generalizing v with
  | zero => rfl
  | succ n ih =>
    have hd : v % 2 ^ (8 * (n + 1)) / 256 = v / 256 % 2 ^ (8 * n) := by
      rw [show 2 ^ (8 * (n + 1)) = 256 * 2 ^ (8 * n) by rw [Nat.mul_succ, Nat.pow_add]; omega, Nat.mod_mul_right_div_self]
    have hm : BitVec.ofNat 8 (v % 2 ^ (8 * (n + 1))) = BitVec.ofNat 8 v := by
      apply BitVec.eq_of_toNat_eq
      simp only [BitVec.toNat_ofNat]
      exact Nat.mod_mod_of_dvd _ (Nat.pow_dvd_pow 2 (by omega))
    rw [leBytes, leBytes, hd, hm, ih]

theorem mod_two_pow_mod {a b : Nat} (h : a ≤ b) (x : Nat) : x % 2 ^ a % 2 ^ b = x % 2 ^ a :=
  Nat.mod_eq_of_lt ((Nat.mod_lt _ (Nat.two_pow_pos a)).trans_le (Nat.pow_le_pow_right Nat.two_pos h))

theorem lowBits_toNat {bits : Nat} (h : bits ≤ 1024) (x : Vec) : (lowBits bits x).toNat = x.toNat % 2 ^ bits := by
  exact (BitVec.toNat_ofNat _ 1024).trans (mod_two_pow_mod h _)

section
variable {s : State} {b : Src} {al size : Nat} {bs : List Byte} {keep : Nat → Bool} {m : Fin 8} {inc : BitVec 4}

theorem State.storeBytes_ok (h : (s.src b).toNat < 2 ^ 56) (hal : (s.src b).toNat % al = 0) {t : State}
    (hst : s.storeVa (s.src b).toNat bs keep none = (.ok, t)) : s.storeBytes b al size bs keep m inc = t.advance b m inc size := by
  simp only [storeBytes, State.badAddress_none h hal, hst]

theorem State.storeBytes_misaligned (h : (s.src b).toNat < 2 ^ 56) (hal : (s.src b).toNat % al ≠ 0) :
    s.storeBytes b al size bs keep m inc = s.raise cALIGN s.slotInfo := by
  simp only [storeBytes, badAddress, if_neg (Nat.not_le.mpr h), if_pos hal]

theorem State.storeBytes_beyond (h : 2 ^ 56 ≤ (s.src b).toNat) : s.storeBytes b al size bs keep m inc = s.raise cPFAULT (info249 0 1 (s.src b).toNat) := by
  simp only [storeBytes, badAddress, if_pos h]

end

/-- A vector store of a register stores its low bytes (R143). -/
theorem State.storeV_reg (s : State) (r : Fin 16) (b : Src) (m : Fin 8) (inc : BitVec 4) {n : Nat} (hn : n ≤ 128) (keep : Nat → Bool) :
    s.storeV (.reg r) b m inc (8 * n) keep = .next (s.storeBytes b 32 n (leBytes n (s.getV r).toNat) keep m inc) := by
  have hb : leBytes n (lowBits (8 * n) (s.getV r)).toNat = leBytes n (s.getV r).toNat := by rw [lowBits_toNat (by omega), leBytes_mod]
  simp only [storeV, readV, Nat.mul_div_cancel_left n (show 0 < 8 by decide), hb]
  rfl

/-- Settles O28: every store form is one store of bytes, and a store to the scratchpad takes at most three lines. -/
theorem stores : Obligations.Stores := by
  intro s a b m inc k r ea
  refine ⟨fun i n hi => ?_, fun i n t hi h hal hst => ?_, fun t h hal hst => ?_, fun bs keep z hlo hn hn' hhi hgo room => ?_, fun i n hi => ?_⟩
  · have he : exec i s = .next (s.storeBytes b n n (leBytes n (s.src a).toNat) (fun _ => true) m inc) := by
      fin_cases hi <;> rfl
    rw [he]
    exact ⟨fun t h hal hst => by rw [State.storeBytes_ok h hal hst], fun h hal => by rw [State.storeBytes_misaligned h hal],
      fun h => by rw [State.storeBytes_beyond h]⟩
  · have he : exec i s = .next (s.storeBytes b 32 n (leBytes n (s.getV r).toNat) (fun _ => true) m inc) := by
      fin_cases hi
      · exact s.storeV_reg r b m inc (n := 32) (by decide) _
      · exact s.storeV_reg r b m inc (n := 64) (by decide) _
      · exact s.storeV_reg r b m inc (n := 128) (by decide) _
    rw [he, State.storeBytes_ok h hal hst]
  · have he : exec (.stvk (.reg r) b k inc) s = .next (s.storeBytes b 32 128 (leBytes 128 (s.getV r).toNat) (fun n => (s.getK k).getLsbD n) 0 inc) :=
      s.storeV_reg r b 0 inc (n := 128) (by decide) _
    rw [he, State.storeBytes_ok h hal hst]
  · obtain ⟨reg, h⟩ := State.storeVa_loft hn hn' ⟨hlo, hhi, hgo⟩ room keep z
    exact ⟨_, h, s.modCur_onlyCur _, rfl⟩
  · obtain ⟨m', keep, he⟩ : ∃ m' keep, exec i s = .next (s.storeBytes b 32 n (leBytes n (s.getV r).toNat) keep m' inc) := by
      fin_cases hi
      · exact ⟨m, _, s.storeV_reg r b m inc (n := 32) (by decide) _⟩
      · exact ⟨m, _, s.storeV_reg r b m inc (n := 64) (by decide) _⟩
      · exact ⟨m, _, s.storeV_reg r b m inc (n := 128) (by decide) _⟩
      · exact ⟨0, _, s.storeV_reg r b 0 inc (n := 128) (by decide) _⟩
    rw [he]
    exact ⟨fun h hal => by rw [State.storeBytes_misaligned h hal], fun h => by rw [State.storeBytes_beyond h]⟩

end Sys2Proof.Machine
end

section
/-! SUPPORT. Bytes of a store under a later load of its region (R25, R271): the bytes of a merged line, a store entry's bytes over a line, and a
store and a load of one line of the scratchpad. -/

namespace Sys2Proof.Machine

/-! ## Bytes of lines -/

theorem leBytes_length (n v : Nat) : (leBytes n v).length = n := by
  induction n generalizing v with
  | zero => rfl
  | succ n ih => rw [leBytes, List.length_cons, ih]

theorem lineByte_mergeLine (x y : Line) (mask : BitVec 64) {i : Nat} (hi : i < 64) :
    lineByte (mergeLine x y mask) i = if mask.getLsbD i then lineByte y i else lineByte x i := by
  rw [mergeLine, lineByte_lineOf _ hi, List.getD_eq_getElem _ _ (by simpa using hi)]
  simp

theorem leNat_replicate_append (o : Nat) (bs : List Byte) : leNat (List.replicate o 0 ++ bs) = leNat bs * 2 ^ (8 * o) := by
  induction o with
  | zero => simp
  | succ o ih =>
    rw [List.replicate_succ, List.cons_append, leNat, ih, Nat.mul_succ, Nat.pow_add]
    change 0 + 256 * (leNat bs * 2 ^ (8 * o)) = leNat bs * (2 ^ (8 * o) * 2 ^ 8)
    ring

/-- Bytes placed in a line stand there. -/
theorem lineByte_placeBytes {o j : Nat} (h : o + j < 64) (bs : List Byte) : lineByte (placeBytes o bs) (o + j) = bs.getD j 0 := by
  have hline : placeBytes o bs = lineOf (List.replicate o 0 ++ bs) := by rw [placeBytes, lineOf, leNat_replicate_append]
  rw [hline, lineByte_lineOf _ h]
  simp [List.getElem?_append_right]

/-- A part of a line's bytes. -/
theorem take_drop_lineBytes {x : Line} {o : Nat} {bs : List Byte} (h : o + bs.length ≤ 64) (hx : ∀ j < bs.length, lineByte x (o + j) = bs.getD j 0) :
    ((lineBytes x).drop o).take bs.length = bs := by
  apply List.ext_getElem
  · simp [lineBytes]; omega
  · intro j h1 h2
    simp [lineBytes, hx j h2, h2]

/-- A store's mask holds the bytes that it keeps (R144). -/
def storeMask (o m i : Nat) (keep : Nat → Bool) : BitVec 64 :=
  (List.range m).foldl (fun (x : BitVec 64) b => if keep (i + b) then x ||| (1#64 <<< (o + b)) else x) 0

theorem storeMask_getLsbD {o i : Nat} {keep : Nat → Bool} {m j : Nat} (hj : j < m) (ho : o + j < 64) (hk : keep (i + j) = true) :
    (storeMask o m i keep).getLsbD (o + j) = true := by
  induction m with
  | zero => omega
  | succ m ih =>
    have hs : storeMask o (m + 1) i keep = if keep (i + m) then storeMask o m i keep ||| (1#64 <<< (o + m)) else storeMask o m i keep := by
      rw [storeMask, List.range_succ, List.foldl_append]; rfl
    rw [hs]
    by_cases hm : j = m
    · subst hm
      simp [hk, ho]
    · have := ih (by omega)
      split <;> simp [this]

theorem pieces_one {va n : Nat} (hn : 0 < n) (h : va % 64 + n ≤ 64) : pieces n va n = [(va, n)] := by
  obtain ⟨m, rfl⟩ := Nat.exists_eq_succ_of_ne_zero hn.ne'
  simp only [pieces, if_neg (Nat.succ_ne_zero m), Nat.min_eq_left (show m.succ ≤ 64 - va % 64 by omega), Nat.sub_self, pieces_zero]

/-- A store within one line is one part. -/
theorem lineParts_one {va : Nat} {bs : List Byte} (hn : 0 < bs.length) (h : va % 64 + bs.length ≤ 64) (keep : Nat → Bool) :
    lineParts va bs keep = [(va, storeMask (va % 64) bs.length 0 keep, placeBytes (va % 64) bs)] := by
  simp [lineParts, pieces_one hn h, storeMask]

/-! ## Store entries over a line -/

theorem overlayStores_append (xs ys : List StoreEntry) (t : Trans) (l : Line) : overlayStores (xs ++ ys) t l = overlayStores ys t (overlayStores xs t l) :=
  List.foldl_append

/-- Entries for other lines leave a line as it is. -/
theorem overlayStores_other {es : List StoreEntry} {t : Trans} (h : es.any (fun x => sameLine x.target t) = false) (l : Line) : overlayStores es t l = l := by
  induction es generalizing l with
  | nil => rfl
  | cons e es ih =>
    simp only [List.any_cons, Bool.or_eq_false_iff] at h
    simp only [overlayStores, List.foldl_cons, h.1, Bool.false_eq_true, if_false]
    exact ih h.2 l

/-- The bytes of a merged part stand over the line, whatever the entry held (R271). -/
theorem lineByte_overlay_mergeStore {t : Trans} {mask : BitVec 64} {data : Line} {page : Nat × BitVec 8} {after i : Nat} (hi : i < 64)
    (hm : mask.getLsbD i = true) : ∀ {es es' : List StoreEntry}, mergeStore t mask data page after es = some es' → ∀ l : Line,
    lineByte (overlayStores es' t l) i = lineByte data i
  | e :: es, es', h, l => by
    unfold mergeStore at h
    split at h
    next hany =>
      obtain ⟨xs, hxs, rfl⟩ := Option.map_eq_some_iff.mp h
      exact lineByte_overlay_mergeStore hi hm hxs _
    next hany =>
      split at h
      next hs =>
        obtain rfl := Option.some.inj h
        have hsame : sameLine (e.merge mask data page after).target t = true := (Bool.and_eq_true_iff.mp hs).1
        rw [overlayStores, List.foldl_cons, if_pos hsame]
        rw [← overlayStores, overlayStores_other (Bool.not_eq_true _ ▸ hany), lineByte_mergeLine _ _ _ hi]
        simp [StoreEntry.merge, hm, lineByte_mergeLine _ _ _ hi]
      next => simp at h

/-- The line of a Loft byte. -/
theorem sameLine_loft_line (k addr : Nat) : sameLine { loftTrans k addr with addr := (loftTrans k addr).addr / 64 * 64 } (loftTrans k addr) = true := by
  simp [sameLine, loftTrans, Trans.line]

/-- A part of a store to the scratchpad stands over its line in its region's buffer. -/
theorem Context.lineByte_bufferPart (c : Context) (k addr a : Nat) (mask : BitVec 64) (data : Line) {i : Nat} (hi : i < 64) (hm : mask.getLsbD i = true)
    (l : Line) : lineByte (overlayStores (c.bufferPart none (loftTrans k addr) a mask data).buffer (loftTrans k addr) l) i = lineByte data i := by
  unfold bufferPart
  split
  next es h => exact lineByte_overlay_mergeStore hi hm (by simpa using h) l
  next h =>
    simp only [Option.isSome_none, Bool.false_eq_true, if_false]
    rw [overlayStores_append, overlayStores, List.foldl_cons, List.foldl_nil, if_pos (sameLine_loft_line k addr), lineByte_mergeLine _ _ _ hi, if_pos hm]

/-! ## A load within one line -/

/-- A load within one line of the scratchpad with no push, atomic or early granule before it sees the line under the stores of its context's
accepted regions and of its own (R271). -/
theorem State.readVa_line {s : State} {va n : Nat} (hn : 0 < n) (hline : va % 64 + n ≤ 64) (ho : s.OwnsRange va n) (hfly : s.cur.flights = [])
    (hatm : s.cur.atomics = []) (hear : s.cur.early = []) (kind : Nat) : ∃ l : Line, s.readVa va n kind =
    (.ok (((lineBytes (overlayStores s.issue.loads (loftTrans s.issue.core (va - loftBase)) l)).drop (va % 64)).take n) true, s) := by
  have hloc := ho.locate hn .read 0 kind
  rw [State.locate] at hloc
  have hcur : s.ctxAt s.issue.core s.issue.slot = s.cur := rfl
  have hmix : ∀ t x, s.mixEarly t x = x := fun t x => by rw [State.mixEarly, hear]; rfl
  have hpush : ∀ before t m, s.cur.pushCovers before t m = false := fun before t m => by rw [Context.pushCovers, hfly]; rfl
  have hout : s.cur.atomicOut = false := by rw [Context.atomicOut, hatm]; rfl
  refine ⟨overlayStores s.cur.outStores (loftTrans s.issue.core (va - loftBase))
    (lineOf (bgetN (s.core s.issue.core).loft (64 * ((va - loftBase) / 64)) 64)), ?_⟩
  rw [State.readVa, pieces_one hn hline]
  simp only [State.readRunsFor, hloc, hcur, hpush, hout, hmix, State.linkWaits_loft, State.behindStore_loft, State.lineError_loft, State.readLine_loft, if_true,
    Bool.false_eq_true, and_false, or_self, if_false, List.nil_append]
  rfl

/-- A store within one line of the scratchpad completes where its region and the stores on their way leave it room. -/
theorem State.storeVa_line {s : State} {va : Nat} {bs : List Byte} (hn : 0 < bs.length) (hline : va % 64 + bs.length ≤ 64) (ho : s.OwnsRange va bs.length)
    (room : s.cur.region.buffer.length + s.cur.outStores.length < 32) (keep : Nat → Bool) (strl : Option Scope) :
    s.storeVa va bs keep strl = (.ok, s.withRegion
      (s.cur.bufferPart strl (loftTrans s.issue.core (va - loftBase)) va (storeMask (va % 64) bs.length 0 keep) (placeBytes (va % 64) bs))) := by
  rw [storeVa, lineParts_one hn hline, State.storeParts_cons (ho.locate hn .write 0 1) rfl room]
  rfl

/-- Without an increment the base register stays (R145). -/
theorem State.advance_zero (s : State) (b : Src) (m : Fin 8) (n : Nat) : s.advance b m 0 n = s := by
  have h : s.postIncrement (s.src b) m 0 n = none := if_pos rfl
  unfold advance advanced
  rw [h]
  cases srcReg b <;> rfl

/-- A range that does not cross a line lies in one step (R206). -/
theorem State.ownsRange_of_line {s : State} {va n : Nat} (hlo : loftBase ≤ va) (hhi : va < 2 ^ 56) (hline : va % 64 + n ≤ 64)
    (hgo : s.myCore.stepAccess ((va - loftBase) / 0x40000) = .go) : s.OwnsRange va n := by
  refine ⟨hlo, by omega, fun i hi => ?_⟩
  have hstep : (va + i - loftBase) / 0x40000 = (va - loftBase) / 0x40000 := by
    simp only [loftBase] at hlo ⊢
    omega
  rw [hstep, hgo]

/-- A source depends on the registers only. -/
theorem State.src_congr {s t : State} (h : t.cur.regs = s.cur.regs) (a : Src) : t.src a = s.src a := by
  cases a with
  | reg r => simp only [src, getS, h]
  | lit w => rfl

/-- A later bundle of the region begins: its loads see what the region has buffered (R25). -/
def State.laterBundle (s : State) : State := { s with issue := { s.issue with loads := s.cur.region.buffer } }

theorem State.laterBundle_cur (s : State) : s.laterBundle.cur = s.cur := rfl

theorem State.OwnsRange.laterBundle {s : State} {va n : Nat} (h : s.OwnsRange va n) : s.laterBundle.OwnsRange va n := h

/-- Settles O29: the store is one part of a line, and its bytes stand over that line in the buffer that the later bundle's load sees. -/
theorem storeThenLoad : Obligations.StoreThenLoad := by
  intro s a b m i n hi ea hlo hhi hal hgo _ room hfly hatm hear
  have hn : n = 1 ∨ n = 2 ∨ n = 4 ∨ n = 8 := by fin_cases hi <;> simp
  have he : exec i s = .next (s.storeBytes b n n (leBytes n (s.src a).toNat) (fun _ => true) m 0) := by fin_cases hi <;> rfl
  have hn0 : 0 < n := by omega
  have hline : ea % 64 + n ≤ 64 := by rcases hn with rfl | rfl | rfl | rfl <;> omega
  have ho : s.OwnsRange ea n := State.ownsRange_of_line hlo hhi hline hgo
  generalize hbs : leBytes n (s.src a).toNat = bs at he ⊢
  obtain rfl : bs.length = n := by rw [← hbs, leBytes_length]
  set r := s.cur.bufferPart none (loftTrans s.issue.core (ea - loftBase)) ea (storeMask (ea % 64) bs.length 0 fun _ => true) (placeBytes (ea % 64) bs) with hr
  refine ⟨s.withRegion r, by rw [he, State.storeBytes_ok hhi hal (State.storeVa_line hn0 hline ho room _ none), State.advance_zero], ?_⟩
  have hcur : (s.withRegion r).laterBundle.cur = { s.cur with region := r } := s.withRegion_cur r
  have hloads : (s.withRegion r).laterBundle.issue.loads = r.buffer := by rw [State.laterBundle, State.withRegion_cur]
  have hsrc : (s.withRegion r).laterBundle.src b = s.src b := State.src_congr (by rw [hcur]) b
  obtain ⟨l, hread⟩ := State.readVa_line hn0 hline (ho.withRegion r).laterBundle (by rw [hcur]; exact hfly) (by rw [hcur]; exact hatm)
    (by rw [hcur]; exact hear) 0
  have hbytes : ∀ j < bs.length, lineByte (overlayStores (s.withRegion r).laterBundle.issue.loads (loftTrans s.issue.core (ea - loftBase)) l) (ea % 64 + j) =
      bs.getD j 0 := fun j hj => by
    rw [hloads, hr, Context.lineByte_bufferPart _ _ _ _ _ _ (by omega) (storeMask_getLsbD hj (by omega) rfl), lineByte_placeBytes (by omega)]
  rw [show (s.withRegion r).laterBundle.issue.core = s.issue.core from rfl, take_drop_lineBytes hline hbytes] at hread
  refine ⟨(s.withRegion r).laterBundle, ?_⟩
  change (s.withRegion r).laterBundle.loadBytes b bs.length bs.length = .ok (bs, true) (s.withRegion r).laterBundle
  simp only [State.loadBytes, hsrc, State.badAddress_none hhi hal]
  rw [hread]

end Sys2Proof.Machine
end

section
/-! SUPPORT. Loads and post-increments (R31, R39, R143, R145): how a load ends, the base register's new value, and the lanes of a broadcast. -/

namespace Sys2Proof.Machine

/-! ## Lanes -/

/-- A lane of a vector made of its lanes. -/
theorem ofNat_lanesNat_div {w : Nat} (i : Nat) (xs : List (BitVec w)) : BitVec.ofNat w (lanesNat w xs / 2 ^ (w * i)) = xs.getD i 0 := by
  induction xs generalizing i with
  | nil => simp [lanesNat]
  | cons x xs ih =>
    cases i with
    | zero =>
      apply BitVec.eq_of_toNat_eq
      simp only [lanesNat, Nat.mul_zero, Nat.pow_zero, Nat.div_one, List.getD_cons_zero, BitVec.toNat_ofNat, Nat.add_mul_mod_self_left]
      exact Nat.mod_eq_of_lt x.isLt
    | succ i =>
      rw [Nat.mul_succ, Nat.add_comm, Nat.pow_add, ← Nat.div_div_eq_div_mul, lanesNat, Nat.add_mul_div_left _ _ (Nat.two_pow_pos w),
        Nat.div_eq_of_lt x.isLt, Nat.zero_add, ih, List.getD_cons_succ]

theorem lane_ofLanes {w i : Nat} (hi : w * (i + 1) ≤ 1024) (xs : List (BitVec w)) : lane w (ofLanes w xs) i = xs.getD i 0 := by
  rw [← ofNat_lanesNat_div, lane, ofLanes]
  rw [Nat.mul_succ] at hi
  ext j hj
  rw [BitVec.getElem_extractLsb', ← BitVec.getLsbD_eq_getElem]
  simp only [BitVec.getLsbD_ofNat, Nat.testBit_div_two_pow, Nat.add_comm j, show w * i + j < 1024 by omega, hj, decide_true, Bool.true_and]

/-- A broadcast has its four bytes in every lane (R39). -/
theorem broadcast4_hasLanes (bs : List Byte) : HasLanes 32 1024 (broadcast4 bs) fun _ => BitVec.ofNat 32 (leNat bs) := by
  refine ⟨fun i hi => ?_, fun i hi => BitVec.getLsbD_of_ge _ _ hi⟩
  rw [broadcast4, lane_ofLanes (by omega), List.getD_eq_getElem _ _ (by simpa using hi), List.getElem_replicate]

/-! ## Post-increments (R145) -/

section
variable (s : State) (m : Fin 8) (n : Nat)

theorem State.postIncrement_units (base : Word) {inc : BitVec 4} (h0 : inc ≠ 0) (h8 : inc ≠ 8) :
    s.postIncrement base m inc n = some (base + BitVec.ofInt 64 (inc.toInt * n)) := by
  rw [postIncrement, if_neg h0, if_neg h8]

theorem State.postIncrement_step (base : Word) (h : s.cur.regs.mlen[m] = 0) : s.postIncrement base m 8 n = some (base + s.cur.regs.mstep[m]) := by
  rw [postIncrement, if_neg (by decide), if_pos rfl, if_pos h]

/-- Code 8 with a length moves the base by the step, modulo the length about its base. -/
theorem State.postIncrement_modulo (base : Word) (h : s.cur.regs.mlen[m] ≠ 0) : ∃ v : Word, s.postIncrement base m 8 n = some v ∧
    (v - s.cur.regs.mb[m]).toNat =
      ((base.toNat - (s.cur.regs.mb[m]).toNat + (s.cur.regs.mstep[m]).toInt : Int) % ((s.cur.regs.mlen[m]).toNat : Int)).toNat := by
  refine ⟨_, by rw [postIncrement, if_neg (by decide), if_pos rfl, if_neg h], ?_⟩
  have hpos : 0 < (s.cur.regs.mlen[m]).toNat := Nat.pos_of_ne_zero fun h0 => h (BitVec.eq_of_toNat_eq h0)
  have hlt : (s.cur.regs.mlen[m]).toNat < 2 ^ 64 := (s.cur.regs.mlen[m]).isLt
  generalize (base.toNat - (s.cur.regs.mb[m]).toNat + (s.cur.regs.mstep[m]).toInt : Int) = x
  have h0 := Int.emod_nonneg x (b := ((s.cur.regs.mlen[m]).toNat : Int)) (by omega)
  have h1 := Int.emod_lt_of_pos x (b := ((s.cur.regs.mlen[m]).toNat : Int)) (by omega)
  rw [add_sub_cancel_left, BitVec.toNat_ofInt, Int.emod_eq_of_lt h0 (by omega)]

/-- A post-increment is a scalar result for the base register. -/
theorem State.advance_reg {r : Fin 63} (hr : r ≠ 0) {inc : BitVec 4} {v : Word} (h : s.postIncrement (s.getS r) m inc n = some v) :
    s.advance (.reg r) m inc n = s.putS r v 1 := by
  have hr' : r.val ≠ 0 := fun h => hr (Fin.ext h)
  simp [advance, advanced, srcReg, src, h, hr']

end

theorem State.advanced_zero (s : State) (b : Src) (m : Fin 8) (n : Nat) : s.advanced b m 0 n = none := by
  have h : s.postIncrement (s.src b) m 0 n = none := if_pos rfl
  unfold advanced
  rw [h]
  cases srcReg b <;> rfl

/-! ## Ends of loads -/

/-- The result of an interlocked load: its own, where it is not for s0. -/
theorem State.finishLoad_fly (s : State) {v : RegVal} (hv : ∀ r x, v = .s r x → r ≠ 0) (b : Src) (m : Fin 8) (inc : BitVec 4) (n : Nat) :
    s.finishLoad v false b m inc n = s.fly .load (v :: match s.advanced b m inc n with | some (r, x) => [.s r x] | none => []) none 1 := by
  cases v with
  | s r x =>
    have hr : r.val ≠ 0 := fun h => hv r x rfl (Fin.ext h)
    simp only [finishLoad, Bool.false_eq_true, if_false, if_neg hr, List.singleton_append] <;> rfl
  | _ => simp only [finishLoad, Bool.false_eq_true, if_false, List.singleton_append] <;> rfl

/-- A load into a write windrow ends as a push when its bytes arrive (R140). -/
theorem State.loadV_win {s t u : State} {w : Fin 16} {b : Src} {m : Fin 8} {inc : BitVec 4} {n al bits : Nat} {value : List Byte → Vec} {bs : List Byte}
    {loft : Bool} {ps : Option (List Trans)} (h : s.loadBytes b n al = .ok (bs, loft) t) (hp : t.startPush w bits = .ok ps u) :
    let push := ps.map fun x => (⟨w, x, (t.win w).desc.store bits (value bs), (t.win w).pushAddrs bits⟩ : HeldPush)
    s.loadV (.win w) b m inc n al bits value = .next (if loft then (u.fly .fixed [] push 5).advance b m inc n
      else u.fly .load (match u.advanced b m inc n with | some (r, x) => [.s r x] | none => []) push 1) := by
  intro push
  simp only [loadV, h, hp]
  cases loft <;> cases ps <;> rfl

theorem State.loadS_ok {s t : State} {b : Src} {n : Nat} {bs : List Byte} {loft : Bool} (h : s.loadBytes b n n = .ok (bs, loft) t) (d : SReg) (m : Fin 8)
    (inc : BitVec 4) : s.loadS d b m inc n = .next (t.finishLoad (.s d (BitVec.ofNat 64 (leNat bs))) loft b m inc n) := by
  simp only [loadS, h, State.done_eq]

theorem State.loadV_reg {s t : State} {b : Src} {n al : Nat} {bs : List Byte} {loft : Bool} (h : s.loadBytes b n al = .ok (bs, loft) t) (r : Fin 16)
    (m : Fin 8) (inc : BitVec 4) (bits : Nat) (value : List Byte → Vec) :
    s.loadV (.reg r) b m inc n al bits value = .next (t.finishLoad (.v r (value bs)) loft b m inc n) := by
  simp only [loadV, h, State.done_eq]

/-- Settles O26: every load form is one read of bytes and one way to end. -/
theorem loads : Obligations.Loads := by
  intro s d b m inc
  refine ⟨fun i n bs loft t hi h => ?_, fun r i n al bs loft t hi h => ?_, fun r bs loft t h => ?_,
    fun w i n al bits value bs loft t u ps hi h hp => ?_, fun bs => ⟨rfl, broadcast4_hasLanes bs⟩, fun v x r n => ?_, fun r n hb hr => ?_⟩
  · fin_cases hi <;> exact State.loadS_ok h d m inc
  · fin_cases hi
    · exact State.loadV_reg h r m inc 256 vecOfBytes
    · exact State.loadV_reg h r m inc 512 vecOfBytes
    · exact State.loadV_reg h r m inc 1024 vecOfBytes
  · exact ⟨broadcast4 bs, State.loadV_reg h r m inc 1024 broadcast4, broadcast4_hasLanes bs⟩
  · have he : exec i s = s.loadV (.win w) b m inc n al bits value := by fin_cases hi <;> rfl
    rw [he, State.loadV_win h hp]
    refine ⟨fun hl => by simp only [hl, if_true], fun hl hinc => ?_, fun hl r v hadv => ?_⟩
    · subst hinc
      simp only [hl, Bool.false_eq_true, if_false, State.advanced_zero]
    · simp only [hl, Bool.false_eq_true, if_false, hadv]
  · have hv : ∀ q y, RegVal.v r x = .s q y → q ≠ 0 := fun q y h => by cases h
    have hs : d ≠ 0 → ∀ q y, RegVal.s d v = .s q y → q ≠ 0 := fun hd q y h => by cases h; exact hd
    refine ⟨rfl, rfl, fun hinc hd => ?_, fun hinc => ?_, fun q y hadv hd => ⟨?_, ?_⟩⟩
    · subst hinc
      rw [State.finishLoad_fly s (hs hd), State.advanced_zero]
    · subst hinc
      rw [State.finishLoad_fly s hv, State.advanced_zero]
    · rw [State.finishLoad_fly s (hs hd), hadv]
    · rw [State.finishLoad_fly s hv, hadv]
  · subst hb
    refine ⟨fun hinc => by rw [hinc, State.advance_zero], fun h0 h8 => ?_, fun h8 hlen => ?_, fun h8 hlen => ?_⟩
    · exact s.advance_reg m n hr (s.postIncrement_units m n _ h0 h8)
    · subst h8
      exact s.advance_reg m n hr (s.postIncrement_step m n _ hlen)
    · subst h8
      obtain ⟨v, hv, hmod⟩ := s.postIncrement_modulo m n (s.getS r) hlen
      exact ⟨v, s.advance_reg m n hr hv, hmod⟩

end Sys2Proof.Machine
end

section
/-! SUPPORT. Words of the spec and reserved major opcodes (R22, R45). -/

namespace Sys2Proof

/-- A word whose fields are refused is refused. -/
theorem decodeSlot_of_error {w lit : BitVec 32} {e : DecodeError} (h : decodeFields w.toNat lit = .error e) : decodeSlot w lit = .error e := by
  rw [decodeSlot, decodeBody, h]
  rfl

/-- Major opcodes from 28 on are reserved (R22). -/
theorem decodeFields_reserved {u : Nat} (lit : BitVec 32) (h : 28 ≤ fld u 26 5) : decodeFields u lit = .error .reservedMajor := by
  have hlt : fld u 26 5 < 32 := Nat.mod_lt _ (by decide)
  unfold decodeFields
  generalize fld u 26 5 = x at h hlt
  interval_cases x <;> rfl

/-- Settles O3: the words decode by evaluation, and a reserved major opcode leaves no class. -/
theorem decodedWords : Obligations.DecodedWords :=
  ⟨⟨rfl, rfl, rfl, rfl, rfl, rfl⟩, fun _ lit h => ⟨_, decodeSlot_of_error (decodeFields_reserved lit h)⟩⟩

end Sys2Proof
end

section
/-! SUPPORT. Results and matrix commands that end (R33, R161, R168, R170): a result in flight that returns, what a command leaves of its bank, and
the calls of a core. -/

namespace Sys2Proof.Machine

/-! ## Interlocked values -/

theorem slotNum_val (j : Fin 4) : slotNum j.val = j := Fin.ext (Nat.mod_eq_of_lt j.isLt)

/-- A result in flight that pushes nothing lands once its time has come. -/
theorem State.landFlight_returns {s : State} {k id : Nat} {j : Fin 4} {f : Flight} {kinds : List FlightKind}
    (hf : ((s.ctxAt k j).flights.find? fun f => f.id == id) = some f) (hk : kinds.contains f.kind = true) (hr : f.ready ≤ s.now) (hp : f.push = none) :
    s.landFlight k j id kinds = s.modCtx k j fun c => { c.landInjected f.vals with flights := c.flights.filter fun g => !(g.id == id) } := by
  have hfilter : ∀ gs : List Flight, (gs.flatMap fun g => if g.id = id then [] else [g]) = gs.filter fun g => !(g.id == id) := by
    intro gs
    induction gs with
    | nil => rfl
    | cons g gs ih => by_cases h : g.id = id <;> simp [h, ih]
  have hturn : (s.ctxAt k j).pushTurn f = true := by rw [Context.pushTurn, hp]
  simp only [landFlight, hf, hk, hturn, Nat.not_lt.mpr hr, decide_false, Bool.not_true, Bool.or_false, Bool.false_eq_true, if_false, hp, hfilter]

theorem injectScalar_unarmed {c : Context} (h : (c.sysv rINJECT).getLsbD 63 = false) (r : Fin 63) (v : Word) : injectScalar c r v = (v, c) :=
  if_neg fun harmed => Bool.noConfusion (h.symm.trans harmed.1)

/-- An interlocked value lands as it is while INJECT is not armed. -/
theorem Context.landInjected_cons {c : Context} (h : (c.sysv rINJECT).getLsbD 63 = false) (v : RegVal) (vs : List RegVal) :
    c.landInjected (v :: vs) = (c.landVals [v]).landInjected vs := by
  cases v with
  | s r x => simp only [landInjected, List.foldl_cons, injectScalar_unarmed h]
  | _ => rfl

/-- A value for another register leaves INJECT alone. -/
theorem Context.landVals_inject (c : Context) {v : RegVal} (h : v.reg ≠ some (.sys rINJECT)) : (c.landVals [v]).sysv rINJECT = c.sysv rINJECT := by
  have ht : v.target ≠ .sys rINJECT := by
    cases hr : v.reg with
    | none =>
      obtain hm | hm := RegVal.target_of_merge hr <;> rw [hm] <;> decide
    | some q =>
      rw [RegVal.target_of_reg hr]
      exact fun hq => h (hq ▸ hr)
  exact Regs.land_sameAt ht c.regs

/-- Interlocked values land in the place of older results for their registers (R32), while INJECT is not armed and none of them is for it. -/
theorem Context.landInjected_unarmed : ∀ (vs : List RegVal) (c : Context), (c.sysv rINJECT).getLsbD 63 = false →
    (∀ v ∈ vs, v.reg ≠ some (.sys rINJECT)) → c.landInjected vs = c.landVals vs
  | [], c, _, _ => by simp [landInjected, landVals]
  | v :: vs, c, h, hv => by
    obtain ⟨hv1, hvs⟩ := List.forall_mem_cons.mp hv
    rw [Context.landInjected_cons h, Context.landInjected_unarmed vs _ (by rw [Context.landVals_inject c hv1, h]) hvs]
    simp only [landVals, List.foldl_cons, List.foldl_nil, List.any_cons, List.any_nil, Bool.or_false, List.filter_filter, Bool.not_or, Bool.and_comm]

/-! ## Banks and calls -/

/-- A fold keeps what each of its steps keeps. -/
theorem foldl_keeps {α β γ : Type} {f : α → β → α} {g : α → γ} (h : ∀ a b, g (f a b) = g a) : ∀ (bs : List β) (a : α), g (bs.foldl f a) = g a
  | [], _ => rfl
  | b :: bs, a => (foldl_keeps h bs (f a b)).trans (h a b)

theorem Bank.addCell_calln (b : Bank) (x : MxParam) (t : MacTerms) (i j : Nat) : (b.addCell x t i j).calln = b.calln := by
  have hterm : ∀ n (ts : List FVal) (b : Bank), (ts.foldl (fun b v => b.addTerm n v) b).calln = b.calln := by
    intro n ts b
    refine foldl_keeps (g := Bank.calln) ?_ ts b
    intros
    rfl
  unfold addCell
  dsimp only
  split
  · rw [hterm, hterm]
  · rw [hterm]

theorem Bank.addChecks_calln (b : Bank) (x : MxParam) (t : MacTerms) (mask : BitVec 128) (blk k : Nat) : (b.addChecks x t mask blk k).calln = b.calln := by
  unfold addChecks
  dsimp only
  refine (foldl_keeps (g := Bank.calln) ?_ _ _).trans (foldl_keeps (g := Bank.calln) ?_ _ _)
  · intros; rfl
  · intros; rfl

/-- The terms of a MAC leave the count of calls alone. -/
theorem Bank.accumulate_calln (b : Bank) (x : MxParam) (t : MacTerms) : (b.accumulate x t).calln = b.calln := by
  have hcells : ((List.range x.rows).foldl (fun b i => (List.range 64).foldl (fun b j => b.addCell x t i j) b) b).calln = b.calln :=
    foldl_keeps (g := Bank.calln) (fun b i => foldl_keeps (g := Bank.calln) (fun b j => b.addCell_calln x t i j) _ b) _ b
  unfold accumulate
  dsimp only
  split
  · rw [foldl_keeps (g := Bank.calln) fun b p => foldl_keeps (g := Bank.calln) (fun b k => b.addChecks_calln x t _ _ k) _ b]
    exact hcells
  · exact hcells

theorem State.modBank_banks (s : State) (k : Nat) (a : Fin 4) (f : Bank → Bank) : ((s.modBank k a f).core k).banks[a] = f (s.core k).banks[a] := by
  simp [modBank]

/-- A replaced call is the bank's running call. -/
theorem State.setCall_callOf {s : State} {k : Nat} {a : Fin 4} {m m' : MatrixCall} (h : (s.core k).callOf a = some m) (hb : m'.cmd.bank = a) :
    ((s.setCall k a m').core k).callOf a = some m' := by
  have key : ∀ ms : List MatrixCall, (ms.find? fun m => m.cmd.bank == a) = some m →
      ((ms.map fun x => if x.cmd.bank = a then m' else x).find? fun m => m.cmd.bank == a) = some m' := by
    intro ms hm
    induction ms with
    | nil => simp at hm
    | cons x ms ih =>
      by_cases hx : x.cmd.bank = a
      · simp [hx, hb]
      · have hx' : (x.cmd.bank == a) = false := beq_eq_false_iff_ne.mpr hx
        rw [List.find?_cons, hx'] at hm
        simp [hx, ih hm]
  simpa [setCall, Core.callOf] using key _ h

theorem State.dropCall_callOf (s : State) (k : Nat) (a : Fin 4) : ((s.dropCall k a).core k).callOf a = none := by
  simp [dropCall, Core.callOf]

/-- An armed accumulator flip leaves a core's calls, its queue and the bank's count of calls alone. -/
theorem State.injectCell_keeps (s : State) (k : Nat) (a : Fin 4) : ((s.injectCell k a).core k).calls = (s.core k).calls ∧
    ((s.injectCell k a).core k).mq = (s.core k).mq ∧ ((s.injectCell k a).core k).banks[a].calln = (s.core k).banks[a].calln := by
  unfold injectCell
  split
  · exact ⟨rfl, rfl, rfl⟩
  · dsimp only
    split
    · split <;> simp [modBank, modCtx, Core.setCtx]
    · exact ⟨rfl, rfl, rfl⟩

/-- A call that completes leaves the bank LIVE, or BUSY with commands of its own still queued (R161). -/
theorem State.completeCall_ends (s : State) (k : Nat) (a : Fin 4) (m : MatrixCall) :
    ((s.completeCall k a m).core k).callOf a = none ∧ ((s.completeCall k a m).core k).banks[a].calln = (s.core k).banks[a].calln + 1 ∧
      ((s.completeCall k a m).core k).banks[a].lrtn = m.routine ∧
      ((s.core k).mq = [] → ((s.completeCall k a m).core k).banks[a].state = .live) := by
  obtain ⟨hcalls, hmq, hcalln⟩ := (s.dropCall k a).injectCell_keeps k a
  have hq : ((s.dropCall k a).core k).mq = (s.core k).mq := by simp [dropCall]
  have hb : ((s.dropCall k a).core k).banks[a].calln = (s.core k).banks[a].calln := by simp [dropCall]
  refine ⟨?_, ?_, ?_, fun h => ?_⟩
  · have := s.dropCall_callOf k a
    simp only [completeCall, modBank, State.core_modCore_self, Core.callOf, hcalls] at this ⊢
    exact this
  · rw [completeCall, State.modBank_banks, hcalln, hb]
  · rw [completeCall, State.modBank_banks]
  · rw [completeCall, State.modBank_banks]
    simp [hmq, hq, h]

/-! ## The slots that a bank holds -/

theorem State.engineRelease_core (s : State) (k : Nat) (j : Fin 4) (x : HeldSlot) (n : Nat) : (s.engineRelease k j x).core n = s.core n := by
  unfold engineRelease
  dsimp only
  split <;> rfl

/-- A bank that gives its slots back keeps its owner, and the core its queue and its clear. -/
theorem State.releaseHeld_keeps (s : State) (k : Nat) (a : Fin 4) : ((s.releaseHeld k a).core k).banks[a].owner = (s.core k).banks[a].owner ∧
    ((s.releaseHeld k a).core k).mq = (s.core k).mq := by
  have hfold : ∀ (j : Fin 4) (xs : List HeldSlot), (xs.foldl (fun s x => s.engineRelease k j x) s).core k = s.core k := fun j xs =>
    foldl_keeps (g := fun s : State => s.core k) (fun s x => s.engineRelease_core k j x k) xs s
  unfold releaseHeld
  dsimp only
  split
  · exact ⟨by rw [State.modBank_banks, hfold], by simp [modBank, hfold]⟩
  · exact ⟨by rw [State.modBank_banks], by simp [modBank]⟩

/-- The free array takes the oldest eligible command (R168). -/
theorem exec_matrixCommandStart_takes {s : State} {k : Nat} {x : MatrixCmd} (harr : (s.core k).array = none) (hclr : (s.core k).clearing = none)
    (hat : (s.core k).arrayAt ≤ s.now) (hres : ∀ m ∈ (s.core k).calls, s.resumes k m = false) (hx : (s.core k).nextCommand = some x)
    (hel : (s.core k).eligible s.now x = true) : exec (.matrixCommandStart k) s =
      let t := s.modCore k fun c => { c with mq := c.mq.erase x }
      match x.op with
      | .call _ _ => .next (t.modCore k fun c => { c with calls := c.calls ++ [⟨x, 0, false, false, 15, none, none, 0, 0, false, none, []⟩], array := some x.bank })
      | .zero => .next (t.modCore k fun c => { c with clearing := some (x.bank, true, t.now + 8), arrayAt := t.now + 8 })
      | .clear => .next (t.modCore k fun c => { c with clearing := some (x.bank, false, t.now + 8), arrayAt := t.now + 8 }) := by
  have hfree : ¬ ((s.core k).array.isSome ∨ (s.core k).clearing.isSome ∨ s.now < (s.core k).arrayAt) := by simp [harr, hclr, hat]
  have hnone : ((s.core k).calls.find? fun m => s.resumes k m) = none := List.find?_eq_none.mpr fun m hm => by simp [hres m hm]
  rw [exec_matrixCommandStart, execMatrixCommandStart]
  simp only [if_neg hfree, hnone, hx, hel, Bool.not_true, Bool.false_eq_true, if_false]
  rfl

/-- The terms of a call's oldest MAC land; a call that is over completes with its last. -/
theorem exec_macLand_lands {s : State} {k : Nat} {a : Fin 4} {m : MatrixCall} {x : MacTerms} {xs : List MacTerms} (hm : (s.core k).callOf a = some m)
    (hmacs : m.macs = x :: xs) (hland : x.land ≤ s.now) : exec (.macLand k a.val) s =
      let t := (s.modBank k a fun b => b.accumulate m.param x).setCall k a { m with macs := xs }
      .next (if m.over s.now && xs.isEmpty then t.completeCall k a { m with macs := xs } else t) := by
  have ha : (⟨a.val % 4, Nat.mod_lt _ (by decide)⟩ : Fin 4) = a := slotNum_val a
  rw [exec_macLand, execMacLand]
  simp only [ha, hm, hmacs, if_neg (Nat.not_lt.mpr hland)]
  rfl

/-- A clear whose time has come ends (R161). -/
theorem exec_clearComplete_ends {s : State} {k : Nat} {a : Fin 4} {z : Bool} {e : Nat} (hclr : (s.core k).clearing = some (a, z, e)) (he : e ≤ s.now) :
    ∃ t : State, (t.core k).banks[a].owner = (s.core k).banks[a].owner ∧ (t.core k).mq = (s.core k).mq ∧ exec (.clearComplete k a.val) s =
      .next ((t.modBank k a fun b => b.cleared (if (t.core k).mq.any fun x => x.bank == a then .busy else .empty)).modCore k
        fun c => { c with clearing := none }) := by
  have ha : (⟨a.val % 4, Nat.mod_lt _ (by decide)⟩ : Fin 4) = a := slotNum_val a
  obtain ⟨hown, hmq⟩ := s.releaseHeld_keeps k a
  refine ⟨match ((s.releaseHeld k a).core k).banks[a].owner with
    | some j => (s.releaseHeld k a).modCtx k j fun c => c.clearedCursors a
    | none => s.releaseHeld k a, ?_, ?_, ?_⟩
  · split
    · rw [← hown]; simp [State.modCtx, Core.setCtx]
    · exact hown
  · split
    · rw [← hmq]; simp [State.modCtx, Core.setCtx]
    · exact hmq
  · rw [exec_clearComplete, execClearComplete]
    simp only [ha, hclr, ne_eq, not_true, false_or, if_neg (Nat.not_lt.mpr he)]
    rfl

/-- Settles O35: each of the events is one change of the core that it names. -/
theorem resultsReturn : Obligations.ResultsReturn := by
  intro s k id j a
  refine ⟨fun i kind f hi hf hk hr hp => ?_, fun c vs h hv => Context.landInjected_unarmed vs c h hv, fun harr hclr hat hres x hx hel => ?_,
    fun m t ts hm hmacs hland => ?_, fun z e hclr he => ?_⟩
  · have key : ∀ kinds : List FlightKind, kinds.contains f.kind = true → (s.landFlight k (slotNum j.val) id kinds).done =
        .next (s.modCtx k j fun c => { c.landInjected f.vals with flights := c.flights.filter fun g => !(g.id == id) }) := fun kinds hc => by
      rw [slotNum_val, State.landFlight_returns hf hc hr hp, State.done_eq]
    simp only [List.mem_cons, Prod.mk.injEq, List.not_mem_nil, or_false] at hi
    obtain ⟨rfl, rfl⟩ | ⟨rfl, rfl⟩ | ⟨rfl, rfl⟩ | ⟨rfl, rfl⟩ | ⟨rfl, rfl⟩ := hi <;> exact key _ (by rw [hk]; rfl)
  · have he := exec_matrixCommandStart_takes harr hclr hat hres hx hel
    refine ⟨fun r p hop => ?_, fun hop => ?_⟩
    · rw [hop] at he
      exact ⟨_, he, by simp, ⟨⟨x, 0, false, false, 15, none, none, 0, 0, false, none, []⟩, by simp, rfl, rfl, rfl, rfl, rfl⟩, by simp⟩
    · obtain hop | hop := hop <;> rw [hop] at he <;> exact ⟨_, he, by simp [hop], by simp⟩
  · have hb : m.cmd.bank = a := by simpa using List.find?_some hm
    have he := exec_macLand_lands hm hmacs hland
    refine ⟨fun hgo => ⟨_, he, ?_⟩, fun e hend hlt hts => ⟨_, he, ?_⟩⟩
    · have hnot : (m.over s.now && ts.isEmpty) = false := by
        obtain h | h := hgo
        · simp [MatrixCall.over, h]
        · simp [h]
      rw [if_neg (by simp [hnot])]
      refine ⟨by simp [State.setCall, State.modBank], State.setCall_callOf (m := m) (by simpa [State.modBank, Core.callOf] using hm) hb⟩
    · rw [if_pos (by simp [MatrixCall.over, hend, hlt, hts])]
      obtain ⟨hcall, hcalln, hlrtn, hlive⟩ := State.completeCall_ends
        ((s.modBank k a fun b => b.accumulate m.param t).setCall k a { m with macs := ts }) k a { m with macs := ts }
      refine ⟨hcall, ?_, hlrtn, fun hmq => hlive (by simpa [State.setCall, State.modBank] using hmq)⟩
      rw [hcalln]
      simp [State.setCall, State.modBank, Bank.accumulate_calln]
  · obtain ⟨t, hown, hmq, hex⟩ := exec_clearComplete_ends hclr he
    refine ⟨_, hex, ?_, ?_, ?_, ?_, fun hq => ?_⟩
    · simp [State.modBank, Bank.cleared, Bank.reset]
    · simpa [State.modBank, Bank.cleared] using hown
    · simp [State.modBank, Bank.cleared, Bank.reset]
    · simp
    · simp [State.modBank, Bank.cleared, hmq, hq]

end Sys2Proof.Machine
end

section
/-! SUPPORT. Events of a context (R27, R33, R35, R281 to R287, R299, R304, R314 to R319): issue, selection, loading, commits, quiet boundaries and
retirement. -/

namespace Sys2Proof.Machine

/-! ## Cores, their slots and events -/

/-- A change of a core that keeps its context slots keeps every context. -/
theorem State.ctxAt_modCore {s : State} {k : Nat} {f : Core → Core} (hf : ∀ c, (f c).ctx = c.ctx) (n : Nat) (i : Fin 4) :
    (s.modCore k f).ctxAt n i = s.ctxAt n i := by
  simp only [ctxAt, core_modCore]
  split
  · simp only [hf]
  · rfl

/-- A core after a change of one of its slots. -/
theorem State.core_modCtx_self (s : State) (k : Nat) (j : Fin 4) (f : Context → Context) :
    (s.modCtx k j f).core k = (s.core k).setCtx j (f (s.ctxAt k j)) := by
  rw [modCtx, core_setCore_self]

/-- An event that goes on to a state goes on as the state does. -/
theorem Goes.intro {s t : State} {i : Instr} {P : State → Prop} (h : exec i s = .next t) (hp : P t) : Goes s i P := ⟨t, h, hp⟩

/-! ## Issue -/

/-- The machine as BUNDLE_ISSUE finds it: the results that are due have landed, and the frame is set. -/
def State.framed (s : State) (k : Nat) (j : Fin 4) (f : Fetched) : State := (s.modCtx k j fun c => c.settle s.now).frameIssue k j f

section Framed
variable {s : State} {k : Nat} {j : Fin 4} {f : Fetched}

theorem State.framed_issue : (s.framed k j f).issue = { Issue.reset with
      core := k, slot := j, addr := (s.ctxAt k j).pc, words := f.words, firstId := (s.ctxAt k j).nextId, stall := (bcFields f.slots).2.2.2.1,
      y := (bcFields f.slots).2.2.2.2.1, lend := (bcFields f.slots).1.val, rm := (bcFields f.slots).2.1, brk := (bcFields f.slots).2.2.1,
      run := (bcFields f.slots).2.2.2.2.2 } := by
  simp [framed, frameIssue, control, Context.settle]

theorem State.framed_ctxAt : (s.framed k j f).ctxAt k j = (s.ctxAt k j).settle s.now :=
  State.ctxAt_modCtx_self s k j fun c => c.settle s.now

theorem State.framed_cur : (s.framed k j f).cur = (s.ctxAt k j).settle s.now := by
  rw [State.cur, State.framed_issue, State.framed_ctxAt]

theorem State.framed_core : (s.framed k j f).core k = (s.core k).setCtx j ((s.ctxAt k j).settle s.now) :=
  State.core_modCtx_self s k j fun c => c.settle s.now

/-- A fetched bundle of a running context that no bubble holds and that is at no quiet boundary: behind its frame, its trap or its waits. -/
theorem State.issueBundle_framed (hr : (s.core k).running = some j) (hf : s.issue.fetched = some f) (hs : (s.ctxAt k j).state = .running)
    (hn : (s.ctxAt k j).notBefore ≤ s.now) (hb : (s.core k).bubble ≤ s.now) (hq : (s.ctxAt k j).quiet = false) :
    (∀ v, f.trap = some v → s.issueBundle k = (s.framed k j f).raise v.cause v.info) ∧
    (f.trap = none → (s.framed k j f).nullified f.slots = true → s.issueBundle k =
      ((s.framed k j f).track ((s.framed k j f).bundleReads f.slots) []).modCur fun c =>
        { c with pc := c.pc + BitVec.ofNat 64 (4 * f.words), skipRm := false, resumed := false }) ∧
    (f.trap = none → (s.framed k j f).nullified f.slots = false → (s.framed k j f).issue.y = false →
      (∀ i, (s.ctxAt k j).lastIssue = some i → i + 1 + (s.framed k j f).issue.stall.toNat ≤ s.now) → (s.framed k j f).mustWait f.slots = false →
      s.issueBundle k = (s.framed k j f).checkBundle f.slots f.waits) := by
  have hc : ((s.modCtx k j fun c => c.settle s.now).ctxAt k j) = (s.ctxAt k j).settle s.now := State.ctxAt_modCtx_self ..
  have hstart : ¬ (((s.ctxAt k j).settle s.now).state ≠ .running ∨ (s.framed k j f).now < ((s.ctxAt k j).settle s.now).notBefore ∨
      (s.framed k j f).now < ((s.framed k j f).core k).bubble) := by
    rw [State.framed_core]
    rintro (h | h | h)
    · exact h hs
    · exact absurd hn (Nat.not_le.mpr h)
    · exact absurd hb (Nat.not_le.mpr h)
  have hquiet : ((s.ctxAt k j).settle s.now).quiet = false := hq
  have hframe : (s.modCtx k j fun c => c.settle s.now).frameIssue k j f = s.framed k j f := rfl
  simp only [State.issueBundle, hr, hf, hc, hframe, hstart, hquiet, if_false, Bool.false_eq_true, false_and]
  refine ⟨fun v hv => ?_, fun hv hn => ?_, fun hv hn hy hl hw => ?_⟩
  · simp only [hv]
  · simp only [hv, hn, if_true]
  · have hset : ((s.ctxAt k j).settle s.now).lastIssue = (s.ctxAt k j).lastIssue := rfl
    cases hi : (s.ctxAt k j).lastIssue with
    | none => simp [hv, hn, hy, hw, hset, hi]
    | some i =>
      have hlate : ¬ (s.framed k j f).now < i + (1 + (s.framed k j f).issue.stall.toNat) :=
        Nat.not_lt.mpr ((Nat.add_assoc i 1 _).symm.trans_le (hl i hi))
      simp [hv, hn, hy, hw, hset, hi, hlate]

/-- A bundle that gets past its waits with BRK set and its break not suppressed traps (R30). -/
theorem State.checkBundle_break {u : State} {ss : List Slot} (hs : u.cur.signed = none) (hb : u.issue.brk = true) (hsup : u.cur.bsup = false) :
    u.checkBundle ss false = u.noteIssue.sign.raise cBREAK (info47 0 u.issue.addr) := by
  simp [checkBundle, earlyTrap, hs, hb, hsup]

/-- The checks before the region marker find nothing (R294). -/
theorem State.earlyTrap_none {u : State} {ss : List Slot} (hrm : u.issue.rm = 0) (hbrk : u.issue.brk = true → u.cur.bsup = true)
    (hsb : u.getSys rSBCHK ≠ 1) (hpre : u.cur.preHit = false) (hrun : u.cur.running ≤ (u.getSys rPREBOUND).toNat) (hrec : u.recorded ss = none) :
    u.earlyTrap ss = none := by
  have hb : ¬ (u.issue.brk = true ∧ (!u.cur.bsup) = true) := fun ⟨h1, h2⟩ => by simp [hbrk h1] at h2
  have hpb : ¬ (u.cur.preHit = true ∨ (u.getSys rPREBOUND).toNat < u.cur.running) := by simp [hpre, Nat.not_lt.mpr hrun]
  have hm : ¬ (u.issue.rm = 1 ∧ (!u.cur.skipRm) = true ∧ u.cur.region.holds = true) := by simp [hrm]
  simp only [earlyTrap, hb, hsb, hpb, hrec, hm, if_false, ite_self]

/-- A bundle without a region marker, at no quiet boundary, whose checks find nothing may run its slots. -/
theorem State.checkBundle_go {u : State} {ss : List Slot} {waits : Bool} (he : u.earlyTrap ss = none) (hrm : u.issue.rm = 0) (hq : u.cur.quiet = false)
    (hw : u.mustWait ss = false) (hlend : u.issue.lend ≤ u.cur.loop.levels.length) (hreg : u.regill ss = none) :
    u.checkBundle ss waits =
      { u.modCur fun c => { c with draining := false } with issue := { u.issue with go := true, due := waits, loads := u.cur.region.buffer } } := by
  have hlate : u.lateTrap ss = none := by simp [lateTrap, lendTooDeep, Nat.not_lt.mpr hlend, hreg]
  have hsign : u.mustSign = false := by simp [mustSign, hrm]
  have hmark : u.applyRm u.issue.rm = u := if_pos (.inl hrm)
  simp only [checkBundle, he, hsign, hmark, hq, allowSlots, hw, hlate, ite_self, Bool.false_eq_true, if_false]

/-- What a fetched bundle of a running context meets at its issue (R30, R33, R35, R46). -/
theorem State.bundleIssue_goes (hr : (s.core k).running = some j) (hf : s.issue.fetched = some f) (hs : (s.ctxAt k j).state = .running)
    (hn : (s.ctxAt k j).notBefore ≤ s.now) (hb : (s.core k).bubble ≤ s.now) (hq : (s.ctxAt k j).quiet = false) :
    let c := s.ctxAt k j
    let u := s.framed k j f
    (∀ v, f.trap = some v → Goes s (.bundleIssue k) fun t => t.issue.outcome = .trap ∧ t.issue.trapped = some v) ∧
    (∀ lend brk stall run, f.trap = none → bcFields f.slots = (lend, 0, brk, stall, false, run) →
      (u.nullified f.slots = true → Goes s (.bundleIssue k) fun t => (t.ctxAt k j).pc = c.pc + BitVec.ofNat 64 (4 * f.words) ∧ t.issue.go = false) ∧
      (u.nullified f.slots = false → (∀ i, c.lastIssue = some i → i + 1 + stall.toNat ≤ s.now) → u.mustWait f.slots = false →
        brk = true → u.cur.bsup = false → f.waits = false → c.signed = none →
        Goes s (.bundleIssue k) fun t => t.issue.outcome = .trap ∧ t.issue.trapped = some ⟨cBREAK, info47 0 c.pc⟩) ∧
      (u.nullified f.slots = false → (∀ i, c.lastIssue = some i → i + 1 + stall.toNat ≤ s.now) → u.mustWait f.slots = false →
        (brk = true → u.cur.bsup = true) → u.getSys rSBCHK ≠ 1 → lend.val ≤ c.loop.levels.length →
        c.preHit = false → c.running ≤ (u.getSys rPREBOUND).toNat → u.recorded f.slots = none → u.regill f.slots = none →
        Goes s (.bundleIssue k) fun t => t.issue.go = true ∧ t.issue.core = k ∧ t.issue.slot = j ∧ t.issue.addr = c.pc ∧ t.issue.loads = c.region.buffer)) := by
  obtain ⟨htrap, hnull, hcheck⟩ := State.issueBundle_framed hr hf hs hn hb hq
  refine ⟨fun v hv => ⟨_, rfl, ?_⟩, fun lend brk stall run hv hbc => ?_⟩
  · rw [htrap v hv]
    exact ⟨rfl, rfl⟩
  have hi := State.framed_issue (s := s) (k := k) (j := j) (f := f)
  have hcur := State.framed_cur (s := s) (k := k) (j := j) (f := f)
  rw [hbc] at hi
  refine ⟨fun hnl => ⟨_, rfl, ?_⟩, fun hnl hl hw hbrk hsup hwt hsg => ⟨_, rfl, ?_⟩, fun hnl hl hw hbrk hsb hld hpre hrun hrec hreg => ⟨_, rfl, ?_⟩⟩
  · rw [hnull hv hnl]
    simp only [State.track, State.modCur, State.modCtx_issue, hi, State.ctxAt_modCtx_self, State.framed_ctxAt]
    exact ⟨rfl, rfl⟩
  · rw [hcheck hv hnl (by rw [hi]) (by rw [hi]; exact hl) hw, hwt, State.checkBundle_break (by rw [hcur]; exact hsg) (by rw [hi]; exact hbrk) hsup, hi]
    exact ⟨rfl, rfl⟩
  · have hrm : (s.framed k j f).issue.rm = 0 := by rw [hi]
    have he := State.earlyTrap_none (ss := f.slots) hrm (by rw [hi]; exact hbrk) hsb (by rw [hcur]; exact hpre) (by rw [hcur]; exact hrun) hrec
    rw [hcheck hv hnl (by rw [hi]) (by rw [hi]; exact hl) hw,
      State.checkBundle_go he hrm (by rw [hcur]; exact hq) hw (by rw [hi, hcur]; exact hld) hreg, hi, hcur]
    exact ⟨rfl, rfl, rfl, rfl, rfl⟩

end Framed
/-! ## Selection -/

/-- A selection passes over a candidate that it does not choose (R287). -/
def State.passOver (k : Nat) (x : Fin 4) (s : State) (j : Fin 4) : State :=
  if j = x then s else s.modCtx k j fun c => { c with passed := c.passed + 1 }

theorem State.passOver_keeps (k : Nat) (x : Fin 4) (s : State) (j : Fin 4) :
    ((s.passOver k x j).core k |>.running, (s.passOver k x j).core k |>.ran, (s.passOver k x j).core k |>.bubble, (s.passOver k x j).ctxAt k x,
      (s.passOver k x j).now) = ((s.core k).running, (s.core k).ran, (s.core k).bubble, s.ctxAt k x, s.now) := by
  unfold State.passOver
  split
  · rfl
  next h =>
    simp only [State.core_modCtx_self, State.ctxAt_modCtx, h, and_false, if_false]
    rfl

theorem State.passOver_passed (k : Nat) (x : Fin 4) {i : Fin 4} (hx : i ≠ x) (s : State) (j : Fin 4) :
    ((s.passOver k x j).ctxAt k i).passed = (s.ctxAt k i).passed + (if j = i then 1 else 0) := by
  unfold State.passOver
  by_cases hj : j = x
  · rw [if_pos hj, if_neg (fun h => hx (h.symm.trans hj)), Nat.add_zero]
  · rw [if_neg hj, State.ctxAt_modCtx]
    by_cases hi : j = i <;> simp [hi]

/-- Each candidate that is not chosen is passed over once. -/
theorem State.foldl_passOver_passed (k : Nat) (x : Fin 4) {i : Fin 4} (hx : i ≠ x) : ∀ (js : List (Fin 4)) (s : State),
    ((js.foldl (State.passOver k x) s).ctxAt k i).passed = (s.ctxAt k i).passed + js.count i
  | [], s => rfl
  | j :: js, s => by
    rw [List.foldl_cons, State.foldl_passOver_passed k x hx js, State.passOver_passed k x hx, List.count_cons]
    simp only [beq_iff_eq]
    omega

/-- A core begins to run a context, after a bubble where another ran before (R285). -/
def Core.beginRun (x : Fin 4) (now : Nat) (c : Core) : Core :=
  { c with running := some x, ran := c.ctx[x].ident, bubble := if c.ran = 0 ∨ c.ran = c.ctx[x].ident then c.bubble else now + 1 }

theorem Core.beginRun_setCtx_bubble (c : Core) (x : Fin 4) (y : Context) (now : Nat) :
    ((c.setCtx x y).beginRun x now).bubble = if c.ran = 0 ∨ c.ran = y.ident then c.bubble else now + 1 := by
  simp [Core.beginRun, Core.setCtx]

/-- A selection of another context than the last, or by the fallback, restarts REM (R287). -/
def Core.restartRem (x : Fin 4) (fallback : Bool) (slice : Nat) (c : Core) : Core := if x ≠ c.last ∨ fallback then { c with rem := slice } else c

theorem Core.restartRem_keeps (x : Fin 4) (fallback : Bool) (slice : Nat) (c : Core) :
    (c.restartRem x fallback slice).ctx = c.ctx ∧ (c.restartRem x fallback slice).running = c.running ∧ (c.restartRem x fallback slice).bubble = c.bubble := by
  unfold Core.restartRem
  split <;> exact ⟨rfl, rfl, rfl⟩

/-- The context that a core without a running one selects, once the others have been passed over. -/
theorem State.selectCore_some {s : State} {k : Nat} {cands : List (Fin 4)} {x : Fin 4} {fallback : Bool}
    (hr : ((cands.foldl (State.passOver k x) s).core k).running = none) (hsel : s.selectSlot k cands = some (x, fallback)) :
    ∃ slice, s.selectCore k cands = ((((cands.foldl (State.passOver k x) s).modCtx k x fun c => { c with state := .running, resumed := true }).modCore k
      (Core.beginRun x (cands.foldl (State.passOver k x) s).now)).modCtx k x fun c => { c with passed := 0 }).modCore k (Core.restartRem x fallback slice) := by
  have hfold : (cands.foldl (fun s j => if j = x then s else s.modCtx k j fun c => { c with passed := c.passed + 1 }) s) =
      cands.foldl (State.passOver k x) s := rfl
  simp only [State.selectCore, hsel, hfold, hr, reduceCtorEq, if_false]
  exact ⟨_, rfl⟩

/-- A core without a running context takes the one that its selection names (R285 to R287). -/
theorem State.selectCore_takes {s : State} {k : Nat} {cands : List (Fin 4)} {x : Fin 4} {fallback : Bool} (hr : (s.core k).running = none)
    (hsel : s.selectSlot k cands = some (x, fallback)) (hnd : cands.Nodup) :
    let t := s.selectCore k cands
    (t.core k).running = some x ∧ (t.ctxAt k x).state = .running ∧ (t.ctxAt k x).passed = 0 ∧
    (t.core k).bubble = (if (s.core k).ran = 0 ∨ (s.core k).ran = (s.ctxAt k x).ident then (s.core k).bubble else s.now + 1) ∧
    (∀ i ∈ cands, i ≠ x → (t.ctxAt k i).passed = (s.ctxAt k i).passed + 1) := by
  have hpass := fun (i : Fin 4) (hx : i ≠ x) => State.foldl_passOver_passed k x hx cands s
  have hkeeps := foldl_keeps (g := fun s : State => ((s.core k).running, (s.core k).ran, (s.core k).bubble, s.ctxAt k x, s.now))
    (State.passOver_keeps k x) cands s
  simp only [Prod.mk.injEq] at hkeeps
  obtain ⟨hrun, hran, hbub, hctx, hnow⟩ := hkeeps
  obtain ⟨slice, ht⟩ := State.selectCore_some (hrun.trans hr) hsel
  rw [ht]
  generalize cands.foldl (State.passOver k x) s = u at hran hbub hctx hnow hpass
  obtain ⟨-, hrrun, hrbub⟩ := Core.restartRem_keeps x fallback slice
    ((((u.modCtx k x fun c => { c with state := .running, resumed := true }).modCore k (Core.beginRun x u.now)).modCtx k x fun c => { c with passed := 0 }).core k)
  have hrem : ∀ i f, (State.modCore f k (Core.restartRem x fallback slice)).ctxAt k i = f.ctxAt k i := fun i f =>
    State.ctxAt_modCore (fun c => (Core.restartRem_keeps x fallback slice c).1) k i
  have hbegin : ∀ i f, (State.modCore f k (Core.beginRun x u.now)).ctxAt k i = f.ctxAt k i := fun i f =>
    State.ctxAt_modCore (f := Core.beginRun x u.now) (fun _ => rfl) k i
  refine ⟨?_, ?_, ?_, ?_, fun i hi hx => ?_⟩
  · rw [State.core_modCore_self, hrrun, State.core_modCtx_self, State.core_modCore_self]
    rfl
  · simp only [hrem, State.ctxAt_modCtx_self, hbegin]
  · simp only [hrem, State.ctxAt_modCtx_self]
  · rw [State.core_modCore_self, hrbub, State.core_modCtx_self, State.core_modCore_self, State.core_modCtx_self]
    refine (Core.beginRun_setCtx_bubble ..).trans ?_
    rw [hran, hbub, hctx, hnow]
  · have hne : ¬ (k = k ∧ x = i) := fun h => hx h.2.symm
    rw [hrem, State.ctxAt_modCtx, if_neg hne, hbegin, State.ctxAt_modCtx, if_neg hne, hpass i hx, List.count_eq_one_of_mem hnd hi]

theorem slotOrder_filter_single : ∀ last j : Fin 4, (slotOrder last).filter (fun i => [j].contains i) = [j] := by decide

/-- A single candidate is selected. -/
theorem State.selectSlot_single (s : State) (k : Nat) (j : Fin 4) : ∃ fallback, s.selectSlot k [j] = some (j, fallback) := by
  have hpool : ∀ (p q : Fin 4 → Bool), ∃ fallback,
      (if [j].filter p ≠ [] then ([j].filter p, false) else if [j].filter q ≠ [] then ([j].filter q, false) else ([j], true)) = ([j], fallback) := by
    intro p q
    by_cases hp : p j = true
    · exact ⟨false, by simp [hp]⟩
    · by_cases hq : q j = true
      · exact ⟨false, by simp [hp, hq]⟩
      · exact ⟨true, by simp [hp, hq]⟩
  have htop : [j].filter (fun i => (s.ctxAt k i).rank == s.topRank k [j]) = [j] := by simp [State.topRank]
  obtain ⟨fallback, h⟩ := hpool (fun j' => (s.ctxAt k j').rank == s.topRank k [j] && 16 ≤ (s.ctxAt k j').passed)
    (fun j' => s.runAtPc k j' != 0 && 64 * s.runAtPc k j' ≤ (s.core k).rem)
  exact ⟨fallback, by simp only [State.selectSlot, h, htop, slotOrder_filter_single]⟩

/-- CONTEXT_SELECT on a core without a running context (R285 to R287). -/
theorem State.contextSelect_goes (s : State) (k : Nat) (j : Fin 4) (hr : (s.core k).running = none) :
    (∀ x fallback, s.selectSlot k (s.candidates k) = some (x, fallback) → Goes s (.contextSelect k) fun t =>
      (t.core k).running = some x ∧ (t.ctxAt k x).state = .running ∧ (t.ctxAt k x).passed = 0 ∧
      (t.core k).bubble = (if (s.core k).ran = 0 ∨ (s.core k).ran = (s.ctxAt k x).ident then (s.core k).bubble else s.now + 1) ∧
      (∀ i ∈ s.candidates k, i ≠ x → (t.ctxAt k i).passed = (s.ctxAt k i).passed + 1)) ∧
    (s.candidates k = [j] → Goes s (.contextSelect k) fun t => (t.core k).running = some j) := by
  have hexec : exec (.contextSelect k) s = .next (s.selectCore k (s.candidates k)) := by
    change (if (s.core k).running.isSome then s.done else (s.selectCore k (s.candidates k)).done) = _
    rw [hr]
    rfl
  have hnd : (s.candidates k).Nodup := (List.nodup_finRange 4).filter _
  refine ⟨fun x fallback hsel => ⟨_, hexec, State.selectCore_takes hr hsel hnd⟩, fun hc => ⟨_, hexec, ?_⟩⟩
  obtain ⟨fallback, hsel⟩ := s.selectSlot_single k j
  exact (State.selectCore_takes hr (hc ▸ hsel) hnd).1

/-- CONTEXT_WAKE of a STALLED context that would not wait any more (R285). -/
theorem State.contextWake_yields {s : State} {k : Nat} {j : Fin 4} (hs : (s.ctxAt k j).state = .stalled) (ho : s.issue.outcome = .run) :
    exec (.contextWake k j.val) s = .next (s.modCtx k j fun c => { c with state := .yielded }) := by
  change execContextWake k j.val s = _
  simp only [execContextWake, slotNum_val, hs, ho, and_self, if_true, State.done]

/-- PREBOUND_EXPIRY past the bound (R299). -/
theorem State.preboundExpiry_notes {s : State} {k : Nat} {j : Fin 4} (hs : (s.ctxAt k j).state = .running)
    (hp : ((s.ctxAt k j).sysv rPREBOUND).toNat < (s.ctxAt k j).running) :
    exec (.preboundExpiry k j.val) s = .next (s.modCtx k j fun c => { c with preHit := true }) := by
  change execPreboundExpiry k j.val s = _
  simp only [execPreboundExpiry, slotNum_val, hs, hp, and_self, if_true, State.done]

/-! ## Regions and sections -/

theorem Context.sysv_setSys_self (c : Context) (r : Fin 20) (v : Word) : (c.setSys r v).sysv r = v := by
  simp [Context.setSys, Context.sysv]

/-- A context whose region opens (R264). -/
theorem State.openRegion_ctxAt (s : State) (k : Nat) (j : Fin 4) (entry : Word) : (s.openRegion k j entry).ctxAt k j =
    { (s.ctxAt k j).setSys rREGENT entry with
      region := { Region.reset with firstId := (s.ctxAt k j).nextId, check := s.checkpoint k j } } := by
  rw [State.openRegion, State.ctxAt_modCtx_self]

/-- The kernel section of a member that enters it at a trip of its own (R314). -/
theorem State.nextSection_kernel {s : State} {k : Nat} {j : Fin 4} {m : Member} (hm : (s.ctxAt k j).member = some m) (hs : m.sect = .prologue)
    (ht : m.trip ≠ 0) : s.nextSection k j = s.enterSection k j m .kernel 0 := by
  have hpos : 0 < m.trip.toNat := Nat.pos_of_ne_zero fun h => ht (BitVec.eq_of_toNat_eq h)
  have hnext : m.next = some (.kernel, 0) := by simp [Member.next, hs, hpos]
  simp only [State.nextSection, hm, hnext]

/-- CONTEXT_LOAD_COMPLETE (R285, R304, R314). -/
theorem State.contextLoadComplete_goes (s : State) (k : Nat) (j : Fin 4) (hs : (s.ctxAt k j).state = .loading) (hl : (s.ctxAt k j).loadAt ≤ s.now) :
    let c := s.ctxAt k j
    (c.restore = false → c.pc ≠ 0 → Goes s (.contextLoadComplete k j.val) fun t => (t.ctxAt k j).state = .ready ∧ (t.ctxAt k j).pc = c.pc ∧
      (t.ctxAt k j).sysv rREGENT = c.pc ∧ (t.ctxAt k j).region.buffer = []) ∧
    (∀ m, c.restore = false → c.pc = 0 → c.member = some m → m.sect = .prologue → m.trip ≠ 0 → Goes s (.contextLoadComplete k j.val) fun t =>
      (t.ctxAt k j).state = .ready ∧ (t.ctxAt k j).pc = m.ker.setWidth 64 ∧ (t.ctxAt k j).regs.s[(61 : Fin 63)] = 0 ∧
      (t.ctxAt k j).regs.s[(62 : Fin 63)] = secEnd) ∧
    (c.restore = true → Goes s (.contextLoadComplete k j.val) fun t => (t.ctxAt k j).state = .yielded ∧ (t.ctxAt k j).pc = c.pc ∧
      (t.ctxAt k j).span.addr = c.pc ∧ (t.ctxAt k j).span.rewindable = true) := by
  have hstart : ¬ ((s.ctxAt k j).state ≠ .loading ∨ s.now < (s.ctxAt k j).loadAt) := by simp [hs, Nat.not_lt.mpr hl]
  have hexec : exec (.contextLoadComplete k j.val) s = execContextLoadComplete k j.val s := rfl
  rw [execContextLoadComplete, slotNum_val] at hexec
  simp only [hstart, if_false, State.done] at hexec
  refine ⟨fun hr hp => ?_, fun m hr hp hm hsec ht => ?_, fun hr => ?_⟩
  · rw [hr, if_neg Bool.false_ne_true, if_neg hp] at hexec
    refine Goes.intro hexec ?_
    rw [State.openRegion_ctxAt, State.ctxAt_modCtx_self]
    exact ⟨rfl, rfl, Context.sysv_setSys_self _ rREGENT _, rfl⟩
  · rw [hr, if_neg Bool.false_ne_true, if_pos hp, State.nextSection_kernel (by rw [State.ctxAt_modCtx_self]; exact hm) hsec ht] at hexec
    refine Goes.intro hexec ?_
    simp only [State.enterSection, State.openRegion_ctxAt, State.ctxAt_modCtx_self]
    exact ⟨rfl, rfl, by simp [Context.setSys, Context.track, Context.sectionRegs], by simp [Context.setSys, Context.track, Context.sectionRegs]⟩
  · rw [hr, if_pos rfl] at hexec
    refine Goes.intro hexec ?_
    simp only [State.ctxAt_modCtx_self, State.openRegion_ctxAt]
    exact ⟨rfl, rfl, rfl, rfl⟩

/-! ## Commits of a closing bundle -/

theorem Context.setPending_keeps (c : Context) (e : Effect) :
    ((c.setPending e).outbox, (c.setPending e).member) = (c.outbox, c.member) := by
  cases e <;> rfl

/-- A context whose region is accepted, engine commands numbered from a serial number up (R264, R273, R274). -/
def Context.handOff (c : Context) (serial : Nat) : Context :=
  let r := { c.region with deferred := numberFrom serial c.region.deferred }
  let c := r.deferred.foldl Context.setPending c
  let quietEffects := r.deferred.all fun e => match e with
    | .mcall _ _ _ => true
    | _ => false
  let c := if c.super then c else c.setSys rREGCNT 0
  { c with outbox := c.outbox ++ r.handed,
           atomics := match r.atomic with
             | some a => c.atomics ++ [(a.d, none)]
             | none => c.atomics,
           span := { c.span with rewindable := c.span.rewindable && quietEffects },
           redrop := none,
           region := { Region.reset with firstId := c.nextId, check := r.check } }

theorem State.accept_ctxAt (s : State) (k : Nat) (j : Fin 4) : (s.accept k j).ctxAt k j = (s.ctxAt k j).handOff s.serial := by
  unfold State.accept
  simp only [State.ctxAt_modCtx_self]
  split
  · rfl
  · have hctx := State.ctxAt_modCore (s := s) (k := k)
      (f := fun x => { x with order := x.order ++ List.replicate ((s.ctxAt k j).region.deferred.filter Effect.isMatrix).length j }) (fun _ => rfl) k j
    change Context.handOff (State.ctxAt _ k j) s.serial = _
    exact congrArg (Context.handOff · s.serial) hctx

/-- What an accepted region hands off is behind what its context has handed off before. -/
theorem Context.handOff_outbox (c : Context) (serial : Nat) : (c.handOff serial).outbox =
    c.outbox ++ { c.region with deferred := numberFrom serial c.region.deferred }.handed ∧ (c.handOff serial).member = c.member := by
  have hpend := foldl_keeps (g := fun c : Context => (c.outbox, c.member)) Context.setPending_keeps (numberFrom serial c.region.deferred) c
  obtain ⟨hout, hmem⟩ := Prod.mk.inj hpend
  unfold Context.handOff
  dsimp only
  split
  · exact ⟨congrArg (· ++ _) hout, hmem⟩
  · exact ⟨congrArg (· ++ _) hout, hmem⟩

/-- A context that leaves is EXITING with the names of its exit (R317). -/
theorem State.beginExit_ctxAt (s : State) (k : Nat) (j : Fin 4) (names : List Nat) : (s.beginExit k j names).ctxAt k j =
    { (s.ctxAt k j).settleAll with
      state := .exiting, closing := none, member := (s.ctxAt k j).member.map fun m => { m with names := names } } := by
  rw [State.beginExit, State.ctxAt_modCore, State.ctxAt_modCtx_self]
  exact fun _ => rfl

/-- REGION_COMMIT_ACCEPT of a closing bundle whose region can be accepted (R275, R296, R298, R314, R319). -/
theorem State.regionCommitAccept_goes (s : State) (k : Nat) (j : Fin 4) (hs : (s.ctxAt k j).state = .closing) (hd : s.shadowDone k j = true)
    (ha : s.acceptReady k j = true) (he : (s.ctxAt k j).commitError = none) :
    let c := s.ctxAt k j
    (∀ names, c.closing = some (.exit names) → Goes s (.regionCommitAccept k j.val) fun t =>
      (t.ctxAt k j).state = .exiting ∧
      (t.ctxAt k j).outbox = c.outbox ++ { c.region with deferred := numberFrom s.serial c.region.deferred }.handed ∧
      (t.ctxAt k j).member = c.member.map fun m => { m with names := names }) ∧
    (c.closing = some .rfe → exec (.regionCommitAccept k j.val) s = .next ((s.accept k j).trapReturn k j)) ∧
    (c.closing = some .halt → exec (.regionCommitAccept k j.val) s = .next (((s.accept k j).modCtx k j fun c =>
      { c.settle (s.now + 1) with closing := none }).endFaulted k j)) ∧
    (c.closing = some .sectionEnd → exec (.regionCommitAccept k j.val) s = .next (((s.accept k j).modCtx k j fun c =>
      { c with state := .running, closing := none }).nextSection k j)) := by
  have hnow : (s.accept k j).now = s.now := by
    unfold State.accept
    simp only [State.modCtx_now]
    split <;> rfl
  have hexec : ∀ x, x ≠ .faulted → (s.ctxAt k j).closing = some x → exec (.regionCommitAccept k j.val) s = .next (s.closeBundle k j x) := by
    intro x hx hc
    change execRegionCommitAccept k j.val s = _
    rw [execRegionCommitAccept, slotNum_val]
    simp only [hs, hc, hd, ha, Bool.not_true, Bool.false_eq_true, if_false, if_true, State.done]
  refine ⟨fun names hc => Goes.intro (hexec _ (by simp) hc) ?_, fun hc => (hexec _ (by simp) hc).trans ?_, fun hc => (hexec _ (by simp) hc).trans ?_,
    fun hc => (hexec _ (by simp) hc).trans ?_⟩
  · obtain ⟨hout, hmem⟩ := (s.ctxAt k j).handOff_outbox s.serial
    simp only [State.closeBundle, he, State.beginExit_ctxAt, State.accept_ctxAt]
    exact ⟨trivial, hout, by rw [hmem]⟩
  · simp only [State.closeBundle, he]
  · simp only [State.closeBundle, he, hnow]
  · simp only [State.closeBundle, he]

/-- QUIET_BOUNDARY_PASS of a bundle that waits for its boundary (R281, R282). -/
theorem State.quietBoundaryPass_goes (s : State) (k : Nat) (j : Fin 4) (hs : (s.ctxAt k j).state = .running) (hq : (s.ctxAt k j).quiet = true)
    (ht : s.quietTest k j = .boundary) (hsave : (s.ctxAt k j).save = none) :
    Goes s (.quietBoundaryPass k j.val) fun t =>
      (t.ctxAt k j).quiet = false ∧ (t.ctxAt k j).running = 0 ∧ (t.ctxAt k j).preHit = false ∧ (t.ctxAt k j).span.addr = (s.ctxAt k j).pc ∧
      (t.ctxAt k j).span.rewindable = true ∧ (t.ctxAt k j).pc = (s.ctxAt k j).pc := by
  have hexec : exec (.quietBoundaryPass k j.val) s = execQuietBoundaryPass k j.val s := rfl
  rw [execQuietBoundaryPass, slotNum_val] at hexec
  simp only [hs, hq, ht, hsave, State.passQuiet, State.done, ne_eq, not_true, Bool.not_true, Bool.false_eq_true, Option.isSome_none, false_and, or_self,
    if_false] at hexec
  refine Goes.intro hexec ?_
  rw [State.ctxAt_modCtx_self]
  exact ⟨rfl, rfl, rfl, rfl, rfl, rfl⟩

/-! ## Retirement -/

/-- A freed slot keeps its registers and nothing else (R285). -/
theorem State.freeSlot_ctxAt (s : State) (k : Nat) (j : Fin 4) : (s.freeSlot k j).ctxAt k j = { Context.reset j.val with regs := (s.ctxAt k j).regs } := by
  have hbanks : (s.releaseBanks k j).ctxAt k j = s.ctxAt k j := by
    rw [State.releaseBanks, State.ctxAt_modCore]
    exact fun _ => rfl
  rw [State.freeSlot, State.ctxAt_modCore, State.ctxAt_modCtx_self, hbanks]
  exact fun _ => rfl

theorem State.freeSlot_ctxAt_ne (s : State) (k : Nat) {i j : Fin 4} (h : i ≠ j) : (s.freeSlot k j).ctxAt k i = s.ctxAt k i := by
  have hbanks : (s.releaseBanks k j).ctxAt k i = s.ctxAt k i := by
    rw [State.releaseBanks, State.ctxAt_modCore]
    exact fun _ => rfl
  rw [State.freeSlot, State.ctxAt_modCore, State.ctxAt_modCtx, if_neg fun hk => h hk.2.symm, hbanks]
  exact fun _ => rfl

/-- The banks of a freed slot are EMPTY (R183). -/
theorem State.freeSlot_bank {s : State} {k : Nat} {j b : Fin 4} (h : (s.core k).banks[b].owner = some j) :
    ((s.freeSlot k j).core k).banks[b] = Bank.reset := by
  rw [State.freeSlot, State.core_modCore_self, State.core_modCtx_self, State.releaseBanks, State.core_modCore_self]
  rw [Fin.getElem_fin] at h
  simp [Core.setCtx, vecMap, h]

theorem State.freeSlot_state (s : State) (k : Nat) (j : Fin 4) : ((s.freeSlot k j).ctxAt k j).state = .free := by
  rw [State.freeSlot_ctxAt]
  rfl

theorem State.cancelSave_none {s : State} {k : Nat} {j : Fin 4} (h : (s.ctxAt k j).save = none) : s.cancelSave k j = s := by
  rw [State.cancelSave, h]

/-- A change of a run's launch block that its field does not hold changes none. -/
theorem findRunIn_map {run : Nat} (g : HeldLb → HeldLb) : ∀ {lbs : List HeldLb}, findRunIn run lbs = none →
    findRunIn run (lbs.map fun x => if x.run = run then g x else x) = none
  | [], _ => rfl
  | x :: lbs, h => by
    by_cases hx : x.run = run
    · simp [findRunIn, hx] at h
    · simp only [findRunIn, if_neg hx] at h
      simp only [List.map_cons, findRunIn, if_neg hx, findRunIn_map g h]

theorem State.findRun_modRun {s : State} {f run : Nat} (g : HeldLb → HeldLb) (h : s.findRun f run = none) : (s.modRun f run g).findRun f run = none := by
  rw [State.findRun, State.modRun, State.field_modField_self]
  exact findRunIn_map g h

/-- The names of an exit leave its context EXITING, without them (R317). -/
theorem State.handNames_ctxAt (s : State) (k : Nat) (j : Fin 4) (m : Member) :
    (s.handNames k j m).ctxAt k j = { s.ctxAt k j with member := some { m with names := [] } } := by
  unfold State.handNames
  dsimp only
  have hctx := State.ctxAt_modCtx_self s k j fun c => { c with member := some { m with names := [] } }
  split
  · exact hctx
  · split
    · exact hctx
    · split
      · split <;> exact hctx
      · refine (foldl_keeps (g := fun s : State => s.ctxAt k j) (fun u a => ?_) m.names _).trans hctx
        rfl

/-- MEMBER_RETIRE of a context that has handed everything off (R285, R316, R317, R343). -/
theorem State.memberRetire_goes (s : State) (k : Nat) (j : Fin 4) (hs : (s.ctxAt k j).state = .exiting) (hh : (s.ctxAt k j).handedOff = true) :
    let c := s.ctxAt k j
    (c.member = none → c.save = none → Goes s (.memberRetire k j.val) fun t => (t.ctxAt k j).state = .free ∧ (∀ i ≠ j, (t.ctxAt k i) = s.ctxAt k i) ∧
      ∀ b : Fin 4, (s.core k).banks[b].owner = some j → (t.core k).banks[b] = Bank.reset) ∧
    (∀ m, c.member = some m → m.names ≠ [] → Goes s (.memberRetire k j.val) fun t => (t.ctxAt k j).state = .exiting ∧
      (t.ctxAt k j).member = some { m with names := [] }) ∧
    (∀ m, c.member = some m → m.names = [] → c.save = none → s.namesPending m.field (.exit k j) = false → s.marksPending c.ident = false →
      s.findRun m.field m.run = none → Goes s (.memberRetire k j.val) fun t => (t.ctxAt k j).state = .free) ∧
    (∀ m, c.member = some m → m.names = [] → s.namesPending m.field (.exit k j) = false → s.marksPending c.ident = false →
      let u := ((s.cancelSave k j).freeSlot k j).modRun m.field m.run fun l =>
        l.modGroup m.twin fun g => g.retire (lbWidth l.words) m.index.toNat (c.sysv rSIGREG) l.remote
      (u.ctxAt k j).state = .free ∧
      ∀ lb, u.findRun m.field m.run = some lb →
        (lb.differs m.index.toNat = true → exec (.memberRetire k j.val) s = .next (u.kernelFault m.field m.run cDUPMIS 0)) ∧
        (lb.differs m.index.toNat = false → lb.finished = false → exec (.memberRetire k j.val) s = .next u) ∧
        (lb.differs m.index.toNat = false → lb.finished = true → exec (.memberRetire k j.val) s = .next (u.endRun m.field lb) ∧
          (lb.writeSet = [] → u.endRun m.field lb = u.retireRun m.field lb))) := by
  have hexec : exec (.memberRetire k j.val) s = execMemberRetire k j.val s := rfl
  have hj : (⟨j.val % 4, Nat.mod_lt _ (by decide)⟩ : Fin 4) = j := slotNum_val j
  simp only [execMemberRetire, hj, hs, hh, ne_eq, not_true, Bool.not_true, Bool.false_eq_true, or_self, if_false] at hexec
  have hretire : ∀ m, (s.ctxAt k j).member = some m → m.names = [] → s.namesPending m.field (.exit k j) = false → s.marksPending (s.ctxAt k j).ident = false →
      exec (.memberRetire k j.val) s = .next (s.retireMember k j) := by
    intro m hm hn hp ht
    simp only [hm, hn, hp, ht, not_true, Bool.false_eq_true, or_self, if_false] at hexec
    exact hexec
  refine ⟨fun hm hsv => ?_, fun m hm hn => ?_, fun m hm hn hsv hp ht hf => ?_, fun m hm hn hp ht => ⟨State.freeSlot_state _ k j, fun lb hf => ?_⟩⟩
  · simp only [hm, State.retireMember, State.cancelSave_none hsv] at hexec
    exact Goes.intro hexec ⟨State.freeSlot_state s k j, fun i hi => State.freeSlot_ctxAt_ne s k hi, fun b hb => State.freeSlot_bank hb⟩
  · simp only [hm, hn, not_false_eq_true, if_true] at hexec
    refine Goes.intro hexec ?_
    rw [State.handNames_ctxAt]
    exact ⟨hs, rfl⟩
  · refine Goes.intro (hretire m hm hn hp ht) ?_
    simp only [State.retireMember, hm, State.cancelSave_none hsv]
    rw [State.findRun_modRun (s := s.freeSlot k j) _ hf]
    exact State.freeSlot_state s k j
  · rw [hretire m hm hn hp ht]
    simp only [State.retireMember, hm, hf]
    refine ⟨fun hd => by rw [if_pos hd], fun hd hfin => ?_, fun hd hfin => ⟨?_, fun hw => ?_⟩⟩
    · rw [hd, hfin, if_neg Bool.false_ne_true, if_neg Bool.false_ne_true]
    · rw [hd, hfin, if_neg Bool.false_ne_true, if_pos rfl]
    · simp [State.endRun, State.flipWaits, hw]

/-- A member that retires is one of its group's retired, with its signature (R317). -/
theorem Group.retire_lists (g : Group) (n i : Nat) (sig : Word) (r : Bool) : i ∈ (g.retire n i sig r).retired ∧ (i, sig) ∈ (g.retire n i sig r).sigs := by
  have hgen : ∀ (g : Group) (b : Fin 16), ((g.closeGen n b).retired, (g.closeGen n b).sigs) = (g.retired, g.sigs) := by
    intro g b
    unfold Group.closeGen
    split <;> rfl
  have hphase : ∀ g : Group, ((g.closePhase n).retired, (g.closePhase n).sigs) = (g.retired, g.sigs) := by
    intro g
    unfold Group.closePhase
    split <;> rfl
  unfold Group.retire
  dsimp only
  split
  · exact ⟨List.mem_cons_self, List.mem_cons_self⟩
  · obtain ⟨hr, hsig⟩ := Prod.mk.inj ((foldl_keeps (g := fun g : Group => (g.retired, g.sigs)) hgen (List.finRange 16) _).trans (hphase
      { g with retired := i :: g.retired, sigs := (i, sig) :: g.sigs }))
    exact ⟨hr ▸ List.mem_cons_self, hsig ▸ List.mem_cons_self⟩

end Sys2Proof.Machine
end

section
/-! SUPPORT. The obligation on the events of a context. -/

namespace Sys2Proof
open Machine

/-- Settles O45, event by event. -/
theorem contextEvents : Obligations.ContextEvents := by
  unfold Obligations.ContextEvents
  intro s k j
  exact ⟨fun f hr hf hs hn hb hq => State.bundleIssue_goes hr hf hs hn hb hq, State.contextSelect_goes s k j, State.contextWake_yields,
    State.contextLoadComplete_goes s k j, State.preboundExpiry_notes, State.regionCommitAccept_goes s k j, State.quietBoundaryPass_goes s k j,
    State.memberRetire_goes s k j, Group.retire_lists⟩

end Sys2Proof
end

section
/-! SUPPORT. What memory, queues, traps and saves leave of the bundle in issue: its frame stays as it was. -/

namespace Sys2Proof.Machine

/-! ## Memory and caches -/

@[simp] theorem State.passTag_issue (s : State) (n : Nat) : (s.passTag n).issue = s.issue := by
  unfold State.passTag
  split <;> rfl

@[simp] theorem State.meetLine_issue (s : State) (t : Trans) (n : Nat) : (s.meetLine t n).issue = s.issue := by
  unfold State.meetLine
  dsimp only
  split
  · rfl
  · split
    · rfl
    · exact s.passTag_issue _

@[simp] theorem State.meet_issue (s : State) (t : Trans) : (s.meet t).issue = s.issue := by
  unfold State.meet
  split
  · exact s.meetLine_issue _ _
  · rfl

@[simp] theorem State.homeWrite_issue (s : State) (t : Trans) (n : Nat) (m : BitVec 64) (d : Line) : (s.homeWrite t n m d).issue = s.issue := by
  unfold State.homeWrite
  dsimp only
  split
  · rfl
  · split
    · rfl
    · exact s.meetLine_issue _ _

@[simp] theorem State.writeHome_issue (s : State) (t : Trans) (m : BitVec 64) (d : Line) : (s.writeHome t m d).issue = s.issue := by
  unfold State.writeHome
  dsimp only
  split
  · rfl
  · split
    · rfl
    · split
      · exact s.homeWrite_issue _ _ _ _
      · split
        · exact s.homeWrite_issue _ _ _ _
        all_goals rfl

@[simp] theorem State.evict_issue (s : State) (k : Nat) (x : CacheLine) : (s.evict k x).issue = s.issue := by
  unfold State.evict
  dsimp only
  split
  · rfl
  · exact State.homeWrite_issue _ _ _ _ _

@[simp] theorem State.evictLines_issue (s : State) (h : Nat) (kid : BitVec 8) (n : Nat) : (s.evictLines h kid n).issue = s.issue := by
  refine foldl_keeps (g := State.issue) (fun u k => ?_) _ s
  split
  · exact u.evict_issue _ _
  · rfl

@[simp] theorem State.writeBack_issue (s : State) (k : Nat) : (s.writeBack k).issue = s.issue := by
  refine foldl_keeps (g := State.issue) (fun u j => ?_) _ s
  dsimp only
  split
  · refine foldl_keeps (g := State.issue) (fun v x => ?_) _ u
    split
    · exact v.homeWrite_issue _ _ _ _
    · rfl
  · rfl

@[simp] theorem State.tell_issue (s : State) (i : Nat) (v : TrapVal) : (s.tell i v).issue = s.issue := by
  refine foldl_keeps (g := State.issue) (fun u k => ?_) _ s
  refine foldl_keeps (g := State.issue) (fun u j => ?_) _ u
  split <;> rfl

@[simp] theorem State.landWrite_issue (s : State) (k : Nat) (x : LateWrite) : (s.landWrite k x).issue = s.issue := by
  unfold State.landWrite
  split
  · split
    · rfl
    · exact s.tell_issue _ _
  · have hhome : (if x.home then s else s.writeHome x.attr x.mask x.data).issue = s.issue := by
      split
      · rfl
      · exact s.writeHome_issue _ _ _
    dsimp only
    split
    · exact (State.evictLines_issue _ _ _ _).trans hhome
    · exact hhome

@[simp] theorem State.landLate_issue (s : State) (k : Nat) : (s.landLate k).issue = s.issue := by
  unfold State.landLate State.landLateIf
  split
  · exact foldl_keeps (g := State.issue) (fun u x => u.landWrite_issue k x) _ s
  · rfl

@[simp] theorem State.physWrite_issue (s : State) (pa : Nat) (bs : List Byte) : (s.physWrite pa bs).issue = s.issue :=
  foldl_keeps (g := fun acc : State × List Byte => acc.1.issue) (fun acc _ => acc.1.writeHome_issue _ _ _) _ (s, bs)

/-! ## Translations and writes by virtual address -/

@[simp] theorem State.meetWalk_issue (s : State) (kid : BitVec 8) (va : Nat) : (s.meetWalk kid va).issue = s.issue :=
  foldl_keeps (g := State.issue) (fun u _ => u.meet_issue _) _ s

@[simp] theorem State.dropGuest_issue (s : State) (hit : BitVec 8 → Nat → Bool) : (s.dropGuest hit).issue = s.issue := by
  unfold State.dropGuest
  split <;> rfl

@[simp] theorem State.dropTlb_issue (s : State) (hit : TlbEntry → Bool) : (s.dropTlb hit).issue = s.issue := by
  refine foldl_keeps (g := State.issue) (fun u k => ?_) _ s
  split <;> rfl

@[simp] theorem State.emptyWindrows_issue (s : State) (hit : BitVec 8 → Nat → Bool) : (s.emptyWindrows hit).issue = s.issue := by
  refine foldl_keeps (g := State.issue) (fun u k => ?_) _ s
  refine foldl_keeps (g := State.issue) (fun u j => ?_) _ u
  split <;> rfl

@[simp] theorem State.copyFrame_issue (s : State) (e : TlbEntry) : (s.copyFrame e).issue = s.issue :=
  foldl_keeps (g := State.issue) (fun u _ => (State.writeHome_issue _ _ _ _).trans (u.meet_issue _)) _ s

@[simp] theorem State.ckptCopy_issue (s : State) (e : TlbEntry) : (s.ckptCopy e).issue = s.issue := by
  simp [State.ckptCopy, State.forgetPage, State.putLeaf]

/-- A monadic fold that keeps a measure at each step that goes on keeps it. -/
theorem foldlM_keeps {α β γ ε : Type} {f : α → β → Except ε α} {g : α → γ} (h : ∀ a b a', f a b = .ok a' → g a' = g a) :
    ∀ (bs : List β) (a a' : α), bs.foldlM f a = .ok a' → g a' = g a
  | [], a, a', ha => by
    cases ha
    rfl
  | b :: bs, a, a', ha => by
    rw [List.foldlM_cons] at ha
    cases hb : f a b with
    | error e =>
      rw [hb] at ha
      cases ha
    | ok x =>
      rw [hb] at ha
      exact (foldlM_keeps h bs x a' ha).trans (h a b x hb)

theorem State.vaPlaces_issue {s t : State} {w : Who} {va : Nat} {bs : List Byte} {ws : List LateWrite} (h : s.vaPlaces w va bs = .ok (t, ws)) :
    t.issue = s.issue := by
  unfold State.vaPlaces at h
  cases hf : (pieces bs.length va bs.length).foldlM (m := Except (Cause × Nat)) (init := (s, bs, [])) _ with
  | error e =>
    rw [hf] at h
    cases h
  | ok x =>
    rw [hf] at h
    cases h
    refine foldlM_keeps (g := fun acc : State × List Byte × List LateWrite => acc.1.issue) (fun acc am acc' hacc => ?_) _ _ _ hf
    extract_lets at hacc
    split at hacc
    next u bad hbad =>
      have hu : u.issue = acc.1.issue := by
        split at hbad
        · split at hbad
          · cases hbad
            exact acc.1.meetWalk_issue _ _
          · cases hbad
            exact (State.ckptCopy_issue _ _).trans (acc.1.meetWalk_issue _ _)
        · cases hbad
          exact acc.1.meetWalk_issue _ _
      split at hacc
      · split at hacc
        · cases hacc
        · cases hacc
          exact hu
      · cases hacc
      · cases hacc

theorem State.vaWrite_issue {s t : State} {w : Who} {va : Nat} {bs : List Byte} (h : s.vaWrite w va bs = .ok t) : t.issue = s.issue := by
  unfold State.vaWrite at h
  cases hp : s.vaPlaces w va bs with
  | error e =>
    rw [hp] at h
    cases h
  | ok x =>
    rw [hp] at h
    cases h
    exact (foldl_keeps (g := State.issue) (fun u _ => u.writeHome_issue _ _ _) x.2 x.1).trans (State.vaPlaces_issue hp)

/-! ## Queues, launch blocks and kernel faults -/

@[simp] theorem State.addRecord_issue (s : State) (f : Nat) (r : Fin 16) (ws : List Word) : (s.addRecord f r ws).issue = s.issue := by
  unfold State.addRecord
  split
  · exact s.physWrite_issue _ _
  · rfl

@[simp] theorem State.writeLbState_issue (s : State) (f : Nat) (q : Fin 64) (kid : BitVec 8) (addr code : Nat) (c : Option Cause) :
    (s.writeLbState f q kid addr code c).issue = s.issue := by
  unfold State.writeLbState
  dsimp only
  split
  next t h => exact State.vaWrite_issue h
  · exact s.addRecord_issue _ _ _

@[simp] theorem State.closeQueue_issue (s : State) (f : Nat) (q : Fin 64) : (s.closeQueue f q).issue = s.issue := by
  unfold State.closeQueue
  dsimp only
  split <;> rfl

@[simp] theorem State.reuseInvalid_issue (s : State) (f n : Nat) (w : Fin 4) : (s.reuseInvalid f n w).issue = s.issue := by
  refine foldl_keeps (g := State.issue) (fun u t => ?_) _ s
  rfl

@[simp] theorem State.setFlt_issue (s : State) (run : Nat) : (s.setFlt run).issue = s.issue := by
  refine foldl_keeps (g := State.issue) (fun u k => ?_) _ s
  refine foldl_keeps (g := State.issue) (fun u j => ?_) _ u
  split
  · split <;> rfl
  · rfl

@[simp] theorem State.kernelFault_issue (s : State) (f run : Nat) (c : Cause) (info : Word) : (s.kernelFault f run c info).issue = s.issue := by
  unfold State.kernelFault
  split
  · rfl
  · dsimp only
    rw [State.closeQueue_issue, State.addRecord_issue, State.writeLbState_issue]
    split
    · exact (State.reuseInvalid_issue _ _ _ _).trans (State.setFlt_issue _ _)
    · exact State.setFlt_issue _ _

/-! ## Saves, ends and traps -/

@[simp] theorem State.imageWrite_issue (s : State) (q : SaveRequest) (off : Nat) (bs : List Byte) : (s.imageWrite q off bs).issue = s.issue := by
  refine foldl_keeps (g := fun acc : State × List Byte => acc.1.issue) (fun acc x => ?_) _ (s, bs)
  dsimp only
  split
  · exact State.tell_issue _ _ _
  · exact State.writeHome_issue _ _ _ _

@[simp] theorem State.saveImage_issue (s : State) (k : Nat) (j : Fin 4) (q : SaveRequest) (n : Nat) : (s.saveImage k j q n).issue = s.issue := by
  simp [State.saveImage, State.releaseBanks]

@[simp] theorem State.cancelSave_issue (s : State) (k : Nat) (j : Fin 4) : (s.cancelSave k j).issue = s.issue := by
  unfold State.cancelSave
  split
  · rfl
  · dsimp only
    split <;> simp

@[simp] theorem State.freeSlot_issue (s : State) (k : Nat) (j : Fin 4) : (s.freeSlot k j).issue = s.issue := rfl

@[simp] theorem State.endFaulted_issue (s : State) (k : Nat) (j : Fin 4) : (s.endFaulted k j).issue = s.issue := by
  unfold State.endFaulted
  split
  · unfold State.finishFaulted
    dsimp only
    split <;> simp
  · rfl

@[simp] theorem State.restore_issue (s : State) (k : Nat) (j : Fin 4) (ck : Checkpoint) : (s.restore k j ck).issue = s.issue := rfl

@[simp] theorem State.discard_issue (s : State) (k : Nat) (j : Fin 4) (b : Bool) : (s.discard k j b).issue = s.issue := rfl

@[simp] theorem State.openRegion_issue (s : State) (k : Nat) (j : Fin 4) (w : Word) : (s.openRegion k j w).issue = s.issue := rfl

@[simp] theorem State.reenter_issue (s : State) (k : Nat) (j : Fin 4) : (s.reenter k j).issue = s.issue := rfl

@[simp] theorem State.deliver_issue (s : State) (k : Nat) (j : Fin 4) (c : Cause) (info : Word) : (s.deliver k j c info).issue = s.issue := by
  unfold State.deliver
  dsimp only
  split <;> simp

@[simp] theorem State.trapAt_issue (s : State) (k : Nat) (j : Fin 4) (c : Cause) (info : Word) (hw : Bool) : (s.trapAt k j c info hw).issue = s.issue := by
  have hlog : (if c = cYOKEMIS then s.grangerLog 6 (BitVec.ofNat 64 (k / 2)) else s).issue = s.issue := by split <;> rfl
  unfold State.trapAt
  dsimp only
  refine Eq.trans ?_ hlog
  generalize (if c = cYOKEMIS then s.grangerLog 6 (BitVec.ofNat 64 (k / 2)) else s) = u
  split
  · simp
  · split <;> simp

@[simp] theorem State.mxmis_issue (s : State) (k : Nat) (j : Fin 4) (info : Word) : (s.mxmis k j info).issue = s.issue := by
  unfold State.mxmis
  dsimp only
  split <;> simp only [State.openRegion_issue, State.modCtx_issue, State.modCore_issue, State.restore_issue, State.discard_issue, State.endFaulted_issue]

@[simp] theorem State.takeTrap_issue (s : State) (c : Cause) (info : Word) : (s.takeTrap c info).issue = s.issue := by
  unfold State.takeTrap
  split
  · exact s.mxmis_issue _ _ _
  · exact s.trapAt_issue _ _ _ _ _

/-- A raised trap stands in the frame of its bundle. -/
theorem State.raise_issue (s : State) (c : Cause) (info : Word) : (s.raise c info).issue = { s.issue with outcome := .trap, trapped := some ⟨c, info⟩ } := by
  simp only [State.raise, State.takeTrap_issue]

theorem State.raiseAt_issue (s : State) (v : TrapVal) (hw : Bool) : (s.raiseAt v hw).issue = { s.issue with outcome := .trap, trapped := some v } := by
  simp only [State.raiseAt, State.trapAt_issue]

end Sys2Proof.Machine
end

section
/-! SUPPORT. BUNDLE_ISSUE and the frame of the bundle: slots may run only where no check has trapped (R33, R294). -/

namespace Sys2Proof.Machine

/-! ## The frame through the checks of a bundle -/

@[simp] theorem State.notYet_issue (s : State) (k : Nat) : (s.notYet k).issue = s.issue := rfl

@[simp] theorem State.stallOrWait_issue (s : State) (k : Nat) (j : Fin 4) (y : Bool) : (s.stallOrWait k j y).issue = s.issue := by
  cases y <;> rfl

@[simp] theorem State.noteIssue_issue (s : State) : s.noteIssue.issue = s.issue := rfl

@[simp] theorem State.passBreak_issue (s : State) : s.passBreak.issue = s.issue := by
  unfold State.passBreak
  split <;> rfl

@[simp] theorem State.sign_issue (s : State) : s.sign.issue = s.issue := by
  unfold State.sign
  dsimp only
  split
  · rfl
  · split <;> rfl

@[simp] theorem State.issueSigned_issue (s : State) : s.issueSigned.issue = s.issue := by
  simp [State.issueSigned]

@[simp] theorem State.accept_issue (s : State) (k : Nat) (j : Fin 4) : (s.accept k j).issue = s.issue := by
  unfold State.accept
  dsimp only
  split <;> rfl

@[simp] theorem State.applyRm_issue (s : State) (rm : BitVec 2) : (s.applyRm rm).issue = s.issue := by
  unfold State.applyRm
  dsimp only
  split
  · rfl
  · split <;> simp

@[simp] theorem State.saveContext_issue (s : State) (k : Nat) (j : Fin 4) (q : SaveRequest) : (s.saveContext k j q).issue = s.issue := by
  unfold State.saveContext
  dsimp only
  split <;> simp [State.modQueue]

@[simp] theorem State.passQuiet_issue (s : State) (k : Nat) (j : Fin 4) : (s.passQuiet k j).issue = s.issue := by
  unfold State.passQuiet
  dsimp only
  split
  · exact s.saveContext_issue _ _ _
  · rfl

theorem State.passOver_issue (k : Nat) (x : Fin 4) (s : State) (j : Fin 4) : (s.passOver k x j).issue = s.issue := by
  unfold State.passOver
  split <;> rfl

@[simp] theorem State.selectCore_issue (s : State) (k : Nat) (cands : List (Fin 4)) : (s.selectCore k cands).issue = s.issue := by
  unfold State.selectCore
  split
  · rfl
  next x fallback _ =>
    have hpass : (cands.foldl (State.passOver k x) s).issue = s.issue := foldl_keeps (State.passOver_issue k x) cands s
    change (State.modCore _ _ _).issue = _
    rw [State.modCore_issue, State.modCtx_issue]
    split
    · exact hpass
    · split <;> exact hpass

theorem State.recorded_issue {s t : State} {ss : List Slot} {v : TrapVal} {hw : Bool} (h : s.recorded ss = some (v, hw, t)) : t.issue = s.issue := by
  unfold State.recorded at h
  extract_lets c commits act win bank atom at h
  cases hx : win with
  | some x =>
    rw [hx] at h
    cases h
    obtain ⟨w, -, hw⟩ := List.exists_of_findSome?_eq_some hx
    split at hw
    · split at hw
      · cases hw
        rfl
      · cases hw
    · cases hw
  | none =>
    cases hb : bank with
    | some x =>
      rw [hx, hb] at h
      cases h
      obtain ⟨b, -, hb⟩ := List.exists_of_findSome?_eq_some hb
      split at hb
      · split at hb
        · cases hb
          rfl
        · cases hb
      · cases hb
    | none =>
      rw [hx, hb] at h
      change atom = _ at h
      unfold atom at h
      split at h
      · split at h
        · cases h
          rfl
        · cases h
      · cases h

/-! ## Slots that may run -/

/-- A raise of a bundle that may not run its slots yet lets none run. -/
theorem State.raise_go {s : State} (h : s.issue.go = false) (c : Cause) (info : Word) : (s.raise c info).issue.go = false := by
  rw [State.raise_issue]
  exact h

theorem State.raiseEarly_go {s : State} (h : s.issue.go = false) (c : Cause) (info : Word) : (s.raiseEarly c info).issue.go = false :=
  State.raise_go (by simpa using h) c info

theorem State.earlyTrap_go {s t : State} {ss : List Slot} (h : s.issue.go = false) (ht : s.earlyTrap ss = some t) : t.issue.go = false := by
  unfold State.earlyTrap at ht
  dsimp only at ht
  split at ht
  · cases ht
  · split at ht
    · cases ht
      exact State.raise_go (by simpa using h) _ _
    · split at ht
      · cases ht
        exact State.raiseEarly_go h _ _
      · split at ht
        · cases ht
          exact State.raiseEarly_go h _ _
        · split at ht
          next v hw u hrec =>
            cases ht
            rw [State.raiseAt_issue]
            simpa [State.recorded_issue hrec] using h
          · split at ht
            · cases ht
              exact State.raiseEarly_go h _ _
            · cases ht

theorem State.lateTrap_go {s t : State} {ss : List Slot} (h : s.issue.go = false) (ht : s.lateTrap ss = some t) : t.issue.go = false := by
  unfold State.lateTrap at ht
  split at ht
  · cases ht
    exact State.raiseEarly_go h _ _
  · obtain ⟨w, -, rfl⟩ := Option.map_eq_some_iff.mp ht
    exact State.raiseEarly_go h _ _

/-- Slots may run only in a bundle that has not trapped. -/
def Issue.sound (i : Issue) : Prop := i.go = true → i.outcome = .run

theorem Issue.sound_of_go {i : Issue} (h : i.go = false) : i.sound := fun hg => absurd (h.symm.trans hg) Bool.false_ne_true

section Sound
variable {s : State} (hg : s.issue.go = false) (ho : s.issue.outcome = .run)
include hg ho

theorem State.allowSlots_sound (ss : List Slot) (w : Bool) : (s.allowSlots ss w).issue.sound := by
  unfold State.allowSlots
  split
  · rw [State.stallOrWait_issue]
    exact Issue.sound_of_go hg
  · split
    next t ht =>
      cases w with
      | true => cases ht
      | false => exact Issue.sound_of_go (State.lateTrap_go hg ht)
    · exact fun _ => ho

theorem State.checkBundle_sound (ss : List Slot) (w : Bool) : (s.checkBundle ss w).issue.sound := by
  unfold State.checkBundle
  dsimp only
  split
  next t ht =>
    split at ht
    · cases ht
    · exact Issue.sound_of_go (State.earlyTrap_go hg ht)
  · split
    · rw [State.issueSigned_issue]
      exact Issue.sound_of_go hg
    · have hi := s.applyRm_issue s.issue.rm
      generalize s.applyRm s.issue.rm = u at hi
      have hug : u.issue.go = false := by rw [hi, hg]
      have huo : u.issue.outcome = .run := by rw [hi, ho]
      split
      · split
        · rw [State.stallOrWait_issue]
          exact Issue.sound_of_go hug
        · exact State.allowSlots_sound (s := u.modCur _) hug huo ss w
        · split
          · rw [State.stallOrWait_issue]
            exact Issue.sound_of_go hug
          · split
            · exact State.allowSlots_sound (by rw [State.passQuiet_issue, hug]) (by rw [State.passQuiet_issue, huo]) ss w
            · rw [State.passQuiet_issue]
              exact Issue.sound_of_go hug
      · exact State.allowSlots_sound hug huo ss w

end Sound

/-- BUNDLE_ISSUE of a fetched bundle lets slots run only where nothing has trapped. -/
theorem State.issueBundle_sound {s : State} {k : Nat} (hg : s.issue.go = false) : (s.issueBundle k).issue.sound := by
  unfold State.issueBundle
  split
  next j f _ _ =>
    extract_lets v c u y early since test w z
    have hug : u.issue.go = false := rfl
    have huo : u.issue.outcome = .run := rfl
    have hw : w.issue = u.issue := by
      unfold w
      split
      · split
        · exact u.passQuiet_issue k j
        · rfl
      · rfl
    have hz : z.issue = w.issue := w.selectCore_issue k _
    clear_value z w u
    have hwg : w.issue.go = false := by rw [hw, hug]
    have hwo : w.issue.outcome = .run := by rw [hw, huo]
    split
    · exact Issue.sound_of_go hug
    · split
      · rw [State.stallOrWait_issue]
        exact Issue.sound_of_go hug
      · split
        · split
          · rw [State.passQuiet_issue]
            exact Issue.sound_of_go hug
          · rw [State.stallOrWait_issue]
            exact Issue.sound_of_go hug
        · split
          · exact Issue.sound_of_go (State.raise_go hwg _ _)
          · split
            · exact Issue.sound_of_go hwg
            · split
              · split
                · rw [State.selectCore_issue]
                  exact Issue.sound_of_go hwg
                · exact Issue.sound_of_go hwg
              · split
                · rw [State.stallOrWait_issue]
                  exact Issue.sound_of_go hwg
                · split
                  · split
                    · exact State.checkBundle_sound (by rw [hz, hwg]) (by rw [hz, hwo]) _ _
                    · rw [hz]
                      exact Issue.sound_of_go hwg
                  · exact State.checkBundle_sound hwg hwo _ _
  · exact Issue.sound_of_go hg

end Sys2Proof.Machine
end

section
/-! SUPPORT. A bundle of which one slot takes effect (R24, R25, R33, R76, R294): its trial, its trap and its run. -/

namespace Sys2Proof.Machine

/-! ## What the steps before the slots leave of the context -/

theorem State.writesBound_congr {s t : State} (h : t.cur.loop = s.cur.loop) (i : Instr) : t.writesBound i = s.writesBound i := by
  simp only [State.writesBound, h]

theorem State.withoutFpx_loop (s : State) : s.withoutFpx.cur.loop = s.cur.loop := by
  rw [State.withoutFpx, State.cur_modCur]
  rfl

theorem State.noteIssue_cur (s : State) : s.noteIssue.cur = s.cur := by
  unfold State.cur
  rw [State.noteIssue_issue, State.noteIssue, State.ctxAt_modCore]
  exact fun _ => rfl

theorem Context.spendInject_loop (c : Context) (locked : Bool) : (c.spendInject locked).loop = c.loop := by
  unfold Context.spendInject
  dsimp only
  split <;> rfl

theorem State.sign_loop (s : State) : s.sign.cur.loop = s.cur.loop := by
  unfold State.sign
  dsimp only
  split
  · rfl
  · split
    · have hcore : ∀ u : State, (u.modCore s.issue.core fun x => { x with upset := 0 }).cur = u.cur := fun u => by
        unfold State.cur
        rw [State.modCore_issue, State.ctxAt_modCore]
        exact fun _ => rfl
      rw [hcore, State.cur_modCur]
      exact Context.spendInject_loop _ _
    · rw [State.cur_modCur]
      exact Context.spendInject_loop _ _

@[simp] theorem State.prepareWins_issue (s : State) (act : List Indexed) : (s.prepareWins act).issue = s.issue := by
  refine foldl_keeps (g := State.issue) (fun u r => ?_) _ s
  dsimp only
  split <;> rfl

/-! ## One slot -/

/-- The machine as a slot of a bundle finds it. -/
def State.slotAt (s : State) (n : Nat) : State := { s with issue := { s.issue with index := n, outcome := .run, trapped := none } }

theorem runInstr_of_next {i : Instr} {s t : State} (h : exec i s = .next t) : runInstr i s = t := by
  rw [runInstr, h]

theorem State.trySlot_of_next {s t : State} {n : Nat} {x : Slot} (hb : s.writesBound x.op = false) (h : exec x.op (s.slotAt n) = .next t) :
    s.trySlot runInstr (n, x) = t := by
  rw [State.trySlot, if_neg (by simp [hb])]
  exact runInstr_of_next h

theorem State.tryAll_single (run : Instr → State → State) (x : Indexed) (s : State) : State.tryAll run [x] s = [s.trySlot run x] := rfl

theorem phaseOf_le (i : Instr) : phaseOf i ≤ 4 := by
  unfold phaseOf
  split <;> decide

/-- A slot that acts before the others reads no windrow (R24). -/
theorem winReads_of_phaseOf_zero {i : Instr} (h : phaseOf i = 0) : i.winReads = [] := by
  unfold phaseOf at h
  split at h
  case h_1 | h_2 | h_3 => rfl
  all_goals exact absurd h (by decide)

theorem State.consumeWins_of_none {s : State} {n : Nat} {x : Slot} (h : x.op.winReads = []) : s.consumeWins [(n, x)] = s := by
  simp [State.consumeWins, h]

/-- A gphase alone in its bundle asks for nothing before it. -/
theorem State.phaseFirst_single (s : State) (n : Nat) (x : Slot) : s.phaseFirst [(n, x)] = none := by
  unfold State.phaseFirst
  extract_lets isPhase
  cases hx : isPhase x.op with
  | false => simp [hx]
  | true =>
    have hop : x.op = .gphase := by
      unfold isPhase at hx
      split at hx
      · assumption
      · cases hx
    simp [hop, isPhase, phaseOf, Instr.winReads]

theorem State.runSlot_of_next {s t : State} {n : Nat} {x : Slot} (h : exec x.op (s.slotAt n) = .next t) : s.runSlot runInstr (n, x) = t :=
  runInstr_of_next h

theorem runAll_single (run : Instr → State → State) (x : Indexed) (s : State) : runAll run [x] s = s.runSlot run x := by
  simp [runAll]

/-- The one slot of a bundle that takes effect runs in its phase, behind the windrow reads of the bundle (R24, R138). -/
theorem runPhases_single {q v : State} {n : Nat} {x : Slot} (hq : q.issue.outcome = .run)
    (h : exec x.op ((q.consumeWins [(n, x)]).slotAt n) = .next v) (hv : v.issue.outcome = .run) : runPhases runInstr [(n, x)] q = v := by
  have hrun := State.runSlot_of_next h
  unfold runPhases
  by_cases h0 : phaseOf x.op = 0
  · have hnone := winReads_of_phaseOf_zero h0
    rw [State.consumeWins_of_none hnone] at hrun
    simp [inPhase, h0, runAll_single, hrun, hv, State.consumeWins_of_none hnone, runAll]
  · have hlater : inPhase 1 [(n, x)] ++ inPhase 2 [(n, x)] ++ inPhase 3 [(n, x)] ++ inPhase 4 [(n, x)] = [(n, x)] := by
      obtain h | h | h | h : phaseOf x.op = 1 ∨ phaseOf x.op = 2 ∨ phaseOf x.op = 3 ∨ phaseOf x.op = 4 := by
        have := phaseOf_le x.op
        omega
      all_goals simp [inPhase, h]
    have hfirst : inPhase 0 [(n, x)] = [] := by simp [inPhase, h0]
    simp only [hfirst, runAll, hq, if_true, hlater, hrun, ite_self]

/-! ## The bundle -/

/-- The trial of the one slot that takes effect. -/
theorem State.tryAll_of_next {p u : State} {n : Nat} {x : Slot} (hb : p.writesBound x.op = false) (htry : exec x.op (p.withoutFpx.slotAt n) = .next u) :
    State.tryAll runInstr [(n, x)] p.withoutFpx = [u] := by
  rw [State.tryAll_single, State.trySlot_of_next ((State.writesBound_congr (State.withoutFpx_loop p) x.op).trans hb) htry]

section Single
variable {t u : State} {n : Nat} {x : Slot} {ss : List Slot} (hact : t.active ss = [(n, x)])
  (hb : (t.prepareWins [(n, x)]).passBreak.writesBound x.op = false)
  (htry : exec x.op ((t.prepareWins [(n, x)]).passBreak.withoutFpx.slotAt n) = .next u)
include hact hb htry

/-- Where the slot would wait, the bundle waits (R33). -/
theorem State.runBundle_waits (hu : u.issue.outcome = .wait) :
    t.runBundle runInstr ss = ((t.prepareWins [(n, x)]).held u).stallOrWait t.issue.core t.issue.slot (t.prepareWins [(n, x)]).issue.y := by
  have hwait : ([u].find? fun t => t.issue.outcome == .wait) = some u := by simp [hu]
  simp only [State.runBundle, hact, State.tryAll_of_next hb htry, hwait]

/-- Where the slot would not wait and nothing else is due, the bundle issues: with its slot's trap, FPX or effect (R76, R294). -/
theorem State.runBundle_issues (hu : u.issue.outcome ≠ .wait)
    (hdue : (t.prepareWins [(n, x)]).issue.due = true → (t.prepareWins [(n, x)]).earlyTrap ss = none ∧ (t.prepareWins [(n, x)]).lateTrap ss = none)
    (hsplit : (t.prepareWins [(n, x)]).splitLoads [(n, x)] = none) (hlend : (t.prepareWins [(n, x)]).passBreak.noteIssue.lendMisplaced = false) :
    let q := (t.prepareWins [(n, x)]).passBreak.noteIssue
    (u.stops q.xe = true → t.runBundle runInstr ss = q.bundleTrap runInstr [(n, x)] [u] u) ∧
    (u.stops q.xe = false → (runPhases runInstr [(n, x)] q).issue.outcome = .run →
      t.runBundle runInstr ss = (runPhases runInstr [(n, x)] q).endBundle q ss) := by
  have hchecks : (if (t.prepareWins [(n, x)]).issue.due then (t.prepareWins [(n, x)]).earlyTrap ss <|> (t.prepareWins [(n, x)]).lateTrap ss else none) = none := by
    split
    next h =>
      obtain ⟨he, hl⟩ := hdue h
      rw [he, hl]
      rfl
    · rfl
  have hfirst : ((t.prepareWins [(n, x)]).phaseFirst [(n, x)] <|> (t.prepareWins [(n, x)]).splitLoads [(n, x)]) = none := by
    rw [State.phaseFirst_single, hsplit]
    rfl
  have hwait : ([u].find? fun t => t.issue.outcome == .wait) = none := by simp [hu]
  intro q
  refine ⟨fun hs => ?_, fun hs hr => ?_⟩
  · have hstop : ([u].find? fun t => t.stops q.xe) = some u := by simp [hs]
    simp only [State.runBundle, hact, State.tryAll_of_next hb htry, hwait, hchecks, hfirst, hlend, Bool.false_eq_true, if_false, hstop, q]
  · have hstop : ([u].find? fun t => t.stops q.xe) = none := by simp [hs]
    simp only [State.runBundle, hact, State.tryAll_of_next hb htry, hwait, hchecks, hfirst, hlend, Bool.false_eq_true, if_false, hstop, hr, q]

end Single

/-- A slot's enabled flags stop its bundle with FPX (R76). -/
theorem State.bundleTrap_fpx {q u : State} {n : Nat} {x : Slot} (hu : u.issue.outcome = .run) (hn : u.issue.index = n) :
    q.bundleTrap runInstr [(n, x)] [u] u = q.sign.raiseFpx u.issue.flags n := by
  simp [State.bundleTrap, hu, hn]

/-- A slot's own trap is the one that it raises from the state of the issue (R294). -/
theorem State.bundleTrap_own {q u v : State} {n : Nat} {x : Slot} (hu : u.issue.outcome = .trap) (hn : u.issue.index = n)
    (hb : q.writesBound x.op = false) (h : exec x.op (q.sign.slotAt n) = .next v) : q.bundleTrap runInstr [(n, x)] [u] u = v := by
  have htry := State.trySlot_of_next ((State.writesBound_congr (State.sign_loop q) x.op).trans hb) h
  simp [State.bundleTrap, hu, hn, htry]

end Sys2Proof.Machine
end

section
/-! SUPPORT. A step is the move whose turn it is (R3, R8, R33, R46, R166, R360). -/

namespace Sys2Proof.Machine

/-- A turn that is fixed is the next one. -/
theorem State.nextTurn_of_turn {s : State} {t : Turn} (h : s.turn = some t) : s.nextTurn = (t, { s with turn := none }) := by
  rw [State.nextTurn, h]

theorem State.stops_of_run {t : State} {xe : BitVec 5} (h : t.issue.outcome = .run) : t.stops xe = true ↔ t.issue.flags &&& xe ≠ 0 := by
  simp [State.stops, h]

theorem State.stops_of_trap {t : State} {xe : BitVec 5} (h : t.issue.outcome = .trap) : t.stops xe = true := by
  simp [State.stops, h]

theorem State.fetched_go (s : State) (k : Nat) : (s.fetched k).issue.go = false := by
  unfold State.fetched
  split <;> rfl

/-- A core's turn is BUNDLE_ISSUE of the fetched bundle and then, where its slots may run, the run of its slots. -/
theorem step_issue {s t : State} {k : Nat} {f : Fetched} (hturn : s.turn = some (.issue k)) (hawake : s.awake = true)
    (hf : ((({ s with turn := none } : State).wakeCore k).fetched k).issue.fetched = some f)
    (hx : exec (.bundleIssue k) ((({ s with turn := none } : State).wakeCore k).fetched k) = .next t) (hgo : t.issue.go = true) :
    step s = .next (t.runBundle runInstr f.slots) ∧ t.issue.outcome = .run := by
  refine ⟨?_, ?_⟩
  · have hawake' : State.awake { s with turn := none } = true := hawake
    simp only [step, State.nextTurn_of_turn hturn, hawake', if_true, State.issueStep, hx, hgo, hf]
  · have ht : (((({ s with turn := none } : State).wakeCore k).fetched k).issueBundle k) = t := Host.Outcome.next.inj hx
    rw [← ht] at hgo ⊢
    exact State.issueBundle_sound (State.fetched_go _ k) hgo

/-- A move of an agent is noted with its rows, and does not happen where it comes too late (R8). -/
theorem State.inRow_next {s t : State} {o : Host.Outcome State Fault Refusal} (h : o = .next t) (fixed : Bool) (row : State → Option (Nat × Nat)) :
    s.inRow fixed row o =
      .next (if !fixed && (s.rowsTo t (row t)).any s.tooLate then s else (s.rowsTo t (row t)).foldl State.tookRow t) := by
  rw [h, State.inRow]

theorem step_engine {s t : State} {k : Nat} {b : Fin 4} {m : MatrixCall} {i : Instr} (hturn : s.turn = some (.engine k)) (hawake : s.awake = true)
    (ha : (s.core k).array = some b) (hm : ((s.core k).calls.find? fun m => m.cmd.bank == b) = some m) (hi : (s.core k).fetchMicro m = some i)
    (hx : exec i { s with turn := none, issue := { Issue.reset with core := k } } = .next t) :
    step s = State.inRow { s with turn := none } false (fun _ => none) (.next t) := by
  have hawake' : State.awake { s with turn := none } = true := hawake
  have hcore : State.core { s with turn := none } k = s.core k := rfl
  simp only [step, State.nextTurn_of_turn hturn, hawake', if_true, State.engineStep, hcore, ha, hm, hi, hx]

theorem step_ssq {s t : State} {i : Instr} (hturn : s.turn = some .ssq) (hawake : s.awake = true) (hw : s.ssq.writes = []) (ha : s.ssq.asks = [])
    (hr : s.ssq.state = .running) (hi : ({ s with turn := none } : State).fetchNode = .ok i)
    (hx : exec i (({ s with turn := none } : State).meetVa (superWho s.ssq.kid) s.ssq.cur.toNat 32) = .next t) :
    step s = (({ s with turn := none } : State).meetVa (superWho s.ssq.kid) s.ssq.cur.toNat 32).inRow false nodeRow (.next t) := by
  have hawake' : State.awake { s with turn := none } = true := hawake
  have hssq : ¬ (s.ssq.writes ≠ [] ∨ s.ssq.asks ≠ [] ∨ s.ssq.state ≠ .running) := by simp [hw, ha, hr]
  simp only [step, State.nextTurn_of_turn hturn, hawake', if_true, State.ssqStep, hssq, if_false, hi, hx]

theorem step_event {s t : State} {i : Instr} (hturn : s.turn = some (.event i)) (hawake : s.awake = true ∨ anyTime i = true) (hi : isEvent i = true)
    (hwake : ∀ k j, i ≠ .contextWake k j) (hsel : ∀ k, i ≠ .contextSelect k)
    (hx : exec i { s with turn := none, issue := Issue.reset } = .next t) :
    step s = State.inRow { s with turn := none } (isFixed i) (State.rowOf { s with turn := none } i) (.next t) := by
  have hawake' : (State.awake { s with turn := none } || anyTime i) = true := Bool.or_eq_true_iff.mpr hawake
  simp only [step, State.nextTurn_of_turn hturn, hawake', if_true, State.eventStep, hi, Bool.not_true, Bool.false_eq_true, if_false, hx]

theorem step_contextSelect {s : State} {k : Nat} (hturn : s.turn = some (.event (.contextSelect k))) (hawake : s.awake = true) :
    step s = exec (.contextSelect k) { ({ s with turn := none } : State).wakeCore k with issue := Issue.reset } := by
  have hawake' : State.awake { s with turn := none } = true := hawake
  have hevent : isEvent (.contextSelect k) = true := rfl
  simp only [step, State.nextTurn_of_turn hturn, hawake', Bool.true_or, if_true, State.eventStep, hevent, Bool.not_true, Bool.false_eq_true, if_false]

theorem step_contextWake {s : State} {k j : Nat} (hturn : s.turn = some (.event (.contextWake k j))) (hawake : s.awake = true) :
    step s = exec (.contextWake k j) (({ s with turn := none } : State).beforeWake k j) := by
  have hawake' : State.awake { s with turn := none } = true := hawake
  have hevent : isEvent (.contextWake k j) = true := rfl
  simp only [step, State.nextTurn_of_turn hturn, hawake', Bool.true_or, if_true, State.eventStep, hevent, Bool.not_true, Bool.false_eq_true, if_false]

end Sys2Proof.Machine
end

section
/-! SUPPORT. The obligation on what a step runs. -/

namespace Sys2Proof
open Machine

/-- Settles O4: the turn picks the move, and a bundle's one slot is tried, stops its bundle or takes effect. -/
theorem stepRunsDecoded : Obligations.StepRunsDecoded := by
  unfold Obligations.StepRunsDecoded
  refine ⟨?_, ?_, ?_, ?_, fun s k hturn hawake => step_contextSelect hturn hawake, fun s k j hturn hawake => step_contextWake hturn hawake⟩
  · intro s t u v k n j x ss m z y hturn hawake _ hf hx hgo hk hj hact p q slot hb htry
    obtain ⟨hstep, hrun⟩ := step_issue hturn hawake hf hx hgo
    refine ⟨fun hu => ?_, fun hdue hsplit hlend => ?_⟩
    · rw [hstep, State.runBundle_waits hact hb htry hu, hk, hj]
    have hissues := fun hu => State.runBundle_issues hact hb htry hu hdue hsplit hlend
    have hqb : q.writesBound x.op = false := by
      rw [State.writesBound_congr (congrArg Context.loop (State.noteIssue_cur p.passBreak))]
      exact hb
    have hqrun : q.issue.outcome = .run := by
      rw [State.noteIssue_issue, State.passBreak_issue, State.prepareWins_issue]
      exact hrun
    refine ⟨fun hu hfl hv hvrun => ?_, fun hu hfl hn => ?_, fun hu hn hv => ?_⟩
    · have hphases := runPhases_single hqrun hv hvrun
      obtain ⟨-, hends⟩ := hissues (by simp [hu])
      rw [hstep, hends (Bool.eq_false_iff.mpr fun hs => (State.stops_of_run hu).mp hs hfl) (by rw [hphases]; exact hvrun), hphases]
    · obtain ⟨hstops, -⟩ := hissues (by simp [hu])
      rw [hstep, hstops ((State.stops_of_run hu).mpr hfl), State.bundleTrap_fpx hu hn]
    · obtain ⟨hstops, -⟩ := hissues (by simp [hu])
      rw [hstep, hstops (State.stops_of_trap hu), State.bundleTrap_own hu hn hqb hv]
  · intro s t k b m i hturn hawake ha hm hi hx z
    rw [step_engine hturn hawake ha hm hi hx, State.inRow_next rfl]
    rfl
  · intro s t i z hturn hawake hw ha hr hi hx
    rw [step_ssq hturn hawake hw ha hr hi hx, State.inRow_next rfl]
    rfl
  · intro s t i z hturn hawake hi hwake hsel hx
    rw [step_event hturn hawake hi hwake hsel hx, State.inRow_next rfl]
    simp only [Bool.and_eq_true, Bool.not_eq_true', z]

end Sys2Proof
end

section
/-! SUPPORT. The machine at power-on reset (R416): what its tables read where they list nothing. -/

namespace Sys2Proof.Machine

@[simp] theorem State.reset_core (k : Nat) : State.reset.core k = Core.reset (isControl k) := rfl

/-- Each of a core's four slots at reset is FREE, under its own number. -/
theorem Core.reset_ctx (locked : Bool) (j : Fin 4) : (Core.reset locked).ctx[j] = Context.reset j := by
  match j with
  | 0 | 1 | 2 | 3 => rfl

theorem State.reset_ctxAt (k : Nat) (j : Fin 4) : State.reset.ctxAt k j = Context.reset j := Core.reset_ctx _ j

theorem Core.reset_bank (locked : Bool) (b : Fin 4) : (Core.reset locked).banks[b] = Bank.reset := Vector.getElem_replicate _

theorem Context.reset_windrow (j : Nat) (w : Fin 16) : (Context.reset j).windrows[w] = Windrow.reset := Vector.getElem_replicate _

theorem Context.reset_ring (j : Nat) (w : Fin 16) : (Context.reset j).rings[w] = RingReg.reset := Vector.getElem_replicate _

theorem Context.reset_token (j : Nat) (t : Fin 64) : (Context.reset j).tokens[t] = Token.reset := Vector.getElem_replicate _

/-- STATUS of a slot at reset is user level with the slot's number (R289). -/
theorem Context.reset_super (j : Fin 4) : (Context.reset j).super = false := by
  match j with
  | 0 | 1 | 2 | 3 => rfl

/-- STATUS.SLOT of a slot at reset, and every other field 0 (R289). -/
theorem Context.reset_status (j : Nat) : (Context.reset j).sysv rSTATUS = BitVec.ofNat 64 (64 * j) := by
  rw [Nat.mul_comm]
  rfl

end Sys2Proof.Machine

namespace Sys2Proof
open Machine

/-- Settles O57: every table reads its reset entry, and a slot's registers are those of its reset. -/
theorem resetState : Obligations.ResetState := by
  unfold Obligations.ResetState
  refine ⟨rfl, rfl, rfl, rfl, fun i => Vector.getElem_replicate _, fun k j => ?_, fun k b => ?_, fun _ _ => rfl, fun _ _ => rfl, fun _ => rfl,
    fun _ => rfl, fun _ => rfl⟩
  · rw [State.reset_ctxAt]
    refine ⟨rfl, rfl, rfl, Context.reset_super j, Context.reset_status j, rfl, rfl, rfl, rfl, rfl, rfl, rfl, rfl, rfl, rfl, fun w => ?_, fun t => ?_, rfl⟩
    · rw [Context.reset_windrow, Context.reset_ring]
      exact ⟨rfl, rfl⟩
    · rw [Context.reset_token]
      rfl
  · rw [State.reset_core, Core.reset_bank]
    exact ⟨rfl, rfl⟩

end Sys2Proof
end

section
/-! SUPPORT. The generator of stochastic rounding (R73, R74): the seed after a draw, and after as many as an operation makes. -/

namespace Sys2Proof.Machine

@[simp] theorem State.getSys_modCur_setSys (s : State) (r : Fin 20) (x : Word) : (s.modCur fun c => c.setSys r x).getSys r = x := by
  rw [State.getSys, State.cur_modCur, Context.sysv_setSys_self]

/-- A draw leaves the stepped seed and gives its bits 63 to 48. -/
theorem State.nextRnd_word (s : State) : s.nextRnd.1 = (xorshift (s.getSys rRNGSEED)).extractLsb' 48 16 := rfl

@[simp] theorem State.nextRnd_seed (s : State) : s.nextRnd.2.getSys rRNGSEED = xorshift (s.getSys rRNGSEED) := s.getSys_modCur_setSys _ _

/-- Under SR the first element draws, and the others draw behind it (R74). -/
theorem State.drawModes_sr_succ (n : Nat) (s : State) :
    State.drawModes 5 (n + 1) s = (.sr s.nextRnd.1 :: (State.drawModes 5 n s.nextRnd.2).1, (State.drawModes 5 n s.nextRnd.2).2) := rfl

theorem State.drawModes_sr_words (n : Nat) (s : State) :
    (State.drawModes 5 n s).1 = (List.range n).map fun i => RMode.sr ((xorshift^[i + 1] (s.getSys rRNGSEED)).extractLsb' 48 16) := by
  induction n generalizing s with
  | zero => rfl
  | succ n ih =>
    simp only [State.drawModes_sr_succ, ih, State.nextRnd_word, State.nextRnd_seed, List.range_succ_eq_map, List.map_cons, List.map_map,
      Function.comp_def, Function.iterate_succ_apply, Function.iterate_zero, id_eq]

theorem State.drawModes_sr_seed (n : Nat) (s : State) : (State.drawModes 5 n s).2.getSys rRNGSEED = xorshift^[n] (s.getSys rRNGSEED) := by
  induction n generalizing s with
  | zero => rfl
  | succ n ih => rw [State.drawModes_sr_succ, ih, State.nextRnd_seed, Function.iterate_succ_apply]

/-- Every other mode draws nothing (R74). -/
theorem State.drawModes_fixed {rm : Nat} (h : rm ≠ 5) (n : Nat) (s : State) : State.drawModes rm n s = (List.replicate n (rmode rm), s) := by
  cases n with
  | zero => rfl
  | succ n => rw [State.drawModes, if_neg h]

end Sys2Proof.Machine

namespace Sys2Proof
open Machine

/-- Settles O20: the words and the last seed by induction on the number of elements. -/
theorem randomWords : Obligations.RandomWords := by
  unfold Obligations.RandomWords
  exact ⟨fun _ => rfl, by decide, fun s n => ⟨s.drawModes_sr_words n, s.drawModes_sr_seed n⟩, fun s n _ h => State.drawModes_fixed h n s⟩

end Sys2Proof
end

section
/-! SUPPORT. Encodings of a binary format (R57): sign, exponent and fraction of an encoding, and its value as a number of units of its binade. -/

namespace Sys2Proof.Machine

/-! ## Sign and magnitude -/

theorem Fmt.two_pow_ebits {f : Fmt} (hb : 0 < f.ebits) : 2 ^ f.ebits = 2 * (f.bias + 1) := by
  have h := Nat.two_pow_pos (f.ebits - 1)
  rw [Fmt.bias, Nat.sub_add_cancel h, ← Nat.pow_succ', Nat.succ_eq_add_one, Nat.sub_add_cancel hb]

theorem Fmt.sign_eq (f : Fmt) : f.sign = 2 ^ f.ebits * 2 ^ f.fbits := Nat.pow_add _ _ _

theorem Fmt.inf_add (f : Fmt) : f.inf + 2 ^ f.fbits = f.sign := by
  rw [Fmt.sign_eq, Fmt.inf, ← Nat.succ_mul, Nat.succ_eq_add_one, Nat.sub_add_cancel (Nat.two_pow_pos _)]

theorem Fmt.inf_lt_sign (f : Fmt) : f.inf < f.sign := by
  have := f.inf_add
  have := Nat.two_pow_pos f.fbits
  omega

theorem Fmt.sign_pos (f : Fmt) : 0 < f.sign := Nat.two_pow_pos _

theorem Fmt.inf_pos {f : Fmt} (hb : 0 < f.ebits) : 0 < f.inf := by
  have := Nat.one_lt_two_pow hb.ne'
  exact Nat.mul_pos (by omega) (Nat.two_pow_pos _)

theorem Fmt.maxFinite_lt_iff {f : Fmt} (he : f.e4m3 = false) (hb : 0 < f.ebits) {mag : Nat} : f.maxFinite < mag ↔ f.inf ≤ mag := by
  have := Fmt.inf_pos hb
  simp only [Fmt.maxFinite, he, Bool.false_eq_true, if_false]
  omega

/-- Every encoding is a magnitude with a sign. -/
theorem Fmt.exists_signed (f : Fmt) {x : Nat} (hx : x < 2 * f.sign) : ∃ neg mag, mag < f.sign ∧ x = f.signed neg mag := by
  by_cases h : x < f.sign
  · exact ⟨false, x, h, rfl⟩
  · exact ⟨true, x - f.sign, by omega, by simp [Fmt.signed]; omega⟩

theorem Fmt.signed_lt (f : Fmt) (neg : Bool) {mag : Nat} (h : mag < f.sign) : f.signed neg mag < 2 * f.sign := by
  unfold Fmt.signed
  split <;> omega

theorem Fmt.sign_le_signed (f : Fmt) {neg : Bool} {mag : Nat} (h : mag < f.sign) : f.sign ≤ f.signed neg mag ↔ neg = true := by
  cases neg <;> simp [Fmt.signed, h]

theorem Fmt.signed_mod (f : Fmt) (neg : Bool) {mag : Nat} (h : mag < f.sign) : f.signed neg mag % f.sign = mag := by
  unfold Fmt.signed
  split <;> simp [Nat.mod_eq_of_lt h]

/-! ## The fields of an encoding -/

theorem Fmt.signed_negative (f : Fmt) (neg : Bool) {mag : Nat} (h : mag < f.sign) : (f.signed neg mag / f.sign % 2 == 1) = neg := by
  cases neg <;> simp [Fmt.signed, Nat.add_div_right _ f.sign_pos, Nat.div_eq_of_lt h]

theorem Fmt.signed_fraction (f : Fmt) (neg : Bool) (mag : Nat) : f.signed neg mag % 2 ^ f.fbits = mag % 2 ^ f.fbits := by
  unfold Fmt.signed
  split
  · rw [Fmt.sign_eq, Nat.add_mul_mod_self_right]
  · rfl

theorem Fmt.signed_exponent (f : Fmt) (neg : Bool) {mag : Nat} (h : mag < f.sign) : f.signed neg mag / 2 ^ f.fbits % 2 ^ f.ebits = mag / 2 ^ f.fbits := by
  have hlt : mag / 2 ^ f.fbits < 2 ^ f.ebits := Nat.div_lt_of_lt_mul (by rw [Nat.mul_comm, ← Fmt.sign_eq]; exact h)
  unfold Fmt.signed
  split
  · rw [Fmt.sign_eq, Nat.add_mul_div_right _ _ (Nat.two_pow_pos _), Nat.add_mod_right, Nat.mod_eq_of_lt hlt]
  · exact Nat.mod_eq_of_lt hlt

/-- The value of an encoding by its magnitude's exponent and fraction (R57). -/
theorem Fmt.unpack_signed {f : Fmt} (he : f.e4m3 = false) (neg : Bool) {mag : Nat} (h : mag < f.sign) :
    f.unpack (f.signed neg mag) =
      if mag / 2 ^ f.fbits = 2 ^ f.ebits - 1 then
        if mag % 2 ^ f.fbits = 0 then .inf neg else .nan (mag % 2 ^ f.fbits < 2 ^ (f.fbits - 1))
      else if mag / 2 ^ f.fbits = 0 then .fin neg (mag % 2 ^ f.fbits) f.unit
      else .fin neg (mag % 2 ^ f.fbits + 2 ^ f.fbits) (f.unit + Int.ofNat (mag / 2 ^ f.fbits - 1)) := by
  simp only [Fmt.unpack, f.signed_negative neg h, f.signed_exponent neg h, f.signed_fraction, he, Bool.false_eq_true, false_and, if_false, Bool.not_false,
    true_and]

/-- From the infinity on the exponent is the highest one. -/
theorem Fmt.exponent_of_inf_le (f : Fmt) {mag : Nat} (hi : f.inf ≤ mag) (h : mag < f.sign) : mag / 2 ^ f.fbits = 2 ^ f.ebits - 1 := by
  have hadd := f.inf_add
  rw [Fmt.inf] at hi hadd
  exact Nat.div_eq_of_lt_le hi (by rw [Nat.succ_mul]; omega)

theorem Fmt.unpack_signed_inf {f : Fmt} (he : f.e4m3 = false) (neg : Bool) : f.unpack (f.signed neg f.inf) = .inf neg := by
  rw [Fmt.unpack_signed he neg f.inf_lt_sign, if_pos (f.exponent_of_inf_le le_rfl f.inf_lt_sign), Fmt.inf, if_pos (Nat.mul_mod_left _ _)]

/-- Magnitudes above the infinity are the NaNs (R58). -/
theorem Fmt.unpack_signed_isNan {f : Fmt} (he : f.e4m3 = false) (neg : Bool) {mag : Nat} (hi : f.inf < mag) (h : mag < f.sign) :
    (f.unpack (f.signed neg mag)).isNan = true := by
  have hex := f.exponent_of_inf_le hi.le h
  have hfr : mag % 2 ^ f.fbits ≠ 0 := fun h0 => by
    have := Nat.div_add_mod' mag (2 ^ f.fbits)
    rw [h0, hex, ← Fmt.inf] at this
    omega
  rw [Fmt.unpack_signed he neg h, if_pos hex, if_neg hfr]
  rfl

/-! ## Units -/

/-- A magnitude as q units of binade j: j counts the binades above that of the subnormals, of which q needs no hidden bit (R57). -/
def Fmt.IsUnits (f : Fmt) (j q : Nat) : Prop := q < 2 ^ (f.fbits + 1) ∧ (j = 0 ∨ 2 ^ f.fbits ≤ q)

theorem Fmt.exists_isUnits (f : Fmt) (mag : Nat) : ∃ j q, f.IsUnits j q ∧ mag = j * 2 ^ f.fbits + q := by
  have hmod := Nat.mod_lt mag (Nat.two_pow_pos f.fbits)
  have hdiv := Nat.div_add_mod' mag (2 ^ f.fbits)
  have hpow : 2 ^ (f.fbits + 1) = 2 ^ f.fbits + 2 ^ f.fbits := by rw [Nat.pow_succ]; omega
  cases hex : mag / 2 ^ f.fbits with
  | zero => exact ⟨0, mag % 2 ^ f.fbits, ⟨by omega, .inl rfl⟩, by rw [← hdiv, hex]; simp⟩
  | succ j =>
    rw [hex, Nat.succ_mul] at hdiv
    exact ⟨j, mag % 2 ^ f.fbits + 2 ^ f.fbits, ⟨by omega, .inr (by omega)⟩, by omega⟩

/-- The encoding of q units of binade j has their value. -/
theorem Fmt.unpack_units {f : Fmt} (he : f.e4m3 = false) (neg : Bool) {j q : Nat} (hu : f.IsUnits j q) (h : j * 2 ^ f.fbits + q < f.inf) :
    f.unpack (f.signed neg (j * 2 ^ f.fbits + q)) = .fin neg q (f.unit + j) := by
  obtain ⟨hq, hj⟩ := hu
  have hpow : 2 ^ (f.fbits + 1) = 2 ^ f.fbits + 2 ^ f.fbits := by rw [Nat.pow_succ]; omega
  have hlow : (j * 2 ^ f.fbits + q) / 2 ^ f.fbits ≠ 2 ^ f.ebits - 1 := fun hex => by
    have := Nat.div_mul_le_self (j * 2 ^ f.fbits + q) (2 ^ f.fbits)
    rw [hex, ← Fmt.inf] at this
    omega
  rw [Fmt.unpack_signed he neg (h.trans f.inf_lt_sign), if_neg hlow]
  by_cases hsub : q < 2 ^ f.fbits
  · obtain rfl : j = 0 := hj.resolve_right (by omega)
    rw [Nat.zero_mul, Nat.zero_add, if_pos (Nat.div_eq_of_lt hsub), Nat.mod_eq_of_lt hsub, Nat.cast_zero, add_zero]
  · obtain ⟨r, rfl⟩ := Nat.exists_eq_add_of_le' (Nat.le_of_not_lt hsub)
    have hr : r < 2 ^ f.fbits := by omega
    have hmag : j * 2 ^ f.fbits + (r + 2 ^ f.fbits) = r + (j + 1) * 2 ^ f.fbits := by rw [Nat.succ_mul]; omega
    rw [hmag, Nat.add_mul_div_right _ _ (Nat.two_pow_pos _), Nat.div_eq_of_lt hr, Nat.zero_add, if_neg (Nat.succ_ne_zero j), Nat.add_mul_mod_self_right,
      Nat.mod_eq_of_lt hr, Nat.add_sub_cancel]
    rfl

/-! ## Exact values -/

/-- Where the unit of the format divides a magnitude no mode rounds it. -/
theorem roundUnits_of_le (mode : RMode) (neg : Bool) (m : Nat) {e u : Int} (h : u ≤ e) : roundUnits mode neg m e u = (m * 2 ^ (e - u).toNat, false) := by
  rw [roundUnits, if_pos h]

/-- The unit of q units of binade j is that of their binade. -/
theorem Fmt.IsUnits.unit_eq {f : Fmt} {j q : Nat} (hu : f.IsUnits j q) (h0 : q ≠ 0) :
    max (f.unit + j + Int.ofNat (Nat.log2 q) - Int.ofNat f.fbits) f.unit = f.unit + j := by
  obtain ⟨hq, hj⟩ := hu
  have hlog : q.log2 < f.fbits + 1 := (Nat.log2_lt h0).mpr hq
  simp only [Int.ofNat_eq_natCast]
  obtain rfl | hj := hj
  · omega
  · have := (Nat.le_log2 h0).mpr hj
    omega

/-- A value of the format packs to its encoding: nothing is rounded. -/
theorem Fmt.pack_units {f : Fmt} (he : f.e4m3 = false) (hb : 0 < f.ebits) (neg : Bool) {j q : Nat} (hu : f.IsUnits j q) (h : j * 2 ^ f.fbits + q < f.inf) :
    f.pack (.fin neg q (f.unit + j)) = f.signed neg (j * 2 ^ f.fbits + q) := by
  rw [Fmt.pack, roundPack]
  by_cases h0 : q = 0
  · obtain rfl : j = 0 := hu.2.resolve_right (by have := Nat.two_pow_pos f.fbits; omega)
    simp [h0]
  · have hmag : (roundMag f .rne neg q (f.unit + j)).1 = j * 2 ^ f.fbits + q := by
      simp only [roundMag, hu.unit_eq h0, roundUnits_of_le _ _ _ le_rfl]
      simp
    have hfit : ¬ f.maxFinite < j * 2 ^ f.fbits + q := by
      rw [Fmt.maxFinite_lt_iff he hb]
      omega
    simp only [h0, if_false, hmag, hfit]

/-- Packing gives every encoding back that is no NaN (R57). -/
theorem Fmt.pack_unpack {f : Fmt} (he : f.e4m3 = false) (hb : 0 < f.ebits) {x : Nat} (hx : x < 2 * f.sign) (h : (f.unpack x).isNan = false) :
    f.pack (f.unpack x) = x := by
  obtain ⟨neg, mag, hmag, rfl⟩ := f.exists_signed hx
  obtain hlt | rfl | hgt := Nat.lt_trichotomy mag f.inf
  · obtain ⟨j, q, hu, rfl⟩ := f.exists_isUnits mag
    rw [Fmt.unpack_units he neg hu hlt, Fmt.pack_units he hb neg hu hlt]
  · rw [Fmt.unpack_signed_inf he]
    rfl
  · rw [Fmt.unpack_signed_isNan he neg hgt hmag] at h
    cases h

theorem Fmt.pack_of_isNan (f : Fmt) {v : FVal} (h : v.isNan = true) : f.pack v = f.nan := by
  cases v with
  | nan _ => rfl
  | inf _ => cases h
  | fin _ _ _ => cases h

end Sys2Proof.Machine

namespace Sys2Proof
open Machine

/-- Settles O11: an encoding below the infinity is a number of units of its binade, which packing does not round. -/
theorem packIsExact : Obligations.PackIsExact := by
  unfold Obligations.PackIsExact
  exact ⟨fun x hx => Fmt.pack_unpack rfl (by decide) hx, fun x hx => Fmt.pack_unpack rfl (by decide) hx, fun x => fp32.pack_of_isNan,
    fun x => bf16.pack_of_isNan⟩

end Sys2Proof
end

section
/-! SUPPORT. Rounding to a number of units (R69): a magnitude between two multiples of the unit, the multiple that each mode takes, and the cut of
long shifts, which no mode but SR can see. -/

namespace Sys2Proof.Machine

/-! ## Between two multiples of the unit -/

/-- A magnitude a is q units d and a rest, which r of D tells apart from nothing and from half a unit. -/
structure Splits (q r D : ℕ) (d a : ℝ) : Prop where
  unit : 0 < d
  above : q * d ≤ a
  below : a < q * d + d
  rest : r = 0 ↔ a = q * d
  half : 2 * r < D ↔ a - q * d < d / 2
  tie : 2 * r = D ↔ a - q * d = d / 2

/-- n units d are the magnitude a, of a negative or a positive value, as a mode rounds it (R69). -/
structure Rounded (mode : RMode) (neg : Bool) (n : ℕ) (d a : ℝ) : Prop where
  above : n * d < a + d
  below : a < n * d + d
  rne : mode = .rne → |n * d - a| ≤ d / 2 ∧ (|n * d - a| = d / 2 → n % 2 = 0)
  rna : mode = .rna → |n * d - a| ≤ d / 2 ∧ (|n * d - a| = d / 2 → a < n * d)
  rtz : mode = .rtz → n * d ≤ a
  rup : mode = .rup → if neg then n * d ≤ a else a ≤ n * d
  rdn : mode = .rdn → if neg then a ≤ n * d else n * d ≤ a

theorem Rounded.of_eq (mode : RMode) (neg : Bool) {n : ℕ} {d a : ℝ} (hd : 0 < d) (h : a = n * d) : Rounded mode neg n d a := by
  have hhalf : (0 : ℝ) ≠ d / 2 := by positivity
  subst h
  constructor <;> simp [hd, hhalf]
  all_goals exact fun _ => by positivity

/-- A mode that keeps q keeps to the side it must. -/
theorem Splits.rounded_down {mode : RMode} {neg : Bool} {q r sh : ℕ} {d a : ℝ} (h : Splits q r (2 ^ sh) d a) (hr : r ≠ 0)
    (hkeep : roundsAway mode neg q r sh = false) : Rounded mode neg q d a := by
  obtain ⟨hd, habove, hbelow, hrest, hhalf, htie⟩ := h
  have habs : |q * d - a| = a - q * d := by rw [abs_sub_comm, abs_of_nonneg (by linarith)]
  have hnear : 2 * r ≤ 2 ^ sh → a - q * d ≤ d / 2 := fun hle => by
    obtain hlt | heq := hle.lt_or_eq
    · exact (hhalf.mp hlt).le
    · exact (htie.mp heq).le
  refine ⟨by linarith, hbelow, ?_, ?_, fun _ => habove, ?_, ?_⟩ <;> rintro rfl
  · simp only [roundsAway, Bool.or_eq_false_iff, decide_eq_false_iff_not, not_lt, Bool.and_eq_false_iff, beq_eq_false_iff_ne] at hkeep
    rw [habs, ← htie]
    exact ⟨hnear hkeep.1, fun he => by have := hkeep.2.resolve_left (by simp [he]); omega⟩
  · simp only [roundsAway, Bool.and_eq_false_iff, decide_eq_false_iff_not, not_le, bne_eq_false_iff_eq, hr, or_false] at hkeep
    rw [habs, ← htie]
    exact ⟨hnear hkeep.le, fun he => by omega⟩
  · cases neg <;> simp_all [roundsAway]
  · cases neg <;> simp_all [roundsAway]

/-- A mode that goes on to the next multiple may do so. -/
theorem Splits.rounded_up {mode : RMode} {neg : Bool} {q r sh : ℕ} {d a : ℝ} (h : Splits q r (2 ^ sh) d a) (hr : r ≠ 0)
    (haway : roundsAway mode neg q r sh = true) : Rounded mode neg (q + 1) d a := by
  obtain ⟨hd, habove, hbelow, hrest, hhalf, htie⟩ := h
  have hlt : q * d < a := lt_of_le_of_ne habove fun he => hr (hrest.mpr he.symm)
  have habs : |(q + 1) * d - a| = d - (a - q * d) := by rw [abs_of_nonneg (by linarith)]; ring
  have hfar : 2 ^ sh ≤ 2 * r → d / 2 ≤ a - q * d := fun hle => not_lt.mp fun hlt => by
    have := hhalf.mpr hlt
    omega
  constructor <;> push_cast
  · linarith
  · linarith
  · rintro rfl
    simp only [roundsAway, Bool.or_eq_true, decide_eq_true_eq, Bool.and_eq_true, beq_iff_eq] at haway
    rw [habs]
    refine ⟨by linarith [hfar (by omega)], fun he => ?_⟩
    have := htie.mpr (by linarith)
    omega
  · rintro rfl
    simp only [roundsAway, Bool.and_eq_true, decide_eq_true_eq] at haway
    rw [habs]
    exact ⟨by linarith [hfar haway.1], fun _ => by linarith⟩
  · rintro rfl
    cases haway
  · rintro rfl
    cases neg <;> simp_all [roundsAway]
    linarith
  · rintro rfl
    cases neg <;> simp_all [roundsAway]
    linarith

/-- Nothing is rounded away from a multiple of the unit. -/
theorem roundsAway_zero (mode : RMode) (neg : Bool) (q sh : ℕ) : roundsAway mode neg q 0 sh = false := by
  have := Nat.two_pow_pos sh
  cases mode <;> simp [roundsAway] <;> omega

/-- The multiple that a mode takes of the two, and whether it is the magnitude. -/
theorem Splits.rounded {q r sh : ℕ} {d a : ℝ} (h : Splits q r (2 ^ sh) d a) (mode : RMode) (neg : Bool) :
    let n := if roundsAway mode neg q r sh then q + 1 else q
    Rounded mode neg n d a ∧ (r = 0 ↔ a = n * d) := by
  by_cases hr : r = 0
  · simp only [hr, roundsAway_zero, Bool.false_eq_true, if_false]
    have ha := h.rest.mp hr
    exact ⟨.of_eq mode neg h.unit ha, iff_of_true trivial ha⟩
  · cases hw : roundsAway mode neg q r sh with
    | false => exact ⟨h.rounded_down hr hw, h.rest⟩
    | true =>
      have hne : a ≠ (q + 1 : ℕ) * d := fun he => by
        have := h.below
        push_cast at he
        linarith
      exact ⟨h.rounded_up hr hw, iff_of_false hr hne⟩

/-! ## Magnitudes and their units -/

/-- A magnitude a that is m units ε, or that lies between the even numbers about an odd m: m carries a sticky bit. -/
def Near (m : ℕ) (ε a : ℝ) : Prop := a = m * ε ∨ (m % 2 = 1 ∧ (m - 1) * ε < a ∧ a < (m + 1) * ε)

/-- The quotient and the rest of a number by a power of two split the magnitude that it stands for. -/
theorem Splits.of_eq (m sh : ℕ) {ε : ℝ} (hε : 0 < ε) : Splits (m / 2 ^ sh) (m % 2 ^ sh) (2 ^ sh) (2 ^ sh * ε) (m * ε) := by
  have hsum : (m : ℝ) * ε = (m / 2 ^ sh : ℕ) * (2 ^ sh * ε) + (m % 2 ^ sh : ℕ) * ε := by
    rw [← mul_assoc, ← add_mul]
    exact_mod_cast congrArg (fun n : ℕ => (n : ℝ) * ε) (Nat.div_add_mod' m (2 ^ sh)).symm
  have hmod : ((m % 2 ^ sh : ℕ) : ℝ) < 2 ^ sh := by exact_mod_cast Nat.mod_lt m (Nat.two_pow_pos sh)
  rw [hsum]
  generalize m % 2 ^ sh = r at hmod
  refine ⟨by positivity, by simp; positivity, by gcongr, by simp [hε.ne'], ?_, ?_⟩
  · rw [add_sub_cancel_left, mul_div_right_comm, mul_lt_mul_iff_left₀ hε, lt_div_iff₀' two_pos]
    exact_mod_cast Iff.rfl
  · rw [add_sub_cancel_left, mul_div_right_comm, mul_left_inj' hε.ne', eq_div_iff two_ne_zero, mul_comm]
    exact_mod_cast Iff.rfl

/-- With a sticky bit they do where the unit has room for two bits below it. -/
theorem Splits.of_sticky {m sh : ℕ} {ε a : ℝ} (hε : 0 < ε) (hm : m % 2 = 1) (hlow : (m - 1) * ε < a) (hhigh : a < (m + 1) * ε) :
    Splits (m / 2 ^ (sh + 2)) (m % 2 ^ (sh + 2)) (2 ^ (sh + 2)) (2 ^ (sh + 2) * ε) a := by
  have hdiv := Nat.div_add_mod' m (2 ^ (sh + 2))
  have hmod := Nat.mod_lt m (Nat.two_pow_pos (sh + 2))
  obtain ⟨c, hc⟩ : ∃ c, 2 ^ (sh + 2) = 4 * c := ⟨2 ^ sh, by ring⟩
  have hcast : (2 : ℝ) ^ (sh + 2) = 4 * c := by exact_mod_cast hc
  rw [hc] at hdiv hmod
  rw [hcast, hc]
  generalize m / (4 * c) = q at hdiv ⊢
  generalize m % (4 * c) = r at hdiv hmod ⊢
  have hodd : r % 2 = 1 := by
    rw [mul_left_comm] at hdiv
    omega
  have hsum : (q : ℝ) * (4 * c) + r = m := by exact_mod_cast hdiv
  rw [← hsum] at hlow hhigh
  have hscale : ∀ {x y : ℕ}, x ≤ y → (x : ℝ) * ε ≤ y * ε := fun h => by gcongr
  have h1 := hscale (show 1 ≤ r by omega)
  have h2 := hscale (show r + 1 ≤ 4 * c by omega)
  push_cast at h1 h2
  have hhalf : (2 * r < 4 * c ∧ a - q * (4 * c * ε) < 4 * c * ε / 2) ∨ (4 * c < 2 * r ∧ 4 * c * ε / 2 < a - q * (4 * c * ε)) := by
    by_cases h : 2 * r < 4 * c
    · have := hscale (show r + 1 ≤ 2 * c by omega)
      push_cast at this
      exact .inl ⟨h, by linarith⟩
    · have := hscale (show 2 * c + 1 ≤ r by omega)
      push_cast at this
      exact .inr ⟨by omega, by linarith⟩
  refine ⟨by linarith, by linarith, by linarith, ?_, ?_, ?_⟩
  · exact iff_of_false (by omega) (by linarith)
  · obtain ⟨hr, ha⟩ | ⟨hr, ha⟩ := hhalf
    · exact iff_of_true hr ha
    · exact iff_of_false (by omega) ha.not_gt
  · obtain ⟨hr, ha⟩ | ⟨hr, ha⟩ := hhalf
    · exact iff_of_false hr.ne ha.ne
    · exact iff_of_false hr.ne' ha.ne'

/-! ## The rounding of the model -/

/-- No mode but SR tells a shift beyond every bit of a magnitude from a longer one. -/
theorem roundsAway_of_far {mode : RMode} (hsr : ∀ w, mode ≠ .sr w) (neg : Bool) {m k l : ℕ} (hk : 2 * m < 2 ^ k) (hl : 2 * m < 2 ^ l) :
    roundsAway mode neg 0 m k = roundsAway mode neg 0 m l := by
  cases mode with
  | rne => simp [roundsAway, hk.not_gt, hl.not_gt]
  | rna => simp [roundsAway, hk.not_ge, hl.not_ge]
  | sr w => exact absurd rfl (hsr w)
  | _ => rfl

theorem roundUnits_of_lt {mode : RMode} (hsr : ∀ w, mode ≠ .sr w) (neg : Bool) (m : ℕ) {e u : ℤ} {sh : ℕ} (hu : u = e + sh) (hsh : sh ≠ 0) :
    roundUnits mode neg m e u =
      (if roundsAway mode neg (m / 2 ^ sh) (m % 2 ^ sh) sh then m / 2 ^ sh + 1 else m / 2 ^ sh, m % 2 ^ sh != 0) := by
  have hfar : ∀ {k}, m.log2 + 2 ≤ k → 2 * m < 2 ^ k := fun {k} hk => calc
    2 * m < 2 * 2 ^ (m.log2 + 1) := by have := Nat.lt_log2_self (n := m); omega
    _ = 2 ^ (m.log2 + 2) := by ring
    _ ≤ 2 ^ k := Nat.pow_le_pow_right two_pos hk
  subst hu
  rw [roundUnits, if_neg (by omega), add_sub_cancel_left, Int.toNat_natCast]
  obtain hle | hgt := le_or_gt sh (m.log2 + 20)
  · rw [min_eq_left hle]
  · have hk := hfar (show m.log2 + 2 ≤ m.log2 + 20 by omega)
    have hl := hfar (show m.log2 + 2 ≤ sh by omega)
    have h0 : ∀ {k}, 2 * m < 2 ^ k → m / 2 ^ k = 0 ∧ m % 2 ^ k = m := fun h => ⟨Nat.div_eq_of_lt (by omega), Nat.mod_eq_of_lt (by omega)⟩
    simp only [min_eq_right hgt.le, h0 hk, h0 hl, roundsAway_of_far hsr neg hk hl]

/-- The model's rounding of a magnitude in units of 2^u is the mode's, and its flag tells whether the multiple is the magnitude. -/
theorem roundUnits_rounded {mode : RMode} (hsr : ∀ w, mode ≠ .sr w) (neg : Bool) {m : ℕ} {e u : ℤ} {a : ℝ}
    (h : Near m (2 ^ e) a) (hsticky : a = m * 2 ^ e ∨ e + 2 ≤ u) :
    let n := (roundUnits mode neg m e u).1
    Rounded mode neg n (2 ^ u) a ∧ ((roundUnits mode neg m e u).2 = true ↔ a ≠ n * 2 ^ u) := by
  have hε : (0 : ℝ) < 2 ^ e := by positivity
  by_cases hle : u ≤ e
  · obtain ⟨k, rfl⟩ : ∃ k : ℕ, e = u + k := ⟨(e - u).toNat, by omega⟩
    have ha : a = (m * 2 ^ k : ℕ) * 2 ^ u := by
      rw [hsticky.resolve_right (by omega), zpow_add₀ two_ne_zero, zpow_natCast]
      push_cast
      ring
    rw [roundUnits_of_le mode neg m hle, add_sub_cancel_left, Int.toNat_natCast]
    exact ⟨.of_eq mode neg (by positivity) ha, by simpa using ha⟩
  · obtain ⟨sh, rfl⟩ : ∃ sh : ℕ, u = e + sh := ⟨(u - e).toNat, by omega⟩
    have hunit : (2 : ℝ) ^ (e + sh : ℤ) = 2 ^ sh * 2 ^ e := by rw [zpow_add₀ two_ne_zero, zpow_natCast, mul_comm]
    have hsplits : Splits (m / 2 ^ sh) (m % 2 ^ sh) (2 ^ sh) (2 ^ (e + sh : ℤ)) a := by
      rw [hunit]
      by_cases ha : a = m * 2 ^ e
      · rw [ha]
        exact .of_eq m sh hε
      · obtain ⟨k, rfl⟩ : ∃ k, sh = k + 2 := ⟨sh - 2, by have := hsticky.resolve_left ha; omega⟩
        obtain ⟨hm, hlow, hhigh⟩ := h.resolve_left ha
        exact .of_sticky hε hm hlow hhigh
    rw [roundUnits_of_lt hsr neg m rfl (by omega)]
    obtain ⟨hr, hexact⟩ := hsplits.rounded mode neg
    exact ⟨hr, by simpa using not_congr hexact⟩

end Sys2Proof.Machine
end

section
/-! SUPPORT. Rounding to a format (R57, R69, R71): the unit of a magnitude, the encoding of the units it rounds to, overflow, and the two together. -/

namespace Sys2Proof.Machine

/-! ## Signs -/

/-- The sign of a value as a factor. -/
def signOf (neg : Bool) : ℝ := if neg then -1 else 1

theorem abs_signOf (neg : Bool) : |signOf neg| = 1 := by cases neg <;> simp [signOf]

theorem signOf_mul_neg {neg : Bool} {a : ℝ} (ha : 0 < a) : signOf neg * a < 0 ↔ neg = true := by cases neg <;> simp [signOf, ha, ha.le]

theorem signOf_mul_pos {neg : Bool} {a : ℝ} (ha : 0 < a) : 0 < signOf neg * a ↔ neg = false := by cases neg <;> simp [signOf, ha, ha.le]

/-! ## The encoding of a rounded magnitude -/

/-- Units that rounding may give: one more than a binade holds where it goes up to the next (R57). -/
def Fmt.RoundedUnits (f : Fmt) (j q : ℕ) : Prop := q ≤ 2 ^ (f.fbits + 1) ∧ (j = 0 ∨ 2 ^ f.fbits ≤ q)

/-- The encoding of q units of binade j has their value, that of the next binade's first number included. -/
theorem Fmt.unpack_is {f : Fmt} (he : f.e4m3 = false) (neg : Bool) {j q : ℕ} (hu : f.RoundedUnits j q) (h : j * 2 ^ f.fbits + q < f.inf) :
    (f.unpack (f.signed neg (j * 2 ^ f.fbits + q))).Is (signOf neg * (q * 2 ^ (f.unit + j))) := by
  obtain ⟨hq, hj⟩ := hu
  obtain hlt | rfl := hq.lt_or_eq
  · rw [Fmt.unpack_units he neg ⟨hlt, hj⟩ h, FVal.Is, mul_assoc, signOf]
  · have hnext : j * 2 ^ f.fbits + 2 ^ (f.fbits + 1) = (j + 1) * 2 ^ f.fbits + 2 ^ f.fbits := by ring
    have hunits : f.IsUnits (j + 1) (2 ^ f.fbits) := ⟨Nat.pow_lt_pow_succ one_lt_two, .inr le_rfl⟩
    rw [hnext] at h ⊢
    rw [Fmt.unpack_units he neg hunits h, FVal.Is, mul_assoc, signOf]
    congr 1
    push_cast
    rw [← add_assoc, zpow_add_one₀ two_ne_zero]
    ring

/-- The magnitudes from the infinity on are those of 2^(bias + 1) and more (R57). -/
theorem Fmt.inf_le_iff {f : Fmt} (hb : 0 < f.ebits) {j q : ℕ} (hu : f.RoundedUnits j q) :
    f.inf ≤ j * 2 ^ f.fbits + q ↔ (2 : ℝ) ^ (f.bias + 1) ≤ q * 2 ^ (f.unit + j) := by
  obtain ⟨hq, hj⟩ := hu
  have hpos := Nat.two_pow_pos f.fbits
  have hunit : (2 : ℝ) ^ (f.unit + j) * 2 ^ (f.bias + f.fbits) = 2 * 2 ^ j := by
    rw [← zpow_natCast, ← zpow_natCast, ← zpow_one_add₀ two_ne_zero, ← zpow_add₀ two_ne_zero, Fmt.unit]
    congr 1
    simp only [Int.ofNat_eq_natCast, Nat.cast_add]
    ring
  have hreal : (2 : ℝ) ^ (f.bias + 1) ≤ q * 2 ^ (f.unit + j) ↔ 2 ^ (2 * f.bias + f.fbits) ≤ q * 2 ^ j := by
    have hleft : (2 : ℝ) ^ (f.bias + 1) * 2 ^ (f.bias + f.fbits) = 2 * (2 ^ (2 * f.bias + f.fbits) : ℕ) := by push_cast; ring
    have hright : (q : ℝ) * (2 * 2 ^ j) = 2 * (q * 2 ^ j : ℕ) := by push_cast; ring
    rw [← mul_le_mul_iff_left₀ (show (0 : ℝ) < 2 ^ (f.bias + f.fbits) by positivity), mul_assoc, hunit, hleft, hright,
      mul_le_mul_iff_right₀ two_pos, Nat.cast_le]
  have hinf : f.inf = (2 * f.bias + 1) * 2 ^ f.fbits := by
    rw [Fmt.inf, Fmt.two_pow_ebits hb]
    rfl
  rw [hreal, hinf]
  rw [Nat.pow_succ] at hq
  obtain hle | hgt := le_or_gt j (2 * f.bias)
  · obtain ⟨c, hc⟩ := Nat.exists_eq_add_of_le hle
    have hleft : (2 * f.bias + 1) * 2 ^ f.fbits = j * 2 ^ f.fbits + (c + 1) * 2 ^ f.fbits := by rw [hc]; ring
    have hright : 2 ^ (2 * f.bias + f.fbits) = 2 ^ c * 2 ^ f.fbits * 2 ^ j := by rw [hc]; ring
    rw [hleft, hright, Nat.add_le_add_iff_left, Nat.mul_le_mul_right_iff (Nat.two_pow_pos j)]
    match c with
    | 0 => simp
    | 1 => simp
    | c + 2 =>
      have h3 : 3 * 2 ^ f.fbits ≤ (c + 2 + 1) * 2 ^ f.fbits := Nat.mul_le_mul_right _ (by omega)
      have h4 : 3 * 2 ^ f.fbits ≤ 2 ^ (c + 2) * 2 ^ f.fbits := Nat.mul_le_mul_right _ (by have := Nat.lt_two_pow_self (n := c + 2); omega)
      exact iff_of_false (by omega) (by omega)
  · have hleft := Nat.mul_le_mul_right (2 ^ f.fbits) (show 2 * f.bias + 1 ≤ j by omega)
    refine iff_of_true (by omega) ?_
    rw [Nat.add_comm, Nat.pow_add]
    exact Nat.mul_le_mul (hj.resolve_left (by omega)) (Nat.pow_le_pow_right two_pos (by omega))

/-! ## The model's packing -/

/-- The exponent of the unit in which a magnitude of binade k is rounded: that of its binade, or of the subnormals (R57). -/
def Fmt.unitOf (f : Fmt) (k : ℤ) : ℤ := max (k - f.fbits) f.unit

/-- The binades that it stands above the subnormals. -/
def Fmt.binade (f : Fmt) (k : ℤ) : ℕ := (f.unitOf k - f.unit).toNat

theorem Fmt.unit_add_binade (f : Fmt) (k : ℤ) : f.unit + f.binade k = f.unitOf k := by
  have : f.unit ≤ f.unitOf k := le_max_right _ _
  rw [Fmt.binade]
  omega

/-- The magnitude's encoding, by the binade of its unit and the units it rounds to. -/
theorem roundMag_fst (f : Fmt) (mode : RMode) (neg : Bool) (m : ℕ) (e : ℤ) :
    (roundMag f mode neg m e).1 = f.binade (e + m.log2) * 2 ^ f.fbits + (roundUnits mode neg m e (f.unitOf (e + m.log2))).1 := rfl

theorem roundMag_inexact (f : Fmt) (mode : RMode) (neg : Bool) (m : ℕ) (e : ℤ) :
    (roundMag f mode neg m e).2.1 = (roundUnits mode neg m e (f.unitOf (e + m.log2))).2 := rfl

section Packing
variable {f : Fmt} (he : f.e4m3 = false) (hb : 0 < f.ebits) {mode : RMode} {neg : Bool} {m : ℕ} {e : ℤ}
include he hb

theorem roundPack_of_fits (hm : m ≠ 0) (h : (roundMag f mode neg m e).1 < f.inf) :
    (roundPack f mode neg m e).bits = f.signed neg (roundMag f mode neg m e).1 ∧ (roundPack f mode neg m e).flags &&& fOF = 0 ∧
      ((roundPack f mode neg m e).flags &&& fNX ≠ 0 ↔ (roundMag f mode neg m e).2.1 = true) := by
  have hfits : ¬ f.maxFinite < (roundMag f mode neg m e).1 := by
    rw [Fmt.maxFinite_lt_iff he hb]
    omega
  simp only [roundPack, hm, hfits, if_false, true_and]
  split
  next hin => split <;> simp [hin, fNX, fUF, fOF]
  next hin => simp [hin]

theorem roundPack_of_overflow (hm : m ≠ 0) (h : f.inf ≤ (roundMag f mode neg m e).1) :
    roundPack f mode neg m e = ⟨f.signed neg (overflowBits f mode neg), fOF ||| fNX⟩ := by
  have hover := (Fmt.maxFinite_lt_iff he hb).mpr h
  simp only [roundPack, hm, hover, if_false, if_true]

end Packing

theorem overflowBits_lt_sign {f : Fmt} (he : f.e4m3 = false) (mode : RMode) (neg : Bool) : overflowBits f mode neg < f.sign := by
  have := f.inf_lt_sign
  have : f.maxFinite < f.sign := by simp only [Fmt.maxFinite, he, Bool.false_eq_true, if_false]; omega
  unfold overflowBits
  split <;> (try split) <;> assumption


/-- An overflow gives the largest finite magnitude where the mode keeps below the value, and else the infinity (R71). -/
theorem overflowBits_of_most {f : Fmt} {mode : RMode} {neg : Bool} (h : mode = .rtz ∨ (mode = .rup ∧ neg = true) ∨ (mode = .rdn ∧ neg = false)) :
    overflowBits f mode neg = f.maxFinite := by
  obtain rfl | ⟨rfl, rfl⟩ | ⟨rfl, rfl⟩ := h <;> rfl

theorem overflowBits_of_not_most {f : Fmt} {mode : RMode} {neg : Bool} (h : ¬ (mode = .rtz ∨ (mode = .rup ∧ neg = true) ∨ (mode = .rdn ∧ neg = false))) :
    overflowBits f mode neg = f.inf := by
  cases mode <;> cases neg <;> simp_all [overflowBits]

/-- A result has its operand's sign. -/
theorem roundPack_signed {f : Fmt} (he : f.e4m3 = false) (hb : 0 < f.ebits) (mode : RMode) (neg : Bool) {m : ℕ} (e : ℤ) (hm : m ≠ 0) :
    ∃ mag < f.sign, (roundPack f mode neg m e).bits = f.signed neg mag := by
  obtain hlt | hle := lt_or_ge (roundMag f mode neg m e).1 f.inf
  · exact ⟨_, hlt.trans f.inf_lt_sign, (roundPack_of_fits he hb hm hlt).1⟩
  · exact ⟨_, overflowBits_lt_sign he mode neg, by rw [roundPack_of_overflow he hb hm hle]⟩

/-! ## The binade of a magnitude -/

theorem Near.binade {m : ℕ} {e : ℤ} {a : ℝ} (h : Near m (2 ^ e) a) (hm : m ≠ 0) (hs : a = m * 2 ^ e ∨ 1 < m) :
    2 ^ (e + m.log2) ≤ a ∧ a < 2 ^ (e + m.log2 + 1) := by
  have hε : (0 : ℝ) < 2 ^ e := by positivity
  have hlow : 2 ^ m.log2 ≤ m := Nat.log2_self_le hm
  have hhigh : m < 2 ^ (m.log2 + 1) := Nat.lt_log2_self
  have hscale : ∀ {x y : ℕ}, x ≤ y → (x : ℝ) * 2 ^ e ≤ y * 2 ^ e := fun h => by gcongr
  have hpow : ∀ k : ℕ, (2 : ℝ) ^ (e + k) = (2 ^ k : ℕ) * 2 ^ e := fun k => by
    rw [zpow_add₀ two_ne_zero, zpow_natCast, mul_comm]
    push_cast
    rfl
  rw [add_assoc, ← Nat.cast_add_one, hpow, hpow]
  by_cases ha : a = m * 2 ^ e
  · rw [ha]
    exact ⟨hscale hlow, by gcongr⟩
  · obtain ⟨hodd, hlo, hhi⟩ := h.resolve_left ha
    have hone : 1 < m := hs.resolve_left ha
    have heven : 2 ^ m.log2 % 2 = 0 := by
      have : m.log2 ≠ 0 := fun h0 => by rw [h0] at hhigh; omega
      exact Nat.even_iff.mp (Nat.even_pow.mpr ⟨even_two, this⟩)
    have h1 := hscale (show 2 ^ m.log2 + 1 ≤ m by omega)
    have h2 := hscale (show m + 1 ≤ 2 ^ (m.log2 + 1) by omega)
    push_cast at h1 h2 ⊢
    exact ⟨by linarith, by linarith⟩

/-- A magnitude has one binade. -/
theorem binade_unique {a : ℝ} {k l : ℤ} (hk : 2 ^ k ≤ a) (hk' : a < 2 ^ (k + 1)) (hl : 2 ^ l ≤ a) (hl' : a < 2 ^ (l + 1)) : k = l := by
  have h1 := (zpow_lt_zpow_iff_right₀ one_lt_two).mp (hk.trans_lt hl')
  have h2 := (zpow_lt_zpow_iff_right₀ one_lt_two).mp (hl.trans_lt hk')
  omega

/-- A mode rounds a magnitude to units of its binade or to subnormal ones. -/
theorem Rounded.roundedUnits {f : Fmt} {mode : RMode} {neg : Bool} {k : ℤ} {n : ℕ} {a : ℝ} (h : Rounded mode neg n (2 ^ f.unitOf k) a)
    (hk : 2 ^ k ≤ a) (hk' : a < 2 ^ (k + 1)) : f.RoundedUnits (f.binade k) n := by
  obtain ⟨habove, hbelow⟩ := And.intro h.above h.below
  have hunit : f.unitOf k = max (k - f.fbits) f.unit := rfl
  rw [Fmt.RoundedUnits, Fmt.binade]
  generalize f.unitOf k = U at *
  have hd : (0 : ℝ) < 2 ^ U := by positivity
  have hpow : ∀ x : ℕ, (2 : ℝ) ^ (U + x) = (2 ^ x : ℕ) * 2 ^ U := fun x => by
    rw [zpow_add₀ two_ne_zero, zpow_natCast, mul_comm]
    push_cast
    rfl
  constructor
  · have hle : (2 : ℝ) ^ (k + 1) ≤ 2 ^ (U + (f.fbits + 1 : ℕ)) := zpow_le_zpow_right₀ one_le_two (by push_cast; omega)
    rw [hpow] at hle
    have hlt : (n : ℝ) * 2 ^ U < (2 ^ (f.fbits + 1) + 1 : ℕ) * 2 ^ U := by
      push_cast at hle ⊢
      linarith
    exact Nat.lt_succ_iff.mp (by exact_mod_cast lt_of_mul_lt_mul_right hlt hd.le)
  · by_cases hj : U = f.unit
    · exact .inl (by omega)
    · refine .inr ?_
      have hle : (2 : ℝ) ^ (U + f.fbits) ≤ 2 ^ k := zpow_le_zpow_right₀ one_le_two (by omega)
      rw [hpow] at hle
      have hlt : ((2 ^ f.fbits : ℕ) : ℝ) * 2 ^ U < (n + 1 : ℕ) * 2 ^ U := by
        push_cast at hle ⊢
        linarith
      exact Nat.lt_succ_iff.mp (by exact_mod_cast lt_of_mul_lt_mul_right hlt hd.le)

/-! ## A real number rounded -/

theorem RoundsTo.zero (f : Fmt) (mode : RMode) (neg : Bool) : RoundsTo f mode 0 ⟨f.signed neg 0, 0⟩ := by
  refine ⟨f.signed_lt neg f.sign_pos, fun _ => ⟨f.signed_mod neg f.sign_pos, rfl⟩, fun k hk => ?_⟩
  rw [abs_zero] at hk
  exact absurd hk (not_le.mpr (by positivity))

/-- The modes' sides of a magnitude are their sides of the value (R69). -/
theorem Rounded.signed {mode : RMode} {neg : Bool} {n : ℕ} {d a : ℝ} (h : Rounded mode neg n d a) (hd : 0 < d) (ha : 0 < a) :
    let v := signOf neg * a
    let x := signOf neg * (n * d)
    |x - v| < d ∧ (mode = .rne → |x - v| ≤ d / 2 ∧ (|x - v| = d / 2 → n % 2 = 0)) ∧
      (mode = .rna → |x - v| ≤ d / 2 ∧ (|x - v| = d / 2 → |v| < |x|)) ∧ (mode = .rtz → |x| ≤ |v|) ∧ (mode = .rup → v ≤ x) ∧ (mode = .rdn → x ≤ v) := by
  intro v x
  have hx : |x| = n * d := by rw [abs_mul, abs_signOf, one_mul, abs_of_nonneg (by positivity)]
  have hv : |v| = a := by rw [abs_mul, abs_signOf, one_mul, abs_of_pos ha]
  have hxv : |x - v| = |n * d - a| := by rw [← mul_sub, abs_mul, abs_signOf, one_mul]
  rw [hxv, hx, hv]
  refine ⟨abs_lt.mpr ⟨by linarith [h.below], by linarith [h.above]⟩, h.rne, h.rna, h.rtz, fun hm => ?_, fun hm => ?_⟩
  · have := h.rup hm
    cases neg <;> simp_all [v, x, signOf]
  · have := h.rdn hm
    cases neg <;> simp_all [v, x, signOf]

/-- Units with the sign of a value. -/
def signedUnits (neg : Bool) (n : ℕ) : ℤ := if neg then -n else n

theorem signedUnits_mul (neg : Bool) (n : ℕ) (d : ℝ) : (signedUnits neg n : ℝ) * d = signOf neg * (n * d) := by
  cases neg <;> simp [signedUnits, signOf]

theorem signedUnits_emod_two (neg : Bool) (n : ℕ) : signedUnits neg n % 2 = 0 ↔ n % 2 = 0 := by
  cases neg <;> simp [signedUnits] <;> omega

section Packed
variable {f : Fmt} (he : f.e4m3 = false) (hb : 0 < f.ebits) {mode : RMode} {neg : Bool} {m : ℕ} {e : ℤ} (hm : m ≠ 0)
include he hb hm

/-- The units that a magnitude rounds to are what its encoding says, below 2^(bias + 1). -/
theorem roundPack_of_lt (hunits : f.RoundedUnits (f.binade (e + m.log2)) (roundUnits mode neg m e (f.unitOf (e + m.log2))).1)
    (h : ((roundUnits mode neg m e (f.unitOf (e + m.log2))).1 : ℝ) * 2 ^ f.unitOf (e + m.log2) < 2 ^ (f.bias + 1)) :
    (f.unpack (roundPack f mode neg m e).bits).Is (signOf neg * ((roundUnits mode neg m e (f.unitOf (e + m.log2))).1 * 2 ^ f.unitOf (e + m.log2))) ∧
      ((roundPack f mode neg m e).flags &&& fNX ≠ 0 ↔ (roundUnits mode neg m e (f.unitOf (e + m.log2))).2 = true) ∧
      (roundPack f mode neg m e).flags &&& fOF = 0 := by
  have hbelow := not_le.mp (mt (Fmt.inf_le_iff hb hunits).mp (by rw [Fmt.unit_add_binade]; exact h.not_ge))
  have his := Fmt.unpack_is he neg hunits hbelow
  rw [Fmt.unit_add_binade, ← roundMag_fst] at his
  obtain ⟨hbits, hof, hnx⟩ := roundPack_of_fits he hb hm (by rw [roundMag_fst]; exact hbelow)
  rw [hbits]
  exact ⟨his, hnx, hof⟩

/-- From 2^(bias + 1) on they overflow (R71). -/
theorem roundPack_of_ge (hunits : f.RoundedUnits (f.binade (e + m.log2)) (roundUnits mode neg m e (f.unitOf (e + m.log2))).1)
    (h : 2 ^ (f.bias + 1) ≤ ((roundUnits mode neg m e (f.unitOf (e + m.log2))).1 : ℝ) * 2 ^ f.unitOf (e + m.log2)) :
    roundPack f mode neg m e = ⟨f.signed neg (overflowBits f mode neg), fOF ||| fNX⟩ :=
  roundPack_of_overflow he hb hm (by rw [roundMag_fst, Fmt.inf_le_iff hb hunits, Fmt.unit_add_binade]; exact h)

/-- A magnitude that is no zero packs to its value rounded, exact or with a sticky bit below two bits of room (R57, R69, R71). -/
theorem roundPack_roundsTo (hsr : ∀ w, mode ≠ .sr w) {a : ℝ} (h : Near m (2 ^ e) a) (hs : a = m * 2 ^ e ∨ 2 ^ (f.fbits + 2) ≤ m) :
    RoundsTo f mode (signOf neg * a) (roundPack f mode neg m e) := by
  obtain ⟨hlow, hhigh⟩ := h.binade hm (hs.imp_right fun hle => (Nat.one_lt_two_pow (by omega)).trans_le hle)
  have ha : 0 < a := lt_of_lt_of_le (by positivity) hlow
  obtain ⟨hround, hinexact⟩ := roundUnits_rounded hsr neg h (u := f.unitOf (e + m.log2)) (hs.imp_right fun hle => by
    have := (Nat.le_log2 hm).mpr hle
    have : e + m.log2 - f.fbits ≤ f.unitOf (e + m.log2) := le_max_left _ _
    omega)
  have hunits := hround.roundedUnits hlow hhigh
  have hbelow := roundPack_of_lt he hb hm hunits
  have hbeyond := roundPack_of_ge he hb hm hunits
  have hv : |signOf neg * a| = a := by rw [abs_mul, abs_signOf, one_mul, abs_of_pos ha]
  obtain ⟨mag, hmag, hbits⟩ := roundPack_signed he hb mode neg e hm
  refine ⟨hbits ▸ f.signed_lt neg hmag, fun h0 => absurd (abs_eq_zero.mpr h0) (by rw [hv]; exact ha.ne'), fun l hl hl' => ?_⟩
  rw [hv] at hl hl'
  obtain rfl := binade_unique hlow hhigh hl hl'
  intro u most
  have hu : 2 ^ f.unitOf (e + m.log2) = u := rfl
  have hd : 0 < u := by positivity
  rw [hu] at hround hinexact hbelow hbeyond
  generalize (roundUnits mode neg m e (f.unitOf (e + m.log2))).2 = inexact at *
  generalize (roundUnits mode neg m e (f.unitOf (e + m.log2))).1 = n at *
  obtain ⟨hnear, hrne, hrna, hrtz, hrup, hrdn⟩ := hround.signed hd ha
  have hx : |signOf neg * (n * u)| = n * u := by rw [abs_mul, abs_signOf, one_mul, abs_of_nonneg (by positivity)]
  rw [hx] at hrna hrtz
  have hne : a ≠ n * u ↔ signOf neg * (n * u) ≠ signOf neg * a := by
    rw [ne_comm, Ne, Ne, mul_right_inj' (by cases neg <;> simp [signOf])]
  have hmost : most ↔ mode = .rtz ∨ (mode = .rup ∧ neg = true) ∨ (mode = .rdn ∧ neg = false) := by
    simp only [most, signOf_mul_neg ha, signOf_mul_pos ha]
  refine ⟨signedUnits neg n, ?_⟩
  rw [signedUnits_mul, signedUnits_emod_two, hx, signOf_mul_neg ha, hmost]
  refine ⟨hnear, hrne, hrna, hrtz, hrup, hrdn, hbits ▸ f.sign_le_signed hmag, fun hlt => ?_, fun hle => ?_⟩
  · obtain ⟨his, hnx, hof⟩ := hbelow hlt
    exact ⟨his, hnx.trans (hinexact.trans hne), hof⟩
  · rw [hbeyond hle, f.signed_mod neg (overflowBits_lt_sign he mode neg)]
    exact ⟨rfl, overflowBits_of_most, overflowBits_of_not_most⟩

end Packed

end Sys2Proof.Machine
end

section
/-! SUPPORT. Arithmetic on values is the arithmetic of the reals, rounded (R69, R90, R114): sums, products, quotients and roots. -/

namespace Sys2Proof.Machine

/-! ## Finite values -/

theorem FVal.is_fin {n : Bool} {m : ℕ} {e : ℤ} {x : ℝ} : (FVal.fin n m e).Is x ↔ x = signOf n * (m * 2 ^ e) := by
  rw [FVal.Is, mul_assoc, signOf]

theorem FVal.Is.exists_fin {a : FVal} {x : ℝ} (h : a.Is x) : ∃ n m e, a = .fin n m e ∧ x = signOf n * (m * 2 ^ e) := by
  cases a with
  | fin n m e => exact ⟨n, m, e, rfl, FVal.is_fin.mp h⟩
  | nan _ => exact h.elim
  | inf _ => exact h.elim

theorem signOf_xor (n n' : Bool) : signOf (n != n') = signOf n * signOf n' := by cases n <;> cases n' <;> simp [signOf]

theorem signOf_div (n n' : Bool) : signOf n / signOf n' = signOf (n != n') := by cases n <;> cases n' <;> simp [signOf]

/-- The exact sum of two values has the sum of their numbers. -/
theorem addFin_value (down n₁ : Bool) (m₁ : ℕ) (e₁ : ℤ) (n₂ : Bool) (m₂ : ℕ) (e₂ : ℤ) :
    let r := addFin down n₁ m₁ e₁ n₂ m₂ e₂
    signOf r.1 * (r.2.1 * 2 ^ r.2.2) = signOf n₁ * (m₁ * 2 ^ e₁) + signOf n₂ * (m₂ * 2 ^ e₂) := by
  have hterm : ∀ (n : Bool) (m : ℕ) {e d : ℤ}, d ≤ e →
      ((Int.ofNat (m * 2 ^ (e - d).toNat) * (if n then -1 else 1) : ℤ) : ℝ) * 2 ^ d = signOf n * (m * 2 ^ e) := fun n m e d hd => by
    obtain ⟨k, rfl⟩ := Int.le.dest hd
    rw [add_sub_cancel_left, Int.toNat_natCast, zpow_add₀ two_ne_zero, zpow_natCast]
    cases n <;> simp [signOf] <;> ring
  have hsum := congrArg₂ (· + ·) (hterm n₁ m₁ (min_le_left e₁ e₂)) (hterm n₂ m₂ (min_le_right e₁ e₂))
  rw [← add_mul, ← Int.cast_add] at hsum
  rw [← hsum, addFin]
  generalize (Int.ofNat (m₁ * 2 ^ (e₁ - min e₁ e₂).toNat) * (if n₁ then -1 else 1) + Int.ofNat (m₂ * 2 ^ (e₂ - min e₁ e₂).toNat) * (if n₂ then -1 else 1) : ℤ) = t
  by_cases ht : t = 0
  · simp [ht]
  · rw [if_neg ht]
    dsimp only
    rw [← mul_assoc]
    congr 1
    rw [Nat.cast_natAbs, Int.cast_abs]
    obtain hneg | hpos := lt_or_gt_of_ne ht
    · have : (t : ℝ) < 0 := by exact_mod_cast hneg
      simp [signOf, hneg, abs_of_neg this]
    · have : (0 : ℝ) < t := by exact_mod_cast hpos
      simp [signOf, hpos.not_gt, abs_of_pos this]

/-- The exact product of two values, which raises nothing. -/
theorem fProd_is {a b : FVal} {x y : ℝ} (ha : a.Is x) (hb : b.Is y) : ∃ n m e, fProd a b = (.fin n m e, 0) ∧ x * y = signOf n * (m * 2 ^ e) := by
  obtain ⟨n₁, m₁, e₁, rfl, rfl⟩ := ha.exists_fin
  obtain ⟨n₂, m₂, e₂, rfl, rfl⟩ := hb.exists_fin
  refine ⟨n₁ != n₂, m₁ * m₂, e₁ + e₂, by simp [fProd, snan], ?_⟩
  rw [signOf_xor, zpow_add₀ two_ne_zero, Nat.cast_mul]
  ring

/-! ## Sticky bits -/

/-- Twice the floor of a number, with a sticky bit for what the floor leaves, is near twice the number. -/
theorem Near.of_floor {q : ℕ} {b ε : ℝ} (hε : 0 < ε) (hq : q ≤ b) (hb : b < q + 1) {p : Prop} [Decidable p] (hp : p ↔ b = q) :
    Near (2 * q + if p then 0 else 1) ε (b * (2 * ε)) := by
  by_cases h : p
  · rw [if_pos h, hp.mp h]
    left
    push_cast
    ring
  · have hlt : (q : ℝ) < b := lt_of_le_of_ne hq fun he => h (hp.mpr he.symm)
    rw [if_neg h]
    refine .inr ⟨by omega, ?_, ?_⟩ <;> push_cast <;> nlinarith

/-! ## The integer square root -/

theorem isqrt_eq_sqrt_of_lt {x : ℕ} (i r : ℕ) (hr : r * r ≤ x) (hx : x < (r + 2 ^ i) * (r + 2 ^ i)) : isqrt x i r = Nat.sqrt x := by
  induction i generalizing r with
  | zero => exact (Nat.eq_sqrt.mpr ⟨hr, hx⟩)
  | succ i ih =>
    rw [isqrt]
    split
    next h => exact ih _ h (by rwa [add_assoc, ← Nat.two_mul, ← Nat.pow_succ'])
    next h => exact ih _ hr (not_le.mp h)

theorem isqrt_eq_sqrt (x : ℕ) : isqrt x (x.log2 / 2 + 1) 0 = Nat.sqrt x := by
  refine isqrt_eq_sqrt_of_lt _ _ (by omega) ?_
  rw [Nat.zero_add, ← Nat.pow_add]
  exact Nat.lt_log2_self.trans_le (Nat.pow_le_pow_right two_pos (by omega))

/-! ## The operations -/

section Operations
variable {f : Fmt} (he : f.e4m3 = false) (hb : 0 < f.ebits) {mode : RMode} (hsr : ∀ w, mode ≠ .sr w)
include he hb hsr

/-- A value as it stands, rounded. -/
theorem roundPack_exact (neg : Bool) (m : ℕ) (e : ℤ) : RoundsTo f mode (signOf neg * (m * 2 ^ e)) (roundPack f mode neg m e) := by
  by_cases hm : m = 0
  · subst hm
    rw [Nat.cast_zero, zero_mul, mul_zero]
    exact RoundsTo.zero f mode neg
  · exact roundPack_roundsTo he hb hm hsr (.inl rfl) (.inl rfl)

/-- A quotient or root with its sticky bit, rounded. -/
theorem roundPack_floor (neg : Bool) {q : ℕ} {b : ℝ} (hq : q ≤ b) (hb' : b < q + 1) (hlarge : 2 ^ (f.fbits + 2) ≤ q) {p : Prop} [Decidable p] (hp : p ↔ b = q)
    (e : ℤ) : RoundsTo f mode (signOf neg * (b * 2 ^ e)) (roundPack f mode neg (2 * q + if p then 0 else 1) (e - 1)) := by
  have hpos := Nat.two_pow_pos (f.fbits + 2)
  have hunit : (2 : ℝ) ^ e = 2 * 2 ^ (e - 1) := by rw [← zpow_one_add₀ two_ne_zero, add_sub_cancel]
  have hnear := Near.of_floor (ε := 2 ^ (e - 1)) (by positivity) hq hb' hp
  rw [hunit]
  exact roundPack_roundsTo he hb (by omega) hsr hnear (.inr (by omega))

theorem fAdd_roundsTo {a b : FVal} {x y : ℝ} (ha : a.Is x) (hb' : b.Is y) : RoundsTo f mode (x + y) (fAdd f mode a b) := by
  obtain ⟨n₁, m₁, e₁, rfl, rfl⟩ := ha.exists_fin
  obtain ⟨n₂, m₂, e₂, rfl, rfl⟩ := hb'.exists_fin
  simp only [fAdd]
  split
  next h =>
    obtain ⟨rfl, -⟩ := h
    simpa using roundPack_exact he hb hsr n₂ m₂ e₂
  next =>
    split
    next h =>
      obtain ⟨rfl, -⟩ := h
      simpa using roundPack_exact he hb hsr n₁ m₁ e₁
    next =>
      rw [← addFin_value (mode == .rdn)]
      exact roundPack_exact he hb hsr _ _ _

theorem fMul_roundsTo {a b : FVal} {x y : ℝ} (ha : a.Is x) (hb' : b.Is y) : RoundsTo f mode (x * y) (fMul f mode a b) := by
  obtain ⟨n, m, e, hp, hv⟩ := fProd_is ha hb'
  rw [hv, fMul, hp]
  exact roundPack_exact he hb hsr n m e

theorem fFma_roundsTo {d a b : FVal} {z x y : ℝ} (hd : d.Is z) (ha : a.Is x) (hb' : b.Is y) : RoundsTo f mode (z + x * y) (fFma f mode d a b) := by
  obtain ⟨n, m, e, hp, hv⟩ := fProd_is ha hb'
  have hsum : fFma f mode d a b = fAdd f mode d (.fin n m e) := by simp [fFma, hp]
  rw [hsum]
  exact fAdd_roundsTo he hb hsr hd (FVal.is_fin.mpr hv)

theorem fDiv_roundsTo {a b : FVal} {x y : ℝ} (ha : a.Is x) (hb' : b.Is y) (hy : y ≠ 0) : RoundsTo f mode (x / y) (fDiv f mode a b) := by
  obtain ⟨n, m, e, rfl, rfl⟩ := ha.exists_fin
  obtain ⟨n', m', e', rfl, rfl⟩ := hb'.exists_fin
  have hm' : m' ≠ 0 := fun h => hy (by simp [h])
  simp only [fDiv, hm', if_false]
  split
  next h =>
    subst h
    simpa using RoundsTo.zero f mode (n != n')
  next hm =>
    set k := f.fbits + 4 + m'.log2
    have hpos : (0 : ℝ) < m' := by exact_mod_cast Nat.pos_of_ne_zero hm'
    have hdiv : ((m * 2 ^ k : ℕ) : ℝ) = (m * 2 ^ k / m' : ℕ) * m' + (m * 2 ^ k % m' : ℕ) := by exact_mod_cast (Nat.div_add_mod' _ _).symm
    have hmod : ((m * 2 ^ k % m' : ℕ) : ℝ) < m' := by exact_mod_cast Nat.mod_lt _ (Nat.pos_of_ne_zero hm')
    have hvalue : signOf n * (m * 2 ^ e) / (signOf n' * (m' * 2 ^ e')) = signOf (n != n') * ((m * 2 ^ k : ℕ) / m' * 2 ^ (e - e' - k)) := by
      rw [← signOf_div, zpow_sub₀ two_ne_zero, zpow_sub₀ two_ne_zero, zpow_natCast]
      push_cast
      field_simp
    rw [hvalue]
    refine roundPack_floor he hb hsr (n != n') ?_ ?_ ?_ ?_ _
    · rw [le_div_iff₀ hpos, hdiv]
      linarith [(Nat.cast_nonneg (m * 2 ^ k % m') : (0 : ℝ) ≤ _)]
    · rw [div_lt_iff₀ hpos, hdiv]
      linarith
    · rw [Nat.le_div_iff_mul_le (Nat.pos_of_ne_zero hm')]
      calc 2 ^ (f.fbits + 2) * m' ≤ 2 ^ (f.fbits + 2) * 2 ^ (m'.log2 + 1) := Nat.mul_le_mul_left _ Nat.lt_log2_self.le
        _ = 2 ^ (f.fbits + 3 + m'.log2) := by ring
        _ ≤ 2 ^ k := Nat.pow_le_pow_right two_pos (by omega)
        _ ≤ m * 2 ^ k := Nat.le_mul_of_pos_left _ (Nat.pos_of_ne_zero hm)
    · rw [div_eq_iff hpos.ne', hdiv]
      simp

/-- The root of m × 2^e for an even e, by the integer root of m with room below it. -/
theorem roundPack_sqrt {m : ℕ} (hm : m ≠ 0) (e : ℤ) :
    let k := f.fbits + 4
    let r := Nat.sqrt (m * 2 ^ (2 * k))
    RoundsTo f mode (√(m * 2 ^ (2 * e))) (roundPack f mode false (2 * r + if r * r = m * 2 ^ (2 * k) then 0 else 1) (e - k - 1)) := by
  intro k r
  have hroot : √((m * 2 ^ (2 * k) : ℕ) : ℝ) = √m * 2 ^ k := by
    push_cast
    rw [Real.sqrt_mul (Nat.cast_nonneg m), Nat.mul_comm 2 k, pow_mul, Real.sqrt_sq (by positivity)]
  have hvalue : √(m * 2 ^ (2 * e)) = signOf false * (√((m * 2 ^ (2 * k) : ℕ) : ℝ) * 2 ^ (e - k)) := by
    rw [hroot, Real.sqrt_mul (Nat.cast_nonneg m), mul_comm 2 e, zpow_mul, zpow_ofNat, Real.sqrt_sq (by positivity), zpow_sub₀ two_ne_zero, zpow_natCast]
    simp only [signOf, Bool.false_eq_true, if_false]
    field_simp
  rw [hvalue]
  refine roundPack_floor he hb hsr false ?_ ?_ ?_ ?_ _
  · exact Real.nat_sqrt_le_real_sqrt
  · exact Real.real_sqrt_lt_nat_sqrt_succ
  · rw [Nat.le_sqrt, ← Nat.pow_add]
    calc 2 ^ (f.fbits + 2 + (f.fbits + 2)) ≤ 2 ^ (2 * k) := Nat.pow_le_pow_right two_pos (by omega)
      _ ≤ m * 2 ^ (2 * k) := Nat.le_mul_of_pos_left _ (Nat.pos_of_ne_zero hm)
  · rw [Real.sqrt_eq_iff_mul_self_eq (by positivity) (by positivity)]
    exact_mod_cast eq_comm

theorem fSqrt_roundsTo {a : FVal} {x : ℝ} (ha : a.Is x) (hx : 0 ≤ x) : RoundsTo f mode (√x) (fSqrt f mode a) := by
  obtain ⟨n, m, e, rfl, rfl⟩ := ha.exists_fin
  simp only [fSqrt]
  split
  next h =>
    subst h
    simpa using RoundsTo.zero f mode n
  next hm =>
    have hpos : (0 : ℝ) < m * 2 ^ e := mul_pos (by exact_mod_cast Nat.pos_of_ne_zero hm) (by positivity)
    obtain rfl : n = false := Bool.eq_false_iff.mpr fun hn => ((signOf_mul_neg hpos).mpr hn).not_ge hx
    rw [if_neg Bool.false_ne_true]
    simp only [isqrt_eq_sqrt, signOf, Bool.false_eq_true, if_false, one_mul, bne_iff_ne, ne_eq]
    obtain ⟨c, rfl | rfl⟩ := e.even_or_odd'
    · simpa using roundPack_sqrt he hb hsr hm c
    · have hodd : (2 * c + 1) % 2 = 1 := by omega
      have hvalue : (m : ℝ) * 2 ^ (2 * c + 1) = (2 * m : ℕ) * 2 ^ (2 * c) := by
        rw [zpow_add_one₀ two_ne_zero]
        push_cast
        ring
      rw [hvalue]
      simpa [hodd] using roundPack_sqrt he hb hsr (m := 2 * m) (by omega) c

end Operations

/-! ## Units of a shift within the operand's bits -/

/-- A shift of the operand's bits is not cut. -/
theorem roundUnits_of_le_cut (mode : RMode) (neg : Bool) {m sh : ℕ} (u : ℤ) (h : sh ≤ m.log2 + 20) :
    roundUnits mode neg m u (u + sh) =
      (if roundsAway mode neg (m / 2 ^ sh) (m % 2 ^ sh) sh then m / 2 ^ sh + 1 else m / 2 ^ sh, m % 2 ^ sh != 0) := by
  obtain rfl | hsh := Nat.eq_zero_or_pos sh
  · simp [roundUnits, roundsAway_zero, Nat.mod_one]
  · rw [roundUnits, if_neg (by omega), add_sub_cancel_left, Int.toNat_natCast, min_eq_left h]

/-- The distance of a rounded number from the number, among the naturals. -/
theorem abs_nat_sub_le_half {n d m : ℕ} : |((n : ℝ) * d - m)| ≤ d / 2 ↔ 2 * (n * d) ≤ 2 * m + d ∧ 2 * m ≤ 2 * (n * d) + d := by
  rw [abs_le, ← Nat.cast_le (α := ℝ), ← Nat.cast_le (α := ℝ)]
  push_cast
  constructor <;> rintro ⟨h₁, h₂⟩ <;> constructor <;> linarith

theorem abs_nat_sub_eq_half {n d m : ℕ} : |((n : ℝ) * d - m)| = d / 2 ↔ 2 * (n * d) = 2 * m + d ∨ 2 * m = 2 * (n * d) + d := by
  rw [abs_eq (by positivity), ← Nat.cast_inj (R := ℝ), ← Nat.cast_inj (R := ℝ)]
  push_cast
  constructor <;> rintro (h | h)
  · exact .inl (by linarith)
  · exact .inr (by linarith)
  · exact .inl (by linarith)
  · exact .inr (by linarith)

/-- What a mode makes of a number in units of another, among the naturals (R69). -/
theorem Rounded.nat {mode : RMode} {neg : Bool} {n d m : ℕ} (h : Rounded mode neg n d m) :
    n * d < m + d ∧ m < n * d + d ∧
      (mode = .rne → 2 * (n * d) ≤ 2 * m + d ∧ 2 * m ≤ 2 * (n * d) + d ∧ ((2 * (n * d) = 2 * m + d ∨ 2 * m = 2 * (n * d) + d) → n % 2 = 0)) ∧
      (mode = .rna → 2 * (n * d) ≤ 2 * m + d ∧ 2 * m < 2 * (n * d) + d) ∧ (mode = .rtz → n * d ≤ m) ∧
      (mode = .rup → if neg then n * d ≤ m else m ≤ n * d) ∧ (mode = .rdn → if neg then m ≤ n * d else n * d ≤ m) := by
  obtain ⟨habove, hbelow, hrne, hrna, hrtz, hrup, hrdn⟩ := h
  rw [abs_nat_sub_le_half, abs_nat_sub_eq_half] at hrne hrna
  norm_cast at habove hbelow hrna hrtz hrup hrdn
  refine ⟨habove, hbelow, fun hm => ?_, fun hm => ?_, hrtz, hrup, hrdn⟩
  · obtain ⟨⟨hle, hge⟩, htie⟩ := hrne hm
    exact ⟨hle, hge, htie⟩
  · obtain ⟨⟨hle, hge⟩, htie⟩ := hrna hm
    exact ⟨hle, hge.lt_of_ne fun he => by have := htie (.inr he); omega⟩

end Sys2Proof.Machine

namespace Sys2Proof
open Machine

/-- Settles O12: the exact result, or its floor with a sticky bit, lies between two multiples of its unit, of which each mode takes the one it must. -/
theorem roundingIsCorrect : Obligations.RoundingIsCorrect := by
  unfold Obligations.RoundingIsCorrect
  refine ⟨fun f mode a b d x y z hf hsr ha hb hd => ?_, fun mode neg m sh u hsh => ?_⟩
  · obtain ⟨he, hbits⟩ : f.e4m3 = false ∧ 0 < f.ebits := by obtain rfl | rfl := hf <;> decide
    exact ⟨fAdd_roundsTo he hbits hsr ha hb, fMul_roundsTo he hbits hsr ha hb, fDiv_roundsTo he hbits hsr ha hb, fSqrt_roundsTo he hbits hsr ha,
      fFma_roundsTo he hbits hsr hd ha hb⟩
  · have hunit : (2 : ℝ) ^ sh = (2 ^ sh : ℕ) := by push_cast; rfl
    have hsplits := Splits.of_eq m sh one_pos
    rw [mul_one, mul_one, hunit] at hsplits
    obtain ⟨hround, hexact⟩ := hsplits.rounded mode neg
    rw [roundUnits_of_le_cut mode neg u hsh]
    exact ⟨bne_iff_ne, fun h => by exact_mod_cast (hexact.mp (bne_eq_false_iff_eq.mp h)).symm, hround.nat⟩

end Sys2Proof
end

section
/-! SUPPORT. Slots that raise floating-point flags (R76, R110): flags that join the bundle's, and FPX, whose trap leaves the registers as they
would be without the slot but for what a discard restores and a delivery writes (R276, R277, R295). -/

namespace Sys2Proof.Machine

/-! ## Registers through a trap -/

/-- The registers that a discard writes: those the checkpoint restores, EPC and REGCNT (R276, R277). -/
def Checkpoint.writes (ck : Checkpoint) : Reg → Prop
  | .s r => ∃ x ∈ ck.named, x.1 = r
  | .p r => ∃ x ∈ ck.stages, x.1 = r
  | .sys r => r ∈ [rRNGSEED, rSIGREG, rDOMAIN, rEPC, rREGCNT]
  | _ => False

theorem Context.setSys_sameAt (c : Context) (r : Fin 20) (x : Word) {g : Reg} (hg : g ≠ .sys r) : c.regs.SameAt (c.setSys r x).regs g := by
  cases g with
  | sys i =>
    have hne : ¬ r = i := fun h => hg (h ▸ rfl)
    simp only [Regs.SameAt, Context.setSys, Fin.getElem_fin, getElem_set_fin, if_neg hne]
  | _ => simp [Regs.SameAt, Context.setSys]

/-- A register that every step of a fold leaves alone. -/
theorem Regs.foldl_sameAt {α : Type} {g : Reg} {f : α → RegVal} : ∀ (xs : List α) (r : Regs), (∀ x ∈ xs, (f x).target ≠ g) →
    r.SameAt (xs.foldl (fun r x => r.land (f x)) r) g
  | [], r, _ => .refl r g
  | x :: xs, r, h => by
    obtain ⟨hx, hxs⟩ := List.forall_mem_cons.mp h
    exact (Regs.land_sameAt hx r).trans (Regs.foldl_sameAt xs _ hxs)

theorem Checkpoint.apply_sameAt (ck : Checkpoint) (c : Context) {g : Reg} (hg : ¬ ck.writes g) : c.regs.SameAt (ck.apply c).regs g := by
  have hsys : ∀ r ∈ [rRNGSEED, rSIGREG, rDOMAIN, rEPC, rREGCNT], g ≠ .sys r := fun r hr h => hg (h ▸ hr)
  simp only [List.forall_mem_cons] at hsys
  obtain ⟨hseed, hsig, hdomain, -⟩ := hsys
  have hnamed := Regs.foldl_sameAt (f := fun x : Fin 63 × Word => .s x.1 x.2) (g := g) ck.named c.regs fun x hx h => hg (by rw [← h]; exact ⟨x, hx, rfl⟩)
  have hstages := fun r => Regs.foldl_sameAt (f := fun x : Fin 16 × Bool => .p x.1 x.2) (g := g) ck.stages r fun x hx h => hg (by rw [← h]; exact ⟨x, hx, rfl⟩)
  exact (((hnamed.trans (hstages _)).trans (Context.setSys_sameAt { c with regs := _, pend := _ } _ _ hseed)).trans (Context.setSys_sameAt _ _ _ hsig)).trans
    (Context.setSys_sameAt _ _ _ hdomain)

theorem State.restore_ctxAt (s : State) (k : Nat) (j : Fin 4) (ck : Checkpoint) : (s.restore k j ck).ctxAt k j = ck.apply (s.ctxAt k j) := by
  unfold State.restore
  rw [State.ctxAt_modCore, State.ctxAt_modCtx_self]
  exact fun _ => rfl

/-- A discard writes the registers of its checkpoint, EPC and REGCNT, and no other (R276). -/
theorem State.discard_sameAt (s : State) (k : Nat) (j : Fin 4) (counts : Bool) {g : Reg} (hg : ¬ (s.ctxAt k j).region.check.writes g) :
    (s.ctxAt k j).regs.SameAt ((s.discard k j counts).ctxAt k j).regs g := by
  have hepc : g ≠ .sys rEPC := fun h => hg (by subst h; simp [Checkpoint.writes])
  have hcnt : g ≠ .sys rREGCNT := fun h => hg (by subst h; simp [Checkpoint.writes])
  rw [State.discard, State.ctxAt_modCtx_self, State.restore_ctxAt, State.ctxAt_modCtx_self]
  have happly := Checkpoint.apply_sameAt _ (s.ctxAt k j).dropRegion hg
  dsimp only
  split
  · exact (happly.trans (Context.setSys_sameAt _ _ _ hepc)).trans (Context.setSys_sameAt _ _ _ hcnt)
  · exact happly.trans (Context.setSys_sameAt _ _ _ hepc)

/-- A context with the cause of a trap written (R295). -/
def Context.withCause (c : Context) (cause : Cause) (info : Word) : Context := (c.setSys rCAUSE (cause.setWidth 64)).setSys rTRAPINFO info

theorem Context.withCause_sameAt (c : Context) (cause : Cause) (info : Word) {g : Reg} (hc : g ≠ .sys rCAUSE) (hi : g ≠ .sys rTRAPINFO) :
    c.regs.SameAt (c.withCause cause info).regs g := (c.setSys_sameAt _ _ hc).trans (Context.setSys_sameAt _ _ _ hi)

/-- The cause of a trap changes neither EXL nor TVEC. -/
theorem Context.withCause_handled (c : Context) (cause : Cause) (info : Word) :
    (c.withCause cause info).exl = c.exl ∧ (c.withCause cause info).sysv rTVEC = c.sysv rTVEC := by
  have hstatus : (c.withCause cause info).sysv rSTATUS = c.sysv rSTATUS := c.withCause_sameAt cause info (g := .sys rSTATUS) (by decide) (by decide)
  have htvec : (c.withCause cause info).sysv rTVEC = c.sysv rTVEC := c.withCause_sameAt cause info (g := .sys rTVEC) (by decide) (by decide)
  exact ⟨by rw [Context.exl, hstatus, Context.exl], htvec⟩

/-- A delivery ends the context on a double fault, and else writes STATUS and opens the handler's region (R295). -/
theorem State.deliver_eq (s : State) (k : Nat) (j : Fin 4) (cause : Cause) (info : Word) :
    let u := s.modCtx k j fun c => c.withCause cause info
    ∃ f : Context → Context, (∀ c, ∃ x, (f c).regs = (c.setSys rSTATUS x).regs) ∧ s.deliver k j cause info =
      if (u.ctxAt k j).exl ∨ (u.ctxAt k j).sysv rTVEC = 0 then u.endFaulted k j else (u.modCtx k j f).openRegion k j ((u.ctxAt k j).sysv rTVEC) := by
  refine ⟨_, ?_, rfl⟩
  exact fun c => ⟨_, rfl⟩

/-- A delivery that ends no context writes CAUSE, TRAPINFO, STATUS and REGENT (R264, R295). -/
theorem State.deliver_regs {s : State} {k : Nat} {j : Fin 4} (hexl : (s.ctxAt k j).exl = false) (htvec : (s.ctxAt k j).sysv rTVEC ≠ 0) (cause : Cause)
    (info : Word) : ∃ x y, ((s.deliver k j cause info).ctxAt k j).regs = ((((s.ctxAt k j).withCause cause info).setSys rSTATUS x).setSys rREGENT y).regs := by
  obtain ⟨f, hf, hdeliver⟩ := s.deliver_eq k j cause info
  obtain ⟨he, ht⟩ := (s.ctxAt k j).withCause_handled cause info
  obtain ⟨x, hx⟩ := hf ((s.ctxAt k j).withCause cause info)
  simp only [State.ctxAt_modCtx_self, he, ht, hexl, htvec, Bool.false_eq_true, or_self, if_false] at hdeliver
  rw [hdeliver, State.openRegion_ctxAt, State.ctxAt_modCtx_self, State.ctxAt_modCtx_self]
  exact ⟨x, _, by simp only [Context.setSys, hx]; rfl⟩

theorem State.deliver_sameAt {s : State} {k : Nat} {j : Fin 4} (hexl : (s.ctxAt k j).exl = false) (htvec : (s.ctxAt k j).sysv rTVEC ≠ 0) (cause : Cause)
    (info : Word) {g : Reg} (hg : ∀ r, g ≠ .sys r) : (s.ctxAt k j).regs.SameAt ((s.deliver k j cause info).ctxAt k j).regs g := by
  obtain ⟨x, y, hregs⟩ := State.deliver_regs hexl htvec cause info
  rw [hregs]
  exact (((s.ctxAt k j).withCause_sameAt cause info (hg _) (hg _)).trans (Context.setSys_sameAt _ _ _ (hg _))).trans (Context.setSys_sameAt _ _ _ (hg _))

/-- A trap that hardware does not handle is a discard and a delivery, of its own cause or of REGLIM (R279, R295). -/
theorem State.trapAt_delivers (s : State) (k : Nat) (j : Fin 4) {cause : Cause} (hc : cause ≠ cYOKEMIS) (info : Word) : ∃ counts cause' info',
    s.trapAt k j cause info false = ((s.modCtx k j fun c => c.settle (s.now + 1)).discard k j counts).deliver k j cause' info' := by
  unfold State.trapAt
  rw [if_neg hc]
  dsimp only
  split
  · exact ⟨_, _, _, rfl⟩
  · exact ⟨_, _, _, rfl⟩

/-- Flags that are on their way to FPFLAGS change no other register. -/
theorem State.put_orFlags_sameAt (s : State) (f : BitVec 5) (n m : Nat) {g : Reg} (hg : g ≠ .sys rFPFLAGS) :
    (s.cur.settle m).regs.SameAt ((s.put (.orFlags f) n).cur.settle m).regs g := by
  have hall : s.cur.pend.filter (fun w => !(w.val.reg.isSome && w.val.reg == (RegVal.orFlags f).reg && s.now + n ≤ w.due)) = s.cur.pend :=
    List.filter_eq_self.mpr fun w _ => by cases hw : w.val.reg <;> simp [RegVal.reg]
  obtain ⟨as, bs, hps, hins, -⟩ := insertDue_eq ⟨.orFlags f, s.now + n⟩ s.cur.pend
  have hland : ∀ r : Regs, r.SameAt (r.landAll ([(⟨.orFlags f, s.now + n⟩ : PendingWrite)].filter fun w => decide (w.due ≤ m))) g := fun r =>
    Regs.landAll_sameAt _ r fun w hw => by
      obtain rfl := List.mem_singleton.mp (List.mem_filter.mp hw).1
      exact Ne.symm hg
  rw [State.put_regs, Context.settle_regs, addPend, hall, hins, hps, ← List.singleton_append, List.filter_append, List.filter_append, List.filter_append,
    Regs.landAll_append, Regs.landAll_append, Regs.landAll_append]
  exact (hland _).landAll _

/-- FPX of the slot that runs: every register but those that the discard restores is as it would be without the slot (R76). -/
theorem State.put_raiseFpx_sameAt (s : State) (f : BitVec 5) (hexl : (s.cur.settle (s.now + 1)).exl = false) (htvec : (s.cur.settle (s.now + 1)).sysv rTVEC ≠ 0)
    {g : Reg} (hsys : ∀ r, g ≠ .sys r) (hg : ¬ s.cur.region.check.writes g) :
    (s.cur.settle (s.now + 1)).regs.SameAt ((s.put (.orFlags f) 1).raise47 cFPX).cur.regs g := by
  set u := s.put (.orFlags f) 1
  set k := s.issue.core
  set j := s.issue.slot
  obtain ⟨counts, cause, info, htrap⟩ := u.trapAt_delivers k j (cause := cFPX) (by decide) u.slotInfo
  have hraise : (u.raise47 cFPX).cur = (u.trapAt k j cFPX u.slotInfo false).ctxAt k j := by
    have : (u.raise47 cFPX).issue = _ := u.raise_issue cFPX u.slotInfo
    rw [State.cur, this]
    rfl
  have hsettle : (u.modCtx k j fun c => c.settle (u.now + 1)).ctxAt k j = u.cur.settle (s.now + 1) := u.ctxAt_modCtx_self k j _
  have hcheck : (u.cur.settle (s.now + 1)).region.check = s.cur.region.check := by
    rw [State.put_cur]
    rfl
  have hput : ∀ {g : Reg}, g ≠ .sys rFPFLAGS → (s.cur.settle (s.now + 1)).regs.SameAt (u.cur.settle (s.now + 1)).regs g := fun hg =>
    s.put_orFlags_sameAt f 1 (s.now + 1) hg
  have hdiscard : ∀ {g : Reg}, ¬ s.cur.region.check.writes g → (u.cur.settle (s.now + 1)).regs.SameAt
      (((u.modCtx k j fun c => c.settle (u.now + 1)).discard k j counts).ctxAt k j).regs g := fun {g} hg => by
    have := State.discard_sameAt (u.modCtx k j fun c => c.settle (u.now + 1)) k j counts (g := g)
    rw [hsettle, hcheck] at this
    exact this hg
  have hstatus := (hput (g := .sys rSTATUS) (by decide)).trans (hdiscard (by simp only [Checkpoint.writes]; decide))
  have htvec' := (hput (g := .sys rTVEC) (by decide)).trans (hdiscard (by simp only [Checkpoint.writes]; decide))
  have hdeliver := State.deliver_sameAt (s := (u.modCtx k j fun c => c.settle (u.now + 1)).discard k j counts) (k := k) (j := j) (g := g)
    (by rw [← hexl]; exact congrArg (fun w : Word => w.getLsbD 2) hstatus) (fun h0 => htvec (Eq.trans (Eq.symm htvec') h0)) cause info hsys
  rw [hraise, htrap]
  exact ((hput (hsys _)).trans (hdiscard hg)).trans hdeliver

/-! ## Slots that raise flags -/

/-- Flags of which one is enabled raise FPX. -/
theorem trapsFpx_of_flagged {s u : State} {i : Instr} {f : BitVec 5} (hf : f &&& u.xe ≠ 0) (h : exec i s = .next (u.flagged s f)) : TrapsFpx s i := by
  refine ⟨_, h, ?_⟩
  simp only [State.flagged, if_neg hf]
  refine ⟨rfl, rfl, fun hexl htvec => ?_⟩
  have hregs := fun {g : Reg} => s.put_raiseFpx_sameAt f hexl htvec (g := g)
  refine ⟨fun r => hregs (g := .v r) (fun _ => nofun) not_false, fun r => hregs (g := .k r) (fun _ => nofun) not_false,
    fun r hr => hregs (g := .s r) (fun _ => nofun) fun ⟨x, hx, he⟩ => hr x hx he, fun r hr => hregs (g := .p r) (fun _ => nofun) fun ⟨x, hx, he⟩ => hr x hx he⟩

/-- Flags of which none is enabled join the bundle's. -/
theorem State.flagged_of_disabled {u : State} {f : BitVec 5} (hf : f &&& u.xe = 0) (s : State) : u.flagged s f = u.joinFlags f := by
  rw [State.flagged, if_pos hf]
  rfl

theorem goesFlagged_of_flagged {s u : State} {i : Instr} {f : BitVec 5} (h : exec i s = .next (u.flagged s f)) : GoesFlagged s i u f :=
  ⟨fun hf => by rw [h, State.flagged_of_disabled hf], fun hf => trapsFpx_of_flagged hf h⟩

/-- A vector slot raises its flags where its write takes effect (R110). -/
theorem givesW_of_withFlags {s u : State} {i : Instr} {f : BitVec 5} (h : exec i s = .next (u.withFlags s f)) : GivesW s i u f := by
  refine ⟨fun ho => goesFlagged_of_flagged ?_, fun ho => ?_⟩
  · rw [h, State.withFlags, if_pos ho]
  · rw [h, State.withFlags, if_neg ho]

end Sys2Proof.Machine
end

section
/-! SUPPORT. Trees of reductions (R81): PairTree is the balanced tree, ScanTree gives every running sum; and what the balanced tree
gives for sums and extremes. -/

namespace Sys2Proof.Machine

/-! ## PairTree -/

theorem treeOf_congr {α : Type} (op : α → α → α) (n : Nat) {f g : Nat → α} (h : ∀ i < 2 ^ n, f i = g i) : treeOf op n f = treeOf op n g := by
  induction n generalizing f g with
  | zero => exact h 0 one_pos
  | succ n ih =>
    rw [Nat.pow_succ] at h
    simp only [treeOf]
    rw [ih fun i hi => h i (by omega), ih fun i hi => h (2 ^ n + i) (by omega)]

/-- A balanced tree over values is one over the pairs of neighbours. -/
theorem treeOf_succ_pairs {α : Type} (op : α → α → α) (n : Nat) (f : Nat → α) : treeOf op (n + 1) f = treeOf op n fun i => op (f (2 * i)) (f (2 * i + 1)) := by
  induction n generalizing f with
  | zero => rfl
  | succ n ih =>
    rw [treeOf, ih, ih, treeOf]
    congr 2
    funext i
    rw [Nat.pow_succ', Nat.mul_add, Nat.add_assoc]

theorem pairRound_length {α : Type} (op : α → α → α) : ∀ xs : List α, (pairRound op xs).length = (xs.length + 1) / 2
  | [] | [_] => by simp [pairRound]
  | _ :: _ :: rest => by
    simp only [pairRound, List.length_cons, pairRound_length op rest]
    omega

theorem pairRound_getD {α : Type} (op : α → α → α) (z : α) : ∀ (xs : List α) (i : Nat), 2 * i + 1 < xs.length →
    (pairRound op xs).getD i z = op (xs.getD (2 * i) z) (xs.getD (2 * i + 1) z)
  | [], i, h => absurd h (Nat.not_lt_zero _)
  | [_], i, h => absurd h (by simp)
  | _ :: _ :: _, 0, _ => rfl
  | _ :: _ :: rest, i + 1, h => by
    simp only [pairRound, List.getD_cons_succ, Nat.mul_succ]
    exact pairRound_getD op z rest i (by simp only [List.length_cons] at h; omega)

theorem pairTree_singleton {α : Type} (op : α → α → α) (k : Nat) (x : α) : pairTree op k [x] = [x] := by
  induction k with
  | zero => rfl
  | succ k ih => exact ih

/-- PairTree over 2^n values is their balanced tree, where it has rounds enough (R81). -/
theorem pairTree_headD {α : Type} (op : α → α → α) (z : α) (n k : Nat) (h : n ≤ k) (xs : List α) (hxs : xs.length = 2 ^ n) :
    (pairTree op k xs).headD z = treeOf op n fun i => xs.getD i z := by
  induction n generalizing k xs with
  | zero =>
    obtain ⟨x, rfl⟩ := List.length_eq_one_iff.mp hxs
    rw [pairTree_singleton]
    rfl
  | succ n ih =>
    obtain ⟨k, rfl⟩ := Nat.exists_eq_succ_of_ne_zero (show k ≠ 0 by omega)
    rw [Nat.pow_succ] at hxs
    rw [pairTree, ih k (by omega) _ (by rw [pairRound_length]; omega), treeOf_succ_pairs]
    exact treeOf_congr op n fun i hi => pairRound_getD op z xs i (by omega)

/-- A balanced tree of additions is the sum. -/
theorem treeOf_add {w : Nat} (n : Nat) (f : Nat → BitVec w) : treeOf (· + ·) n f = ∑ i ∈ Finset.range (2 ^ n), f i := by
  induction n generalizing f with
  | zero => simp [treeOf]
  | succ n ih => rw [treeOf, ih, ih, Nat.pow_succ, Nat.mul_two, Finset.sum_range_add]

/-- A balanced tree of an operation that gives one of its operands, and nothing before either, gives one of the values, and nothing before any. -/
theorem treeOf_extreme {α : Type} {op : α → α → α} {r : α → α → Prop} (htrans : ∀ {x y z}, r x y → r y z → r x z) (hrefl : ∀ x, r x x)
    (hpick : ∀ x y, op x y = x ∨ op x y = y) (hleft : ∀ x y, r x (op x y)) (hright : ∀ x y, r y (op x y)) (n : Nat) (f : Nat → α) :
    (∀ i < 2 ^ n, r (f i) (treeOf op n f)) ∧ ∃ i < 2 ^ n, f i = treeOf op n f := by
  induction n generalizing f with
  | zero => exact ⟨fun i hi => by rw [Nat.lt_one_iff.mp hi]; exact hrefl _, 0, one_pos, rfl⟩
  | succ n ih =>
    obtain ⟨hlow, i, hi, hfi⟩ := ih f
    obtain ⟨hhigh, j, hj, hfj⟩ := ih fun i => f (2 ^ n + i)
    have hpow : 2 ^ (n + 1) = 2 ^ n + 2 ^ n := by rw [Nat.pow_succ]; omega
    rw [hpow, treeOf]
    refine ⟨fun m hm => ?_, ?_⟩
    · by_cases hmn : m < 2 ^ n
      · exact htrans (hlow m hmn) (hleft _ _)
      · have := hhigh (m - 2 ^ n) (by omega)
        rw [Nat.add_sub_cancel' (Nat.not_lt.mp hmn)] at this
        exact htrans this (hright _ _)
    · obtain h | h := hpick (treeOf op n f) (treeOf op n fun i => f (2 ^ n + i))
      · exact ⟨i, by omega, by rw [h, hfi]⟩
      · exact ⟨2 ^ n + j, by omega, by rw [h, hfj]⟩

/-- The larger of two signed numbers, as a balanced tree takes it. -/
theorem treeOf_max (n : Nat) (f : Nat → BitVec 32) :
    (∀ i < 2 ^ n, (f i).toInt ≤ (treeOf (fun x y => if x.slt y then y else x) n f).toInt) ∧ ∃ i < 2 ^ n, f i = treeOf (fun x y => if x.slt y then y else x) n f := by
  refine treeOf_extreme (r := fun x y => x.toInt ≤ y.toInt) le_trans (fun _ => le_rfl) ?_ ?_ ?_ n f
  all_goals
    intro x y
    cases hlt : x.slt y <;> simp_all [BitVec.slt, le_of_lt]

theorem treeOf_min (n : Nat) (f : Nat → BitVec 32) :
    (∀ i < 2 ^ n, (treeOf (fun x y => if x.slt y then x else y) n f).toInt ≤ (f i).toInt) ∧ ∃ i < 2 ^ n, f i = treeOf (fun x y => if x.slt y then x else y) n f := by
  refine treeOf_extreme (r := fun x y => y.toInt ≤ x.toInt) (fun h h' => h'.trans h) (fun _ => le_rfl) ?_ ?_ ?_ n f
  all_goals
    intro x y
    cases hlt : x.slt y <;> simp_all [BitVec.slt, le_of_lt]

/-! ## ScanTree -/

theorem scanRound_length {α : Type} (op : α → α → α) (d : Nat) (xs : List α) : (scanRound op d xs).length = xs.length := by
  simp only [scanRound, List.length_append, List.length_take, List.length_zipWith, List.length_drop]
  omega

theorem scanTree_length {α : Type} (op : α → α → α) (xs : List α) : (scanTree op xs).length = xs.length := by
  have hfold : ∀ (ds : List Nat) (ys : List α), (ds.foldl (fun ys d => scanRound op d ys) ys).length = ys.length := fun ds => by
    induction ds with
    | nil => exact fun _ => rfl
    | cons d ds ih => exact fun ys => (ih _).trans (scanRound_length op d ys)
  exact hfold _ xs

theorem scanRound_getD {α : Type} (op : α → α → α) (d : Nat) (xs : List α) (z : α) {i : Nat} (hi : i < xs.length) :
    (scanRound op d xs).getD i z = if i < d then xs.getD i z else op (xs.getD (i - d) z) (xs.getD i z) := by
  rw [List.getD_eq_getElem _ _ (by rw [scanRound_length]; exact hi), List.getD_eq_getElem _ _ hi]
  simp only [scanRound]
  split
  next h => rw [List.getElem_append_left (by simp; omega), List.getElem_take]
  next h =>
    have hlen : (xs.take d).length = d := by simp; omega
    rw [List.getElem_append_right (by omega), List.getElem_zipWith, List.getElem_drop, List.getD_eq_getElem _ _ (by omega)]
    simp only [hlen, Nat.add_sub_cancel' (Nat.not_lt.mp h)]

/-- The sum of the last d values up to a place, of fewer where there are not so many. -/
def windowSum {w : Nat} (x : Nat → BitVec w) (d i : Nat) : BitVec w := ∑ j ∈ Finset.Ico (i + 1 - d) (i + 1), x j

/-- A round at distance d makes sums of 2d values of sums of d. -/
theorem scanRound_windowSum {w d : Nat} {x : Nat → BitVec w} {xs : List (BitVec w)} (h : ∀ i < xs.length, xs.getD i 0 = windowSum x d i) :
    ∀ i < (scanRound (· + ·) d xs).length, (scanRound (· + ·) d xs).getD i 0 = windowSum x (2 * d) i := by
  intro i hi
  rw [scanRound_length] at hi
  rw [scanRound_getD _ _ _ _ hi, h i hi]
  split
  next hd =>
    rw [windowSum, windowSum]
    congr 2
    omega
  next hd =>
    rw [h (i - d) (by omega), windowSum, windowSum, windowSum, show i + 1 - d = i - d + 1 by omega, show i + 1 - 2 * d = i - d + 1 - d by omega,
      Finset.sum_Ico_consecutive _ (by omega) (by omega)]

/-- The rounds of ScanTree for up to 32 values give every running sum (R81). -/
theorem scanTree_add {w : Nat} {xs : List (BitVec w)} {n : Nat} (hn : n ∈ [8, 16, 32]) (hxs : xs.length = n) {i : Nat} (hi : i < n) :
    (scanTree (· + ·) xs).getD i 0 = ∑ j ∈ Finset.range (i + 1), xs.getD j 0 := by
  have h1 : ∀ i < xs.length, xs.getD i 0 = windowSum (fun j => xs.getD j 0) 1 i := fun i _ => by simp [windowSum]
  have h2 := scanRound_windowSum h1
  have h4 := scanRound_windowSum h2
  have h8 := scanRound_windowSum h4
  have h16 := scanRound_windowSum h8
  have h32 := scanRound_windowSum h16
  simp only [scanRound_length, hxs] at h8 h16 h32
  have hall : ∀ d, n ≤ d → windowSum (fun j => xs.getD j 0) d i = ∑ j ∈ Finset.range (i + 1), xs.getD j 0 := fun d hd => by
    rw [windowSum, show i + 1 - d = 0 by omega, Finset.range_eq_Ico]
  rw [scanTree, hxs]
  fin_cases hn
  · exact (h8 i hi).trans (hall _ le_rfl)
  · exact (h16 i hi).trans (hall _ le_rfl)
  · exact (h32 i hi).trans (hall _ le_rfl)

end Sys2Proof.Machine
end

section
/-! SUPPORT. The reductions VRD (R121, R122): their lanes, and how a slot that reduces its source ends. -/

namespace Sys2Proof.Machine

/-! ## Lanes -/

/-- A width holds 8, 16 or 32 lanes of 32 bits. -/
theorem width_lanes (w : Width) : 32 * (w.bits / 32) = w.bits ∧ w.bits ≤ 1024 ∧ w.bits / 32 ∈ [8, 16, 32] := by
  cases w <;> decide

theorem width_lanes_pow (w : Width) : ∃ n ≤ 5, w.bits / 32 = 2 ^ n := by
  cases w
  · exact ⟨3, by decide, rfl⟩
  · exact ⟨4, by decide, rfl⟩
  · exact ⟨5, by decide, rfl⟩

theorem lanes_length (e n : Nat) (x : Vec) : (lanes e n x).length = n := by simp [lanes]

theorem lanes_getD {e n i : Nat} (x : Vec) (hi : i < n) : (lanes e n x).getD i 0 = lane e x i := by
  rw [List.getD_eq_getElem _ _ (by rw [lanes_length]; exact hi)]
  simp [lanes, lane]

theorem lanesNat_lt {e : Nat} (xs : List (BitVec e)) : lanesNat e xs < 2 ^ (e * xs.length) := by
  induction xs with
  | nil => simp [lanesNat]
  | cons x xs ih =>
    have hx := x.isLt
    rw [lanesNat, List.length_cons, Nat.mul_succ, Nat.pow_add, Nat.mul_comm (2 ^ (e * xs.length))]
    have := Nat.mul_le_mul_left (2 ^ e) ih
    rw [Nat.mul_succ] at this
    omega

/-- A vector of as many 32-bit elements as the width holds has them, and is zero above (R107). -/
theorem ofLanes_hasLanes (w : Width) {xs : List (BitVec 32)} (h : xs.length = w.bits / 32) : HasLanes 32 w.bits (ofLanes 32 xs) fun i => xs.getD i 0 := by
  obtain ⟨hbits, hle, -⟩ := width_lanes w
  refine ⟨fun i hi => lane_ofLanes (by omega) xs, fun i hi => ?_⟩
  have hlt := lanesNat_lt xs
  rw [h, hbits] at hlt
  rw [ofLanes, BitVec.getLsbD_ofNat, Nat.testBit_lt_two_pow (hlt.trans_le (Nat.pow_le_pow_right two_pos hi)), Bool.and_false]

theorem everyLane_hasLanes (w : Width) (x : Nat) : HasLanes 32 w.bits (everyLane w.bits x) fun _ => BitVec.ofNat 32 x := by
  have hlen : (List.replicate (w.bits / 32) (BitVec.ofNat 32 x)).length = w.bits / 32 := List.length_replicate
  obtain ⟨hlanes, hzero⟩ := ofLanes_hasLanes w hlen
  refine ⟨fun i hi => (hlanes i hi).trans ?_, hzero⟩
  exact (List.getD_eq_getElem _ _ (by rw [hlen]; exact hi)).trans (List.getElem_replicate _)

/-- A sum modulo 2^w of values is that of their naturals. -/
theorem ofNat_sum_range {w : Nat} (n : Nat) (f : Nat → BitVec w) :
    BitVec.ofNat w ((List.range n).map fun i => (f i).toNat).sum = ∑ i ∈ Finset.range n, f i := by
  induction n with
  | zero => simp
  | succ n ih =>
    rw [List.range_succ, List.map_append, List.sum_append, BitVec.ofNat_add, ih, Finset.sum_range_succ]
    simp

/-! ## Slots -/

theorem State.vec1_of_read {s t : State} {w : Width} {a : VOp} {x : Vec} (h : s.readV a w.bits = .ok x t) (d : VOp) (f : Vec → Vec) (latency : Nat) :
    s.vec1 w d a f latency = .next (t.writeV d w.bits (f x) latency) := by
  rw [State.vec1, h]
  rfl

/-- An integer reduction writes the balanced tree of the lanes into every lane. -/
theorem State.reduceI_of_read {s t : State} {w : Width} {a : VOp} {x : Vec} (h : s.readV a w.bits = .ok x t) (d : VOp) (op : BitVec 32 → BitVec 32 → BitVec 32)
    {n : Nat} (hn : n ≤ 5) (hw : w.bits / 32 = 2 ^ n) :
    ∃ z, s.reduceI w d a op = .next (t.writeV d w.bits z 6) ∧ HasLanes 32 w.bits z fun _ => treeOf op n (lane 32 x) := by
  refine ⟨_, State.vec1_of_read h _ _ _, ?_⟩
  have htree : (pairTree op 5 (lanes 32 (w.bits / 32) x)).headD 0 = treeOf op n (lane 32 x) := by
    rw [pairTree_headD op 0 n 5 hn _ (by rw [lanes_length, hw])]
    exact treeOf_congr op n fun i hi => lanes_getD x (by omega)
  have hlanes := everyLane_hasLanes w (treeOf op n (lane 32 x)).toNat
  simp only [BitVec.ofNat_toNat, BitVec.setWidth_eq] at hlanes
  rw [htree]
  exact hlanes

theorem State.reduceF_of_read {s t : State} {w : Width} {a : VOp} {x : Vec} (h : s.readV a w.bits = .ok x t) (d : VOp) (f : Vec → FRes) :
    s.reduceF w d a f = .next ((t.writeV d w.bits (everyLane w.bits (f x).bits) 6).withFlags s (f x).flags) := by
  rw [State.reduceF, h]
  rfl

theorem State.maxMagnitude_of_read {s t : State} {w : Width} {a : VOp} {x : Vec} (h : s.readV a w.bits = .ok x t) (f : Fmt) (d : VOp) :
    let vs := f.elems w.bits x
    s.maxMagnitude f w d a = .next (((t.writeV d w.bits (everyLane w.bits (largestMag vs).bits) 6).putMag
      (vs.map fun v => (fAbsNeg fp32 false v).bits) 6).withFlags s (largestMag vs).flags) := by
  rw [State.maxMagnitude, h]
  rfl

theorem execVscanF32_of_read {s t : State} {w : Width} {a : VOp} {x : Vec} (h : s.readV a w.bits = .ok x t) (d : VOp) :
    let rs := scanTree (FRes.join (fAdd fp32 .rne)) (encodings (w.bits / 32) x)
    execVscanF32 w d a s = .next ((t.writeV d w.bits (fp32.vec rs) 8).withFlags s (flagsOf rs)) := by
  rw [execVscanF32, h]
  rfl

theorem State.readV2_of_reads {s t : State} {a b : VOp} {bits : Nat} {x y : Vec} (h : Reads2 s a b bits x y t) : s.readV2 a b bits = .ok (x, y) t := by
  obtain ⟨u, hx, hy⟩ := h
  rw [State.readV2, hx]
  dsimp only
  rw [hy]

theorem State.delta_of_reads {s t : State} {w : Width} {a b : VOp} {x y : Vec} (h : Reads2 s a b w.bits x y t) (f : Fmt) (d : VOp) :
    let ms := List.zipWith deltaMag (f.elems w.bits x) (f.elems w.bits y)
    s.delta f w d a b = .next (((t.writeV d w.bits (everyLane w.bits (largestMag (ms.map fun m => fp32.unpack m.bits)).bits) 6).putMag
      (ms.map FRes.bits) 6).withFlags s (flagsOf ms)) := by
  rw [State.delta, State.readV2_of_reads h]
  rfl

/-- A running sum writes each lane's (R121). -/
theorem execVscanI32_of_read {s t : State} {w : Width} {a : VOp} {x : Vec} (h : s.readV a w.bits = .ok x t) (d : VOp) :
    ∃ z, execVscanI32 w d a s = .next (t.writeV d w.bits z 8) ∧
      HasLanes 32 w.bits z fun i => BitVec.ofNat 32 (((List.range (i + 1)).map fun j => (lane 32 x j).toNat).sum) := by
  obtain ⟨-, -, hn⟩ := width_lanes w
  have hlen : (scanTree (· + ·) (lanes 32 (w.bits / 32) x)).length = w.bits / 32 := by rw [scanTree_length, lanes_length]
  obtain ⟨hlanes, hzero⟩ := ofLanes_hasLanes w hlen
  refine ⟨_, State.vec1_of_read h _ _ _, fun i hi => ?_, hzero⟩
  dsimp only
  rw [hlanes i hi, ofNat_sum_range]
  dsimp only
  rw [scanTree_add hn (lanes_length _ _ _) hi]
  exact Finset.sum_congr rfl fun j hj => lanes_getD x (by have := Finset.mem_range.mp hj; omega)

/-! ## Registers as operands -/

/-- A register is read as it stands. -/
theorem State.readV_reg (s : State) (p : Fin 16) (bits : Nat) : s.readV (.reg p) bits = .ok (lowBits bits (s.getV p)) s := rfl

theorem State.reads2_reg (s : State) (p q : Fin 16) (bits : Nat) :
    Reads2 s (.reg p) (.reg q) bits (lowBits bits (s.getV p)) (lowBits bits (s.getV q)) s := ⟨s, s.readV_reg p bits, s.readV_reg q bits⟩

theorem State.writeV_reg (s : State) (r : Fin 16) (bits : Nat) (x : Vec) (n : Nat) : s.writeV (.reg r) bits x n = s.put (.v r (lowBits bits x)) n := rfl

@[simp] theorem State.put_xe (s : State) (v : RegVal) (n : Nat) : (s.put v n).xe = s.xe := by
  rw [State.xe, State.getSys, State.put_cur]
  rfl

@[simp] theorem State.putMag_issue (s : State) (xs : List Nat) (n : Nat) : (s.putMag xs n).issue = s.issue := by
  unfold State.putMag
  dsimp only
  split <;> rfl

@[simp] theorem State.putMag_xe (s : State) (xs : List Nat) (n : Nat) : (s.putMag xs n).xe = s.xe := by
  unfold State.putMag
  dsimp only
  split
  · exact s.put_xe _ _
  · rfl

/-- A write that takes effect where no flag is enabled joins the slot's flags to the bundle's (R76). -/
theorem State.withFlags_of_disabled {s u : State} (hu : u.issue = s.issue) (hx : u.xe = 0) (f : BitVec 5) : u.withFlags s f = u.joinFlags f := by
  rw [State.withFlags, if_pos (by rw [hu]), State.flagged_of_disabled (by rw [hx]; exact BitVec.and_zero)]

/-- Such a slot with a register as destination completes. -/
theorem completesV_of_withFlags {s : State} (hx : s.xe = 0) {i : Instr} {r : Fin 16} {n bits : Nat} {z : Vec} {f : BitVec 5}
    (h : exec i s = .next ((s.writeV (.reg r) bits z n).withFlags s f)) : CompletesV s i r n :=
  ⟨_, f, by rw [h, State.writeV_reg, State.withFlags_of_disabled (State.put_issue ..) (by rw [State.put_xe, hx])]⟩

theorem completesMag_of_withFlags {s : State} (hx : s.xe = 0) {i : Instr} {r : Fin 16} {bits : Nat} {z : Vec} {ms : List Nat} {f : BitVec 5}
    (h : exec i s = .next (((s.writeV (.reg r) bits z 6).putMag ms 6).withFlags s f)) :
    ∃ z ms fl, exec i s = .next (((s.put (.v r z) 6).putMag ms 6).joinFlags fl) :=
  ⟨_, ms, f, by rw [h, State.writeV_reg, State.withFlags_of_disabled (by simp) (by simp [hx])]⟩

end Sys2Proof.Machine

namespace Sys2Proof
open Machine

/-- Settles O21: the reductions are trees over the lanes, and their slots end as every slot that raises flags. -/
theorem reductionTrees : Obligations.ReductionTrees := by
  unfold Obligations.ReductionTrees
  refine ⟨fun op n xs z hn hxs => pairTree_headD op z n 5 hn xs hxs, fun s w d a b k => ?_⟩
  obtain ⟨n, hn, hw⟩ := width_lanes_pow w
  refine ⟨fun x t hread => ⟨?_, ?_, ?_, execVscanI32_of_read hread d, fun i r hi => ?_, ?_, fun i f hi => ?_⟩, fun x y t hreads i f hi => ?_, everyLane_hasLanes w,
    fun hx p q r => ⟨fun i hi => ?_, ?_, fun i hi => ?_⟩, _, (exec_kcnt ..).trans rfl, everyLane_hasLanes w _⟩
  · obtain ⟨z, hexec, hlanes⟩ := State.reduceI_of_read hread d (· + ·) hn hw
    refine ⟨z, hexec, ?_⟩
    rw [ofNat_sum_range, hw, ← treeOf_add]
    exact hlanes
  · obtain ⟨z, hexec, hlanes⟩ := State.reduceI_of_read hread d (fun x y => if x.slt y then y else x) hn hw
    rw [hw]
    exact ⟨z, _, hexec, hlanes, treeOf_max n (lane 32 x)⟩
  · obtain ⟨z, hexec, hlanes⟩ := State.reduceI_of_read hread d (fun x y => if x.slt y then x else y) hn hw
    rw [hw]
    exact ⟨z, _, hexec, hlanes, treeOf_min n (lane 32 x)⟩
  · simp only [List.mem_cons, Prod.mk.injEq, List.not_mem_nil, or_false] at hi
    obtain ⟨rfl, rfl⟩ | ⟨rfl, rfl⟩ | ⟨rfl, rfl⟩ | ⟨rfl, rfl⟩ := hi
    all_goals exact givesW_of_withFlags (State.reduceF_of_read hread d _)
  · exact givesW_of_withFlags (execVscanF32_of_read hread d)
  · simp only [List.mem_cons, Prod.mk.injEq, List.not_mem_nil, or_false] at hi
    obtain ⟨rfl, rfl⟩ | ⟨rfl, rfl⟩ := hi
    all_goals exact givesW_of_withFlags (State.maxMagnitude_of_read hread _ d)
  · simp only [List.mem_cons, Prod.mk.injEq, List.not_mem_nil, or_false] at hi
    obtain ⟨rfl, rfl⟩ | ⟨rfl, rfl⟩ := hi
    all_goals exact givesW_of_withFlags (State.delta_of_reads hreads _ d)
  · simp only [List.mem_cons, List.not_mem_nil, or_false] at hi
    obtain rfl | rfl | rfl | rfl := hi
    · exact completesV_of_withFlags hx ((exec_vrsumF32 ..).trans (State.reduceF_of_read (s.readV_reg p _) _ _))
    · exact completesV_of_withFlags hx ((exec_vrmaxF32 ..).trans (State.reduceF_of_read (s.readV_reg p _) _ _))
    · exact completesV_of_withFlags hx ((exec_vrminF32 ..).trans (State.reduceF_of_read (s.readV_reg p _) _ _))
    · exact completesV_of_withFlags hx ((exec_vramaxF32 ..).trans (State.reduceF_of_read (s.readV_reg p _) _ _))
  · exact completesV_of_withFlags hx (execVscanF32_of_read (s.readV_reg p _) _)
  · simp only [List.mem_cons, List.not_mem_nil, or_false] at hi
    obtain rfl | rfl | rfl | rfl := hi
    · exact completesMag_of_withFlags hx (State.maxMagnitude_of_read (s.readV_reg p _) fp32 _)
    · exact completesMag_of_withFlags hx (State.maxMagnitude_of_read (s.readV_reg p _) bf16 _)
    · exact completesMag_of_withFlags hx ((exec_vdeltaF32 ..).trans (State.delta_of_reads (s.reads2_reg p q _) fp32 _))
    · exact completesMag_of_withFlags hx ((exec_vdeltaBf16 ..).trans (State.delta_of_reads (s.reads2_reg p q _) bf16 _))

end Sys2Proof
end

section
/-! SUPPORT. The integer forms (R86 to R89): the words that they write, as integers and by their bits. -/

namespace Sys2Proof.Machine

/-! ## Integers and words -/

theorem mulHigh_toInt (x y : Word) : (mulHigh x y).toInt = x.toInt * y.toInt / 2 ^ 64 := by
  have hbound (z : Word) : |z.toInt| ≤ 2 ^ 63 := abs_le.mpr ⟨z.le_toInt, z.toInt_lt.le⟩
  have habs : |x.toInt * y.toInt| ≤ 2 ^ 63 * 2 ^ 63 := by
    rw [abs_mul]
    exact mul_le_mul (hbound x) (hbound y) (abs_nonneg _) (by decide)
  obtain ⟨hlo, hhi⟩ := abs_le.mp habs
  exact BitVec.toInt_ofInt_eq_self (by decide) (by omega) (by omega)

theorem mulHighN_toNat (x y : Word) : (mulHighN x y).toNat = x.toNat * y.toNat / 2 ^ 64 := by
  have hlt : x.toNat * y.toNat < 2 ^ 64 * 2 ^ 64 := Nat.mul_lt_mul'' x.isLt y.isLt
  exact (BitVec.toNat_ofNat ..).trans (Nat.mod_eq_of_lt (Nat.div_lt_of_lt_mul hlt))

theorem sub_toNat (x y : Word) : ((x - y).toNat : Int) = ((x.toNat : Int) - y.toNat) % 2 ^ 64 := by
  have := x.isLt
  have := y.isLt
  rw [BitVec.toNat_sub]
  omega

theorem shiftLeft_toNat (x : Word) (n : Nat) : (x <<< n).toNat = x.toNat * 2 ^ n % 2 ^ 64 := by
  rw [BitVec.toNat_shiftLeft, Nat.shiftLeft_eq]

theorem shiftRight_toNat (x : Word) (n : Nat) : (x >>> n).toNat = x.toNat / 2 ^ n := by
  rw [BitVec.toNat_ushiftRight, Nat.shiftRight_eq_div_pow]

theorem sshiftRight_toInt (x : Word) (n : Nat) : (x.sshiftRight n).toInt = x.toInt / 2 ^ n := by
  rw [BitVec.toInt_sshiftRight, Int.shiftRight_eq_div_pow]
  norm_cast

theorem and_not_getLsbD (x y : Word) (i : Nat) : (x &&& ~~~y).getLsbD i = (x.getLsbD i && !y.getLsbD i) := by
  rw [BitVec.getLsbD_and, BitVec.getLsbD_not]
  by_cases hi : i < 64
  · simp [hi]
  · simp [BitVec.getLsbD_of_ge x i (by omega)]

theorem minS_toInt (x y : Word) : (minS x y).toInt = min x.toInt y.toInt := by
  simp only [minS, BitVec.slt_iff_toInt_lt, apply_ite BitVec.toInt]
  omega

theorem maxS_toInt (x y : Word) : (maxS x y).toInt = max x.toInt y.toInt := by
  simp only [maxS, BitVec.slt_iff_toInt_lt, apply_ite BitVec.toInt]
  omega

theorem minN_toNat (x y : Word) : (minN x y).toNat = min x.toNat y.toNat := by
  simp only [minN, BitVec.ult_iff_toNat_lt, apply_ite BitVec.toNat]
  split <;> omega

theorem maxN_toNat (x y : Word) : (maxN x y).toNat = max x.toNat y.toNat := by
  simp only [maxN, BitVec.ult_iff_toNat_lt, apply_ite BitVec.toNat]
  split <;> omega

/-! ## Immediates -/

/-- A sign-extended immediate is its integer modulo 2^64 (R87). -/
theorem signExtend_toNat (m : BitVec 7) : ((m.signExtend 64).toNat : Int) = m.toInt % 2 ^ 64 := by
  rw [BitVec.signExtend, BitVec.toNat_ofInt]
  omega

theorem signExtend_getLsbD (m : BitVec 7) {i : Nat} (hi : i < 64) : (m.signExtend 64).getLsbD i = m.getLsbD (min i 6) := by
  rw [BitVec.getLsbD_signExtend, BitVec.msb_eq_getLsbD_last]
  by_cases h : i < 7
  · simp [hi, h, Nat.min_eq_left (Nat.le_of_lt_succ h)]
  · simp [hi, h, Nat.min_eq_right (by omega : 6 ≤ i)]

theorem add_signExtend_toNat (x : Word) (m : BitVec 7) : ((x + m.signExtend 64).toNat : Int) = ((x.toNat : Int) + m.toInt) % 2 ^ 64 := by
  have := signExtend_toNat m
  rw [BitVec.toNat_add]
  omega

theorem signExtend_sub_toNat (x : Word) (m : BitVec 7) : ((m.signExtend 64 - x).toNat : Int) = (m.toInt - x.toNat) % 2 ^ 64 := by
  rw [sub_toNat, signExtend_toNat]
  omega

/-! ## Divides (R88) -/

theorem divS_of_overflow {x y : Word} (hx : x.toInt = -2 ^ 63) (hy : y.toInt = -1) : divS x y = x := by
  obtain rfl : x = BitVec.intMin 64 := BitVec.eq_of_toInt_eq hx
  obtain rfl : y = -1#64 := BitVec.eq_of_toInt_eq hy
  rfl

theorem divS_toInt {x y : Word} (hy : y ≠ 0) (h : ¬ (x.toInt = -2 ^ 63 ∧ y.toInt = -1)) : (divS x y).toInt = x.toInt.tdiv y.toInt := by
  rw [divS, if_neg hy, BitVec.toInt_sdiv_of_ne_or_ne]
  refine not_and_or.mp fun hxy => h ?_
  rw [hxy.1, hxy.2]
  decide

theorem divN_toNat {x y : Word} (hy : y ≠ 0) : (divN x y).toNat = x.toNat / y.toNat := by rw [divN, if_neg hy, BitVec.toNat_udiv]

theorem remS_toInt {x y : Word} (hy : y ≠ 0) : (remS x y).toInt = x.toInt.tmod y.toInt := by rw [remS, if_neg hy, BitVec.toInt_srem]

theorem remN_toNat {x y : Word} (hy : y ≠ 0) : (remN x y).toNat = x.toNat % y.toNat := by rw [remN, if_neg hy, BitVec.toNat_umod]

/-! ## Bit strings and counts -/

/-- The value that bitsOf sums, below bit m. -/
theorem foldl_bits_testBit (f : Nat → Bool) (m : Nat) : let x := (List.range m).foldl (fun x i => if f i then x + 2 ^ i else x) 0
    x < 2 ^ m ∧ ∀ i, x.testBit i = (decide (i < m) && f i) := by
  induction m with
  | zero => simp
  | succ m ih =>
    obtain ⟨hlt, hbits⟩ := ih
    rw [List.range_succ, List.foldl_append, List.foldl_cons, List.foldl_nil]
    set x := (List.range m).foldl (fun x i => if f i then x + 2 ^ i else x) 0
    have hsum : (if f m then x + 2 ^ m else x) = 2 ^ m * (f m).toNat + x := by cases f m <;> simp [Nat.add_comm]
    dsimp only
    rw [hsum]
    refine ⟨?_, fun i => ?_⟩
    · have := Bool.toNat_le (f m)
      rw [Nat.pow_succ]
      nlinarith [Nat.two_pow_pos m]
    · rw [Nat.testBit_two_pow_mul_add _ hlt, hbits, Nat.testBit_bool_toNat]
      obtain h | rfl | h := Nat.lt_trichotomy i m
      · simp [h, h.trans (Nat.lt_succ_self m)]
      · simp
      · simp [h.not_gt, Nat.sub_ne_zero_of_lt h, Nat.not_lt.mpr h]

theorem getLsbD_bitsOf (n : Nat) (f : Nat → Bool) (i : Nat) : (bitsOf n f).getLsbD i = (decide (i < n) && f i) := by
  rw [bitsOf, BitVec.getLsbD_ofNat, (foldl_bits_testBit f n).2, ← Bool.and_assoc, Bool.and_self]

/-- The leading zeros end at the highest one bit, or at the width. -/
theorem leadingZeros_spec (x : Word) : let n := (BitVec.ofNat 64 (leadingZeros x)).toNat
    n ≤ 64 ∧ (∀ i, 64 - n ≤ i → x.getLsbD i = false) ∧ (n < 64 → x.getLsbD (63 - n) = true) := by
  by_cases hx : x = 0
  · subst hx
    simp [leadingZeros]
  · have hnat : x.toNat ≠ 0 := fun h => hx (BitVec.eq_of_toNat_eq h)
    have hlog := (Nat.log2_lt hnat).mpr x.isLt
    have hval : (BitVec.ofNat 64 (leadingZeros x)).toNat = 63 - x.toNat.log2 := by
      rw [leadingZeros, if_neg hx]
      exact Nat.mod_eq_of_lt (by omega)
    rw [hval]
    refine ⟨by omega, fun i hi => ?_, fun _ => ?_⟩
    · exact Nat.testBit_lt_two_pow (Nat.lt_log2_self.trans_le (Nat.pow_le_pow_right two_pos (by omega)))
    · rw [Nat.sub_sub_self (by omega)]
      exact Nat.testBit_log2 hnat

/-- The trailing zeros end at the lowest one bit, or at the width. -/
theorem trailingZeros_spec (x : Word) : let n := (BitVec.ofNat 64 (trailingZeros x)).toNat
    n ≤ 64 ∧ (∀ i < n, x.getLsbD i = false) ∧ (n < 64 → x.getLsbD n = true) := by
  unfold trailingZeros
  cases h : (List.range 64).find? fun i => x.getLsbD i with
  | none =>
    refine ⟨le_rfl, fun i hi => ?_, fun h => absurd h (lt_irrefl _)⟩
    simpa using List.find?_range_eq_none.mp h i hi
  | some n =>
    obtain ⟨hbit, hn, hlow⟩ := List.find?_range_eq_some.mp h
    have hlt := List.mem_range.mp hn
    have hval : (BitVec.ofNat 64 n).toNat = n := Nat.mod_eq_of_lt (by omega)
    rw [Option.getD_some, hval]
    exact ⟨hlt.le, fun i hi => by simpa using hlow i hi, fun _ => hbit⟩

theorem popCount_toNat (x : Word) : (BitVec.ofNat 64 (popCount x)).toNat = popCount x := by
  have : popCount x ≤ 64 := (List.length_filter_le ..).trans_eq List.length_range
  exact Nat.mod_eq_of_lt (by omega)

theorem bswap_byte (x : Word) {i : Nat} (hi : i < 8) :
    (bitsOf 64 fun i => x.getLsbD (8 * (7 - i / 8) + i % 8)).extractLsb' (8 * i) 8 = x.extractLsb' (8 * (7 - i)) 8 := by
  refine BitVec.eq_of_getLsbD_eq fun j hj => ?_
  have hdiv : (8 * i + j) / 8 = i := by omega
  have hmod : (8 * i + j) % 8 = j := by omega
  have hlt : 8 * i + j < 64 := by omega
  simp only [BitVec.getLsbD_extractLsb', getLsbD_bitsOf, hdiv, hmod, hlt, decide_true, Bool.true_and]

/-! ## Extensions and fields (R88, R89) -/

/-- A shift to the top and back down keeps the low bits. -/
theorem zextLow_toNat (x y : Word) : (zextLow x y).toNat = x.toNat % 2 ^ (shiftCount y + 1) := by
  have hpow : 2 ^ 64 = 2 ^ (shiftCount y + 1) * 2 ^ (63 - shiftCount y) := by
    have : shiftCount y < 64 := Nat.mod_lt _ (by decide)
    rw [← Nat.pow_add]
    congr 1
    omega
  rw [zextLow, shiftRight_toNat, shiftLeft_toNat, hpow, Nat.mul_mod_mul_right, Nat.mul_div_cancel _ (Nat.two_pow_pos _)]

theorem sextLow_eq (x y : Word) : sextLow x y = (x.setWidth (shiftCount y + 1)).signExtend 64 := by
  have : shiftCount y < 64 := Nat.mod_lt _ (by decide)
  refine BitVec.eq_of_getLsbD_eq fun i hi => ?_
  rw [sextLow, BitVec.getLsbD_sshiftRight, BitVec.getLsbD_signExtend, BitVec.msb_eq_getLsbD_last, BitVec.msb_eq_getLsbD_last]
  by_cases h : i ≤ shiftCount y
  · have : 63 - shiftCount y + i < 64 := by omega
    simp [hi, this, Nat.lt_succ_of_le h]
  · have : ¬ 63 - shiftCount y + i < 64 := by omega
    have : ¬ i < shiftCount y + 1 := by omega
    have : ¬ 63 < 63 - shiftCount y := by omega
    have : 63 - (63 - shiftCount y) = shiftCount y := by omega
    simp [*]

theorem sextLow_toInt (x y : Word) : (sextLow x y).toInt = (x.toNat : Int).bmod (2 ^ (shiftCount y + 1)) := by
  have : shiftCount y < 64 := Nat.mod_lt _ (by decide)
  rw [sextLow_eq, BitVec.toInt_signExtend_of_le (by omega), BitVec.toInt_setWidth]

theorem fieldLen_le (y : Word) : fieldLen y ≤ 64 := by
  unfold fieldLen
  omega

theorem fieldGet_toNat (x y : Word) : (fieldGet x y).toNat = x.toNat / 2 ^ shiftCount y % 2 ^ fieldLen y := by
  have hle := Nat.pow_le_pow_right two_pos (fieldLen_le y)
  have hlt : 2 ^ fieldLen y - 1 < 2 ^ 64 := by
    have := Nat.two_pow_pos (fieldLen y)
    omega
  rw [fieldGet, BitVec.toNat_and, shiftRight_toNat, BitVec.toNat_ofNat, Nat.mod_eq_of_lt hlt, Nat.and_two_pow_sub_one_eq_mod]

theorem fieldMask_getLsbD (y : Word) {i : Nat} (hi : i < 64) :
    (fieldMask y).getLsbD i = (decide (shiftCount y ≤ i) && decide (i - shiftCount y < fieldLen y)) := by
  rw [fieldMask, BitVec.getLsbD_ofNat, Nat.testBit_mul_two_pow, Nat.testBit_two_pow_sub_one, decide_eq_true hi, Bool.true_and]

theorem fieldPut_getLsbD (old x y : Word) {i : Nat} (hi : i < 64) : (fieldPut old x y).getLsbD i =
    if shiftCount y ≤ i ∧ i < shiftCount y + fieldLen y then x.getLsbD (i - shiftCount y) else old.getLsbD i := by
  rw [fieldPut, BitVec.getLsbD_or, BitVec.getLsbD_and, BitVec.getLsbD_and, BitVec.getLsbD_not, fieldMask_getLsbD y hi, BitVec.getLsbD_shiftLeft]
  by_cases hlo : shiftCount y ≤ i
  · by_cases hhi : i < shiftCount y + fieldLen y
    · have : i - shiftCount y < fieldLen y := by omega
      simp [hi, hlo, hhi, this]
    · have : ¬ i - shiftCount y < fieldLen y := by omega
      simp [hi, hhi, this]
  · simp [hi, hlo]

theorem abs_toNat (x : Word) : (if x.slt 0 then -x else x).toNat = x.toInt.natAbs := by
  have := x.isLt
  have hx := x.toInt_eq_toNat_cond
  simp only [BitVec.slt_iff_toInt_lt, show (0 : Word).toInt = 0 from rfl]
  split at hx
  · rw [if_neg (by omega)]
    omega
  · rw [if_pos (by omega), BitVec.toNat_neg]
    omega

theorem neg_toNat (x : Word) : ((-x).toNat : Int) = (-(x.toNat : Int)) % 2 ^ 64 := by
  have := x.isLt
  rw [BitVec.toNat_neg]
  omega

end Sys2Proof.Machine

namespace Sys2Proof
open Machine

/-- Settles O6: every form puts its function of the two sources, which is the integer's. -/
theorem scalarArithmetic : Obligations.ScalarArithmetic := by
  unfold Obligations.ScalarArithmetic
  intro s d a b x y
  exact ⟨⟨_, exec_add .., BitVec.toNat_add x y⟩, ⟨_, exec_sub .., sub_toNat x y⟩, ⟨_, exec_mul .., BitVec.toNat_mul x y⟩, ⟨_, exec_mulh .., mulHigh_toInt x y⟩,
    ⟨_, exec_mulhn .., mulHighN_toNat x y⟩, ⟨_, exec_and .., fun _ => BitVec.getLsbD_and⟩, ⟨_, exec_or .., fun _ => BitVec.getLsbD_or⟩,
    ⟨_, exec_xor .., fun _ => BitVec.getLsbD_xor⟩, ⟨_, exec_andn .., fun i => and_not_getLsbD x y i⟩, ⟨_, exec_shl .., shiftLeft_toNat x _⟩,
    ⟨_, exec_shr .., shiftRight_toNat x _⟩, ⟨_, exec_sar .., sshiftRight_toInt x _⟩, ⟨_, exec_min .., minS_toInt x y⟩, ⟨_, exec_max .., maxS_toInt x y⟩,
    ⟨_, exec_minn .., minN_toNat x y⟩, ⟨_, exec_maxn .., maxN_toNat x y⟩⟩

/-- Settles O7: a sign-extended immediate is its integer modulo 2^64, and its bits above the sixth are its sign. -/
theorem scalarImmediates : Obligations.ScalarImmediates := by
  unfold Obligations.ScalarImmediates
  intro s d a m c x
  exact ⟨⟨_, exec_addi .., add_signExtend_toNat x m⟩,
    ⟨_, exec_andi .., fun i hi => by rw [BitVec.getLsbD_and, signExtend_getLsbD m hi]⟩,
    ⟨_, exec_ori .., fun i hi => by rw [BitVec.getLsbD_or, signExtend_getLsbD m hi]⟩,
    ⟨_, exec_xori .., fun i hi => by rw [BitVec.getLsbD_xor, signExtend_getLsbD m hi]⟩,
    ⟨_, exec_shli .., shiftLeft_toNat x _⟩, ⟨_, exec_shri .., shiftRight_toNat x _⟩, ⟨_, exec_sari .., sshiftRight_toInt x _⟩,
    ⟨_, exec_rsubi .., signExtend_sub_toNat x m⟩⟩

/-- Settles O8: outside the corners of R88 the machine's quotients and remainders are those of the integers. -/
theorem divides : Obligations.Divides := by
  unfold Obligations.Divides
  intro s d a b x y
  refine ⟨⟨_, exec_div .., ?_⟩, ⟨_, exec_divn .., ?_⟩, ⟨_, exec_rem .., ?_⟩, ⟨_, exec_remn .., ?_⟩⟩
  · split
    · exact if_pos ‹_›
    · split
      · exact divS_of_overflow (And.left ‹_›) (And.right ‹_›)
      · exact divS_toInt ‹_› ‹_›
  · split
    · exact if_pos ‹_›
    · exact divN_toNat ‹_›
  · split
    · exact if_pos ‹_›
    · exact remS_toInt ‹_›
  · split
    · exact if_pos ‹_›
    · exact remN_toNat ‹_›

/-- Settles O9: every form writes its function of the sources, which one lemma each characterises by bits or as an integer. -/
theorem bitForms : Obligations.BitForms := by
  unfold Obligations.BitForms
  intro s d a b x y lo len
  exact ⟨⟨_, exec_clz .., leadingZeros_spec x⟩, ⟨_, exec_ctz .., trailingZeros_spec x⟩, ⟨_, exec_popc .., popCount_toNat x⟩,
    ⟨_, exec_brev .., fun i hi => by rw [getLsbD_bitsOf, decide_eq_true hi, Bool.true_and]⟩, ⟨_, exec_bswap .., fun i hi => bswap_byte x hi⟩,
    ⟨_, exec_sext .., sextLow_toInt x y⟩, ⟨_, exec_zext .., zextLow_toNat x y⟩, ⟨_, exec_bfx .., fieldGet_toNat x y⟩,
    ⟨_, exec_bfi .., fun i hi => fieldPut_getLsbD (s.getS d) x y hi⟩, ⟨_, exec_abs .., abs_toNat x⟩, ⟨_, exec_neg .., neg_toNat x⟩⟩

end Sys2Proof
end

section
/-! SUPPORT. Compares (R91, R92): the order of floating values is that of their encodings, predicate results, and slots that raise flags and write
registers only (R76). -/

namespace Sys2Proof.Machine

/-! ## Bits of a word -/

theorem eq_zero_iff_getLsbD {w : Nat} (x : BitVec w) : x = 0 ↔ ∀ i < w, x.getLsbD i = false := by
  simp only [BitVec.eq_of_getLsbD_eq_iff, BitVec.ofNat_eq_ofNat, BitVec.getLsbD_zero]

theorem ne_zero_iff_getLsbD {w : Nat} (x : BitVec w) : x ≠ 0 ↔ ∃ i < w, x.getLsbD i = true := by
  simp only [ne_eq, eq_zero_iff_getLsbD, not_forall, Bool.not_eq_false, exists_prop]

theorem eq_allOnes_iff_getLsbD {w : Nat} (x : BitVec w) : x = BitVec.allOnes w ↔ ∀ i < w, x.getLsbD i = true := by
  rw [BitVec.eq_of_getLsbD_eq_iff]
  exact forall₂_congr fun i hi => by rw [BitVec.getLsbD_allOnes, decide_eq_true hi]

/-- The bit test finds a one bit that both words have. -/
theorem and_ne_zero_iff_getLsbD (x y : Word) : x &&& y ≠ 0 ↔ ∃ i, x.getLsbD i = true ∧ y.getLsbD i = true := by
  simp only [ne_zero_iff_getLsbD, BitVec.getLsbD_and, Bool.and_eq_true]
  exact ⟨fun ⟨i, _, h⟩ => ⟨i, h⟩, fun ⟨i, h⟩ => ⟨i, BitVec.lt_of_getLsbD h.1, h⟩⟩

/-! ## Slots that raise flags and write registers only -/

theorem State.xe_congr {s t : State} (h : t.getSys rFPMODE = s.getSys rFPMODE) : t.xe = s.xe := by rw [State.xe, h, State.xe]

@[simp] theorem State.putP_xe (s : State) (r : Fin 16) (v : Bool) (n : Nat) : (s.putP r v n).xe = s.xe := by
  unfold State.putP
  split
  · rfl
  · exact s.put_xe _ n

@[simp] theorem State.putT_xe (s : State) (p : Fin 16) (c t : Bool) : (s.putT p c t).xe = s.xe := by
  unfold State.putT
  dsimp only
  split <;> simp

/-- A slot whose result leaves FPMODE alone completes where it raises no enabled flag, and else raises FPX. -/
theorem completesFlagged_of_flagged {s u : State} {i : Instr} {f : BitVec 5} (hu : u.xe = s.xe) (h : exec i s = .next (u.flagged s f)) :
    CompletesFlagged s i u f := by
  obtain ⟨hjoin, htrap⟩ := goesFlagged_of_flagged h
  rw [hu] at hjoin htrap
  exact ⟨fun hx => hjoin (by rw [hx]; exact BitVec.and_zero), hjoin, htrap⟩

/-! ## Predicate results -/

theorem givesP_of_putT {s : State} {i : Instr} {p : Fin 16} {c b : Bool} {t : Prop} (h : exec i s = .next (s.putT p c b)) (ht : b = true ↔ t) :
    GivesP s i p c t := ⟨b, ht, h⟩

/-! ## The order of values (R92) -/

/-- Of two numbers of units the one of the lower binade has the lower encoding and the lower value. -/
theorem Fmt.IsUnits.lt_of_binade_lt {f : Fmt} {j q j' q' : Nat} (hu : f.IsUnits j q) (hu' : f.IsUnits j' q') (h : j < j') :
    j * 2 ^ f.fbits + q < j' * 2 ^ f.fbits + q' ∧ q * 2 ^ j < q' * 2 ^ j' := by
  have hq := hu.1
  have hq' : 2 ^ f.fbits ≤ q' := hu'.2.resolve_left (by omega)
  refine ⟨?_, ?_⟩
  · have := Nat.mul_le_mul_right (2 ^ f.fbits) (Nat.succ_le_of_lt h)
    rw [Nat.pow_succ] at hq
    rw [Nat.succ_mul] at this
    omega
  · calc q * 2 ^ j < 2 ^ (f.fbits + 1) * 2 ^ j := Nat.mul_lt_mul_of_pos_right hq (Nat.two_pow_pos j)
      _ = 2 ^ f.fbits * 2 ^ (j + 1) := by rw [← Nat.pow_add, ← Nat.pow_add]; congr 1; omega
      _ ≤ q' * 2 ^ j' := Nat.mul_le_mul hq' (Nat.pow_le_pow_right two_pos h)

/-- Encodings are in the order of their values. -/
theorem Fmt.IsUnits.lt_iff {f : Fmt} {j q j' q' : Nat} (hu : f.IsUnits j q) (hu' : f.IsUnits j' q') :
    q * 2 ^ j < q' * 2 ^ j' ↔ j * 2 ^ f.fbits + q < j' * 2 ^ f.fbits + q' := by
  obtain h | rfl | h := Nat.lt_trichotomy j j'
  · obtain ⟨henc, hval⟩ := hu.lt_of_binade_lt hu' h
    exact iff_of_true hval henc
  · rw [Nat.mul_lt_mul_right (Nat.two_pow_pos j), Nat.add_lt_add_iff_left]
  · obtain ⟨henc, hval⟩ := hu'.lt_of_binade_lt hu h
    exact iff_of_false hval.not_gt henc.not_gt

/-- Positive values over a common exponent. -/
theorem fLess_fin_pos (q q' : Nat) (u : Int) (j j' : Nat) : fLess (.fin false q (u + j)) (.fin false q' (u + j')) = true ↔ q * 2 ^ j < q' * 2 ^ j' := by
  have hsplit {a b : Nat} (h : a ≤ b) (m : Nat) : m * 2 ^ b = m * 2 ^ (b - a) * 2 ^ a := by rw [Nat.mul_assoc, ← Nat.pow_add, Nat.sub_add_cancel h]
  set m := min j j' with hm
  have hmin : min (u + (j : Int)) (u + j') = u + m := by omega
  have he (n : Nat) : (u + (n : Int) - (u + m)).toNat = n - m := by omega
  rw [hsplit (Nat.min_le_left j j') q, hsplit (Nat.min_le_right j j') q', Nat.mul_lt_mul_right (Nat.two_pow_pos _)]
  simp only [fLess, hmin, he, Bool.false_eq_true, if_false, mul_one, decide_eq_true_eq, Int.ofNat_eq_natCast, Nat.cast_lt]
  rfl

/-- An encoding of sign 0 that is no NaN is a number of units, or the infinity. -/
theorem Fmt.unpack_positive {f : Fmt} (he : f.e4m3 = false) {x : Nat} (hx : x < f.sign) (h : (f.unpack x).isNan = false) :
    (x = f.inf ∧ f.unpack x = .inf false) ∨
      ∃ j q, f.IsUnits j q ∧ x = j * 2 ^ f.fbits + q ∧ x < f.inf ∧ f.unpack x = .fin false q (f.unit + j) := by
  obtain hlt | rfl | hgt := Nat.lt_trichotomy x f.inf
  · obtain ⟨j, q, hu, rfl⟩ := f.exists_isUnits x
    exact .inr ⟨j, q, hu, rfl, hlt, Fmt.unpack_units he false hu hlt⟩
  · exact .inl ⟨rfl, Fmt.unpack_signed_inf he false⟩
  · have hnan : (f.unpack x).isNan = true := Fmt.unpack_signed_isNan he false hgt hx
    rw [h] at hnan
    cases hnan

theorem Fmt.fLess_unpack {f : Fmt} (he : f.e4m3 = false) {x y : Nat} (hx : x < f.sign) (hy : y < f.sign) (hnx : (f.unpack x).isNan = false)
    (hny : (f.unpack y).isNan = false) : fLess (f.unpack x) (f.unpack y) = true ↔ x < y := by
  obtain ⟨hxi, hux⟩ | ⟨j, q, hu, hxu, hlt, hux⟩ := Fmt.unpack_positive he hx hnx <;>
    obtain ⟨hyi, huy⟩ | ⟨j', q', hu', hyu, hlt', huy⟩ := Fmt.unpack_positive he hy hny <;> rw [hux, huy]
  · exact iff_of_false nofun (by omega)
  · exact iff_of_false nofun (by omega)
  · exact iff_of_true rfl (by omega)
  · rw [fLess_fin_pos, hu.lt_iff hu', hxu, hyu]

theorem Fmt.fSame_unpack {f : Fmt} (he : f.e4m3 = false) {x y : Nat} (hx : x < f.sign) (hy : y < f.sign) (hnx : (f.unpack x).isNan = false)
    (hny : (f.unpack y).isNan = false) : fSame (f.unpack x) (f.unpack y) = true ↔ x = y := by
  simp only [fSame, hnx, hny, Bool.not_false, Bool.true_and, Bool.and_eq_true, Bool.not_eq_true', Bool.eq_false_iff, ne_eq,
    Fmt.fLess_unpack he hx hy hnx hny, Fmt.fLess_unpack he hy hx hny hnx]
  omega

theorem Fmt.fLe_unpack {f : Fmt} (he : f.e4m3 = false) {x y : Nat} (hx : x < f.sign) (hy : y < f.sign) (hnx : (f.unpack x).isNan = false)
    (hny : (f.unpack y).isNan = false) : (fLe (f.unpack x) (f.unpack y)).1 = true ↔ x ≤ y := by
  simp only [fLe, Bool.or_eq_true, Fmt.fLess_unpack he hx hy hnx hny, Fmt.fSame_unpack he hx hy hnx hny]
  omega

/-- No NaN is less than a value or above one (R92). -/
theorem fLess_of_isNan {a b : FVal} (h : a.isNan = true ∨ b.isNan = true) : fLess a b = false := by
  obtain h | h := h
  · cases a with
    | nan => rfl
    | inf => cases h
    | fin => cases h
  · cases b with
    | nan => cases a <;> rfl
    | inf => cases h
    | fin => cases h

theorem fSame_of_isNan {a b : FVal} (h : a.isNan = true ∨ b.isNan = true) : fSame a b = false := by
  obtain h | h := h <;> simp [fSame, h]

end Sys2Proof.Machine

namespace Sys2Proof
open Machine

/-- Settles O13: a compare puts the truth value of its relation; floating values are in the order of their encodings. -/
theorem compares : Obligations.Compares := by
  unfold Obligations.Compares
  refine ⟨fun s p q r c v a b k => ?_,
    fun x y hx hy hnx hny => ⟨Fmt.fLess_unpack rfl hx hy hnx hny, Fmt.fSame_unpack rfl hx hy hnx hny, Fmt.fLe_unpack rfl hx hy hnx hny⟩, by decide,
    fun a b h => ?_⟩
  · intro x y
    refine ⟨?_, ?_, ?_, ?_, ?_, ?_, ?_, ?_, ?_, ?_, ?_, ?_, ?_, ?_, ?_, s.getP_zero, s.putP_zero, fun i o hi => ?_⟩
    · exact givesP_of_putT (exec_ceq ..) beq_iff_eq
    · exact givesP_of_putT (exec_cne ..) bne_iff_ne
    · exact givesP_of_putT (exec_clt ..) BitVec.slt_iff_toInt_lt
    · exact givesP_of_putT (exec_cge ..) BitVec.sle_iff_toInt_le
    · exact givesP_of_putT (exec_cltn ..) BitVec.ult_iff_toNat_lt
    · exact givesP_of_putT (exec_cgen ..) BitVec.ule_iff_toNat_le
    · exact givesP_of_putT (exec_ctst ..) (bne_iff_ne.trans (and_ne_zero_iff_getLsbD x y))
    · exact givesP_of_putT (exec_pand ..) (Bool.and_eq_true_iff ..)
    · exact givesP_of_putT (exec_por ..) (Bool.or_eq_true_iff ..)
    · exact givesP_of_putT (exec_pxor ..) bne_iff_ne
    · exact givesP_of_putT (exec_pandn ..) (by rw [Bool.and_eq_true, Bool.not_eq_true'])
    · exact givesP_of_putT (exec_pset ..) Iff.rfl
    · exact givesP_of_putT (exec_kany ..) (bne_iff_ne.trans (ne_zero_iff_getLsbD _))
    · exact givesP_of_putT (exec_kall ..) (beq_iff_eq.trans (eq_allOnes_iff_getLsbD _))
    · exact givesP_of_putT (exec_knone ..) (beq_iff_eq.trans (eq_zero_iff_getLsbD _))
    · refine completesFlagged_of_flagged (s.putT_xe p c o.1) ?_
      simp only [List.mem_cons, Prod.mk.injEq, List.not_mem_nil, or_false] at hi
      obtain ⟨rfl, rfl⟩ | ⟨rfl, rfl⟩ | ⟨rfl, rfl⟩ | ⟨rfl, rfl⟩ := hi
      · exact exec_fceq ..
      · exact exec_fclt ..
      · exact exec_fcle ..
      · exact exec_fcun ..
  · have hless := fLess_of_isNan h
    have hsame := fSame_of_isNan h
    simp [fLt, fEq, fLe, fUn, hless, hsame, h]

end Sys2Proof
end

section
/-! SUPPORT. Scalar floating-point forms (R90): where their results go, and that these leave FPMODE alone. -/

namespace Sys2Proof.Machine

@[simp] theorem State.putS_xe (s : State) (r : SReg) (v : Word) (n : Nat) : (s.putS r v n).xe = s.xe := by
  by_cases hr : r.val = 0
  · rw [State.putS, if_pos hr]
  · obtain ⟨v', t, ht, rfl | rfl⟩ := s.putS_eq hr v n
    · rw [ht, State.put_xe]
    · rw [ht, State.put_xe]
      have hmode : (s.cur.setSys rINJECT 0).sysv rFPMODE = s.cur.sysv rFPMODE := s.cur.setSys_sameAt rINJECT 0 (g := .sys rFPMODE) (by decide)
      exact State.xe_congr (by rw [State.getSys, State.cur_modCur, hmode, State.getSys])

@[simp] theorem State.flyS_xe (s : State) (kind : FlightKind) (r : SReg) (v : Word) (n : Nat) : (s.flyS kind r v n).xe = s.xe := by
  refine State.xe_congr ?_
  rw [State.getSys, State.flyS, State.fly, State.cur_modCur]
  rfl

theorem givesF_of_putF {s : State} {i : Instr} {d : SReg} {r : FRes} (h : exec i s = s.putF d r) : GivesF s i d r :=
  completesFlagged_of_flagged (s.putS_xe ..) h

theorem fliesF_of_flyF {s : State} {i : Instr} {d : SReg} {r : FRes} (h : exec i s = s.flyF d r) : FliesF s i d r :=
  completesFlagged_of_flagged (s.flyS_xe ..) h

end Sys2Proof.Machine

namespace Sys2Proof
open Machine

/-- Settles O10: every form ends as one that puts or flies a result with flags. -/
theorem scalarFloat : Obligations.ScalarFloat := by
  unfold Obligations.ScalarFloat
  intro s d a b x y m
  exact ⟨givesF_of_putF (exec_fadd ..), givesF_of_putF (exec_fsub ..), givesF_of_putF (exec_fmul ..), givesF_of_putF (exec_fmin ..),
    givesF_of_putF (exec_fmax ..), givesF_of_putF (exec_fabs ..), givesF_of_putF (exec_fneg ..), givesF_of_putF (exec_fitof ..),
    givesF_of_putF (exec_ftoi ..), givesF_of_putF (exec_fround ..), fliesF_of_flyF (exec_fdiv ..), fliesF_of_flyF (exec_fsqrt ..)⟩

end Sys2Proof
end

section
/-! SUPPORT. Branches (R94 to R97): their targets, and the registers through a trap of the slot that runs. -/

namespace Sys2Proof.Machine

/-- A trap of the slot that runs, but one that hardware handles or that rewinds a span (R278), leaves every register as it would be without the slot,
those apart that the discard and the delivery write (R276, R295). -/
theorem State.raise_sameAt (s : State) {cause : Cause} (hc : cause ∉ [cMXMIS, cUCE, cYOKEMIS]) (info : Word)
    (hexl : (s.cur.settle (s.now + 1)).exl = false) (htvec : (s.cur.settle (s.now + 1)).sysv rTVEC ≠ 0) {g : Reg} (hsys : ∀ r, g ≠ .sys r)
    (hg : ¬ s.cur.region.check.writes g) : (s.cur.settle (s.now + 1)).regs.SameAt (s.raise cause info).cur.regs g := by
  simp only [List.mem_cons, List.not_mem_nil, or_false, not_or] at hc
  obtain ⟨hmxmis, huce, hyokemis⟩ := hc
  set k := s.issue.core
  set j := s.issue.slot
  set u := s.modCtx k j fun c => c.settle (s.now + 1)
  obtain ⟨counts, cause', info', htrap⟩ := s.trapAt_delivers k j hyokemis info
  have hraise : (s.raise cause info).cur = (s.trapAt k j cause info false).ctxAt k j := by
    have htake : s.takeTrap cause info = s.trapAt k j cause info false := by
      simp only [State.takeTrap, if_neg hmxmis, huce, hyokemis, or_self, decide_false]
      rfl
    rw [State.cur, State.raise_issue, ← htake]
    rfl
  have hsettle : u.ctxAt k j = s.cur.settle (s.now + 1) := s.ctxAt_modCtx_self k j _
  have hdiscard : ∀ {g : Reg}, ¬ s.cur.region.check.writes g → (s.cur.settle (s.now + 1)).regs.SameAt ((u.discard k j counts).ctxAt k j).regs g := by
    intro g hg
    have := u.discard_sameAt k j counts (g := g)
    rw [hsettle] at this
    exact this hg
  have hstatus := hdiscard (g := .sys rSTATUS) (by simp only [Checkpoint.writes]; decide)
  have hvec := hdiscard (g := .sys rTVEC) (by simp only [Checkpoint.writes]; decide)
  have hdeliver := State.deliver_sameAt (s := u.discard k j counts) (k := k) (j := j) (g := g)
    (by rw [← hexl]; exact congrArg (fun w : Word => w.getLsbD 2) hstatus) (fun h0 => htvec (Eq.trans (Eq.symm hvec) h0)) cause' info' hsys
  rw [hraise, htrap]
  exact (hdiscard hg).trans hdeliver

/-- A branch that is taken (R94). -/
def State.taking (s : State) (target : Word) (cycles : Nat) : State :=
  { s with issue := { s.issue with taken := true, target := some (target, cycles) } }

section
variable {s : State}

theorem State.branchTo_outside (h : s.inBody = false) (target : Word) (cycles : Nat) : s.branchTo target cycles = s.taking target cycles := by
  rw [State.branchTo, if_neg (by rw [h]; exact Bool.false_ne_true)]
  rfl

theorem State.branchTo_inside (h : s.inBody = true) (target : Word) (cycles : Nat) : s.branchTo target cycles = s.illop := if_pos h

theorem State.callTo_outside (h : s.inBody = false) (target : Word) (cycles : Nat) : s.callTo target cycles = (s.taking target cycles).putS 62 s.after 1 := by
  rw [State.callTo, if_neg (by rw [h]; exact Bool.false_ne_true), State.branchTo_outside h]

theorem State.callTo_inside (h : s.inBody = true) (target : Word) (cycles : Nat) : s.callTo target cycles = s.illop := if_pos h

/-- A bundle in a replayed body has a level. -/
theorem State.levels_of_inBody (h : s.inBody = true) : s.cur.loop.levels ≠ [] := fun h0 => by
  rw [State.inBody, h0] at h
  cases h

variable {a : Word}

theorem State.branchReg_misaligned (h : a &&& 3 ≠ 0) : s.branchReg a = s.raise47 cALIGN := if_pos h

theorem State.branchReg_aligned (h : a &&& 3 = 0) : s.branchReg a =
    if a = secEnd ∧ s.cur.member.isSome = true then
      if s.cur.loop.levels ≠ [] then s.illop else (s.branchTo a 3).modCur fun c => { c with closing := some .sectionEnd }
    else s.branchTo a 3 := if_neg (not_not.mpr h)

theorem State.branchReg_ordinary (h : a &&& 3 = 0) (ha : a ≠ secEnd ∨ s.cur.member = none) : s.branchReg a = s.branchTo a 3 := by
  rw [State.branchReg_aligned h, if_neg]
  rintro ⟨rfl, hm⟩
  simp [ha.resolve_left (not_not.mpr rfl)] at hm

theorem State.branchReg_secEnd (hm : s.cur.member.isSome = true) : s.branchReg secEnd =
    if s.cur.loop.levels ≠ [] then s.illop else (s.branchTo secEnd 3).modCur fun c => { c with closing := some .sectionEnd } := by
  rw [State.branchReg_aligned (by decide), if_pos ⟨rfl, hm⟩]

theorem State.branchReg_inside (h : s.inBody = true) (ha : a &&& 3 = 0) : s.branchReg a = s.illop := by
  by_cases hs : a = secEnd ∧ s.cur.member.isSome = true
  · obtain ⟨rfl, hm⟩ := hs
    rw [State.branchReg_secEnd hm, if_pos (State.levels_of_inBody h)]
  · rw [State.branchReg_ordinary ha (by simpa [or_iff_not_imp_left] using hs), State.branchTo_inside h]

variable {k : Fin 8} {m : Mask}

theorem State.branchMask_taken (h : s.getK k = m) (o : BitVec 16) : s.branchMask k m o = s.branchTo (s.relative (o.signExtend 64)) 2 := if_pos h

theorem State.branchMask_other (h : s.getK k = ~~~m) (o : BitVec 16) : s.branchMask k m o = s := by
  have : ~~~m ≠ m := fun h0 => by
    have := congrArg (fun x : Mask => x.getLsbD 0) h0
    simp at this
  rw [State.branchMask, if_neg (by rw [h]; exact this), if_pos h]

theorem State.branchMask_mixed (h : s.getK k ≠ m) (h' : s.getK k ≠ ~~~m) (o : BitVec 16) : s.branchMask k m o = s.raise47 cNONUNI := by
  rw [State.branchMask, if_neg h, if_neg h']

theorem execCalli_misaligned {b : Src} (h : s.src b &&& 3 ≠ 0) : execCalli b s = .next (s.raise47 cALIGN) := congrArg State.done (if_pos h)

theorem execCalli_aligned {b : Src} (h : s.src b &&& 3 = 0) : execCalli b s = .next (s.callTo (s.src b) 3) :=
  congrArg State.done (if_neg (not_not.mpr h))

theorem exec_bi_ret {b : Src} {t : State} (h : s.branchReg (s.src b) = t) : exec (.bi b) s = .next t ∧ exec (.ret b) s = .next t :=
  ⟨(exec_bi ..).trans (congrArg State.done h), (exec_ret ..).trans (congrArg State.done h)⟩

/-- The branches to an address in a register. -/
theorem exec_registerBranch {b : Src} {t : State} (hreg : s.branchReg (s.src b) = t) (hcall : execCalli b s = .next t) :
    ∀ i ∈ [Instr.bi b, .calli b, .ret b], exec i s = .next t := by
  obtain ⟨hbi, hret⟩ := exec_bi_ret hreg
  simp only [List.forall_mem_cons]
  exact ⟨hbi, (exec_calli ..).trans hcall, hret, List.forall_mem_nil _⟩

end

end Sys2Proof.Machine

namespace Sys2Proof
open Machine

/-- Settles O14: a branch that is taken sets the target outside a replayed body, and raises ILLOP inside one; each form is such a branch, or none,
by the alignment of its address or the bits of its mask. -/
theorem branches : Obligations.Branches := by
  unfold Obligations.Branches
  refine ⟨fun s o a => ?_, fun s k o => ?_⟩
  · intro goTo rel ret keeps
    refine ⟨fun hout => ⟨?_, ?_, fun hal => ?_, fun hal hend => ?_, fun hend hm hl => ?_, fun hend hm hl => ?_⟩, fun hmis i hi => ?_, fun hin i hi => ?_,
      fun hin hal => ?_⟩
    · exact (exec_br ..).trans <| congrArg State.done (State.branchTo_outside hout ..)
    · exact (exec_call ..).trans <| congrArg State.done (State.callTo_outside hout ..)
    · exact (exec_calli ..).trans <| (execCalli_aligned hal).trans (congrArg State.done (State.callTo_outside hout ..))
    · exact exec_bi_ret ((State.branchReg_ordinary hal hend).trans (State.branchTo_outside hout ..))
    · refine exec_bi_ret ?_
      rw [hend, State.branchReg_secEnd hm, if_neg (not_not.mpr hl), State.branchTo_outside hout]
      rfl
    · refine exec_bi_ret ?_
      rw [hend, State.branchReg_secEnd hm, if_pos hl]
    · refine ⟨exec_registerBranch (State.branchReg_misaligned hmis) (execCalli_misaligned hmis) i hi, rfl, by rw [State.raise47, State.raise_issue], ?_⟩
      exact fun r hexl htvec hnamed => s.raise_sameAt (by decide) _ hexl htvec (g := .s r) nofun fun ⟨x, hx, he⟩ => hnamed x hx he
    · simp only [List.mem_cons, List.not_mem_nil, or_false] at hi
      obtain rfl | rfl := hi
      · exact (exec_br ..).trans <| congrArg State.done (State.branchTo_inside hin ..)
      · exact (exec_call ..).trans <| congrArg State.done (State.callTo_inside hin ..)
    · exact exec_registerBranch (State.branchReg_inside hin hal) ((execCalli_aligned hal).trans (congrArg State.done (State.callTo_inside hin ..)))
  · intro go
    have hzero : ~~~(BitVec.allOnes 128) = 0 := by decide
    have hones : ~~~(0 : Mask) = BitVec.allOnes 128 := by decide
    refine ⟨fun hout => ⟨fun hk => ⟨?_, ?_⟩, fun hk => ⟨?_, ?_⟩, fun hk hk' => ⟨?_, ?_⟩⟩, fun hin => ⟨fun hk => ?_, fun hk => ?_⟩⟩
    · exact (exec_bk ..).trans <| congrArg State.done ((State.branchMask_taken hk o).trans (State.branchTo_outside hout ..))
    · exact (exec_bkn ..).trans <| congrArg State.done (State.branchMask_other (hk.trans hones.symm) o)
    · exact (exec_bk ..).trans <| congrArg State.done (State.branchMask_other (hk.trans hzero.symm) o)
    · exact (exec_bkn ..).trans <| congrArg State.done ((State.branchMask_taken hk o).trans (State.branchTo_outside hout ..))
    · exact (exec_bk ..).trans <| congrArg State.done (State.branchMask_mixed hk' (hzero ▸ hk) o)
    · exact (exec_bkn ..).trans <| congrArg State.done (State.branchMask_mixed hk (hones ▸ hk') o)
    · exact (exec_bk ..).trans <| congrArg State.done ((State.branchMask_taken hk o).trans (State.branchTo_inside hin ..))
    · exact (exec_bkn ..).trans <| congrArg State.done ((State.branchMask_taken hk o).trans (State.branchTo_inside hin ..))

end Sys2Proof
end

section
/-! SUPPORT. Loops (R98 to R103) and the arming of bindings (R153, R154): what each form makes of the loop stack. -/

namespace Sys2Proof.Machine

section
variable {s : State} {l : Fin 6} {y : LoopLevel}

theorem State.level_none (h : s.cur.loop.levels.length ≤ l.val) : s.level l = none := List.getElem?_eq_none h

/-! ## lexit, rdlp and wrlp -/

theorem execLexit_beyond (h : s.level l = none) : execLexit l s = .next s.illop := by
  rw [execLexit, h]
  rfl

theorem execLexit_level (h : s.level l = some y) : execLexit l s = .next
    { s.modCur fun c => { c with loop := { c.loop with levels := c.loop.levels.drop (l.val + 1) } } with
      issue := { s.issue with target := some (y.exit, 2) } } := by
  rw [execLexit, h]
  rfl

theorem execRdlp_beyond (h : s.level l = none) (d : SReg) (x : Bool) : execRdlp d x l s = .next (s.putS d 0 1) := by
  rw [execRdlp, h]
  rfl

theorem execRdlp_level (h : s.level l = some y) (d : SReg) (x : Bool) :
    execRdlp d x l s = .next (s.putS d ((if x then y.lc else y.li).setWidth 64) 1) := by
  rw [execRdlp, h]
  rfl

theorem execWrlp_beyond (h : s.level l = none) (a : Src) (x : Bool) : execWrlp a x l s = .next s.illop := by
  rw [execWrlp, h]
  rfl

/-- A level with one of its counters written (R103). -/
def LoopLevel.write (y : LoopLevel) (x : Bool) (v : BitVec 32) : LoopLevel := if x then { y with lc := v } else { y with li := v }

theorem LoopLevel.write_counter (y : LoopLevel) (x : Bool) (v : BitVec 32) : (if x then (y.write x v).lc else (y.write x v).li) = v := by
  cases x <;> rfl

theorem LoopLevel.write_other (y : LoopLevel) (x : Bool) (v : BitVec 32) : if x then (y.write x v).li = y.li else (y.write x v).lc = y.lc := by
  cases x <;> rfl

theorem execWrlp_level (h : s.level l = some y) (a : Src) (x : Bool) : execWrlp a x l s = .next
    (s.modCur fun c => { c with loop := { c.loop with levels := c.loop.levels.set l.val (y.write x ((s.src a).setWidth 32)) } }) := by
  rw [execWrlp, h]
  rfl

end

/-! ## loop and loopi -/

theorem State.putP_foldl_onlyRegs (v : Fin 16 → Bool) : ∀ (ps : List (Fin 16)) (s : State), OnlyRegs s (ps.foldl (fun s p => s.putP p (v p) 1) s)
  | [], s => .refl s
  | p :: ps, s => (s.putP_onlyRegs p (v p) 1).trans (State.putP_foldl_onlyRegs v ps _)

/-- The stage predicates of a new level are registers (R156). -/
theorem State.firstStages_onlyRegs (s : State) (b : Option (Fin 16 × BitVec 3)) (n : BitVec 32) : OnlyRegs s (s.firstStages b n) := by
  cases b with
  | none => exact .refl s
  | some b => exact State.putP_foldl_onlyRegs _ _ s

section
variable {s : State} {n : BitVec 32}

/-- A zero count goes to EXIT and drops what was armed. -/
theorem State.pushLoop_zero (s : State) (off : Nat) : (s.pushLoop 0 off).issue.target = some (s.issue.addr + BitVec.ofNat 64 (4 * off), 2) ∧
    (s.pushLoop 0 off).cur.loop = ⟨s.cur.loop.levels, none, none⟩ := by
  refine ⟨rfl, ?_⟩
  exact congrArg Context.loop (s.cur_modCur fun c => { c with loop := { s.cur.loop with armedReplay := none, armedStage := none } })

theorem State.pushLoop_full (hn : n ≠ 0) (h : 6 ≤ s.cur.loop.levels.length) (off : Nat) : s.pushLoop n off = s.illop := by
  rw [State.pushLoop, if_neg hn, if_pos h]

theorem State.pushLoop_loop (hn : n ≠ 0) (h : s.cur.loop.levels.length < 6) (off : Nat) : (s.pushLoop n off).cur.loop =
    ⟨⟨s.after, s.issue.addr + BitVec.ofNat 64 (4 * off), 0, n, s.cur.loop.armedReplay, s.cur.loop.armedStage⟩ :: s.cur.loop.levels, none, none⟩ := by
  rw [State.pushLoop, if_neg hn, if_neg (Nat.not_le.mpr h)]
  obtain ⟨-, -, -, hloop, -, -⟩ := OnlyRegs.cur (State.firstStages_onlyRegs (s.modCur _) s.cur.loop.armedStage n)
  rw [hloop, State.cur_modCur]
  rfl

end

/-! ## replay -/

section
variable {s t u : State} {a : Src} {h ws : List Word}

theorem execReplay_badHeader (ht : s.readTable (s.src a) 8 1 = (.ok h, t)) (hn : wordAt h 0 = 0 ∨ 8 < (wordAt h 0).toNat) (m : BitVec 6) :
    execReplay a m s = .next (t.badTable (s.src a)) := by
  rw [execReplay]
  dsimp only
  rw [ht]
  exact if_pos (hn.imp_left fun h0 => by rw [h0]; rfl)

theorem execReplay_table (ht : s.readTable (s.src a) 8 1 = (.ok h, t)) (hlo : 1 ≤ (wordAt h 0).toNat) (hhi : (wordAt h 0).toNat ≤ 8)
    (hu : t.readTable (s.src a) 8 (1 + 4 * (wordAt h 0).toNat) = (.ok ws, u)) (m : BitVec 6) : execReplay a m s = .next
      ((deltaEntries ws (wordAt h 0).toNat).elim (u.badTable (s.src a)) fun es =>
        u.modCur fun c => { c with loop := { c.loop with armedReplay := some ⟨es, m⟩ } }) := by
  have hn : ¬ ((wordAt h 0).toNat = 0 ∨ 8 < (wordAt h 0).toNat) := by omega
  rw [execReplay]
  dsimp only
  rw [ht]
  dsimp only
  rw [if_neg hn, hu]
  dsimp only
  cases deltaEntries ws (wordAt h 0).toNat <;> rfl

end

end Sys2Proof.Machine

namespace Sys2Proof
open Machine

/-- Settles O15: levels 0 to lvl are the first lvl + 1 of the stack. -/
theorem lexit : Obligations.Lexit := by
  unfold Obligations.Lexit
  refine fun s l => ⟨fun h => (exec_lexit ..).trans (execLexit_beyond (State.level_none h)), fun x hx => ?_⟩
  have hlt : l.val < s.cur.loop.levels.length := (List.getElem?_eq_some_iff.mp hx).1
  have hlevels := congrArg (fun c : Context => c.loop.levels) (s.cur_modCur fun c => { c with loop := { c.loop with levels := c.loop.levels.drop (l.val + 1) } })
  refine ⟨_, (exec_lexit ..).trans (execLexit_level hx), ⟨2, rfl⟩, hlevels, ?_⟩
  rw [← Nat.sub_add_cancel (Nat.succ_le_of_lt hlt), ← List.length_drop]
  exact congrArg (fun xs : List LoopLevel => xs.length + (l.val + 1)) hlevels

/-- Settles O16: the level named is there or not, the count is zero or not, and the stack is full or not. -/
theorem loops : Obligations.Loops := by
  unfold Obligations.Loops
  refine ⟨fun s d a x l => ⟨fun h => ?_, fun y hy => ⟨⟨_, (exec_rdlp ..).trans (execRdlp_level hy d x), ?_⟩, ?_⟩⟩,
    fun s a o n o' => ⟨fun i cnt off hi => ?_, fun p m => exec_stgset p m s, fun m h t ht hn => ?_, fun m h ws t u ht hlo hhi hu hes => ?_,
      fun m h ws t u es ht hlo hhi hu hes => ?_⟩⟩
  · have hnone := State.level_none h
    exact ⟨(exec_rdlp ..).trans (execRdlp_beyond hnone d x), (exec_wrlp ..).trans (execWrlp_beyond hnone a x)⟩
  · exact BitVec.toNat_setWidth_of_le (by decide)
  · have hlt : l.val < s.cur.loop.levels.length := (List.getElem?_eq_some_iff.mp hy).1
    refine ⟨_, y.write x ((s.src a).setWidth 32), (exec_wrlp ..).trans (execWrlp_level hy a x), ?_, ?_, y.write_other x _, fun n hn => ?_, s.modCur_onlyCur _⟩
    · rw [State.cur_modCur, List.getElem?_set_self hlt]
    · rw [LoopLevel.write_counter, BitVec.toNat_setWidth]
    · rw [State.cur_modCur, List.getElem?_set_ne hn.symm]
  · have hexec : exec i s = .next (s.pushLoop cnt off) := by
      simp only [List.mem_cons, Prod.mk.injEq, List.not_mem_nil, or_false] at hi
      obtain ⟨rfl, rfl, rfl⟩ | ⟨rfl, rfl, rfl⟩ := hi
      · exact exec_loop ..
      · exact exec_loopi ..
    rw [hexec]
    refine ⟨fun hc => ⟨_, rfl, ?_⟩, fun hc hlen => ⟨_, rfl, State.pushLoop_loop hc hlen off⟩, fun hc hlen => by rw [State.pushLoop_full hc hlen]⟩
    rw [hc]
    exact s.pushLoop_zero off
  · exact (exec_replay ..).trans (execReplay_badHeader ht hn m)
  · rw [exec_replay, execReplay_table ht hlo hhi hu, hes]
    rfl
  · rw [exec_replay, execReplay_table ht hlo hhi hu, hes]
    rfl

end Sys2Proof
end

section
/-! SUPPORT. Vectors by their elements (R106, R107): what the model's element-wise functions make of each element, and how a slot of two or three
vector sources ends. -/

namespace Sys2Proof.Machine

/-! ## Vectors made of elements -/

theorem width_bits_le (w : Width) : w.bits ≤ 1024 := (width_lanes w).2.1

/-- An element of a vector as wide as the width stands within it. -/
theorem lane_fits {e bits i : Nat} (hi : i < bits / e) : e * (i + 1) ≤ bits := (Nat.mul_le_mul_left e hi).trans (Nat.mul_div_le bits e)

section
variable {e bits : Nat}

theorem HasLanes.congr {z : Vec} {f g : Nat → BitVec e} (h : HasLanes e bits z f) (hfg : ∀ i < bits / e, f i = g i) : HasLanes e bits z g :=
  ⟨fun i hi => (h.1 i hi).trans (hfg i hi), h.2⟩

theorem ofLanes_zero_above {xs : List (BitVec e)} (h : xs.length = bits / e) {i : Nat} (hi : bits ≤ i) :
    (ofLanes e xs).getLsbD i = false := by
  have hlt : lanesNat e xs < 2 ^ i := (lanesNat_lt xs).trans_le (Nat.pow_le_pow_right two_pos (by rw [h]; exact (Nat.mul_div_le bits e).trans hi))
  rw [ofLanes, BitVec.getLsbD_ofNat, Nat.testBit_lt_two_pow hlt, Bool.and_false]

/-- A vector of as many elements as the width holds has them, and is zero above (R107). -/
theorem hasLanes_ofLanes (hle : bits ≤ 1024) {xs : List (BitVec e)} (h : xs.length = bits / e) : HasLanes e bits (ofLanes e xs) fun i => xs.getD i 0 :=
  ⟨fun _ hi => lane_ofLanes ((lane_fits hi).trans hle) xs, fun _ hi => ofLanes_zero_above h hi⟩

theorem range_map_getD {α : Type} (f : Nat → α) (z : α) {n i : Nat} (hi : i < n) : ((List.range n).map f).getD i z = f i := by simp [hi]

theorem hasLanes_map_range (hle : bits ≤ 1024) (f : Nat → BitVec e) : HasLanes e bits (ofLanes e ((List.range (bits / e)).map f)) f :=
  (hasLanes_ofLanes hle (by simp)).congr fun _ hi => range_map_getD f 0 hi

theorem hasLanes_replicate (hle : bits ≤ 1024) (b : BitVec e) : HasLanes e bits (ofLanes e (List.replicate (bits / e) b)) fun _ => b :=
  (hasLanes_ofLanes hle (by simp)).congr fun _ hi => List.getD_replicate _ hi

/-! ## Functions of elements -/

theorem zipWith_map_range {α β γ : Type} (op : α → β → γ) (f : Nat → α) (g : Nat → β) (n : Nat) :
    List.zipWith op ((List.range n).map f) ((List.range n).map g) = (List.range n).map fun i => op (f i) (g i) := by
  rw [List.zipWith_map, List.zipWith_self]

theorem zipWith_lanes {α : Type} (op : BitVec e → BitVec e → α) (n : Nat) (x y : Vec) :
    List.zipWith op (lanes e n x) (lanes e n y) = (List.range n).map fun i => op (lane e x i) (lane e y i) := zipWith_map_range op (lane e x) (lane e y) n

theorem onLane_hasLanes (hle : bits ≤ 1024) (f : BitVec e → BitVec e) (x : Vec) : HasLanes e bits (onLane e f bits x) fun n => f (lane e x n) := by
  rw [onLane, lanes, List.map_map]
  exact hasLanes_map_range hle _

theorem onLanes_hasLanes (hle : bits ≤ 1024) (f : BitVec e → BitVec e → BitVec e) (x y : Vec) :
    HasLanes e bits (onLanes e f bits x y) fun n => f (lane e x n) (lane e y n) := by
  rw [onLanes, zipWith_lanes]
  exact hasLanes_map_range hle _

theorem onLanes3_hasLanes (hle : bits ≤ 1024) (f : BitVec e → BitVec e → BitVec e → BitVec e) (x y z : Vec) :
    HasLanes e bits (onLanes3 e f bits x y z) fun n => f (lane e x n) (lane e y n) (lane e z n) := by
  rw [onLanes3, zipWith_lanes]
  exact (zipWith_map_range (fun g c => g c) (fun i => f (lane e x i) (lane e y i)) (lane e z) _).symm ▸ hasLanes_map_range hle _

/-! ## The low bits that a source gives -/

theorem getLsbD_lowBits (hle : bits ≤ 1024) (x : Vec) (i : Nat) : (lowBits bits x).getLsbD i = (decide (i < bits) && x.getLsbD i) := by
  rw [BitVec.getLsbD, lowBits_toNat hle, Nat.testBit_mod_two_pow]
  rfl

theorem lane_lowBits (hle : bits ≤ 1024) (x : Vec) {i : Nat} (hi : i < bits / e) : lane e (lowBits bits x) i = lane e x i := by
  have hfit := lane_fits hi
  rw [Nat.mul_succ] at hfit
  apply BitVec.eq_of_getLsbD_eq
  intro j hj
  have hin : e * i + j < bits := by omega
  simp only [lane, BitVec.getLsbD_extractLsb', getLsbD_lowBits hle, hin, decide_true, Bool.true_and]

/-- A source is zero above the width it is read at (R107). -/
theorem State.readV_zero_above {s t : State} {a : VOp} {x : Vec} (hle : bits ≤ 1024) (h : s.readV a bits = .ok x t) {i : Nat} (hi : bits ≤ i) :
    x.getLsbD i = false := by
  have hlow : ∃ y, x = lowBits bits y := by
    cases a with
    | reg r => exact ⟨_, (Got.ok.inj h).1.symm⟩
    | win v =>
      simp only [State.readV] at h
      split at h
      · exact ⟨_, (Got.ok.inj h).1.symm⟩
      · cases h
  obtain ⟨y, rfl⟩ := hlow
  rw [getLsbD_lowBits hle, decide_eq_false (Nat.not_lt.mpr hi), Bool.false_and]

end

/-! ## Masks of compares (R113) -/

/-- Byte n of a vector is one of its element n / 4. -/
theorem lt_bytes_iff (w : Width) (n : Nat) : n < w.bits / 8 ↔ n / 4 < w.bits / 32 := by
  have := (width_lanes w).1
  omega

/-- Each element's outcome stands in the mask bits of its bytes. -/
theorem laneMask_getLsbD (w : Width) {bs : List Bool} (h : bs.length = w.bits / 32) (n : Nat) :
    (laneMask 32 bs).getLsbD n = true ↔ n < w.bits / 8 ∧ bs.getD (n / 4) false = true := by
  have hle := width_bits_le w
  rw [laneMask, getLsbD_bitsOf, Bool.and_eq_true, decide_eq_true_iff, lt_bytes_iff, ← h]
  refine ⟨fun ⟨_, hb⟩ => ⟨?_, hb⟩, fun ⟨hn, hb⟩ => ⟨by omega, hb⟩⟩
  by_contra hn
  rw [List.getD_eq_default _ _ (Nat.not_lt.mp hn)] at hb
  cases hb

/-! ## Slots of one, two and three vector sources -/

section
variable {s t : State} {w : Width} {a b d : VOp} {x y : Vec} {i : Instr} {n : Nat}

theorem State.vec2_of_reads (h : Reads2 s a b w.bits x y t) (d : VOp) (f : Vec → Vec → Vec) (latency : Nat) :
    s.vec2 w d a b f latency = .next (t.writeV d w.bits (f x y) latency) := by
  obtain ⟨u, hx, hy⟩ := h
  simp only [State.vec2, hx, hy]
  rfl

/-- A slot that reads its destination is one of two sources, where that is a register (R109). -/
theorem State.vec3_of_reads (h : Reads2 s a b w.bits x y t) (r : Fin 16) (f : Vec → Vec → Vec → Vec) (latency : Nat) :
    s.vec3 w (.reg r) a b f latency = .next (t.writeV (.reg r) w.bits (f (lowBits w.bits (s.getV r)) x y) latency) :=
  State.vec2_of_reads h (.reg r) _ latency

theorem State.vecCmp_of_reads (h : Reads2 s a b w.bits x y t) (k : Fin 8) (e : Nat) (f : BitVec e → BitVec e → Bool) (latency : Nat) :
    s.vecCmp w k a b e f latency = .next (t.put (.k k (laneMask e (List.zipWith f (lanes e (w.bits / e) x) (lanes e (w.bits / e) y)))) latency) := by
  obtain ⟨u, hx, hy⟩ := h
  simp only [State.vecCmp, hx, hy]
  rfl

theorem givesV1_of_onLane {e : Nat} {f g : BitVec e → BitVec e} (h : exec i s = s.vec1 w d a (onLane e f w.bits) n) (hfg : ∀ x, f x = g x) :
    GivesV1 s i w d a e n g := fun x _ hread =>
  ⟨_, h.trans (State.vec1_of_read hread d _ n), (onLane_hasLanes (width_bits_le w) f x).congr fun _ _ => hfg _⟩

theorem givesV2_of_onLanes {e : Nat} {f g : BitVec e → BitVec e → BitVec e} (h : exec i s = s.vec2 w d a b (onLanes e f w.bits) n)
    (hfg : ∀ x y, f x y = g x y) : GivesV2 s i w d a b e n g := fun x y _ hreads =>
  ⟨_, h.trans (State.vec2_of_reads hreads d _ n), (onLanes_hasLanes (width_bits_le w) f x y).congr fun _ _ => hfg _ _⟩

/-- A function of the bits of two sources is one of the bits of their elements. -/
theorem givesV2_of_bitwise {e : Nat} (op : ∀ n, BitVec n → BitVec n → BitVec n) (p : Bool → Bool → Bool) (h : exec i s = s.vec2 w d a b (op 1024) n)
    (hop : ∀ {n : Nat} (x y : BitVec n) {j : Nat}, j < n → (op n x y).getLsbD j = p (x.getLsbD j) (y.getLsbD j)) (hp : p false false = false) :
    GivesV2 s i w d a b e n (op e) := by
  rintro x y t hreads
  have hbit : ∀ j, (op 1024 x y).getLsbD j = p (x.getLsbD j) (y.getLsbD j) := fun j => by
    by_cases hj : j < 1024
    · exact hop x y hj
    · simp only [BitVec.getLsbD_of_ge _ j (Nat.not_lt.mp hj), hp]
  refine ⟨_, h.trans (State.vec2_of_reads hreads d _ n), fun m _ => BitVec.eq_of_getLsbD_eq fun j hj => ?_, fun j hj => ?_⟩
  · simp only [hop _ _ hj, lane, BitVec.getLsbD_extractLsb', hj, decide_true, Bool.true_and, hbit]
  · obtain ⟨u, hx, hy⟩ := hreads
    rw [hbit, State.readV_zero_above (width_bits_le w) hx hj, State.readV_zero_above (width_bits_le w) hy hj, hp]

theorem givesK_of_vecCmp {k : Fin 8} {f : BitVec 32 → BitVec 32 → Bool} {g : BitVec 32 → BitVec 32 → Prop}
    (h : exec i s = s.vecCmp w k a b 32 f n) (hfg : ∀ x y, f x y = true ↔ g x y) : GivesK s i w k a b 32 n g := by
  intro x y t hreads
  refine ⟨_, h.trans (State.vecCmp_of_reads hreads k 32 f n), fun j => ?_⟩
  rw [zipWith_lanes, laneMask_getLsbD w (by simp)]
  refine and_congr_right fun hj => ?_
  rw [range_map_getD _ _ ((lt_bytes_iff w j).mp hj)]
  exact hfg _ _

end

end Sys2Proof.Machine
end

section
/-! SUPPORT. The integer forms VIA (R112): the elements that they write, as integers. -/

namespace Sys2Proof.Machine

theorem ite_slt_eq_min {n : Nat} (x y : BitVec n) : (if x.slt y then x else y) = BitVec.ofInt n (min x.toInt y.toInt) := by
  simp only [BitVec.slt, decide_eq_true_eq]
  split
  next h => rw [min_eq_left h.le, BitVec.ofInt_toInt]
  next h => rw [min_eq_right (not_lt.mp h), BitVec.ofInt_toInt]

theorem ite_slt_eq_max {n : Nat} (x y : BitVec n) : (if x.slt y then y else x) = BitVec.ofInt n (max x.toInt y.toInt) := by
  simp only [BitVec.slt, decide_eq_true_eq]
  split
  next h => rw [max_eq_right h.le, BitVec.ofInt_toInt]
  next h => rw [max_eq_left (not_lt.mp h), BitVec.ofInt_toInt]

theorem ite_ult_eq_min {n : Nat} (x y : BitVec n) : (if x.ult y then x else y) = BitVec.ofNat n (min x.toNat y.toNat) := by
  simp only [BitVec.ult, decide_eq_true_eq]
  split
  next h => rw [min_eq_left h.le, BitVec.ofNat_toNat, BitVec.setWidth_eq]
  next h => rw [min_eq_right (not_lt.mp h), BitVec.ofNat_toNat, BitVec.setWidth_eq]

theorem ite_ult_eq_max {n : Nat} (x y : BitVec n) : (if x.ult y then y else x) = BitVec.ofNat n (max x.toNat y.toNat) := by
  simp only [BitVec.ult, decide_eq_true_eq]
  split
  next h => rw [max_eq_right h.le, BitVec.ofNat_toNat, BitVec.setWidth_eq]
  next h => rw [max_eq_left (not_lt.mp h), BitVec.ofNat_toNat, BitVec.setWidth_eq]

theorem sshiftRight_eq_ofInt {n : Nat} (x : BitVec n) (k : Nat) : x.sshiftRight k = BitVec.ofInt n (x.toInt / 2 ^ k) := by
  rw [← BitVec.ofInt_toInt (x := x.sshiftRight k), BitVec.toInt_sshiftRight, Int.shiftRight_eq_div_pow, Nat.cast_pow, Nat.cast_two]

theorem ite_neg_eq_natAbs {n : Nat} (x : BitVec n) : (if x.slt 0 then -x else x) = BitVec.ofNat n x.toInt.natAbs := by
  rw [← BitVec.ofInt_natCast]
  simp only [BitVec.slt, BitVec.ofNat_eq_ofNat, BitVec.toInt_zero, decide_eq_true_eq]
  split
  next h => rw [Int.ofNat_natAbs_of_nonpos h.le, BitVec.ofInt_neg, BitVec.ofInt_toInt]
  next h => rw [Int.natAbs_of_nonneg (not_lt.mp h), BitVec.ofInt_toInt]

theorem and_not_bit {n : Nat} (x y : BitVec n) {j : Nat} (hj : j < n) : (x &&& ~~~y).getLsbD j = (x.getLsbD j && !y.getLsbD j) := by
  rw [BitVec.getLsbD_and, BitVec.getLsbD_not, decide_eq_true hj, Bool.true_and]

/-- A byte of a 32-bit element is a byte of the vector. -/
theorem lane_byte (x : Vec) (n : Nat) {j : Nat} (hj : j < 4) : (lane 32 x n).extractLsb' (8 * j) 8 = lane 8 x (4 * n + j) := by
  apply BitVec.eq_of_getLsbD_eq
  intro i hi
  have hin : 8 * j + i < 32 := by omega
  have hplace : 32 * n + (8 * j + i) = 8 * (4 * n + j) + i := by ring
  simp only [lane, BitVec.getLsbD_extractLsb', hi, hin, hplace, decide_true, Bool.true_and]

/-- The sum of the four signed products of bytes (R112). -/
theorem dot4_lane (x y : Vec) (n : Nat) : dot4 (lane 32 x n) (lane 32 y n) = BitVec.ofInt 32
    ((lane 8 x (4 * n)).toInt * (lane 8 y (4 * n)).toInt + (lane 8 x (4 * n + 1)).toInt * (lane 8 y (4 * n + 1)).toInt +
     (lane 8 x (4 * n + 2)).toInt * (lane 8 y (4 * n + 2)).toInt + (lane 8 x (4 * n + 3)).toInt * (lane 8 y (4 * n + 3)).toInt) := by
  have hrange : List.range 4 = [0, 1, 2, 3] := rfl
  simp (disch := decide) only [dot4, hrange, List.foldl_cons, List.foldl_nil, lane_byte, BitVec.signExtend, BitVec.ofInt_add, BitVec.ofInt_mul,
    BitVec.ofNat_eq_ofNat, BitVec.zero_add, Nat.add_zero]

end Sys2Proof.Machine

namespace Sys2Proof
open Machine

/-- Settles O17: every form is one function of the elements at each place, which is the integer's. -/
theorem vectorInteger : Obligations.VectorInteger := by
  unfold Obligations.VectorInteger
  intro s w d a b k
  refine ⟨givesV2_of_onLanes (exec_vaddI8 ..) fun _ _ => rfl, givesV2_of_onLanes (exec_vaddI16 ..) fun _ _ => rfl,
    givesV2_of_onLanes (exec_vaddI32 ..) fun _ _ => rfl, givesV2_of_onLanes (exec_vsubI8 ..) fun _ _ => rfl,
    givesV2_of_onLanes (exec_vsubI16 ..) fun _ _ => rfl, givesV2_of_onLanes (exec_vsubI32 ..) fun _ _ => rfl,
    givesV2_of_onLanes (exec_vmulI16 ..) fun _ _ => rfl, givesV2_of_onLanes (exec_vmulI32 ..) fun _ _ => rfl,
    givesV2_of_onLanes (exec_vmulhI32 ..) fun _ _ => rfl, givesV2_of_onLanes (exec_vminI32 ..) ite_slt_eq_min,
    givesV2_of_onLanes (exec_vmaxI32 ..) ite_slt_eq_max, givesV2_of_onLanes (exec_vminnN32 ..) ite_ult_eq_min,
    givesV2_of_onLanes (exec_vmaxnN32 ..) ite_ult_eq_max, ?and, ?or, ?xor, ?andn, givesV2_of_onLanes (exec_vshlI32 ..) fun _ _ => rfl,
    givesV2_of_onLanes (exec_vshrN32 ..) fun _ _ => rfl, givesV2_of_onLanes (exec_vsarI32 ..) fun x y => sshiftRight_eq_ofInt x (count5 y),
    givesV2_of_onLanes (exec_vaddsI8 ..) fun _ _ => rfl, givesV2_of_onLanes (exec_vaddsI16 ..) fun _ _ => rfl,
    givesV2_of_onLanes (exec_vsubsI8 ..) fun _ _ => rfl, givesV2_of_onLanes (exec_vsubsI16 ..) fun _ _ => rfl,
    givesV1_of_onLane (exec_vabsI32 ..) ite_neg_eq_natAbs, givesV1_of_onLane (exec_vclzI32 ..) fun _ => rfl,
    givesV1_of_onLane (exec_vpopcI32 ..) fun _ => rfl, givesK_of_vecCmp (exec_vceqI32 ..) fun _ _ => beq_iff_eq,
    givesK_of_vecCmp (exec_vcltI32 ..) fun _ _ => BitVec.slt_iff_toInt_lt, givesK_of_vecCmp (exec_vcltnN32 ..) fun _ _ => BitVec.ult_iff_toNat_lt,
    fun r x y t hreads => ⟨⟨_, (exec_vmadI16 ..).trans (State.vec3_of_reads hreads r _ 2), ?mad⟩,
      ⟨_, (exec_vdot4I8 ..).trans (State.vec3_of_reads hreads r _ 4), ?dot⟩⟩, fun v => ⟨rfl, rfl⟩⟩
  case and => exact givesV2_of_bitwise (fun _ x y => x &&& y) (· && ·) (exec_vand ..) (fun _ _ _ _ => BitVec.getLsbD_and) rfl
  case or => exact givesV2_of_bitwise (fun _ x y => x ||| y) (· || ·) (exec_vor ..) (fun _ _ _ _ => BitVec.getLsbD_or) rfl
  case xor => exact givesV2_of_bitwise (fun _ x y => x ^^^ y) (· ^^ ·) (exec_vxor ..) (fun _ _ _ _ => BitVec.getLsbD_xor) rfl
  case andn => exact givesV2_of_bitwise (fun _ x y => x &&& ~~~y) (fun x y => x && !y) (exec_vandn ..) and_not_bit rfl
  case mad => exact (onLanes3_hasLanes (width_bits_le w) _ _ x y).congr fun n hn => by rw [lane_lowBits (width_bits_le w) _ hn]
  case dot => exact (onLanes3_hasLanes (width_bits_le w) _ _ x y).congr fun n hn => by rw [lane_lowBits (width_bits_le w) _ hn, dot4_lane]

end Sys2Proof
end

section
/-! SUPPORT. The permutes VPM (R123 to R125): the element that each moves to a place. -/

namespace Sys2Proof.Machine

/-! ## Permutes -/

section
variable {bits : Nat} (hle : bits ≤ 1024) (x y : Vec)
include hle

theorem permBytes_hasLanes : HasLanes 8 bits (permBytes bits x y) fun i =>
    if (lane 8 y i).getLsbD 7 then 0 else lane 8 x ((lane 8 y i).toNat % (bits / 8)) := by
  rw [permBytes, lanes, List.map_map]
  exact hasLanes_map_range hle _

theorem zipLanes_hasLanes : HasLanes 32 bits (zipLanes bits x y) fun i => lane 32 (if i % 2 = 0 then x else y) (i / 2) := hasLanes_map_range hle _

theorem unzipLanes_hasLanes : HasLanes 32 bits (unzipLanes bits x y) fun i =>
    if i < bits / 32 / 2 then lane 32 x (2 * i) else lane 32 y (2 * (i - bits / 32 / 2)) :=
  (hasLanes_map_range hle _).congr fun i _ => by simp only [lane, ← Nat.mul_assoc, Nat.reduceMul]

theorem selBytes_hasLanes (k : Mask) : HasLanes 8 bits (selBytes k bits x y) fun i => lane 8 (if k.getLsbD i then x else y) i := hasLanes_map_range hle _

theorem rotLanes_hasLanes (c : Nat) : HasLanes 32 bits (rotLanes c bits x) fun i => lane 32 x ((i + bits / 32 - c % (bits / 32)) % (bits / 32)) :=
  hasLanes_map_range hle _

theorem iota_hasLanes : HasLanes 32 bits (ofLanes 32 ((List.range (bits / 32)).map (BitVec.ofNat 32))) fun i => BitVec.ofNat 32 i := hasLanes_map_range hle _

theorem spread_hasLanes (e : Nat) (v : Word) : HasLanes e bits (spread e bits v) fun _ => v.setWidth e := hasLanes_replicate hle _

theorem set_lanes_hasLanes (e j : Nat) (v : BitVec e) : HasLanes e bits (ofLanes e ((lanes e (bits / e) x).set j v)) fun m => if m = j then v else lane e x m := by
  refine (hasLanes_ofLanes hle (by simp [lanes])).congr fun m hm => ?_
  rw [List.getD_eq_getElem _ _ (by simpa [lanes] using hm), List.getElem_set]
  simp only [lanes, List.getElem_map, List.getElem_range, lane, eq_comm]

end

/-- The place that a rotation by c takes an element to gives it back. -/
theorem rotation_inverse {n c i : Nat} (hi : i < n) : ((i + c) % n + n - c % n) % n = i := by
  have hc := Nat.mod_lt c (Nat.zero_lt_of_lt hi)
  rw [← Nat.add_mod_mod i c]
  obtain h | h := Nat.lt_or_ge (i + c % n) n
  · rw [Nat.mod_eq_of_lt h, show i + c % n + n - c % n = i + n by omega, Nat.add_mod_right, Nat.mod_eq_of_lt hi]
  · rw [Nat.mod_eq_sub_mod h, Nat.mod_eq_of_lt (show i + c % n - n < n by omega), show i + c % n - n + n - c % n = i by omega, Nat.mod_eq_of_lt hi]

/-! ## Halves of a mask (R125) -/

theorem kfroms_getLsbD (v : Word) (h : Bool) {i : Nat} (hi : i < 128) :
    (v.setWidth 128 <<< (if h then 64 else 0) : Mask).getLsbD i = (decide (i / 64 = h.toNat) && v.getLsbD (i % 64)) := by
  have hhalf : ∀ n, 64 ≤ n → v.getLsbD n = false := fun n => BitVec.getLsbD_of_ge v n
  rw [BitVec.getLsbD_shiftLeft, BitVec.getLsbD_setWidth]
  obtain hlow | hhigh := Nat.lt_or_ge i 64
  · have hdiv : i / 64 = 0 := by omega
    cases h <;> simp [hi, hlow, hdiv, Nat.mod_eq_of_lt hlow]
  · have hdiv : i / 64 = 1 := by omega
    have hmod : i % 64 = i - 64 := by omega
    cases h
    · simp [hdiv, hhalf i hhigh]
    · simp [hi, hdiv, hmod, Nat.not_lt.mpr hhigh, show i - 64 < 128 by omega]

theorem ktos_getLsbD (m : Mask) (h : Bool) {i : Nat} (hi : i < 64) : (m.extractLsb' (if h then 64 else 0) 64).getLsbD i = m.getLsbD (64 * h.toNat + i) := by
  rw [BitVec.getLsbD_extractLsb', decide_eq_true hi, Bool.true_and]
  cases h <;> rfl

/-! ## Slots -/

section
variable {s t : State} {w : Width}

theorem execVext_of_read {a : VOp} {x : Vec} (h : s.readV a w.bits = .ok x t) (d : SReg) {j : BitVec 4} (hj : j.toNat < w.bits / 64) :
    execVext w d a j s = .next (t.putS d (lane 64 x j.toNat) 2) := by
  rw [execVext, if_neg (Nat.not_le.mpr hj), h]
  rfl

theorem execVext_beyond (a : VOp) (d : SReg) {j : BitVec 4} (hj : w.bits / 64 ≤ j.toNat) : execVext w d a j s = .next s.illop := if_pos hj

theorem execVbc_element (d : VOp) (a : Src) {i : BitVec 4} {e : Fin 4} (h : i.toNat = e.val) :
    execVbc w d i a s = .next (s.writeV d w.bits (spread (8 * 2 ^ e.val) w.bits (s.src a)) 2) := by
  rw [execVbc, if_neg (by omega), h]
  rfl

theorem execVbc_beyond (d : VOp) (a : Src) {i : BitVec 4} (h : 4 ≤ i.toNat) : execVbc w d i a s = .next s.illop := if_pos h

theorem execVins_reg (r : Fin 16) (a : Src) {j : BitVec 4} (hj : j.toNat < w.bits / 64) : execVins w (.reg r) j a s =
    .next (s.writeV (.reg r) w.bits (ofLanes 64 ((lanes 64 (w.bits / 64) (s.getV r)).set j.toNat (s.src a))) 2) := if_neg (Nat.not_le.mpr hj)

theorem execVins_beyond (r : Fin 16) (a : Src) {j : BitVec 4} (hj : w.bits / 64 ≤ j.toNat) : execVins w (.reg r) j a s = .next s.illop := if_pos hj

end

end Sys2Proof.Machine

namespace Sys2Proof
open Machine

/-- Settles O22: every permute gives each place the element that it names, and an index is one that the width has or is not. -/
theorem permutes : Obligations.Permutes := by
  unfold Obligations.Permutes
  intro s w d a b sc sd j k k' k'' c i h n
  have hle := width_bits_le w
  refine ⟨fun x t hread => ⟨x, State.vec1_of_read hread d id 2, fun _ _ => rfl, fun _ => State.readV_zero_above hle hread⟩,
    fun x y t hreads => ⟨⟨_, (exec_vperm ..).trans (State.vec2_of_reads hreads d _ 3), permBytes_hasLanes hle x y⟩,
      ⟨_, (exec_vzip ..).trans (State.vec2_of_reads hreads d _ 2), zipLanes_hasLanes hle x y⟩,
      ⟨_, (exec_vunzip ..).trans (State.vec2_of_reads hreads d _ 2), unzipLanes_hasLanes hle x y⟩,
      ⟨_, (exec_vsel ..).trans (State.vec2_of_reads hreads d _ 2), selBytes_hasLanes hle x y (s.getK j)⟩⟩,
    fun x t hread => ⟨⟨_, (exec_vrotl ..).trans (State.vec1_of_read hread d _ 2), fun m hm => ?_⟩, execVext_of_read hread sd⟩, execVext_beyond a sd,
    ⟨_, (exec_viota ..).trans rfl, iota_hasLanes hle⟩, fun e he => ⟨_, execVbc_element d sc he, spread_hasLanes hle _ _⟩, execVbc_beyond d sc,
    fun r hi => ⟨_, execVins_reg r sc hi, set_lanes_hasLanes hle (s.getV r) 64 i.toNat (s.src sc)⟩, fun r => execVins_beyond r sc,
    fun v => rfl, rfl, rfl, rfl, rfl, ⟨_, rfl, fun m hm => kfroms_getLsbD (s.src sc) h hm⟩, ⟨_, rfl, fun m hm => ktos_getLsbD (s.getK k) h hm⟩⟩
  exact ((rotLanes_hasLanes hle x c.toNat).1 _ (Nat.mod_lt _ (Nat.zero_lt_of_lt hm))).trans (congrArg (lane 32 x) (rotation_inverse hm))

end Sys2Proof
end

section
/-! SUPPORT. Vector floating-point slots (R110, R114 to R116): the elements of a vector as values, how each shape of slot ends, and that a slot whose
operands are registers completes where no flag is enabled. -/

namespace Sys2Proof.Machine

/-! ## Elements as values -/

theorem fp32_bits : fp32.bits = 32 := rfl

theorem bf16_bits : bf16.bits = 16 := rfl

section
variable {f : Fmt} {e : Nat} (he : f.bits = e) (bits : Nat) (x : Vec)
include he

/-- The elements of e bits, as the format's values. -/
theorem Fmt.elems_eq_range : f.elems bits x = (List.range (bits / e)).map fun n => f.unpack (lane e x n).toNat := by
  subst he
  exact List.map_map

theorem Fmt.elems_length : (f.elems bits x).length = bits / e := by rw [Fmt.elems_eq_range he, List.length_map, List.length_range]

/-- An operation on the elements of three vectors. -/
theorem Fmt.zipWith_elems3 (op : FVal → FVal → FVal → FRes) (y z : Vec) :
    List.zipWith (fun g v => g v) (List.zipWith op (f.elems bits x) (f.elems bits y)) (f.elems bits z) =
      (List.range (bits / e)).map fun n => op (f.unpack (lane e x n).toNat) (f.unpack (lane e y n).toNat) (f.unpack (lane e z n).toNat) := by
  rw [Fmt.elems_eq_range he, Fmt.elems_eq_range he, Fmt.elems_eq_range he, zipWith_map_range]
  exact zipWith_map_range (fun g v => g v) (fun n => op (f.unpack (lane e x n).toNat) (f.unpack (lane e y n).toNat)) _ _

end

/-- The results of a vector stand in its elements, in order (R107). -/
theorem fp32_vec_hasLanes (w : Width) {rs : List FRes} (h : rs.length = w.bits / 32) :
    HasLanes 32 w.bits (fp32.vec rs) fun n => BitVec.ofNat 32 (rs.getD n ⟨0, 0⟩).bits := by
  have hlen : (rs.map fun r => BitVec.ofNat 32 r.bits).length = w.bits / 32 := by rw [List.length_map, h]
  exact (hasLanes_ofLanes (width_bits_le w) hlen).congr fun n _ => List.getD_map rs ⟨0, 0⟩ fun r => BitVec.ofNat 32 r.bits

/-- A compare's outcomes in the mask bits of their elements (R113). -/
theorem laneMask_outcomes (w : Width) {rs : List (Bool × BitVec 5)} (h : rs.length = w.bits / 32) (n : Nat) :
    (laneMask 32 (rs.map Prod.fst)).getLsbD n = true ↔ n < w.bits / 8 ∧ (rs.getD (n / 4) (false, 0)).1 = true := by
  rw [laneMask_getLsbD w (by rw [List.length_map, h]), ← List.getD_map rs ((false, 0) : Bool × BitVec 5) Prod.fst]

/-! ## Interlocked results -/

@[simp] theorem State.fly_issue (s : State) (kind : FlightKind) (vals : List RegVal) (p : Option HeldPush) (n : Nat) :
    (s.fly kind vals p n).issue = s.issue := rfl

@[simp] theorem State.fly_xe (s : State) (kind : FlightKind) (vals : List RegVal) (p : Option HeldPush) (n : Nat) : (s.fly kind vals p n).xe = s.xe := by
  refine State.xe_congr ?_
  rw [State.getSys, State.fly, State.cur_modCur]
  rfl

/-! ## How each shape of slot ends -/

section
variable {s t : State} {f : Fmt} {w : Width} {d a b : VOp} {x y : Vec} {i : Instr} {n : Nat}

theorem givesVF_of_vecF1 {op : FVal → FRes} (hread : s.readV a w.bits = .ok x t) (h : exec i s = s.vecF1 f w d a op n) :
    GivesVF t i s f d w.bits n ((f.elems w.bits x).map op) :=
  givesW_of_withFlags (h.trans (by rw [State.vecF1, hread]; rfl))

theorem givesVF_of_vecF2 {op : FVal → FVal → FRes} (hreads : Reads2 s a b w.bits x y t) (h : exec i s = s.vecF2 f w d a b op n) :
    GivesVF t i s f d w.bits n (List.zipWith op (f.elems w.bits x) (f.elems w.bits y)) :=
  givesW_of_withFlags (h.trans (by rw [State.vecF2, State.readV2_of_reads hreads]; rfl))

theorem givesVF_of_vecF3 {e : Nat} (he : f.bits = e) {r : Fin 16} {op : FVal → FVal → FVal → FRes} (hreads : Reads2 s a b w.bits x y t)
    (h : exec i s = s.vecF3 f w (.reg r) a b op n) : GivesVF t i s f (.reg r) w.bits n ((List.range (w.bits / e)).map fun n =>
      op (f.unpack (lane e (s.getV r) n).toNat) (f.unpack (lane e x n).toNat) (f.unpack (lane e y n).toNat)) := by
  rw [← Fmt.zipWith_elems3 he]
  exact givesW_of_withFlags (h.trans (by simp only [State.vecF3, State.readV2_of_reads hreads]; rfl))

theorem vfscl_gives (hreads : Reads2 s a b w.bits x y t) (d : VOp) :
    GivesVF t (.vfsclF32 w d a b) s fp32 d w.bits 4
      ((List.range (w.bits / 32)).map fun n => fScale fp32 s.rmArith (fp32.unpack (lane 32 x n).toNat) (lane 32 y n).toInt) := by
  have hzip := zipWith_map_range (fun v (n : BitVec 32) => fScale fp32 s.rmArith v n.toInt) (fun n => fp32.unpack (lane 32 x n).toNat) (lane 32 y) (w.bits / 32)
  rw [← Fmt.elems_eq_range fp32_bits] at hzip
  rw [← hzip]
  exact givesW_of_withFlags ((exec_vfsclF32 ..).trans (by rw [execVfsclF32, State.readV2_of_reads hreads]; rfl))

theorem vfdiv_gives (hreads : Reads2 s a b w.bits x y t) (d : VOp) :
    let rs := List.zipWith (fDiv fp32 s.rmArith) (fp32.elems w.bits x) (fp32.elems w.bits y)
    GivesW s (.vfdivF32 w d a b) (t.flyV .vdivide d w.bits (fp32.vec rs) 1) (flagsOf rs) :=
  givesW_of_withFlags ((exec_vfdivF32 ..).trans (by rw [execVfdivF32, State.readV2_of_reads hreads]; rfl))

theorem vfsqrt_gives (hread : s.readV a w.bits = .ok x t) (d : VOp) :
    let rs := (fp32.elems w.bits x).map (fSqrt fp32 s.rmArith)
    GivesW s (.vfsqrtF32 w d a) (t.flyV .vdivide d w.bits (fp32.vec rs) 1) (flagsOf rs) :=
  givesW_of_withFlags ((exec_vfsqrtF32 ..).trans (by rw [execVfsqrtF32, hread]; rfl))

/-- A compare writes its elements' outcomes to the mask (R92, R113). -/
theorem givesW_of_vecFcmp {k : Fin 8} {op : FVal → FVal → Bool × BitVec 5} (hreads : Reads2 s a b w.bits x y t) (h : exec i s = s.vecFcmp w k a b op) :
    let rs := List.zipWith op (fp32.elems w.bits x) (fp32.elems w.bits y)
    ∃ mk : Mask, (∀ n, mk.getLsbD n = true ↔ n < w.bits / 8 ∧ (rs.getD (n / 4) (false, 0)).1 = true) ∧
      GivesW s i (t.put (.k k mk) 4) (rs.foldl (fun f r => f ||| r.2) 0) := by
  intro rs
  have hlen : rs.length = w.bits / 32 := by rw [List.length_zipWith, Fmt.elems_length fp32_bits, Fmt.elems_length fp32_bits, Nat.min_self]
  exact ⟨_, laneMask_outcomes w hlen, givesW_of_withFlags (h.trans (by rw [State.vecFcmp, State.readV2_of_reads hreads]; rfl))⟩

end

/-! ## Where no flag is enabled -/

section
variable {s u : State} {i : Instr} {n : Nat}

/-- A result that takes effect, and leaves the flags that are enabled as they are, completes where none is. -/
theorem GivesW.completes {f : BitVec 5} (h : GivesW s i u f) (hx : s.xe = 0) (hu : u.issue = s.issue) (hux : u.xe = s.xe) :
    exec i s = .next (u.joinFlags f) := (h.1 (by rw [hu])).1 (by rw [hux, hx]; exact BitVec.and_zero)

/-- A vector result for a register completes. -/
theorem GivesW.completesV {f : BitVec 5} {r : Fin 16} {bits : Nat} {z : Vec} (h : GivesW s i (s.writeV (.reg r) bits z n) f) (hx : s.xe = 0) :
    CompletesV s i r n := ⟨_, _, h.completes hx (s.put_issue ..) (s.put_xe ..)⟩

/-- An interlocked result for a register completes (R31, R116). -/
theorem completes_of_flyV {r : Fin 16} {bits : Nat} {z : Vec} {f : BitVec 5} (hx : s.xe = 0) (h : GivesW s i (s.flyV .vdivide (.reg r) bits z 1) f) :
    ∃ z fl, exec i s = .next ((s.fly .vdivide [.v r z] none 1).joinFlags fl) := ⟨_, f, h.completes hx (s.fly_issue ..) (s.fly_xe ..)⟩

end

end Sys2Proof.Machine

namespace Sys2Proof
open Machine

/-- Settles O18: every form is one of a few shapes of slot, each of which ends as a slot that raises flags. -/
theorem vectorFloat : Obligations.VectorFloat := by
  unfold Obligations.VectorFloat
  intro s w d a b k m
  refine ⟨fun x y t hreads => ⟨fun i op hi => ?_, fun i op hi => ?_, fun r => ⟨givesVF_of_vecF3 fp32_bits hreads (exec_vfmaF32 ..),
      givesVF_of_vecF3 (op := fun z x y => fFma fp32 m z x.neg y) fp32_bits hreads (exec_vfmsF32 ..), givesVF_of_vecF3 bf16_bits hreads (exec_vfmaBf16 ..)⟩,
      vfscl_gives hreads d, vfdiv_gives hreads d, fun i op hi => ?_⟩,
    fun x t hread => ⟨fun i op hi => ?_, vfsqrt_gives hread d⟩, fun v i hi => ?_, fun hx p q r => ⟨?_, ?_, ?_⟩, Fmt.elems_eq_range fp32_bits w.bits,
    fun rs => fp32_vec_hasLanes w⟩
  · simp only [List.mem_cons, Prod.mk.injEq, List.not_mem_nil, or_false] at hi
    obtain ⟨rfl, rfl⟩ | ⟨rfl, rfl⟩ | ⟨rfl, rfl⟩ | ⟨rfl, rfl⟩ | ⟨rfl, rfl⟩ | ⟨rfl, rfl⟩ := hi
    all_goals exact givesVF_of_vecF2 hreads rfl
  · simp only [List.mem_cons, Prod.mk.injEq, List.not_mem_nil, or_false] at hi
    obtain ⟨rfl, rfl⟩ | ⟨rfl, rfl⟩ | ⟨rfl, rfl⟩ | ⟨rfl, rfl⟩ := hi
    all_goals exact givesVF_of_vecF2 hreads rfl
  · simp only [List.mem_cons, Prod.mk.injEq, List.not_mem_nil, or_false] at hi
    obtain ⟨rfl, rfl⟩ | ⟨rfl, rfl⟩ | ⟨rfl, rfl⟩ | ⟨rfl, rfl⟩ := hi
    all_goals exact givesW_of_vecFcmp hreads rfl
  · simp only [List.mem_cons, Prod.mk.injEq, List.not_mem_nil, or_false] at hi
    obtain ⟨rfl, rfl⟩ | ⟨rfl, rfl⟩ | ⟨rfl, rfl⟩ := hi
    all_goals exact givesVF_of_vecF1 hread rfl
  · simp only [List.mem_cons, List.not_mem_nil, or_false] at hi
    obtain rfl | rfl | rfl := hi
    all_goals rfl
  · have hreads := s.reads2_reg p q w.bits
    have hread := s.readV_reg p w.bits
    have binary : ∀ {i : Instr} {f : Fmt} {op : FVal → FVal → FRes}, exec i s = s.vecF2 f w (.reg r) (.reg p) (.reg q) op 4 → CompletesV s i r 4 :=
      fun h => (givesVF_of_vecF2 hreads h).completesV hx
    have ternary : ∀ {i : Instr} {f : Fmt} {op : FVal → FVal → FVal → FRes}, exec i s = s.vecF3 f w (.reg r) (.reg p) (.reg q) op 4 → CompletesV s i r 4 :=
      fun h => (givesVF_of_vecF3 rfl hreads h).completesV hx
    have unary : ∀ {i : Instr} {f : Fmt} {op : FVal → FRes}, exec i s = s.vecF1 f w (.reg r) (.reg p) op 4 → CompletesV s i r 4 :=
      fun h => (givesVF_of_vecF1 hread h).completesV hx
    simp only [List.forall_mem_cons]
    exact ⟨binary (exec_vfaddF32 ..), binary (exec_vfsubF32 ..), binary (exec_vfmulF32 ..), ternary (exec_vfmaF32 ..), ternary (exec_vfmsF32 ..),
      binary (exec_vfminF32 ..), binary (exec_vfmaxF32 ..), binary (exec_vfamaxF32 ..), (vfscl_gives hreads (.reg r)).completesV hx, binary (exec_vfaddBf16 ..),
      binary (exec_vfmulBf16 ..), ternary (exec_vfmaBf16 ..), binary (exec_vfminBf16 ..), binary (exec_vfmaxBf16 ..), unary (exec_vfabsF32 ..),
      unary (exec_vfnegF32 ..), unary (exec_vfrndF32 ..), List.forall_mem_nil _⟩
  · simp only [List.forall_mem_cons]
    exact ⟨completes_of_flyV hx (vfdiv_gives (s.reads2_reg p q w.bits) (.reg r)),
      completes_of_flyV hx (vfsqrt_gives (s.readV_reg p w.bits) (.reg r)), List.forall_mem_nil _⟩
  · have compare : ∀ {i : Instr} {op : FVal → FVal → Bool × BitVec 5}, exec i s = s.vecFcmp w k (.reg p) (.reg q) op →
        ∃ z fl, exec i s = .next ((s.put (.k k z) 4).joinFlags fl) := fun h => by
      obtain ⟨mk, -, hgives⟩ := givesW_of_vecFcmp (s.reads2_reg p q w.bits) h
      exact ⟨mk, _, hgives.completes hx (s.put_issue ..) (s.put_xe ..)⟩
    simp only [List.forall_mem_cons]
    exact ⟨compare (exec_vfceqF32 ..), compare (exec_vfcltF32 ..), compare (exec_vfcleF32 ..), compare (exec_vfcunF32 ..), List.forall_mem_nil _⟩

end Sys2Proof
end

section
/-! SUPPORT. Exact conversions (R66, R118): values of at most as many bits as the format's significands hold, within its range, raise no flag. -/

namespace Sys2Proof.Machine

/-- A magnitude that the format has packs without a flag (R57). -/
theorem roundPack_noFlags {f : Fmt} (he : f.e4m3 = false) (hb : 1 < f.ebits) (mode : RMode) (neg : Bool) {m : Nat} {e : Int} (hm : m < 2 ^ (f.fbits + 1))
    (hlow : f.unit ≤ e) (hhigh : e + m.log2 ≤ f.bias) : (roundPack f mode neg m e).flags = 0 := by
  by_cases h0 : m = 0
  · simp only [roundPack, h0, if_true]
  have hlog : m.log2 < f.fbits + 1 := (Nat.log2_lt h0).mpr hm
  have hunit : f.unitOf (e + m.log2) ≤ e := max_le (by omega) hlow
  have hshift : (e - f.unitOf (e + m.log2)).toNat ≤ f.fbits - m.log2 := by
    have : e + m.log2 - f.fbits ≤ f.unitOf (e + m.log2) := le_max_left _ _
    omega
  have hunits : m * 2 ^ (e - f.unitOf (e + m.log2)).toNat < 2 ^ f.fbits + 2 ^ f.fbits := by
    calc m * 2 ^ (e - f.unitOf (e + m.log2)).toNat < 2 ^ (m.log2 + 1) * 2 ^ (f.fbits - m.log2) :=
          Nat.mul_lt_mul_of_lt_of_le Nat.lt_log2_self (Nat.pow_le_pow_right two_pos hshift) (Nat.two_pow_pos _)
      _ = 2 ^ f.fbits + 2 ^ f.fbits := by rw [← Nat.pow_add, ← Nat.two_mul, ← Nat.pow_succ']; congr 1; omega
  have hbinade : f.binade (e + m.log2) + 2 ≤ 2 ^ f.ebits - 1 := by
    have hpow := Fmt.two_pow_ebits (f := f) (by omega)
    have hbias : 1 ≤ f.bias := by
      have := Nat.pow_le_pow_right (n := 2) two_pos (show 1 ≤ f.ebits - 1 by omega)
      rw [Fmt.bias]
      omega
    have : f.unitOf (e + m.log2) ≤ f.unit + (2 * f.bias - 1 : Nat) := max_le (by rw [Fmt.unit]; simp only [Int.ofNat_eq_natCast]; omega) (by omega)
    rw [Fmt.binade]
    omega
  have hfits : ¬ f.maxFinite < (roundMag f mode neg m e).1 := by
    rw [Fmt.maxFinite_lt_iff he (by omega), roundMag_fst, roundUnits_of_le _ _ _ hunit, Fmt.inf]
    have := Nat.mul_le_mul_right (2 ^ f.fbits) hbinade
    rw [Nat.add_mul] at this
    omega
  have hexact : (roundMag f mode neg m e).2.1 = false := by rw [roundMag_inexact, roundUnits_of_le _ _ _ hunit]
  simp only [roundPack, h0, hfits, hexact, if_false, Bool.false_eq_true]

/-- The significand and the exponent of a finite encoding (R57). -/
theorem Fmt.unpack_fin_bounds {f : Fmt} {x : Nat} {n : Bool} {m : Nat} {e : Int} (h : f.unpack x = .fin n m e) :
    m < 2 ^ (f.fbits + 1) ∧ f.unit ≤ e ∧ e ≤ f.unit + (2 ^ f.ebits - if f.e4m3 then 2 else 3 : Nat) := by
  have hfr := Nat.mod_lt x (Nat.two_pow_pos f.fbits)
  have hex := Nat.mod_lt (x / 2 ^ f.fbits) (Nat.two_pow_pos f.ebits)
  have hpow : 2 ^ (f.fbits + 1) = 2 ^ f.fbits + 2 ^ f.fbits := by rw [Nat.pow_succ, Nat.mul_two]
  simp only [Fmt.unpack] at h
  split at h
  · cases h
  split at h
  · split at h <;> cases h
  next hfin =>
    split at h
    · obtain ⟨rfl, rfl, rfl⟩ := FVal.fin.inj h
      exact ⟨by omega, le_rfl, by omega⟩
    · obtain ⟨rfl, rfl, rfl⟩ := FVal.fin.inj h
      simp only [Int.ofNat_eq_natCast]
      refine ⟨by omega, by omega, ?_⟩
      split
      next => omega
      next hk =>
        have hmax : x / 2 ^ f.fbits % 2 ^ f.ebits ≠ 2 ^ f.ebits - 1 := fun hmax => hfin ⟨by rw [Bool.eq_false_of_not_eq_true hk]; rfl, hmax⟩
        omega

/-- Values of a narrower format are values of FP32: no widening raises a flag but of a signalling NaN (R118). -/
theorem fConvert_widening {g : Fmt} (hfrac : g.fbits ≤ fp32.fbits) (hlow : fp32.unit ≤ g.unit)
    (hhigh : g.unit + (2 ^ g.ebits - if g.e4m3 then 2 else 3 : Nat) + g.fbits ≤ fp32.bias) {x : Nat} (h : (g.unpack x).isNan = false) :
    (fConvert fp32 .rne (g.unpack x)).flags = 0 := by
  cases hv : g.unpack x with
  | nan q => rw [hv] at h; cases h
  | inf n => rfl
  | fin n m e =>
    obtain ⟨hm, he, he'⟩ := Fmt.unpack_fin_bounds hv
    have hlog : m.log2 ≤ g.fbits := by
      by_cases h0 : m = 0
      · subst h0; exact Nat.zero_le _
      · exact Nat.le_of_lt_succ ((Nat.log2_lt h0).mpr hm)
    exact roundPack_noFlags rfl (by decide) .rne n (hm.trans_le (Nat.pow_le_pow_right two_pos (by omega))) (hlow.trans he) (by omega)

/-! ## Dequantised elements (R66) -/

theorem dequant_nan (q : Int) (f : Nat) : (dequant q 0xFF f).bits = 0x7FC00000 := rfl

theorem dequant_zero {x : Byte} (hx : x ≠ 0xFF#8) (f : Nat) : dequant 0 x f = ⟨0, 0⟩ := by
  rw [dequant, if_neg hx]
  rfl

/-- An MXINT8 element of up to seven bits is a value of FP32 under every scale (R66). -/
theorem dequant_noFlags {q : Int} {x : Byte} (hx : x ≠ 0xFF#8) (hq : q.natAbs ≤ 127) : (dequant q x 6).flags = 0 := by
  have hscale : x.toNat ≤ 254 := by
    have hne : x.toNat ≠ 255 := fun h => hx (BitVec.eq_of_toNat_eq h)
    have := x.isLt
    omega
  have hlog : q.natAbs.log2 ≤ 6 := by
    by_cases h0 : q.natAbs = 0
    · rw [h0]; decide
    · exact Nat.le_of_lt_succ ((Nat.log2_lt h0).mpr (by omega))
  have hunit : fp32.unit = -149 := rfl
  have hbias : fp32.bias = 127 := rfl
  rw [dequant, if_neg hx]
  refine roundPack_noFlags rfl (by decide) .rne _ (hq.trans_lt (by decide)) ?_ ?_
  all_goals
    simp only [hunit, hbias, Int.ofNat_eq_natCast]
    omega

/-! ## The block scale (R67) -/

theorem foldl_max_le_iff {α : Type} (g : α → Nat) (xs : List α) (a b : Nat) : xs.foldl (fun m x => max m (g x)) a ≤ b ↔ a ≤ b ∧ ∀ x ∈ xs, g x ≤ b := by
  induction xs generalizing a with
  | nil => simp
  | cons x xs ih => rw [List.foldl_cons, ih, max_le_iff, List.forall_mem_cons, and_assoc]

/-- A magnitude below the infinity's is finite (R57). -/
theorem fp32_unpack_finite {x : Nat} (h : x % 2 ^ 31 < 0x7F800000) : ∃ n m e, fp32.unpack x = .fin n m e := by
  have hex : x / 2 ^ fp32.fbits % 2 ^ fp32.ebits ≠ 2 ^ fp32.ebits - 1 := by
    simp only [fp32]
    omega
  simp only [Fmt.unpack, hex, and_false]
  simp only [fp32, false_and, if_false, Bool.false_eq_true]
  by_cases h0 : x / 2 ^ 23 % 2 ^ 8 = 0
  · exact ⟨_, _, _, if_pos h0⟩
  · exact ⟨_, _, _, if_neg h0⟩

/-- The largest magnitude of a block, as an encoding. -/
def largestOf (xs : List Nat) : Nat := xs.foldl (fun m x => max m (x % 2 ^ 31)) 0

theorem largestOf_le_iff (xs : List Nat) (b : Nat) : largestOf xs ≤ b ↔ ∀ x ∈ xs, x % 2 ^ 31 ≤ b := by simp [largestOf, foldl_max_le_iff]

theorem largestOf_eq {xs : List Nat} {m : Nat} (hm : m ∈ xs) (h : ∀ x ∈ xs, x % 2 ^ 31 ≤ m % 2 ^ 31) : largestOf xs = m % 2 ^ 31 :=
  le_antisymm ((largestOf_le_iff xs _).mpr h) ((largestOf_le_iff xs _).mp le_rfl m hm)

/-- A NaN or an infinity among the elements gives the scale 0xFF. -/
theorem blockScale_special {xs : List Nat} (h : ∃ x ∈ xs, ∃ v, fp32.unpack x = .inf v ∨ fp32.unpack x = .nan v) : blockScale xs = 0xFF := by
  obtain ⟨x, hx, v, hv⟩ := h
  refine if_pos (List.any_eq_true.mpr ⟨_, List.mem_map_of_mem hx, ?_⟩)
  obtain hv | hv := hv <;> rw [hv]

/-- A block of finite elements has the biased exponent of its largest magnitude, from 0 to 254. -/
theorem blockScale_finite {xs : List Nat} (h : ∀ x ∈ xs, x % 2 ^ 31 < 0x7F800000) : blockScale xs =
    if largestOf xs = 0 then 0 else BitVec.ofInt 8 (max 0 (min 254 ((fp32.unpack (largestOf xs)).log2 + 127))) := by
  refine if_neg ?_
  rw [List.any_eq_true]
  rintro ⟨v, hv, hspecial⟩
  obtain ⟨x, hx, rfl⟩ := List.mem_map.mp hv
  obtain ⟨n, m, e, hfin⟩ := fp32_unpack_finite (h x hx)
  rw [hfin] at hspecial
  cases hspecial

theorem blockScale_zeros {xs : List Nat} (h : ∀ x ∈ xs, x % 2 ^ 31 = 0) : blockScale xs = 0 := by
  rw [blockScale_finite fun x hx => by rw [h x hx]; decide]
  exact if_pos (Nat.le_zero.mp ((largestOf_le_iff xs 0).mpr fun x hx => (h x hx).le))

theorem blockScale_le {xs : List Nat} (h : ∀ x ∈ xs, x % 2 ^ 31 < 0x7F800000) : (blockScale xs).toNat ≤ 254 := by
  rw [blockScale_finite h]
  split
  · decide
  · rw [BitVec.toNat_ofInt]
    omega

/-- The logarithm of a normal encoding is its exponent (R57). -/
theorem fp32_log2_normal {x : Nat} (hlow : 0x00800000 ≤ x) (hhigh : x < 0x7F800000) : (fp32.unpack x).log2 + 127 = (x / 2 ^ 23 : Nat) := by
  have hfr := Nat.mod_lt x (Nat.two_pow_pos 23)
  have hlog : (x % 2 ^ 23 + 2 ^ 23).log2 = 23 := (Nat.log2_eq_iff (by omega)).mpr ⟨by omega, by omega⟩
  have hfin : fp32.unpack x = .fin false (x % 2 ^ 23 + 2 ^ 23) (-149 + Int.ofNat (x / 2 ^ 23 - 1)) := by
    have hunpack := Fmt.unpack_signed (f := fp32) rfl false (mag := x) (hhigh.trans (by decide))
    rw [if_neg (by simp only [fp32]; omega), if_neg (by simp only [fp32]; omega)] at hunpack
    exact hunpack
  rw [hfin, FVal.log2, hlog]
  simp only [Int.ofNat_eq_natCast]
  omega

theorem blockScale_normal {xs : List Nat} {m : Nat} (hm : m ∈ xs) (h : ∀ x ∈ xs, x % 2 ^ 31 ≤ m % 2 ^ 31) (hlow : 0x00800000 ≤ m % 2 ^ 31)
    (hhigh : m % 2 ^ 31 < 0x7F800000) : (blockScale xs).toNat = m % 2 ^ 31 / 2 ^ 23 := by
  rw [blockScale_finite fun x hx => (h x hx).trans_lt hhigh, largestOf_eq hm h, if_neg (by omega), fp32_log2_normal hlow hhigh, BitVec.toNat_ofInt]
  omega

/-! ## Conversion slots (R118, R119) -/

@[simp] theorem State.drawModes_issue (rm n : Nat) (s : State) : (State.drawModes rm n s).2.issue = s.issue := by
  by_cases h : rm = 5
  · subst h
    induction n generalizing s with
    | zero => rfl
    | succ n ih => rw [State.drawModes_sr_succ, ih]; rfl
  · rw [State.drawModes_fixed h]

/-- A draw changes RNGSEED only. -/
@[simp] theorem State.nextRnd_xe (s : State) : s.nextRnd.2.xe = s.xe := by
  have hmode : (s.cur.setSys rRNGSEED (xorshift (s.getSys rRNGSEED))).sysv rFPMODE = s.cur.sysv rFPMODE :=
    s.cur.setSys_sameAt rRNGSEED _ (g := .sys rFPMODE) (by decide)
  refine State.xe_congr ?_
  rw [State.nextRnd, State.getSys, State.cur_modCur, hmode, State.getSys]

@[simp] theorem State.drawModes_xe (rm n : Nat) (s : State) : (State.drawModes rm n s).2.xe = s.xe := by
  by_cases h : rm = 5
  · subst h
    induction n generalizing s with
    | zero => rfl
    | succ n ih => rw [State.drawModes_sr_succ, ih, State.nextRnd_xe]
  · rw [State.drawModes_fixed h]

section
variable {s t : State} {d a : VOp} {x : Vec} {i : Instr}

theorem givesW_of_convert {rb wb : Nat} {f : Vec → Vec × BitVec 5} (hread : s.readV a rb = .ok x t) (h : exec i s = s.convert d a rb wb f) :
    GivesW s i (t.writeV d wb (f x).1 3) (f x).2 := givesW_of_withFlags (h.trans (by rw [State.convert, hread]; rfl))

theorem givesW_of_narrow {n wb rm : Nat} {f : List FVal → List RMode → Vec × BitVec 5} (hread : s.readV a (32 * n) = .ok x t)
    (h : exec i s = s.narrow d a n wb rm f) :
    let dr := State.drawModes rm n t
    GivesW s i ((dr.2.writeV d wb (f (fp32.elems (32 * n) x) dr.1).1 3).putMag ((lanes 32 n x).map BitVec.toNat) 3) (f (fp32.elems (32 * n) x) dr.1).2 :=
  givesW_of_withFlags (h.trans (by rw [State.narrow, hread]; rfl))

/-- A widening into a register completes where no flag is enabled. -/
theorem completesV_of_convert (hx : s.xe = 0) {p r : Fin 16} {rb wb : Nat} {f : Vec → Vec × BitVec 5}
    (h : exec i s = s.convert (.reg r) (.reg p) rb wb f) : CompletesV s i r 3 := (givesW_of_convert (s.readV_reg p rb) h).completesV hx

/-- A narrowing into a register completes where no flag is enabled, its words drawn and its magnitudes put. -/
theorem completes_of_narrow (hx : s.xe = 0) {p r : Fin 16} {n wb rm : Nat} {f : List FVal → List RMode → Vec × BitVec 5}
    (h : exec i s = s.narrow (.reg r) (.reg p) n wb rm f) :
    ∃ z ms fl, exec i s = .next ((((State.drawModes rm n s).2.put (.v r z) 3).putMag ms 3).joinFlags fl) :=
  ⟨_, _, _, (givesW_of_narrow (s.readV_reg p (32 * n)) h).completes hx (by simp [State.writeV_reg]) (by simp [State.writeV_reg])⟩

end

end Sys2Proof.Machine

namespace Sys2Proof
open Machine

/-- Settles O19: every form is a conversion or a narrowing, each of which ends as a slot that raises flags; widened and dequantised values are exact. -/
theorem conversions : Obligations.Conversions := by
  unfold Obligations.Conversions
  refine ⟨?_, fun xs => blockScale_special, fun xs => blockScale_zeros, fun xs => blockScale_le, fun xs m => blockScale_normal,
    fun f x _ hx => dequant_zero hx f, fun q x => dequant_noFlags, dequant_nan⟩
  intro s w d a sc m sx
  refine ⟨fun i rb wb f hi x t hread => ?_, hasLanes_replicate le_rfl, fun g e hg hnan => ?_, fun i n wb rm f hi x t hread => ?_,
    fun hx p r => ⟨?_, fun i n rm hi => ?_⟩⟩
  · refine givesW_of_convert hread ?_
    simp only [List.mem_cons, Prod.mk.injEq, List.not_mem_nil, or_false] at hi
    obtain ⟨rfl, rfl, rfl, rfl⟩ | ⟨rfl, rfl, rfl, rfl⟩ | ⟨rfl, rfl, rfl, rfl⟩ | ⟨rfl, rfl, rfl, rfl⟩ | ⟨rfl, rfl, rfl, rfl⟩ | ⟨rfl, rfl, rfl, rfl⟩ |
      ⟨rfl, rfl, rfl, rfl⟩ | ⟨rfl, rfl, rfl, rfl⟩ | ⟨rfl, rfl, rfl, rfl⟩ := hi
    all_goals rfl
  · simp only [List.mem_cons, List.not_mem_nil, or_false] at hg
    obtain rfl | rfl | rfl := hg
    all_goals exact fConvert_widening (by decide) (by decide) (by decide) hnan
  · refine ⟨givesW_of_narrow hread ?_, fun hrm => congrArg Prod.snd (State.drawModes_fixed hrm n t), fun hrm => by subst hrm; exact State.drawModes_sr_seed n t⟩
    simp only [List.mem_cons, Prod.mk.injEq, List.not_mem_nil, or_false] at hi
    obtain ⟨rfl, rfl, rfl, rfl, rfl⟩ | ⟨rfl, rfl, rfl, rfl, rfl⟩ | ⟨rfl, rfl, rfl, rfl, rfl⟩ | ⟨rfl, rfl, rfl, rfl, rfl⟩ | ⟨rfl, rfl, rfl, rfl, rfl⟩ |
      ⟨rfl, rfl, rfl, rfl, rfl⟩ | ⟨rfl, rfl, rfl, rfl, rfl⟩ := hi
    all_goals rfl
  · simp only [List.forall_mem_cons]
    exact ⟨completesV_of_convert hx (exec_cvtF32Bf16 ..), completesV_of_convert hx (exec_cvtF32F8e4 ..), completesV_of_convert hx (exec_cvtF32F8e5 ..),
      completesV_of_convert hx (exec_cvtF32I32 ..), completesV_of_convert hx (exec_cvtI32F32 ..), completesV_of_convert hx (exec_cvtF32Mx8 ..),
      completesV_of_convert hx (exec_cvtF32Mx6 ..), completesV_of_convert hx (exec_cvtF32Mx4 ..), completesV_of_convert hx (exec_bscale ..),
      List.forall_mem_nil _⟩
  · simp only [List.mem_cons, Prod.mk.injEq, List.not_mem_nil, or_false] at hi
    obtain ⟨rfl, rfl, rfl⟩ | ⟨rfl, rfl, rfl⟩ | ⟨rfl, rfl, rfl⟩ | ⟨rfl, rfl, rfl⟩ | ⟨rfl, rfl, rfl⟩ | ⟨rfl, rfl, rfl⟩ | ⟨rfl, rfl, rfl⟩ := hi
    · exact completes_of_narrow hx (exec_cvtBf16F32 ..)
    · exact completes_of_narrow hx (exec_cvtBf16F32Sr ..)
    · exact completes_of_narrow hx (exec_cvtF8e4F32 ..)
    · exact completes_of_narrow hx (exec_cvtF8e5F32 ..)
    · exact completes_of_narrow hx (exec_cvtMx8F32 ..)
    · exact completes_of_narrow hx (exec_cvtMx6F32 ..)
    · exact completes_of_narrow hx (exec_cvtMx4F32 ..)

end Sys2Proof
end

section
/-! SUPPORT. The windrow forms (R137, R146 to R152): when a form acts on its windrow, where a seek puts the cursor, which items there are, and the fields
of a windrow's status. -/

namespace Sys2Proof.Machine

/-! ## Forms that act on a windrow in use -/

section OnWin
variable {s : State} {w : Fin 16} (f : Windrow → Windrow)

theorem State.onWin_used (hidle : (s.win w).state ≠ .idle) (hbusy : (s.win w).state ≠ .busy) : s.onWin w f = .next (s.setWin w (f (s.win w))) := by
  unfold State.onWin
  dsimp only
  split
  · contradiction
  · contradiction
  · rfl

theorem State.onWin_idle (h : (s.win w).state = .idle) : s.onWin w f = .next s.illop := by simp only [onWin, h, done]

theorem State.onWin_busy (h : (s.win w).state = .busy) : s.onWin w f = .next s.wait := by simp only [onWin, h, done]

end OnWin

/-! ## Forms that name an item (R149) -/

/-- How wset and wget end: the md registers belong to w0, the other items to a windrow in use; `own` is none at an item that the form refuses. -/
def State.itemForm (s : State) (w : Fin 16) (item : Nat) (md : Nat × Fin 8 → State) (own : Windrow → Option State) : State :=
  match mdItem item with
  | some q => if w ≠ 0 then s.illop else md q
  | none =>
    match (s.win w).state with
    | .busy => s.wait
    | .idle => s.illop
    | _ => (own (s.win w)).getD s.illop

theorem exec_wset_itemForm (w : Fin 16) (a t : Src) (s : State) : exec (.wset w a t) s = .next (s.itemForm w (s.src t).toNat
    (fun q => s.modCur fun c => { c with regs := c.regs.setMd q.1 q.2 (s.src a) })
    fun x => (x.setItem (s.src t).toNat (s.src a)).map (s.setWin w)) := by
  rw [exec_wset]
  unfold execWset State.itemForm
  dsimp only
  cases mdItem (s.src t).toNat with
  | some q => by_cases hw : w = 0 <;> simp [hw, State.done]
  | none => cases (s.win w).state <;> cases (s.win w).setItem (s.src t).toNat (s.src a) <;> rfl

theorem exec_wget_itemForm (w : Fin 16) (d : SReg) (t : Src) (s : State) : exec (.wget w d t) s = .next (s.itemForm w (s.src t).toNat
    (fun q => s.flyS .other d (s.cur.regs.getMd q.1 q.2) 1)
    fun x => (x.getItem (s.src t).toNat).map fun v => s.flyS .other d v 1) := by
  rw [exec_wget]
  unfold execWget State.itemForm
  dsimp only
  cases mdItem (s.src t).toNat with
  | some q => by_cases hw : w = 0 <;> simp [hw, State.done]
  | none => cases (s.win w).state <;> cases (s.win w).getItem (s.src t).toNat <;> rfl

theorem mdItem_eq_none_iff {n : Nat} : mdItem n = none ↔ n < 0x10 ∨ 0x28 ≤ n := by
  unfold mdItem
  split
  · simp; omega
  · simp; omega

theorem mdItem_of_kind {kind : Nat} (i : Fin 8) (hk : kind < 3) : mdItem (0x10 + 8 * kind + i.val) = some (kind, i) := by
  rw [mdItem, if_pos (by omega)]
  simp only [Option.some.injEq, Prod.mk.injEq, Fin.ext_iff]
  omega

section ItemForm
variable {s : State} {w : Fin 16} {item : Nat} {md : Nat × Fin 8 → State} {own : Windrow → Option State}

theorem State.itemForm_md {q : Nat × Fin 8} (h : mdItem item = some q) : s.itemForm 0 item md own = md q := by simp [itemForm, h]

theorem State.itemForm_mdElsewhere (h : mdItem item ≠ none) (hw : w ≠ 0) : s.itemForm w item md own = s.illop := by
  obtain ⟨q, hq⟩ := Option.ne_none_iff_exists'.mp h
  simp [itemForm, hq, hw]

variable (h : mdItem item = none)
include h

theorem State.itemForm_idle (hi : (s.win w).state = .idle) : s.itemForm w item md own = s.illop := by simp [itemForm, h, hi]

theorem State.itemForm_busy (hb : (s.win w).state = .busy) : s.itemForm w item md own = s.wait := by simp [itemForm, h, hb]

theorem State.itemForm_used (hidle : (s.win w).state ≠ .idle) (hbusy : (s.win w).state ≠ .busy) :
    s.itemForm w item md own = (own (s.win w)).getD s.illop := by
  cases hs : (s.win w).state <;> simp_all [itemForm]

end ItemForm

theorem Windrow.getItem_exists (x : Windrow) {n : Nat} (h : n < 14) : ∃ v, x.getItem n = some v := by
  interval_cases n <;> exact ⟨_, rfl⟩

/-- The items from 8 on are the indices. -/
theorem Windrow.getItem_index (x : Windrow) (l : Nat) : x.getItem (l + 8) = if l + 8 < 14 then some (BitVec.ofNat 64 (x.idx[l]?.getD 0)) else none := by
  simp [Windrow.getItem]

theorem Windrow.getItem_none (x : Windrow) {n : Nat} (h : n ∈ [14, 15] ∨ 0x28 ≤ n) : x.getItem n = none := by
  simp only [List.mem_cons, List.not_mem_nil, or_false] at h
  obtain ⟨l, rfl⟩ : ∃ l, n = l + 8 := Nat.exists_eq_add_of_le' (by omega)
  rw [getItem_index, if_neg (by omega)]

theorem Windrow.setItem_none (x : Windrow) {n : Nat} (h : n ∈ [1, 6, 8, 9, 10, 11, 12, 13, 14, 15]) (v : Word) : x.setItem n v = none := by
  fin_cases h <;> rfl

theorem Regs.getMd_setMd (r : Regs) {kind : Nat} (hk : kind < 3) (i : Fin 8) (v : Word) : (r.setMd kind i v).getMd kind i = v := by
  interval_cases kind <;> simp [Regs.setMd, Regs.getMd]

/-! ## The cursor (R134, R149) -/

@[simp] theorem Windrow.fresh_n (x : Windrow) : x.fresh.n = x.n := rfl
@[simp] theorem Windrow.fresh_idx (x : Windrow) : x.fresh.idx = x.idx := rfl
@[simp] theorem Windrow.fresh_state (x : Windrow) : x.fresh.state = x.state := rfl
@[simp] theorem Windrow.fresh_desc (x : Windrow) : x.fresh.desc = x.desc := rfl
@[simp] theorem Windrow.fresh_ovr (x : Windrow) : x.fresh.ovr = x.ovr := rfl

theorem Windrow.seek_n (x : Windrow) (n : Nat) : (x.seek n).n = min n x.desc.total := by
  simp only [Windrow.seek]
  split
  next h => exact (min_eq_left h.le).symm
  next h => exact (min_eq_right (not_lt.mp h)).symm

theorem Windrow.seek_desc (x : Windrow) (n : Nat) : (x.seek n).desc = x.desc := by
  simp only [Windrow.seek]
  split <;> rfl

theorem Windrow.seek_ovr (x : Windrow) (n : Nat) : (x.seek n).ovr = x.ovr := by
  simp only [Windrow.seek]
  split <;> rfl

theorem Windrow.seek_state (x : Windrow) (n : Nat) : (x.seek n).state = if x.desc.total ≤ n then .done else .active := by
  simp only [Windrow.seek]
  split
  next h => rw [if_neg (not_le.mpr h)]
  next h => rw [if_pos (not_lt.mp h)]

theorem Windrow.seek_idx_end {x : Windrow} {n : Nat} (h : x.desc.total ≤ n) : (x.seek n).idx = Vector.replicate 6 0 := by
  simp only [Windrow.seek, if_neg (not_lt.mpr h)]

theorem Windrow.seek_idx {x : Windrow} {n : Nat} (h : n < x.desc.total) :
    (x.seek n).idx = digitsOf x.desc x.desc.levels n (Vector.replicate 6 0) := by
  simp only [Windrow.seek, if_pos h]

/-- A digit of an ordinal: the ordinal without what the levels before it take, modulo its level's count. -/
theorem digitsOf_getElem (d : WinDesc) (l : Fin 6) : ∀ {ls : List (Fin 6)} (n : Nat) (idx : Vector Nat 6), ls.Nodup →
    (digitsOf d ls n idx)[l] = if l ∈ ls then n / ((ls.takeWhile (· != l)).map fun j => (d.cnt[j]).toNat).prod % (d.cnt[l]).toNat else idx[l]
  | [], _, _, _ => rfl
  | i :: is, n, idx, h => by
    obtain ⟨hi, his⟩ := List.nodup_cons.mp h
    rw [digitsOf, digitsOf_getElem d l _ _ his]
    by_cases hl : i = l
    · subst hl
      simp [hi]
    · have hval : i.val ≠ l.val := fun he => hl (Fin.ext he)
      simp [hl, Ne.symm hl, Nat.div_div_eq_div_mul, hval]

/-- The levels in use before one of them are the levels below it. -/
theorem levels_takeWhile : ∀ (k : BitVec 3) (l : Fin 6), l.val < k.toNat →
    ((List.finRange 6).filter fun i => i.val < k.toNat).takeWhile (· != l) = (List.finRange 6).take l.val := by decide

theorem WinDesc.mem_levels (d : WinDesc) (l : Fin 6) : l ∈ d.levels ↔ l.val < d.nlev.toNat := by simp [WinDesc.levels]

theorem digitsOf_levels (d : WinDesc) (n : Nat) (l : Fin 6) : (digitsOf d d.levels n (Vector.replicate 6 0))[l] = if d.nlev.toNat ≤ l.val then 0
    else n / ((((List.finRange 6).take l.val).map fun j => (d.cnt[j]).toNat).prod) % (d.cnt[l]).toNat := by
  rw [digitsOf_getElem d l n _ (show d.levels.Nodup from (List.nodup_finRange 6).filter _)]
  by_cases h : l.val < d.nlev.toNat
  · rw [if_pos ((d.mem_levels l).mpr h), if_neg (not_le.mpr h), WinDesc.levels, levels_takeWhile d.nlev l h]
  · rw [if_neg (mt (d.mem_levels l).mp h), if_pos (not_lt.mp h)]
    simp

/-! ## Merges (R151) -/

theorem Windrow.mergeable_iff {x : Windrow} : x.mergeable = true ↔ x.state ≠ .idle ∧ x.desc.fmt = 2 ∧ x.desc.dir = false := by
  simp [Windrow.mergeable, and_assoc]

section Merges
variable {s : State} {w : Fin 16}

theorem exec_wisect_refused (h : w.val % 2 = 1 ∨ (s.win w).mergeable = false ∨ (s.win (w + 1)).mergeable = false) :
    exec (.wisect w) s = .next s.illop := by
  rw [exec_wisect]
  unfold execWisect
  split
  · rfl
  next hw => simp [h.resolve_left hw, State.done]

variable (hw : w.val % 2 = 0) (ha : (s.win w).mergeable = true) (hb : (s.win (w + 1)).mergeable = true)
include hw ha hb

theorem exec_wisect_busy (h : (s.win w).state = .busy ∨ (s.win (w + 1)).state = .busy) : exec (.wisect w) s = .next s.wait := by
  simp [execWisect, hw, ha, hb, h, State.done]

theorem exec_wisect_begins (h : (s.win w).state ≠ .busy) (h' : (s.win (w + 1)).state ≠ .busy) : exec (.wisect w) s =
    .next ((s.setWin w ((s.win w).begin (.isect 0))).setWin (w + 1) ((s.win (w + 1)).begin .partner)) := by
  simp [execWisect, hw, ha, hb, h, h', State.done]

end Merges

/-! ## Status (R152) -/

theorem extractLsb'_ofNat_toNat (x lo n : Nat) : ((BitVec.ofNat 64 x).extractLsb' lo n).toNat = x % 2 ^ 64 / 2 ^ lo % 2 ^ n := by
  simp [Nat.shiftRight_eq_div_pow]

theorem getLsbD_ofNat_eq_decide (x i : Nat) : (BitVec.ofNat 64 x).getLsbD i = decide (x % 2 ^ 64 / 2 ^ i % 2 = 1) := by
  rw [BitVec.getLsbD, BitVec.toNat_ofNat, Nat.testBit_eq_decide_div_mod_eq]

/-- Element vectors that a windrow has in store (R152). -/
def Windrow.available (x : Windrow) : Nat := if x.state = .idle ∨ x.width = none then 0 else (x.buf.filter fun e => e.arrived).length

theorem Windrow.available_le (x : Windrow) : x.available ≤ x.buf.length := by
  unfold Windrow.available
  split
  · exact Nat.zero_le _
  · exact List.length_filter_le _ _

theorem WinState.code_lt (x : WinState) : x.code < 4 := by cases x <;> decide

/-- A word of the fields of a status holds each of them. -/
theorem status_fields {icnt : BitVec 32} {avail code : Nat} {fmt : BitVec 2} {scen fault ovr dir : Bool} (ha : avail < 2 ^ 8) (hc : code < 4) :
    let v : Word := BitVec.ofNat 64 (icnt.toNat * 2 ^ 32 + avail * 2 ^ 8 + scen.toNat * 2 ^ 7 + fault.toNat * 2 ^ 6 + ovr.toNat * 2 ^ 5 + fmt.toNat * 2 ^ 3 +
      dir.toNat * 2 ^ 2 + code)
    v.extractLsb' 32 32 = icnt ∧ v.getLsbD 7 = scen ∧ v.getLsbD 6 = fault ∧ v.getLsbD 5 = ovr ∧ (v.extractLsb' 8 8).toNat = avail ∧
      v.extractLsb' 3 2 = fmt ∧ v.getLsbD 2 = dir ∧ (v.extractLsb' 0 2).toNat = code := by
  have hbool : ∀ (b : Bool) (n : Nat), n = b.toNat → decide (n = 1) = b := by
    rintro b n rfl
    cases b <;> rfl
  have hi := icnt.isLt
  have hf := fmt.isLt
  have hbits := And.intro scen.toNat_lt (And.intro fault.toNat_lt (And.intro ovr.toNat_lt dir.toNat_lt))
  simp only [← BitVec.toNat_inj, extractLsb'_ofNat_toNat, getLsbD_ofNat_eq_decide]
  refine ⟨?_, hbool _ _ ?_, hbool _ _ ?_, hbool _ _ ?_, ?_, ?_, hbool _ _ ?_, ?_⟩ <;> omega

theorem exec_wstat_flies {s : State} {w : Fin 16} (d : SReg) (h : (s.win w).state ≠ .busy) :
    exec (.wstat w d) s = .next (s.flyS .other d (s.win w).status 1) := by
  rw [exec_wstat, execWstat]
  exact if_neg h

/-! ## What a wset writes (R149) -/

section Items
variable {x : Windrow} {v : Word}

theorem Windrow.setItem_seek : x.setItem 0 v = some (x.seek v.toNat).fresh := rfl

theorem Windrow.setItem_base (h : v.toNat < 2 ^ 56) : x.setItem 2 v = some ({ x with desc := { x.desc with base := v.setWidth 56 } } : Windrow).fresh :=
  if_neg (not_le.mpr h)

theorem Windrow.setItem_scbase (h : v.toNat < 2 ^ 56) : x.setItem 3 v = some { x with desc := { x.desc with scbase := v.setWidth 56 }, buf := [] } :=
  if_neg (not_le.mpr h)

theorem Windrow.setItem_modlen (h : v.toNat < 2 ^ 32) (h8 : v.toNat % 8 = 0) :
    x.setItem 4 v = some ({ x with desc := { x.desc with modlen := v.setWidth 32 } } : Windrow).fresh :=
  if_neg (not_or.mpr ⟨not_le.mpr h, not_not.mpr h8⟩)

end Items

/-! ## Forms on a windrow in use -/

section Used
variable {s : State} {w : Fin 16} (hidle : (s.win w).state ≠ .idle) (hbusy : (s.win w).state ≠ .busy) {a t : Src} {n : Nat}
include hidle hbusy

theorem exec_wskip_moves : ∃ y : Windrow, exec (.wskip w a) s = .next (s.setWin w y) ∧
    y.n = min ((s.win w).n + (s.src a).toNat % 2 ^ 32) (s.win w).desc.total ∧ y.buf = [] ∧ y.desc = (s.win w).desc ∧
    (y.state = .done ↔ y.n = (s.win w).desc.total) ∧ (y.state ≠ .done → y.state = .active) := by
  refine ⟨_, (exec_wskip ..).trans (State.onWin_used _ hidle hbusy), (Windrow.fresh_n _).trans (Windrow.seek_n _ _), rfl,
    (Windrow.fresh_desc _).trans (Windrow.seek_desc _ _), ?_, ?_⟩
  · rw [Windrow.fresh_state, Windrow.fresh_n, Windrow.seek_state, Windrow.seek_n, min_eq_right_iff]
    split <;> simp_all
  · rw [Windrow.fresh_state, Windrow.seek_state]
    split <;> simp_all

theorem exec_wset_item {y : Windrow} (ht : s.src t = BitVec.ofNat 64 n) (hmd : n < 0x10) (hy : (s.win w).setItem n (s.src a) = some y) :
    exec (.wset w a t) s = .next (s.setWin w y) := by
  have hn : (s.src t).toNat = n := by
    rw [ht, BitVec.toNat_ofNat]
    omega
  rw [exec_wset_itemForm, hn, State.itemForm_used (mdItem_eq_none_iff.mpr (.inl hmd)) hidle hbusy, hy]
  rfl

theorem exec_wset_noItem (h : (s.src t).toNat ∈ [1, 6, 8, 9, 10, 11, 12, 13, 14, 15]) : exec (.wset w a t) s = .next s.illop := by
  have hmd : mdItem (s.src t).toNat = none := by
    simp only [List.mem_cons, List.not_mem_nil, or_false] at h
    exact mdItem_eq_none_iff.mpr (by omega)
  rw [exec_wset_itemForm, State.itemForm_used hmd hidle hbusy, Windrow.setItem_none _ h]
  rfl

theorem exec_wget_item (d : SReg) (h : (s.src t).toNat < 14) :
    ∃ v, (s.win w).getItem (s.src t).toNat = some v ∧ FliesS s (.wget w d t) .other d (· = v) := by
  obtain ⟨v, hv⟩ := (s.win w).getItem_exists h
  refine ⟨v, hv, v, ?_, rfl⟩
  rw [exec_wget_itemForm, State.itemForm_used (mdItem_eq_none_iff.mpr (by omega)) hidle hbusy, hv]
  rfl

theorem exec_wget_noItem (d : SReg) (h : (s.src t).toNat ∈ [14, 15] ∨ 0x28 ≤ (s.src t).toNat) : exec (.wget w d t) s = .next s.illop := by
  have hmd : mdItem (s.src t).toNat = none := by
    simp only [List.mem_cons, List.not_mem_nil, or_false] at h
    exact mdItem_eq_none_iff.mpr (by omega)
  rw [exec_wget_itemForm, State.itemForm_used hmd hidle hbusy, Windrow.getItem_none _ h]
  rfl

/-- A seek below the end sets the indices to the ordinal's digits; one at the end or above makes the windrow DONE (R149). -/
theorem exec_wset_seek (ht : s.src t = 0) : ∃ y : Windrow, exec (.wset w a t) s = .next (s.setWin w y) ∧
    y.n = min (s.src a).toNat (s.win w).desc.total ∧ y.buf = [] ∧ y.desc = (s.win w).desc ∧ y.ovr = (s.win w).ovr ∧
    (y.state = .done ↔ (s.win w).desc.total ≤ (s.src a).toNat) ∧ (y.state ≠ .done → y.state = .active) ∧
    ((s.win w).desc.total ≤ (s.src a).toNat → ∀ l : Fin 6, y.idx[l] = 0) ∧
    ((s.src a).toNat < (s.win w).desc.total → ∀ l : Fin 6, y.idx[l] = if (s.win w).desc.nlev.toNat ≤ l.val then 0
      else (s.src a).toNat / ((((List.finRange 6).take l.val).map fun j => ((s.win w).desc.cnt[j]).toNat).prod) % ((s.win w).desc.cnt[l]).toNat) := by
  refine ⟨_, exec_wset_item hidle hbusy (n := 0) ht (by decide) Windrow.setItem_seek, (Windrow.fresh_n _).trans (Windrow.seek_n _ _), rfl,
    (Windrow.fresh_desc _).trans (Windrow.seek_desc _ _), (Windrow.fresh_ovr _).trans (Windrow.seek_ovr _ _), ?_, ?_, fun h l => ?_, fun h l => ?_⟩
  · rw [Windrow.fresh_state, Windrow.seek_state]
    split <;> simp_all
  · rw [Windrow.fresh_state, Windrow.seek_state]
    split <;> simp_all
  · simp only [Windrow.fresh_idx, Windrow.seek_idx_end h]
    simp
  · simp only [Windrow.fresh_idx, Windrow.seek_idx h]
    exact digitsOf_levels _ _ l

end Used

theorem exec_wcfg_configures {s u : State} {w : Fin 16} {a : Src} {ws : List Word} (hbusy : (s.win w).state ≠ .busy)
    (hr : s.readTable (s.src a) 64 8 = (.ok ws, u)) (hv : (winReservedZero (wordsNat ws) && (WinDesc.ofNat (wordsNat ws)).valid) = true) :
    exec (.wcfg w a) s = .next (u.setWin w (Windrow.configured (WinDesc.ofNat (wordsNat ws)))) := by
  rw [exec_wcfg, execWcfg, if_neg hbusy, hr]
  exact if_pos hv

theorem WinEntry.outdate_of_sound {e : WinEntry} (h : e.fault = none) : e.outdate = { e with arrived := false, stale := true } := by
  simp [WinEntry.outdate, h]

/-- Settles O25: a form that names an item is one that acts on a windrow in use, but for the md registers; a seek is a cursor's digits under the
counts; and a status is a word of disjoint fields. -/
theorem windrowForms : Obligations.WindrowForms := by
  intro s w a t d x
  refine ⟨fun ws u hbusy => exec_wcfg_configures hbusy, fun hidle hbusy => ?used, fun hidle => ?idle, fun hbusy => ?busy, mdItem_eq_none_iff,
    fun hlo hhi hw => ?elsewhere, fun kind i hk ht => ?md, fun hw ha hb hx hy => exec_wisect_begins hw ha hb hx hy, exec_wisect_refused,
    fun hw ha hb => exec_wisect_busy hw ha hb, fun h => ?_, fun h hb => ?_, Windrow.mergeable_iff, fun h hb => ?_, fun hb hbuf => ?status⟩
  case used =>
    refine ⟨(exec_wrst ..).trans (State.onWin_used _ hidle hbusy), exec_wskip_moves hidle hbusy, exec_wset_seek hidle hbusy, fun ht h => ?_, fun ht h => ?_,
      fun ht h h8 => ?_, fun ht => ?_, fun ht => ?_, fun e => WinEntry.outdate_of_sound, exec_wget_item hidle hbusy d, exec_wset_noItem hidle hbusy,
      exec_wget_noItem hidle hbusy d⟩
    · exact ⟨_, exec_wset_item hidle hbusy (n := 2) ht (by decide) (Windrow.setItem_base h), rfl, rfl, rfl⟩
    · exact ⟨_, exec_wset_item hidle hbusy (n := 3) ht (by decide) (Windrow.setItem_scbase h), rfl, rfl, rfl⟩
    · exact ⟨_, exec_wset_item hidle hbusy (n := 4) ht (by decide) (Windrow.setItem_modlen h h8), rfl, rfl, rfl⟩
    · exact exec_wset_item hidle hbusy (n := 5) ht (by decide) rfl
    · exact exec_wset_item hidle hbusy (n := 7) ht (by decide) rfl
  case idle =>
    refine ⟨(exec_wrst ..).trans (State.onWin_idle _ hidle), (exec_wskip ..).trans (State.onWin_idle _ hidle), fun h => ⟨?_, ?_⟩⟩
    · rw [exec_wset_itemForm, State.itemForm_idle h hidle]
    · rw [exec_wget_itemForm, State.itemForm_idle h hidle]
  case busy =>
    refine ⟨?_, (exec_wrst ..).trans (State.onWin_busy _ hbusy), (exec_wskip ..).trans (State.onWin_busy _ hbusy), ?_, fun h => ⟨?_, ?_⟩⟩
    · exact (exec_wcfg ..).trans (if_pos hbusy)
    · exact (exec_wstat ..).trans (if_pos hbusy)
    · rw [exec_wset_itemForm, State.itemForm_busy h hbusy]
    · rw [exec_wget_itemForm, State.itemForm_busy h hbusy]
  case elsewhere =>
    have hmd : mdItem (s.src t).toNat ≠ none := mt mdItem_eq_none_iff.mp (by omega)
    rw [exec_wset_itemForm, exec_wget_itemForm, State.itemForm_mdElsewhere hmd hw, State.itemForm_mdElsewhere hmd hw]
    exact ⟨rfl, rfl⟩
  case md =>
    have hmd := mdItem_of_kind i hk
    refine ⟨?_, ⟨_, ?_, rfl⟩, Regs.getMd_setMd _ hk i _⟩
    · rw [exec_wset_itemForm, ht, State.itemForm_md hmd]
    · rw [exec_wget_itemForm, ht, State.itemForm_md hmd]
  · rw [exec_wicnt, execWicnt, h]
    rfl
  · rw [exec_wicnt, execWicnt, h]
    exact if_pos hb
  · rw [exec_wicnt, execWicnt, h]
    exact if_neg hb
  case status =>
    have havail : x.available < 2 ^ 8 := by
      have := x.available_le
      omega
    obtain ⟨hicnt, hscen, hfault, hovr, hav, hfmt, hdir, hcode⟩ := status_fields (icnt := x.icnt) (fmt := x.desc.fmt) (scen := x.desc.scen)
      (fault := x.buf.any fun e => e.arrived && e.fault.isSome) (ovr := x.ovr) (dir := x.desc.dir) havail x.state.code_lt
    refine ⟨_, exec_wstat_flies d hb, hicnt, hscen, hfault, hovr, hav, hfmt, hdir, hcode.trans ?_⟩
    cases x.state <;> rfl

end Sys2Proof.Machine
end

section
/-! SUPPORT. What changes at the home of memory leave of the cores (R214, R219, R248), and what a Loft step that grows or shrinks leaves (R210, R211). -/

namespace Sys2Proof.Machine

/-! ## Cores -/

theorem State.core_congr {s t : State} (h : t.cores = s.cores) (k : Nat) : t.core k = s.core k := by rw [core, core, h]

@[simp] theorem State.passTag_cores (s : State) (n : Nat) : (s.passTag n).cores = s.cores := by
  unfold State.passTag
  split <;> rfl

@[simp] theorem State.meetLine_cores (s : State) (t : Trans) (n : Nat) : (s.meetLine t n).cores = s.cores := by
  unfold State.meetLine
  dsimp only
  split
  · rfl
  · split
    · rfl
    · exact s.passTag_cores _

@[simp] theorem State.meet_cores (s : State) (t : Trans) : (s.meet t).cores = s.cores := by
  unfold State.meet
  split
  · exact s.meetLine_cores _ _
  · rfl

@[simp] theorem State.meetWalk_cores (s : State) (kid : BitVec 8) (va : Nat) : (s.meetWalk kid va).cores = s.cores :=
  foldl_keeps (g := State.cores) (fun u _ => u.meet_cores _) _ s

@[simp] theorem State.homeWrite_cores (s : State) (t : Trans) (n : Nat) (m : BitVec 64) (d : Line) : (s.homeWrite t n m d).cores = s.cores := by
  unfold State.homeWrite
  dsimp only
  split
  · rfl
  · split
    · rfl
    · exact s.meetLine_cores _ _

theorem State.evict_core_self (s : State) (k : Nat) (x : CacheLine) :
    (s.evict k x).core k = { s.core k with l1 := dropLine x.line x.kid (s.core k).l1 } := by
  unfold State.evict
  dsimp only
  split
  · exact s.core_modCore_self k _
  · exact (State.core_congr (State.homeWrite_cores ..) k).trans (s.core_modCore_self k _)

/-- A core that loses lines changes nothing but its L1. -/
theorem State.loseLines_core_self (k : Nat) : ∀ (xs : List CacheLine) (s : State), ∃ l1, (s.loseLines k xs).core k = { s.core k with l1 := l1 }
  | [], s => ⟨(s.core k).l1, rfl⟩
  | x :: xs, s => by
    obtain ⟨l1, h⟩ := State.loseLines_core_self k xs (if Config.keepsLine s.draws then s else s.evict k x).drawn
    refine ⟨l1, h.trans ?_⟩
    rw [State.core_congr (State.drawn_cores _) k]
    split
    · rfl
    · rw [State.evict_core_self]

/-! ## Loft steps -/

theorem bget_dropStep (step a : Nat) : ∀ m : Bytes, bget (dropStep step m) a = if a / 0x40000 = step then 0 else bget m a
  | [] => by simp [dropStep, bget]
  | (i, x) :: m => by
    have ih := bget_dropStep step a m
    unfold dropStep at ih ⊢
    by_cases hi : i / loftStep = step
    · rw [List.filter_cons_of_neg (by simpa using hi), ih]
      by_cases ha : i = a
      · have : a / 0x40000 = step := ha ▸ hi
        simp [this]
      · simp [bget, ha]
    · rw [List.filter_cons_of_pos (by simpa using hi)]
      by_cases ha : i = a
      · have : a / 0x40000 ≠ step := ha ▸ hi
        simp [bget, ha, this]
      · simp only [bget, ha, if_false, ih]

section LoftSteps
variable {s : State} {k step ends : Nat}

theorem exec_loftStepGrowComplete_ends (hm : (s.core k).move = some ⟨true, step, ends⟩) (he : ends ≤ s.now) : Goes s (.loftStepGrowComplete k) fun t =>
    (t.core k).scr = (s.core k).scr + 1 ∧ (t.core k).move = none ∧ (t.core k).loft = dropStep step (s.core k).loft := by
  obtain ⟨l1, hl⟩ := State.loseLines_core_self k (s.core k).l1 s
  refine .intro (t := (s.loseLines k (s.core k).l1).modCore k fun c => { c with loft := dropStep step c.loft, scr := c.scr + 1, move := none }) ?_ ?_
  · rw [exec_loftStepGrowComplete, execLoftStepGrowComplete, hm]
    exact if_neg (not_lt.mpr he)
  · rw [State.core_modCore_self, hl]
    exact ⟨rfl, rfl, rfl⟩

theorem exec_loftStepShrinkComplete_ends (hm : (s.core k).move = some ⟨false, step, ends⟩) (he : ends ≤ s.now) (hf : s.loftFloor k < (s.core k).scr) :
    Goes s (.loftStepShrinkComplete k) fun t =>
      (t.core k).scr = (s.core k).scr - 1 ∧ (t.core k).move = none ∧ (t.core k).loft = dropStep step (s.core k).loft := by
  refine .intro (t := s.modCore k fun c => { c with loft := dropStep step c.loft, scr := c.scr - 1, move := none }) ?_ ?_
  · rw [exec_loftStepShrinkComplete, execLoftStepShrinkComplete, hm]
    exact (if_neg (not_le.mpr hf)).trans (if_neg (not_lt.mpr he))
  · rw [State.core_modCore_self]
    exact ⟨rfl, rfl, rfl⟩

theorem exec_loftStepShrinkComplete_atFloor (hm : (s.core k).move = some ⟨false, step, ends⟩) (hf : (s.core k).scr ≤ s.loftFloor k) :
    exec (.loftStepShrinkComplete k) s = .next (s.modCore k fun c => { c with move := none }) := by
  rw [exec_loftStepShrinkComplete, execLoftStepShrinkComplete, hm]
  exact if_pos hf

end LoftSteps

end Sys2Proof.Machine
end

section
/-! SUPPORT. What leaves a context's outbox (R227, R230, R240 to R242): plain stores and their granules, stores that are dropped, releases and atomics. -/

namespace Sys2Proof.Machine

/-! ## Plain stores -/

theorem mem_leadingStores_strl {x : StoreEntry} {xs : List Handed} (h : x ∈ leadingStores xs) : x.strl = none := by
  induction xs with
  | nil => exact absurd h List.not_mem_nil
  | cons y ys ih =>
    cases y with
    | store e =>
      rw [leadingStores] at h
      split at h
      · exact absurd h List.not_mem_nil
      next he =>
        obtain rfl | h := List.mem_cons.mp h
        · simpa using he
        · exact ih h
    | _ => exact absurd h List.not_mem_nil

theorem mem_of_mem_firstOfLine {x : StoreEntry} : ∀ {before es : List StoreEntry}, x ∈ firstOfLine before es → x ∈ es
  | before, e :: es, h => by
    rw [firstOfLine] at h
    split at h
    · exact List.mem_cons_of_mem e (mem_of_mem_firstOfLine h)
    · obtain rfl | h := List.mem_cons.mp h
      · exact List.mem_cons_self
      · exact List.mem_cons_of_mem e (mem_of_mem_firstOfLine h)

/-- Plain stores of a context that may perform next (R140, R227). -/
def Context.readyStores (c : Context) : List StoreEntry := (firstOfLine [] (leadingStores c.outbox)).filter fun x => !x.behindPush c

theorem Context.mem_readyStores {c : Context} {x : StoreEntry} (h : x ∈ c.readyStores) :
    x ∈ firstOfLine [] (leadingStores c.outbox) ∧ x.behindPush c = false ∧ x.strl = none := by
  obtain ⟨hx, hp⟩ := List.mem_filter.mp h
  exact ⟨hx, by simpa using hp, mem_leadingStores_strl (mem_of_mem_firstOfLine hx)⟩

/-- A share of a store is all of it, or its bytes in the granules picked, of which there are some. -/
theorem StoreEntry.share_cases (e : StoreEntry) (g : BitVec 8) : e.share g = e.mask ∨ ∃ h, e.share g = e.mask &&& granuleMask h ∧ e.share g ≠ 0 := by
  by_cases h : e.mask &&& granuleMask g = 0
  · exact .inl (if_pos h)
  · have hs : e.share g = e.mask &&& granuleMask g := if_neg h
    exact .inr ⟨g, hs, hs ▸ h⟩

theorem StoreEntry.behindPush_of {x : StoreEntry} {c : Context} {y : HeldPush} {f : Flight} {p : Trans} (hf : f ∈ c.flights) (hid : f.id < x.after)
    (hy : f.push = some y) (hp : p ∈ y.places) (hpl : p.place = x.target.place)
    (hbyte : p.place = .phys → sameLine p x.target = true ∧ x.mask.getLsbD (p.addr % 64) = true) : x.behindPush c = true := by
  refine List.any_eq_true.mpr ⟨f, hf, ?_⟩
  rw [hy, decide_eq_true hid, Bool.true_and]
  refine List.any_eq_true.mpr ⟨p, hp, ?_⟩
  by_cases h : p.place = .phys
  · obtain ⟨hline, hmask⟩ := hbyte h
    simp [hpl, hline, hmask]
  · have : (p.place != .phys) = true := by simpa using h
    simp [hpl ▸ this, hpl]

section Performs
variable {s : State} {k : Nat} {j : Fin 4}

theorem exec_storePerform_plain {e : StoreEntry} {rest : List Handed} (hr : (s.ctxAt k j).returning = false)
    (ho : (s.ctxAt k j).outbox = .store e :: rest) (he : e.strl = none) : exec (.storePerform k j.val) s =
      match (s.ctxAt k j).readyStores[Config.latency s.draws % (s.ctxAt k j).readyStores.length]? with
      | none => .next s
      | some x => .next (s.drawn.performStore k j x (x.share (Config.granules s.draws))) := by
  rw [exec_storePerform]
  unfold execStorePerform Context.readyStores
  simp only [slotNum_val, hr, ho, he, Option.isSome_none, Bool.false_eq_true, if_false]
  rfl

theorem exec_storePerform_none {e : StoreEntry} {rest : List Handed} (hr : (s.ctxAt k j).returning = false)
    (ho : (s.ctxAt k j).outbox = .store e :: rest) (he : e.strl = none) (h : (s.ctxAt k j).readyStores = []) :
    exec (.storePerform k j.val) s = .next s := by
  rw [exec_storePerform_plain hr ho he, h]
  rfl

theorem exec_storePerform_some {e : StoreEntry} {rest : List Handed} (hr : (s.ctxAt k j).returning = false)
    (ho : (s.ctxAt k j).outbox = .store e :: rest) (he : e.strl = none) (h : (s.ctxAt k j).readyStores ≠ []) : ∃ x ∈ (s.ctxAt k j).readyStores,
      exec (.storePerform k j.val) s = .next (s.drawn.performStore k j x (x.share (Config.granules s.draws))) := by
  have hlt := Nat.mod_lt (Config.latency s.draws) (List.length_pos_iff.mpr h)
  exact ⟨_, List.getElem_mem hlt, by rw [exec_storePerform_plain hr ho he, List.getElem?_eq_getElem hlt]⟩

theorem exec_storePerform_release {z : Scope} {rest : List Handed} (hr : (s.ctxAt k j).returning = false) (hp : (s.ctxAt k j).pushesOut = false)
    (ho : (s.ctxAt k j).outbox = .release z :: rest) :
    exec (.storePerform k j.val) s = .next ((s.modCtx k j fun c => { c with outbox := rest }).release k z) := by
  rw [exec_storePerform]
  unfold execStorePerform
  simp only [slotNum_val, hr, ho, hp, Bool.false_eq_true, if_false]
  rfl

/-! ## Stores that are dropped -/

theorem State.writeDropped_of_dead {s : State} {t : Trans} (hp : t.place = .phys) (hd : (s.kidEntry t.kid).state = .dead) :
    s.writeDropped t = some cKEYDEAD := by
  simp [writeDropped, hp, hd]

theorem State.writeLine_of_dropped {t : Trans} (h : (s.writeDropped t).isSome) (m : BitVec 64) (d : Line) : s.writeLine k t m d = s := by
  unfold State.writeLine
  split
  next c hp => simp [writeDropped, hp] at h
  · exact if_pos h

@[simp] theorem State.modCtx_writeDropped (s : State) (k : Nat) (j : Fin 4) (f : Context → Context) (t : Trans) :
    (s.modCtx k j f).writeDropped t = s.writeDropped t := rfl

/-- A plain store as it leaves its context. -/
def State.sendStore (s : State) (k : Nat) (j : Fin 4) (x : StoreEntry) (m : BitVec 64) : State :=
  s.modCtx k j fun c => { c.spent with outbox := takeBytes x m c.outbox }

@[simp] theorem State.sendStore_writeDropped (s : State) (k : Nat) (j : Fin 4) (x : StoreEntry) (m : BitVec 64) (t : Trans) :
    (s.sendStore k j x m).writeDropped t = s.writeDropped t := rfl

theorem State.performStore_plain {x : StoreEntry} (hx : x.strl = none) (s : State) (m : BitVec 64) :
    s.performStore k j x m = ((s.sendStore k j x m).noteDropped k j x).writeLine k x.target m x.data := by
  unfold State.performStore
  rw [hx]
  rfl

theorem State.performStore_kept {x : StoreEntry} (hx : x.strl = none) (h : s.writeDropped x.target = none) (m : BitVec 64) :
    s.performStore k j x m = (s.sendStore k j x m).writeLine k x.target m x.data := by
  rw [performStore_plain hx, noteDropped, sendStore_writeDropped, h]

/-- A store that is dropped is noted for its context, and writes nothing (R255, R405, R411). -/
theorem State.performStore_dropped {x : StoreEntry} {z : Cause} (hx : x.strl = none) (hm : x.mask ≠ 0) (h : s.writeDropped x.target = some z)
    (m : BitVec 64) : s.performStore k j x m =
      (s.sendStore k j x m).modCtx k j fun c => { c with atomicErr := c.atomicErr.or (some (0, s.storeTrap x z)) } := by
  have hn : (s.sendStore k j x m).noteDropped k j x =
      (s.sendStore k j x m).modCtx k j fun c => { c with atomicErr := c.atomicErr.or (some (0, s.storeTrap x z)) } := by
    rw [noteDropped, sendStore_writeDropped, h]
    exact if_neg hm
  rw [performStore_plain hx, hn]
  refine State.writeLine_of_dropped ?_ _ _
  rw [modCtx_writeDropped, sendStore_writeDropped, h]
  rfl

end Performs

/-! ## Atomics -/

section Atomics
variable {s : State} {k : Nat} {j : Fin 4}

/-- The machine at an atomic's execution point: what precedes it has been released (R230, R240). -/
def State.beforeAtomic (s : State) (k : Nat) (j : Fin 4) (a : AtomicReq) (rest : List Handed) : State :=
  (s.modCtx k j fun c => { c.spent with outbox := rest }).release k a.scope

/-- An atomic waits for the queued writes to its line, or for its route (R218, R389). -/
def State.atomicWaits (s : State) (k : Nat) (a : AtomicReq) : Bool := s.dieBusy a || (!s.inL1 a && s.linkWaits k a.target)

variable {a : AtomicReq} {rest : List Handed} (ho : (s.ctxAt k j).outbox = .atomic a :: rest) (hp : (s.ctxAt k j).pushesOut = false)
  (hr : (s.ctxAt k j).returning = false)
include ho hp hr

theorem exec_atomicExecute_waits (h : (s.beforeAtomic k j a rest).atomicWaits k a = true) : exec (.atomicExecute k j.val) s = .next s := by
  have hw : (s.beforeAtomic k j a rest).dieBusy a ∨ (!(s.beforeAtomic k j a rest).inL1 a ∧ (s.beforeAtomic k j a rest).linkWaits k a.target) := by
    simpa [State.atomicWaits] using h
  rw [exec_atomicExecute]
  unfold execAtomicExecute
  simp only [slotNum_val, ho, hp, hr, Bool.false_eq_true, or_self, if_false]
  exact if_pos hw

theorem exec_atomicExecute_goes (h : (s.beforeAtomic k j a rest).atomicWaits k a = false) : exec (.atomicExecute k j.val) s =
    match (s.beforeAtomic k j a rest).atomicError a with
    | some v => .next ((s.beforeAtomic k j a rest).modCtx k j fun c => { c with atomics := c.atomics.drop 1, atomicErr := some (a.d, v) })
    | none => .next ((((s.beforeAtomic k j a rest).runAtomic k a).2.acquire k j a.scope).modCtx k j fun c =>
        { c with atomics := (a.d, some ((s.beforeAtomic k j a rest).runAtomic k a).1) :: c.atomics.drop 1 }) := by
  have hw : ¬ ((s.beforeAtomic k j a rest).dieBusy a ∨ (!(s.beforeAtomic k j a rest).inL1 a ∧ (s.beforeAtomic k j a rest).linkWaits k a.target)) := by
    simpa [State.atomicWaits] using h
  rw [exec_atomicExecute]
  unfold execAtomicExecute
  simp only [slotNum_val, ho, hp, hr, Bool.false_eq_true, or_self, if_false]
  refine (if_neg hw).trans ?_
  rfl

end Atomics

theorem exec_atomicReturn_goes {s : State} {k : Nat} {j : Fin 4} {d : Fin 32} {v : Word} {rest : List (Fin 32 × Option Word)}
    (ha : (s.ctxAt k j).atomics = (d, some v) :: rest) (hi : ((s.ctxAt k j).sysv rINJECT).getLsbD 63 = false) :
    Goes s (.atomicReturn k j.val) fun t => t.ctxAt k j = { (s.ctxAt k j).landVals [.s (d32 d) v] with atomics := rest } := by
  refine .intro (t := s.modCtx k j fun c => { (injectScalar c (d32 d) v).2.landVals [.s (d32 d) (injectScalar c (d32 d) v).1] with atomics := rest }) ?_ ?_
  · rw [exec_atomicReturn]
    unfold execAtomicReturn
    simp only [slotNum_val, ha]
    rfl
  · rw [State.ctxAt_modCtx_self, injectScalar_unarmed hi]

/-- A scalar value that lands is in its register, s0 apart, and in no other. -/
theorem Context.landVals_scalar (c : Context) (r : Fin 63) (v : Word) :
    (r.val ≠ 0 → (c.landVals [.s r v]).regs.s[r] = v) ∧ ∀ i, i ≠ r → (c.landVals [.s r v]).regs.s[i] = c.regs.s[i] := by
  have hs : (c.landVals [.s r v]).regs.s = if r.val = 0 then c.regs.s else c.regs.s.set r v := c.regs.land_s r v
  refine ⟨fun hr => ?_, fun i hi => ?_⟩
  · simp [hs, hr]
  · have hval : r.val ≠ i.val := fun he => hi (Fin.ext he.symm)
    rw [hs]
    split
    · rfl
    · exact Vector.getElem_set_ne _ _ hval

end Sys2Proof.Machine
end

section
/-! SUPPORT. Walks and the copies of CKPT pages (R248, R250, R260), and the fetches and merges of windrows (R138, R139, R151, R227). -/

namespace Sys2Proof.Machine

/-! ## Walks and copies -/

theorem kidNum_toNat (kid : BitVec 8) : kidNum kid.toNat = kid := BitVec.ofNat_toNat ..

section Walks
variable {s : State} {k va : Nat} {kid : BitVec 8} {z : Bool}

/-- An agent of the core may walk for the KID: the KID is LIVE and the address is none of the Loft's. -/
theorem execPageWalkComplete_live (hva : va < loftBase) (ht : (s.core k).translates kid = true) (hl : (s.kidEntry kid).state = .live) :
    ¬ (2 ^ 56 ≤ va ∨ loftBase ≤ va ∨ !(s.core k).translates kid ∨ (s.kidEntry kid).state ≠ .live) := by
  have : loftBase < 2 ^ 56 := by decide
  simp only [ht, hl, Bool.not_true, Bool.false_eq_true, ne_eq, not_true, or_false]
  omega

variable (hva : va < loftBase) (ht : (s.core k).translates kid = true) (hl : (s.kidEntry kid).state = .live)
include hva ht hl

theorem exec_pageWalkComplete_fails {x : Cause} (hw : s.walk kid va = .error x) :
    Goes s (.pageWalkComplete k kid.toNat va z) fun t => (t.core k).tlb = (s.core k).tlb := by
  refine .intro (t := s.meetWalk kid va) ?_ (congrArg Core.tlb (State.core_congr (s.meetWalk_cores kid va) k))
  rw [exec_pageWalkComplete, execPageWalkComplete, kidNum_toNat, if_neg (execPageWalkComplete_live hva ht hl), hw]
  rfl

theorem exec_pageWalkComplete_caches {e : TlbEntry} (hw : s.walk kid va = .ok e)
    (hu : ∀ x, (s.meetWalk kid va).useLeaf (superWho kid) (if z then .write else .read) va e ≠ .fault x) :
    Goes s (.pageWalkComplete k kid.toNat va z) fun t => (t.core k).tlb = e :: (s.core k).tlb := by
  refine .intro (t := (s.meetWalk kid va).drawn.modCore k fun c => { c with tlb := e :: c.tlb }) ?_ ?_
  · rw [exec_pageWalkComplete, execPageWalkComplete, kidNum_toNat, if_neg (execPageWalkComplete_live hva ht hl), hw]
    dsimp only
    split
    next x hx => exact absurd hx (hu x)
    · rfl
  · rw [State.core_modCore_self, State.core_congr (State.drawn_cores _) k, State.core_congr (s.meetWalk_cores kid va) k]

end Walks

section Copies
variable {s : State} {k va : Nat} {kid : BitVec 8} {e : TlbEntry}

/-- The machine without the request for a page's copy. -/
def State.withoutCopy (s : State) (k : Nat) (kid : BitVec 8) (va : Nat) : State :=
  s.modCore k fun c => { c with copies := c.copies.filter fun x => x != (kid, va / 4096) }

theorem exec_ckptCopyComplete_asked (hc : (kid, va / 4096) ∈ (s.core k).copies) (hw : s.walk kid va = .ok e) :
    exec (.ckptCopyComplete k kid.toNat va) s =
      if ptePr e.leaf ≠ 3 ∨ (s.frameError e).isSome then .next (s.withoutCopy k kid va)
      else if s.guestHolds e.covers then .next (s.dropGuest e.covers)
      else if !s.dropDone e.kid e.covers then .next s
      else .next ((s.withoutCopy k kid va).ckptCopy e) := by
  have hasked : ¬ (!(s.core k).copies.contains (kid, va / 4096)) = true := by simpa using hc
  rw [exec_ckptCopyComplete, execCkptCopyComplete, kidNum_toNat, if_neg hasked, hw]
  rfl

variable (hc : (kid, va / 4096) ∈ (s.core k).copies) (hw : s.walk kid va = .ok e)
include hc hw

theorem exec_ckptCopyComplete_needless (h : ptePr e.leaf ≠ 3 ∨ (s.frameError e).isSome = true) :
    exec (.ckptCopyComplete k kid.toNat va) s = .next (s.withoutCopy k kid va) :=
  (exec_ckptCopyComplete_asked hc hw).trans (if_pos h)

variable (hpr : ptePr e.leaf = 3) (hf : s.frameError e = none)
include hpr hf

theorem exec_ckptCopyComplete_guest (h : s.guestHolds e.covers = true) : exec (.ckptCopyComplete k kid.toNat va) s = .next (s.dropGuest e.covers) := by
  simp [exec_ckptCopyComplete_asked hc hw, hpr, hf, h]

variable (hg : s.guestHolds e.covers = false)
include hg

theorem exec_ckptCopyComplete_waits (h : s.dropDone e.kid e.covers = false) : exec (.ckptCopyComplete k kid.toNat va) s = .next s := by
  simp [exec_ckptCopyComplete_asked hc hw, hpr, hf, hg, h]

theorem exec_ckptCopyComplete_copies (h : s.dropDone e.kid e.covers = true) :
    exec (.ckptCopyComplete k kid.toNat va) s = .next ((s.withoutCopy k kid va).ckptCopy e) := by
  simp [exec_ckptCopyComplete_asked hc hw, hpr, hf, hg, h]

end Copies

theorem State.dropDone_iff {s : State} {kid : BitVec 8} {hit : BitVec 8 → Nat → Bool} :
    s.dropDone kid hit = true ↔ s.comingUnder kid hit = false ∧ s.chunkUnder hit = false ∧ s.guestAcked = true := by
  simp [State.dropDone, and_assoc]

/-! ## Windrow fetches -/

theorem winNum_val (w : Fin 16) : winNum w.val = w := Fin.ext (Nat.mod_eq_of_lt w.isLt)

theorem State.putWin_windrow (s : State) (k : Nat) (j : Fin 4) (w v : Fin 16) (x : Windrow) :
    ((s.putWin k j w x).ctxAt k j).windrows[v] = if w = v then x else (s.ctxAt k j).windrows[v] := by
  simp only [State.putWin, State.ctxAt_modCtx_self, Fin.getElem_fin, Vector.getElem_set, Fin.ext_iff]

section Fetches
variable {s : State} {k : Nat} {j : Fin 4} {w : Fin 16}

theorem Context.atomicOut_iff {c : Context} : c.atomicOut = true ↔ c.atomics ≠ [] := by simp [Context.atomicOut]

theorem exec_windrowFetch_atomicOut (h : (s.ctxAt k j).atomicOut = true) : exec (.windrowFetch k j.val w.val) s = .next s := by
  rw [exec_windrowFetch, execWindrowFetch, slotNum_val]
  split
  · rfl
  · exact if_pos (.inr (.inr (.inl h)))

theorem exec_windrowFetch_reads {x : Windrow} {bytes : Nat} {e : WinEntry} {t : State} (hx : (s.ctxAt k j).windrows[w] = x) (hw : x.width = some bytes)
    (hr : (s.ctxAt k j).resident = true) (hs : x.state = .active ∨ x.state = .busy) (ha : (s.ctxAt k j).atomicOut = false) (hd : x.desc.dir = false)
    (hla : x.buf.length < x.desc.la.toNat) (hn : x.n + x.buf.length < x.desc.total)
    (hf : s.fetchElem k j w (x.ahead x.buf.length) bytes = some (e, t)) :
    exec (.windrowFetch k j.val w.val) s = .next (t.putWin k j w { x with buf := x.buf ++ [e] }) := by
  have hroom : ¬ (!(s.ctxAt k j).resident ∨ (x.state ≠ .active ∧ x.state ≠ .busy) ∨ (s.ctxAt k j).atomicOut ∨ x.desc.dir ∨
      x.desc.la.toNat ≤ x.buf.length ∨ x.desc.total ≤ x.n + x.buf.length) := by
    simp only [hr, ha, hd, Bool.not_true, Bool.false_eq_true, false_or]
    rintro (⟨h, h'⟩ | h | h)
    · exact hs.elim h h'
    · omega
    · omega
  rw [exec_windrowFetch, execWindrowFetch, slotNum_val]
  simp only [winNum_val, hx, hw, if_neg hroom, hf]
  rfl

/-- The oldest fetch that has not landed. -/
def Windrow.landing (x : Windrow) : Nat := (x.buf.takeWhile fun e => e.arrived).length

theorem Windrow.landing_of {x : Windrow} {before after : List WinEntry} {e : WinEntry} (hb : x.buf = before ++ e :: after)
    (hbefore : ∀ y ∈ before, y.arrived = true) (he : e.arrived = false) : x.landing = before.length := by
  rw [Windrow.landing, hb, List.takeWhile_append_of_pos hbefore]
  simp [he]

section Lands
variable {x : Windrow} {before after : List WinEntry} {e : WinEntry} {bytes : Nat} (hx : (s.ctxAt k j).windrows[w] = x)
  (hb : x.buf = before ++ e :: after) (hbefore : ∀ y ∈ before, y.arrived = true) (he : e.arrived = false) (hw : x.width = some bytes)
include hx hb hbefore he hw

theorem exec_windrowFetchComplete_eq : exec (.windrowFetchComplete k j.val w.val) s =
    match s.fetchElem k j w (x.ahead before.length) bytes with
    | none => .next s
    | some (y, t) => .next (t.drawn.putWin k j w
        { x with buf := before ++ (x.ahead before.length).mixEntry bytes s.pickGranules e y :: after }) := by
  have hn : (x.buf.takeWhile fun e => e.arrived).length = before.length := Windrow.landing_of hb hbefore he
  have hget : x.buf[before.length]? = some e := by simp [hb]
  have hset : ∀ z, x.buf.set before.length z = before ++ z :: after := fun z => by simp [hb]
  rw [exec_windrowFetchComplete, execWindrowFetchComplete, slotNum_val]
  simp only [winNum_val, hx, hn, hw, hget, hset]
  rfl

end Lands

section Mixes
variable {x : Windrow} {bytes : Nat} {pick : Nat → BitVec 8} {old new : WinEntry}

theorem Windrow.mixEntry_of_fault (h : old.fault.isSome = true) : x.mixEntry bytes pick old new = { old with arrived := true } := if_pos h

theorem Windrow.mixEntry_of_stale (h : old.fault = none) (hs : old.stale = true) : x.mixEntry bytes pick old new = new := by
  simp [Windrow.mixEntry, h, hs]

theorem Windrow.mixEntry_arrived (h : old.fault.isSome = true ∨ old.stale = false) : (x.mixEntry bytes pick old new).arrived = true := by
  unfold Windrow.mixEntry
  split
  · rfl
  next hf =>
    rw [h.resolve_left hf, if_neg Bool.false_ne_true]
    split <;> rfl

/-- Each byte of an element vector that lands was read as its fetch began, or as it ended (R227). -/
theorem Windrow.mixEntry_raw (ho : old.fault = none) (hn : new.fault = none) (hs : old.stale = false) {b : Byte}
    (hb : b ∈ (x.mixEntry bytes pick old new).raw) : ∃ p ∈ old.raw.zip new.raw, b = p.1 ∨ b = p.2 := by
  simp only [Windrow.mixEntry, ho, hn, hs, Option.isSome_none, Bool.false_eq_true, if_false] at hb
  obtain ⟨y, hy, rfl⟩ := List.mem_map.mp hb
  refine ⟨y.2, (List.of_mem_zip hy).2, ?_⟩
  split
  · exact .inr rfl
  · exact .inl rfl

end Mixes

/-! ## Merges -/

theorem exec_windrowMergeComplete_atomicOut (h : (s.ctxAt k j).atomicOut = true) : exec (.windrowMergeComplete k j.val w.val) s = .next s := by
  rw [exec_windrowMergeComplete, execWindrowMergeComplete, slotNum_val]
  exact if_pos (.inr h)

variable (hr : (s.ctxAt k j).resident = true) (ha : (s.ctxAt k j).atomicOut = false)
include hr ha

theorem State.mergeGoes : ¬ (!(s.ctxAt k j).resident ∨ (s.ctxAt k j).atomicOut) := by simp [hr, ha]

theorem exec_windrowMergeComplete_isect {n cnt : Nat} {a b : Windrow} {t : State} (hm : ((s.ctxAt k j).windrows[w]).merge = some (.isect n))
    (hl : State.mergeLoop k j w (((s.ctxAt k j).windrows[w]).remaining + ((s.ctxAt k j).windrows[w + 1]).remaining + 1) ((s.ctxAt k j).windrows[w]).unbusy
      ((s.ctxAt k j).windrows[w + 1]).unbusy n s = .ok a b cnt t) : exec (.windrowMergeComplete k j.val w.val) s =
        .next ((t.putWin k j w { a.toDone with icnt := a.icnt + BitVec.ofNat 32 cnt }).putWin k j (w + 1) b.toDone) := by
  rw [exec_windrowMergeComplete, execWindrowMergeComplete, slotNum_val]
  simp only [winNum_val, if_neg (State.mergeGoes hr ha), hm, hl]
  rfl

theorem exec_windrowMergeComplete_count {lo : BitVec 32} {n cnt : Nat} {a b : Windrow} {t : State}
    (hm : ((s.ctxAt k j).windrows[w]).merge = some (.count lo n))
    (hl : State.countLoop k j w lo.toNat (((s.ctxAt k j).windrows[w]).remaining + 1) ((s.ctxAt k j).windrows[w]).unbusy n s = .ok a b cnt t) :
    exec (.windrowMergeComplete k j.val w.val) s = .next (t.putWin k j w { a with skc := BitVec.ofNat 32 cnt }) := by
  rw [exec_windrowMergeComplete, execWindrowMergeComplete, slotNum_val]
  simp only [winNum_val, if_neg (State.mergeGoes hr ha), hm, hl]
  rfl

end Fetches

/-- Settles O46, event by event. -/
theorem accessEvents : Obligations.AccessEvents := by
  intro s k j w c
  have hquiet : c.atomics = [] → c.atomicOut = false := fun h => by simp [Context.atomicOut, h]
  refine ⟨fun e rest hr ho he hnone => exec_storePerform_none hr ho he hnone, fun e rest hr ho he hsome => ?stores,
    fun x y f p hf hid hy hp => StoreEntry.behindPush_of hf hid hy hp, fun z rest hr hp ho => exec_storePerform_release hr hp ho,
    fun a rest ho hp hr => ?atomics, fun d v rest ha hi => ?returns, fun kid va z hva ht hl => ?walks, fun kid va e hc hw => ?copies,
    fun kid hit => State.dropDone_iff, ⟨?fetch, ?lands, ?missing, fun h => ?out, ?isect, ?count⟩,
    fun step ends hm hf => exec_loftStepShrinkComplete_atFloor hm hf, fun z step ends hm he hf => ?loft⟩
  case stores =>
    obtain ⟨x, hx, hexec⟩ := exec_storePerform_some hr ho he hsome
    obtain ⟨hfirst, hpush, hstrl⟩ := Context.mem_readyStores hx
    refine ⟨x, hfirst, hpush, _, x.share_cases (Config.granules s.draws), hexec, fun h => State.performStore_kept (s := s.drawn) hstrl h _,
      State.writeDropped_of_dead, fun z hm h => ?_⟩
    rw [State.performStore_dropped hstrl hm (s := s.drawn) h]
    refine ⟨rfl, ?_, ?_⟩
    · rw [State.core_modCtx_self, State.sendStore, State.core_modCtx_self]
      rfl
    · rw [State.ctxAt_modCtx_self, State.sendStore, State.ctxAt_modCtx_self]
      rfl
  case atomics =>
    refine ⟨exec_atomicExecute_waits ho hp hr, fun old v hw hx hrun => ?_, fun x hw hx => ?_⟩ <;> refine (exec_atomicExecute_goes ho hp hr hw).trans ?_
    · have hx' : (s.beforeAtomic k j a rest).atomicError a = none := hx
      have hrun' : (s.beforeAtomic k j a rest).runAtomic k a = (old, v) := hrun
      rw [hx', hrun']
    · have hx' : (s.beforeAtomic k j a rest).atomicError a = some x := hx
      rw [hx']
      rfl
  case returns =>
    obtain ⟨t, hexec, hctx⟩ := exec_atomicReturn_goes ha hi
    obtain ⟨hself, hothers⟩ := Context.landVals_scalar c (d32 d) v
    refine .intro hexec ?_
    rw [hctx]
    exact ⟨rfl, fun hd => hself (Fin.val_ne_of_ne hd), hothers⟩
  case walks =>
    exact ⟨fun x hw => exec_pageWalkComplete_fails hva ht hl hw, fun e hw hu => exec_pageWalkComplete_caches hva ht hl hw hu⟩
  case copies =>
    exact ⟨exec_ckptCopyComplete_needless hc hw, fun hpr hf => ⟨exec_ckptCopyComplete_guest hc hw hpr hf,
      exec_ckptCopyComplete_waits hc hw hpr hf, exec_ckptCopyComplete_copies hc hw hpr hf⟩⟩
  case fetch =>
    exact fun bytes e t hw hr hs ha hd hla hn hf => exec_windrowFetch_reads rfl hw hr hs (hquiet ha) hd hla hn hf
  case lands =>
    intro before e after bytes y t hb hbefore he hw hf
    refine ⟨(c.windrows[w].ahead before.length).mixEntry bytes s.pickGranules e y, Windrow.mixEntry_arrived, Windrow.mixEntry_of_stale, ?_,
      Windrow.mixEntry_of_fault, fun ho hn hs _ _ b hbyte => Windrow.mixEntry_raw ho hn hs hbyte⟩
    rw [exec_windrowFetchComplete_eq rfl hb hbefore he hw, hf]
  case missing =>
    intro before e after bytes hb hbefore he hw hf
    rw [exec_windrowFetchComplete_eq rfl hb hbefore he hw, hf]
  case out =>
    exact ⟨exec_windrowMergeComplete_atomicOut (Context.atomicOut_iff.mpr h), exec_windrowFetch_atomicOut (Context.atomicOut_iff.mpr h)⟩
  case isect =>
    intro n a b cnt t hr ha hm hl hne
    refine .intro (exec_windrowMergeComplete_isect hr (hquiet ha) hm hl) ?_
    rw [State.putWin_windrow, if_neg (Ne.symm hne), State.putWin_windrow, if_pos rfl]
  case count =>
    intro lo n a b cnt t hr ha hm hl
    refine .intro (exec_windrowMergeComplete_count hr (hquiet ha) hm hl) ?_
    rw [State.putWin_windrow, if_pos rfl]
  case loft =>
    cases z with
    | true =>
      obtain ⟨t, hexec, hscr, hmove, hloft⟩ := exec_loftStepGrowComplete_ends hm he
      exact .intro hexec ⟨hscr, hmove, fun a => by rw [hloft, bget_dropStep]⟩
    | false =>
      obtain ⟨t, hexec, hscr, hmove, hloft⟩ := exec_loftStepShrinkComplete_ends hm he (hf rfl)
      exact .intro hexec ⟨hscr, hmove, fun a => by rw [hloft, bget_dropStep]⟩

end Sys2Proof.Machine
end

section
/-! SUPPORT. Micro-operations and nodes (R166, R361): their words are fixed bits with operands in their fields, which the decoders read back. -/

namespace Sys2Proof

/-- A word of 64 bits that a layout gives holds the layout's operands, and elsewhere the bits that the form fixes. -/
theorem Shape.reads_layout {w c : Nat} {sh : Shape} {os : List Operand} (hw : w = layout c sh os % 2 ^ 64) (ht : sh.Takes os)
    (hs : os.flatMap Operand.srcs = []) (fit : sh.fits c = true) :
    sh.Gives w 0 os ∧ ∀ lo m, (decide (lo + m ≤ 64) && sh.all fun p => apart p (lo, m)) = true → fld w lo m = c / 2 ^ lo % 2 ^ m := by
  have hfld : ∀ lo m, lo + m ≤ 64 → fld w lo m = fld (layout c sh os) lo m := fun lo m h => by rw [hw, fld_mod h]
  refine ⟨Shape.gives_of_layout fit ht (by simp [hs]) fun p hp => hfld p.1 p.2 ((Shape.fits_le fit p hp).trans (by decide)), fun lo m h => ?_⟩
  obtain ⟨hle, ha⟩ := Bool.and_eq_true_iff.mp h
  rw [hfld lo m (of_decide_eq_true hle), fld_layout_apart (q := (lo, m)) fit ht (List.all_eq_true.mp ha), fld]

/-! ## Micro-operations (R166) -/

theorem decodeMicro_sub (b : Bool) : decodeMicro (0xB000 + b.toNat) = .ok (.uSub b) := by cases b <;> rfl

theorem decodeMicro_kmask {k : BitVec 4} (hk : k ≠ 0) : decodeMicro (0xC000 + k.toNat) = .ok (.uKmask k) := by
  have hwf : (Instr.uKmask k).wf = true := Bool.and_eq_true_iff.mpr ⟨bne_iff_ne.mpr fun h => hk (BitVec.eq_of_toNat_eq h), rfl⟩
  have hlt := k.isLt
  obtain ⟨⟨harg, -⟩, hc⟩ := Shape.reads_layout (w := 0xC000 + k.toNat) (c := 0xC000) (sh := [(0, 4)]) (os := [.bits 4 k])
    (Nat.mod_eq_of_lt (show 0xC000 + k.toNat < 2 ^ 64 by omega)).symm rfl rfl rfl
  simp [decodeMicro, hc 12 4 rfl, hc 4 8 rfl, harg, Except.bind, hwf]

theorem decodeMicro_tag (t : BitVec 8) : decodeMicro (0xD000 + t.toNat) = .ok (.uTag t) := by
  have hlt := t.isLt
  obtain ⟨⟨harg, -⟩, hc⟩ := Shape.reads_layout (w := 0xD000 + t.toNat) (c := 0xD000) (sh := [(0, 8)]) (os := [.bits 8 t])
    (Nat.mod_eq_of_lt (show 0xD000 + t.toNat < 2 ^ 64 by omega)).symm rfl rfl rfl
  have hwf : (Instr.uTag t).wf = true := rfl
  simp [decodeMicro, hc 12 4 rfl, hc 8 4 rfl, harg, Except.bind, hwf]

/-! ## Nodes (R361) -/

theorem decBits_all (w : Word) : decBits w.toNat 0 64 = w := by simp [decBits]

/-- A field that a longer word holds alone, with zeros above it. -/
theorem decBits_setWidth {n : Nat} (hn : n ≤ 64) (x : BitVec n) : decBits (x.setWidth 64).toNat 0 n = x ∧ fld (x.setWidth 64).toNat n (64 - n) = 0 := by
  have hx : (x.setWidth 64).toNat = x.toNat := by rw [BitVec.toNat_setWidth, Nat.mod_eq_of_lt (x.isLt.trans_le (Nat.pow_le_pow_right (by decide) hn))]
  rw [hx, decBits, fld, Nat.div_eq_of_lt x.isLt]
  simp

/-- The fields of a node read back from its words give the node (R361). -/
theorem decodeNodeFields_encode {i : Instr} {w0 w1 w2 w3 : Word} (h : encodeNode i = [w0, w1, w2, w3]) :
    decodeNodeFields w0.toNat w1.toNat w2.toNat w3.toNat = .ok i := by
  have firstWord : ∀ {w : Word} {c : Nat} {sh : Shape} {os : List Operand}, BitVec.ofNat 64 (layout c sh os) = w → sh.Takes os →
      os.flatMap Operand.srcs = [] → sh.fits c = true → sh.Gives w.toNat 0 os ∧
        ∀ lo m, (decide (lo + m ≤ 64) && sh.all fun p => apart p (lo, m)) = true → fld w.toNat lo m = c / 2 ^ lo % 2 ^ m :=
    fun hw => Shape.reads_layout (by rw [← hw, BitVec.toNat_ofNat])
  have words : ∀ {a b c d : Word}, [a, b, c, d] = [w0, w1, w2, w3] → a = w0 ∧ b = w1 ∧ c = w2 ∧ d = w3 := fun h => by simpa using h
  cases i with
  | nodeLaunch q grp re lb join =>
    obtain ⟨h0, rfl, rfl, rfl⟩ := words h
    obtain ⟨⟨hre, hgrp, hq, -⟩, hc⟩ := firstWord (sh := [(18, 1), (14, 4), (8, 6)]) (os := [.bit re, .full 4 grp, .full 6 q]) h0 rfl rfl rfl
    obtain ⟨hlb, hlb0⟩ := decBits_setWidth (by decide) lb
    obtain ⟨hjoin, hjoin0⟩ := decBits_setWidth (by decide) join
    rw [decodeNodeFields, hc 0 8 rfl]
    simp only [hc 19 45 rfl, hlb0, hjoin0, hq, hgrp, hre, hlb, hjoin]
    rfl
  | nodeWaitk m =>
    obtain ⟨h0, rfl, rfl, rfl⟩ := words h
    obtain ⟨⟨hm, -⟩, hc⟩ := firstWord (sh := [(8, 16)]) (os := [.bits 16 m]) h0 rfl rfl rfl
    rw [decodeNodeFields, hc 0 8 rfl]
    simp only [hc 24 40 rfl, hm]
    rfl
  | nodeStep =>
    obtain ⟨rfl, rfl, rfl, rfl⟩ := words h
    rfl
  | nodeCond src sreg op breg mem b target =>
    obtain ⟨h0, rfl, rfl, rfl⟩ := words h
    obtain ⟨⟨hbreg, hop, hsreg, hsrc, -⟩, hc⟩ := firstWord (sh := [(18, 1), (14, 3), (9, 5), (8, 1)])
      (os := [.bit breg, .full 3 op, .upTo 5 17 (by decide) sreg, .bit src]) h0 rfl rfl rfl
    obtain ⟨ht, ht0⟩ := decBits_setWidth (by decide) target
    rw [decodeNodeFields, hc 0 8 rfl]
    simp only [hc 19 45 rfl, hc 17 1 rfl, ht0, hbreg, hop, hsreg, hsrc, decBits_all, ht]
    rfl
  | nodePost ring tag payload =>
    obtain ⟨h0, rfl, rfl, rfl⟩ := words h
    obtain ⟨⟨htag, hring, -⟩, hc⟩ := firstWord (sh := [(12, 16), (8, 4)]) (os := [.bits 16 tag, .full 4 ring]) h0 rfl rfl rfl
    rw [decodeNodeFields, hc 0 8 rfl]
    simp only [hc 28 36 rfl, htag, hring, decBits_all]
    rfl
  | nodeSetr sreg value =>
    obtain ⟨h0, rfl, rfl, rfl⟩ := words h
    obtain ⟨⟨hsreg, -⟩, hc⟩ := firstWord (sh := [(8, 5)]) (os := [.upTo 5 17 (by decide) sreg]) h0 rfl rfl rfl
    rw [decodeNodeFields, hc 0 8 rfl]
    simp only [hc 13 51 rfl, hsreg, decBits_all]
    rfl
  | nodeFence s =>
    obtain ⟨h0, rfl, rfl, rfl⟩ := words h
    obtain ⟨⟨hs, -⟩, hc⟩ := firstWord (sh := [(8, 3)]) (os := [.scope s]) h0 rfl rfl rfl
    rw [decodeNodeFields, hc 0 8 rfl]
    simp only [hc 11 53 rfl, hs]
    rfl
  | nodeStop code =>
    obtain ⟨h0, rfl, rfl, rfl⟩ := words h
    obtain ⟨⟨hcode, -⟩, hc⟩ := firstWord (sh := [(8, 16)]) (os := [.bits 16 code]) h0 rfl rfl rfl
    rw [decodeNodeFields, hc 0 8 rfl]
    simp only [hc 24 40 rfl, hcode]
    rfl
  | _ => exact absurd h.symm (List.cons_ne_nil _ _)

/-- Settles O2: a word's fields are apart, and each decoder reads them back. -/
theorem microAndNodeRoundTrip : Obligations.MicroAndNodeRoundTrip := by
  refine ⟨⟨decodeMicro_sub, fun k => decodeMicro_kmask, decodeMicro_tag, rfl, rfl, rfl, rfl, rfl, rfl, rfl, rfl, rfl, rfl, rfl, rfl, rfl⟩, ?_⟩
  intro i hwf w0 w1 w2 w3 h
  rw [decodeNode, decodeNodeFields_encode h, Except.bind, if_pos hwf]

end Sys2Proof
end

section
/-! SUPPORT. The micro-operations of a call (R165 to R169): how one runs, what a call's own changes leave of its core, and how a slot is acquired. -/

namespace Sys2Proof.Machine

/-! ## What releases and landings keep -/

@[simp] theorem State.engineRelease_now (s : State) (k : Nat) (j : Fin 4) (x : HeldSlot) : (s.engineRelease k j x).now = s.now := by
  unfold State.engineRelease
  dsimp only
  split <;> rfl

@[simp] theorem State.callRelease_now (s : State) (k : Nat) (a : Fin 4) (dr : Bool) (x : Option HeldSlot) : (s.callRelease k a dr x).now = s.now := by
  unfold State.callRelease
  split
  · rfl
  · split
    · rfl
    · split
      · exact s.engineRelease_now k _ _
      · rfl

@[simp] theorem State.callRelease_calls (s : State) (k : Nat) (a : Fin 4) (dr : Bool) (x : Option HeldSlot) :
    ((s.callRelease k a dr x).core k).calls = (s.core k).calls := by
  unfold State.callRelease
  split
  · rfl
  · split
    · simp [State.modBank]
    · split
      · rw [State.engineRelease_core]
      · rfl

@[simp] theorem State.landAll_now (s : State) (k : Nat) (a : Fin 4) (m : MatrixCall) : (s.landAll k a m).now = s.now := by
  unfold State.landAll
  refine foldl_keeps (g := State.now) ?_ m.macs s
  exact fun _ _ => rfl

/-! ## The call that has the array -/

theorem State.goOn_core (s : State) (k : Nat) (a : Fin 4) (m : MatrixCall) (n : Nat) : (s.goOn k a m n).core k =
    { (s.setCall k a { m with pc := m.pc + 1, waits := false }).core k with arrayAt := s.now + n } := State.core_modCore_self _ _ _

theorem State.setCall_banks (s : State) (k : Nat) (a : Fin 4) (m : MatrixCall) : ((s.setCall k a m).core k).banks = (s.core k).banks := by
  rw [State.setCall, State.core_modCore_self]

section Running
variable {s : State} {k : Nat} {a : Fin 4} {m : MatrixCall} (hk : s.issue.core = k) (harr : (s.core k).array = some a)
  (hcall : (s.core k).callOf a = some m) (hat : (s.core k).arrayAt ≤ s.now)

include hcall in
theorem MatrixCall.bank_of_callOf : m.cmd.bank = a := by simpa using List.find?_some hcall

include hcall in
/-- The call that goes on is the bank's call, at its next micro-operation. -/
theorem State.goOn_goes (n : Nat) : ((s.goOn k a m n).core k).callOf a = some { m with pc := m.pc + 1, waits := false } ∧
    ((s.goOn k a m n).core k).arrayAt = s.now + n := by
  rw [State.goOn_core]
  exact ⟨State.setCall_callOf hcall (m' := { m with pc := m.pc + 1, waits := false }) (MatrixCall.bank_of_callOf (m := m) hcall), rfl⟩

include hk harr hcall hat

/-- A micro-operation runs once the array is free (R168). -/
theorem State.micro_runs (f : Nat → Fin 4 → MatrixCall → State → State) : s.micro f = .next (f k a m s) := by
  simp only [State.micro, hk, harr, hcall, if_neg (Nat.not_lt.mpr hat), State.done_eq]

theorem exec_uEndl_loops (hleft : 1 < m.left) : Goes s .uEndl fun t =>
    (t.core k).callOf a = some { m with left := m.left - 1, pc := m.top } ∧ (t.core k).arrayAt = s.now + 1 := by
  refine .intro ((exec_uEndl s).trans ((State.micro_runs hk harr hcall hat _).trans (congrArg _ (if_pos hleft)))) ?_
  rw [State.core_modCore_self]
  exact ⟨State.setCall_callOf hcall (m' := { m with left := m.left - 1, pc := m.top }) (MatrixCall.bank_of_callOf (m := m) hcall), rfl⟩

theorem exec_uEndl_ends (hleft : m.left ≤ 1) : exec .uEndl s = .next (s.goOn k a { m with left := m.left - 1 } 1) :=
  (exec_uEndl s).trans ((State.micro_runs hk harr hcall hat _).trans (congrArg _ (if_neg (Nat.not_lt.mpr hleft))))

/-- A MAC of two current slots adds its terms to those on their way (R168, R169). -/
theorem exec_uMac_adds {h g : HeldSlot} (ha : m.curA = some h) (hb : m.curB = some g) : ∃ t : MacTerms, t.slotA = s.slotData k h m.param.sizeA ∧
    t.slotB = s.slotData k g m.param.sizeB ∧ t.km = m.km ∧ t.neg = m.neg ∧ t.cs = m.cs ∧ t.land + 1 = s.now + t.cycles m.param + 12 ∧
    exec .uMac s = .next (s.goOn k a { m with macs := m.macs ++ [t] } (t.cycles m.param)) := by
  let t : MacTerms := ⟨0, s.slotData k h m.param.sizeA, s.slotData k g m.param.sizeB, m.km, m.neg, m.cs⟩
  have hpos : 1 ≤ t.cycles m.param := Nat.le_max_left ..
  have hland : s.now + t.cycles m.param - 1 + 12 + 1 = s.now + t.cycles m.param + 12 := by omega
  refine ⟨{ t with land := s.now + t.cycles m.param - 1 + 12 }, rfl, rfl, rfl, rfl, rfl, hland, ?_⟩
  rw [exec_uMac, execUMac, State.micro_runs hk harr hcall hat, ha, hb]
  rfl

theorem exec_uMac_lacks (h : m.curA = none ∨ m.curB = none) : exec .uMac s = .next (s.callError k a m cRINGERR) := by
  rw [exec_uMac, execUMac, State.micro_runs hk harr hcall hat]
  obtain h | h := h
  · rw [h]
  · rw [h]
    cases m.curA <;> rfl

/-- ZERO leaves no cell and no checksum (R169). -/
theorem exec_uZero_clears : Goes s .uZero fun t => (t.core k).banks[a].cells = [] ∧ (t.core k).banks[a].rp = [] ∧ (t.core k).banks[a].cp = [] ∧
    (t.core k).arrayAt = s.now + 8 := by
  refine .intro ((exec_uZero s).trans (State.micro_runs hk harr hcall hat _)) ?_
  rw [State.goOn_core]
  simp [State.setCall_banks, State.modBank]

/-- END gives both slots back, and the array (R168). -/
theorem exec_uEnd_ends : Goes s .uEnd fun t => (t.core k).callOf a = some { m with curA := none, curB := none, ended := some s.now } ∧
    (t.core k).array = none := by
  have hcalls : (((s.callRelease k a m.param.dr m.curA).callRelease k a m.param.dr m.curB).core k).callOf a = some m := by
    rw [Core.callOf, State.callRelease_calls, State.callRelease_calls]
    exact hcall
  refine .intro ((exec_uEnd s).trans (State.micro_runs hk harr hcall hat _)) ?_
  rw [State.core_modCore_self, State.callRelease_now, State.callRelease_now]
  exact ⟨State.setCall_callOf hcalls (m' := { m with curA := none, curB := none, ended := some s.now }) (MatrixCall.bank_of_callOf (m := m) hcall), rfl⟩

end Running

/-! ## Slots (R165, R192) -/

/-- A slot may be used where it is no EOS slot, large enough, and of the right sparse mask; EQ moves past any. -/
theorem State.acquireSlot_cases (t : State) (k : Nat) (j : Fin 4) (rb : Fin 16) (size n : Nat) :
    let r := (t.ctxAt k j).rings[rb]
    let e := t.boundEntry k j r
    ((t.acquireSlot k j rb size n).1 = true ↔ (e.slot r.eq).eos = false ∧ size ≤ e.desc.slotBytes ∧
      (n = 0 ∨ popCount (BitVec.ofNat 128 (leNat (t.loftRead k (e.desc.slotOff r.eq) 16))) = n)) ∧
    (t.acquireSlot k j rb size n).2.1 = ⟨rb, r.desc.rid, r.eq, r.epoch⟩ ∧
    (t.acquireSlot k j rb size n).2.2 = t.modCtx k j fun c => { c with rings := c.rings.set rb { c.rings[rb] with eq := r.eq + 1 } } := by
  refine ⟨?_, rfl, rfl⟩
  simp only [State.acquireSlot, Bool.not_eq_true', Bool.or_eq_false_iff, decide_eq_false_iff_not, Nat.not_lt, Bool.and_eq_false_iff, bne_eq_false_iff_eq,
    and_assoc]

/-- GETA and GETB once the current slot is given back: the call m acquires a slot, which `hold` makes its current one. -/
def State.getSlot (s : State) (k : Nat) (a : Fin 4) (m : MatrixCall) (rb : Fin 16) (size kept : Nat) (hold : HeldSlot → MatrixCall) : State :=
  if !s.engineBound k m.slot rb then s.callError k a m cRINGERR
  else if !s.slotPresent k m.slot rb 0 then s.callWaits k a m
  else
    let (ok, h, t) := s.acquireSlot k m.slot rb size kept
    if ok then t.goOn k a (hold h) 1 else t.callError k a (hold h) cRINGERR

section GetSlot
variable {s : State} {k : Nat} {a : Fin 4} {m : MatrixCall} {rb : Fin 16} {size kept : Nat} {hold : HeldSlot → MatrixCall}

theorem State.getSlot_unbound (h : s.engineBound k m.slot rb = false) : s.getSlot k a m rb size kept hold = s.callError k a m cRINGERR := by
  simp [State.getSlot, h]

theorem State.getSlot_absent (h : s.engineBound k m.slot rb = true) (hp : s.slotPresent k m.slot rb 0 = false) :
    s.getSlot k a m rb size kept hold = s.callWaits k a m := by
  simp only [State.getSlot, h, hp, Bool.not_true, Bool.not_false, Bool.false_eq_true, if_false, if_true]

theorem State.getSlot_acquires (h : s.engineBound k m.slot rb = true) (hp : s.slotPresent k m.slot rb 0 = true) {ok : Bool} {x : HeldSlot} {t : State}
    (hx : s.acquireSlot k m.slot rb size kept = (ok, x, t)) :
    s.getSlot k a m rb size kept hold = if ok then t.goOn k a (hold x) 1 else t.callError k a (hold x) cRINGERR := by
  simp only [State.getSlot, h, hp, hx, Bool.not_true, Bool.false_eq_true, if_false]

end GetSlot

section Getab
variable {s : State} {k : Nat} {a : Fin 4} {m : MatrixCall}

/-- GETAB once both current slots are given back. -/
def State.getSlots (s : State) (k : Nat) (a : Fin 4) (m : MatrixCall) : State :=
  let x := m.param
  if !s.engineBound k m.slot x.rba || !s.engineBound k m.slot x.rbb then s.callError k a m cRINGERR
  else if !s.slotPresent k m.slot x.rba 0 || !s.slotPresent k m.slot x.rbb (if x.rba = x.rbb then 1 else 0) then s.callWaits k a m
  else
    let (okA, h, t) := s.acquireSlot k m.slot x.rba x.sizeA (if x.sp = 0 then 0 else sparseN x.sp)
    let (okB, g, u) := t.acquireSlot k m.slot x.rbb x.sizeB 0
    if okA && okB then u.goOn k a { m with curA := some h, curB := some g } 1 else u.callError k a { m with curA := some h, curB := some g } cRINGERR

theorem State.getSlots_unbound (h : s.engineBound k m.slot m.param.rba = false ∨ s.engineBound k m.slot m.param.rbb = false) :
    s.getSlots k a m = s.callError k a m cRINGERR := by
  refine if_pos ?_
  simpa using h

variable (ha : s.engineBound k m.slot m.param.rba = true) (hb : s.engineBound k m.slot m.param.rbb = true)
include ha hb

theorem State.getSlots_absent (h : s.slotPresent k m.slot m.param.rba 0 = false ∨
    s.slotPresent k m.slot m.param.rbb (if m.param.rba = m.param.rbb then 1 else 0) = false) : s.getSlots k a m = s.callWaits k a m := by
  refine (if_neg (by simp [ha, hb])).trans (if_pos ?_)
  simpa using h

theorem State.getSlots_acquires {okA okB : Bool} {h g : HeldSlot} {t u : State} (hpa : s.slotPresent k m.slot m.param.rba 0 = true)
    (hpb : s.slotPresent k m.slot m.param.rbb (if m.param.rba = m.param.rbb then 1 else 0) = true)
    (hA : s.acquireSlot k m.slot m.param.rba m.param.sizeA (if m.param.sp = 0 then 0 else sparseN m.param.sp) = (okA, h, t))
    (hB : t.acquireSlot k m.slot m.param.rbb m.param.sizeB 0 = (okB, g, u)) :
    s.getSlots k a m = if okA && okB then u.goOn k a { m with curA := some h, curB := some g } 1
      else u.callError k a { m with curA := some h, curB := some g } cRINGERR := by
  refine (if_neg (by simp [ha, hb])).trans ((if_neg (by rw [hpa, hpb]; decide)).trans ?_)
  simp only [hA, hB]

end Getab

section Get
variable {s : State} {k : Nat} {a : Fin 4} {m : MatrixCall} (hk : s.issue.core = k) (harr : (s.core k).array = some a)
  (hcall : (s.core k).callOf a = some m) (hat : (s.core k).arrayAt ≤ s.now)
include hk harr hcall hat

theorem exec_uGeta_gets : exec .uGeta s = .next ((s.callRelease k a m.param.dr m.curA).getSlot k a { m with curA := none } m.param.rba m.param.sizeA
    (if m.param.sp = 0 then 0 else sparseN m.param.sp) fun h => { m with curA := some h }) :=
  (exec_uGeta s).trans (State.micro_runs hk harr hcall hat _)

theorem exec_uGetb_gets : exec .uGetb s = .next ((s.callRelease k a m.param.dr m.curB).getSlot k a { m with curB := none } m.param.rbb m.param.sizeB 0
    fun h => { m with curB := some h }) :=
  (exec_uGetb s).trans (State.micro_runs hk harr hcall hat _)

theorem exec_uGetab_gets : exec .uGetab s = .next (((s.callRelease k a m.param.dr m.curA).callRelease k a m.param.dr m.curB).getSlots k a
    { m with curA := none, curB := none }) :=
  (exec_uGetab s).trans (State.micro_runs hk harr hcall hat _)

end Get

/-- Settles O34: the call that has the array runs each micro-operation as its own rule says. -/
theorem microOperations : Obligations.MicroOperations := by
  intro s k a m z km tag hk harr hcall hat x noA noB noAB keptA
  have run := State.micro_runs hk harr hcall hat
  have geta := exec_uGeta_gets hk harr hcall hat
  have getb := exec_uGetb_gets hk harr hcall hat
  have getab := exec_uGetab_gets hk harr hcall hat
  refine ⟨State.goOn_goes hcall, (exec_uNop s).trans (run _), (exec_uCson s).trans (run _), (exec_uCsoff s).trans (run _), (exec_uSub z s).trans (run _),
    (exec_uKmask km s).trans (run _), (exec_uTag tag s).trans (run _), (exec_uLoopk s).trans (run _), exec_uEndl_loops hk harr hcall hat,
    exec_uEndl_ends hk harr hcall hat, (exec_uRela s).trans (run _), (exec_uRelb s).trans (run _), fun h g => exec_uMac_adds hk harr hcall hat,
    exec_uMac_lacks hk harr hcall hat, exec_uZero_clears hk harr hcall hat, fun t rb size n => t.acquireSlot_cases k m.slot rb size n, ?_⟩
  refine ⟨fun h => ?_, fun h hp => ?_, fun ok h t hb hp hx => ?_, fun h => ?_, fun h hp => ?_, fun ok h t hb hp hx => ?_, fun h => ?_,
    fun ha hb => ⟨fun h => ?_, fun okA h t okB g u hpa hpb hA hB => ?_⟩, exec_uEnd_ends hk harr hcall hat⟩
  · exact geta.trans (congrArg Host.Outcome.next (State.getSlot_unbound (m := { m with curA := none }) h))
  · exact geta.trans (congrArg Host.Outcome.next (State.getSlot_absent (m := { m with curA := none }) h hp))
  · exact geta.trans (congrArg Host.Outcome.next (State.getSlot_acquires (m := { m with curA := none }) hb hp hx))
  · exact getb.trans (congrArg Host.Outcome.next (State.getSlot_unbound (m := { m with curB := none }) h))
  · exact getb.trans (congrArg Host.Outcome.next (State.getSlot_absent (m := { m with curB := none }) h hp))
  · exact getb.trans (congrArg Host.Outcome.next (State.getSlot_acquires (m := { m with curB := none }) hb hp hx))
  · exact getab.trans (congrArg Host.Outcome.next (State.getSlots_unbound (m := { m with curA := none, curB := none }) h))
  · exact getab.trans (congrArg Host.Outcome.next (State.getSlots_absent (m := { m with curA := none, curB := none }) ha hb h))
  · exact getab.trans (congrArg Host.Outcome.next (State.getSlots_acquires (m := { m with curA := none, curB := none }) ha hb hpa hpb hA hB))

end Sys2Proof.Machine
end

section
/-! SUPPORT. Taking a trap and returning from one (R276 to R282, R294 to R296): what a discard, a delivery, a re-entry, a double fault and a rewind
each leave of the context. -/

namespace Sys2Proof.Machine

/-! ## System registers -/

theorem Context.sysv_setSys_ne (c : Context) {r i : Fin 20} (v : Word) (h : i ≠ r) : (c.setSys r v).sysv i = c.sysv i :=
  c.setSys_sameAt r v (g := .sys i) fun he => h (Reg.sys.inj he)

/-- A restore writes RNGSEED, SIGREG and DOMAIN of the system registers (R277). -/
theorem Checkpoint.apply_sysv (ck : Checkpoint) (c : Context) {r : Fin 20} (h : r ∉ [rRNGSEED, rSIGREG, rDOMAIN]) : (ck.apply c).sysv r = c.sysv r := by
  simp only [List.mem_cons, List.not_mem_nil, or_false, not_or] at h
  obtain ⟨hseed, hsig, hdomain⟩ := h
  have hnamed := Regs.foldl_sameAt (f := fun x : Fin 63 × Word => .s x.1 x.2) (g := .sys r) ck.named c.regs fun _ _ => Reg.noConfusion
  have hstages := fun q => Regs.foldl_sameAt (f := fun x : Fin 16 × Bool => .p x.1 x.2) (g := .sys r) ck.stages q fun _ _ => Reg.noConfusion
  have hall : ((ck.stages.foldl (fun (r : Regs) x => r.land (.p x.1 x.2)) (ck.named.foldl (fun (r : Regs) x => r.land (.s x.1 x.2)) c.regs)).sys[r]) =
    c.regs.sys[r] := hnamed.trans (hstages _)
  exact (Context.sysv_setSys_ne _ _ hdomain).trans ((Context.sysv_setSys_ne _ _ hsig).trans ((Context.sysv_setSys_ne _ _ hseed).trans hall))

/-- What a restore writes besides registers, and what it leaves (R277). -/
theorem Checkpoint.apply_keeps (ck : Checkpoint) (c : Context) : (ck.apply c).loop = ck.loop ∧ (ck.apply c).pos = ck.pos ∧
    (ck.apply c).span = c.span ∧ (ck.apply c).member = c.member ∧ ∀ i : Fin 16, (ck.apply c).rings[i] = { ck.rings[i] with eq := c.rings[i].eq } :=
  ⟨rfl, rfl, rfl, rfl, fun _ => Vector.getElem_ofFn _⟩

/-- STATUS decides EXL, PPL, PL and BSUP. -/
theorem Context.status_congr {c d : Context} (h : d.sysv rSTATUS = c.sysv rSTATUS) :
    d.exl = c.exl ∧ d.ppl = c.ppl ∧ d.super = c.super ∧ d.bsup = c.bsup := by
  simp only [Context.exl, Context.ppl, Context.super, Context.bsup, h, and_self]

/-- A STATUS word holds its fields (R289). -/
theorem Context.status_fields {c : Context} {slot : Fin 4} {bsup exl ppl pl : Bool} (h : c.sysv rSTATUS = statusWord slot bsup exl ppl pl) :
    c.exl = exl ∧ c.ppl = ppl ∧ c.super = pl ∧ c.bsup = bsup := by
  have key : ∀ (slot : Fin 4) (bsup exl ppl pl : Bool), (statusWord slot bsup exl ppl pl).getLsbD 2 = exl ∧
    (statusWord slot bsup exl ppl pl).getLsbD 1 = ppl ∧ (statusWord slot bsup exl ppl pl).getLsbD 0 = pl ∧
      (statusWord slot bsup exl ppl pl).getLsbD 4 = bsup := by decide
  rw [Context.exl, Context.ppl, Context.super, Context.bsup, h]
  exact key slot bsup exl ppl pl

/-! ## The discard (R276) -/

/-- REGCNT after one more discard of a user-level region (R276). -/
def Context.countedUp (c : Context) : Word := if c.sysv rREGCNT < 255#64 then c.sysv rREGCNT + 1 else 255

/-- A context whose open region is discarded, counted or not. -/
def Context.discarded (c : Context) (counts : Bool) : Context :=
  let c := c.region.check.apply c.dropRegion
  let c := c.setSys rEPC (c.sysv rREGENT)
  if counts ∧ !c.super then c.setSys rREGCNT c.countedUp else c

theorem State.discard_ctxAt (s : State) (k : Nat) (j : Fin 4) (counts : Bool) : (s.discard k j counts).ctxAt k j = (s.ctxAt k j).discarded counts := by
  rw [State.discard, State.ctxAt_modCtx_self, State.restore_ctxAt, State.ctxAt_modCtx_self]
  rfl

section Discarded
variable (c : Context) (counts : Bool)

/-- A discard keeps the system registers but those that it restores, EPC and REGCNT. -/
theorem Context.discarded_sysv {r : Fin 20} (h : r ∉ [rRNGSEED, rSIGREG, rDOMAIN, rEPC, rREGCNT]) : (c.discarded counts).sysv r = c.sysv r := by
  simp only [List.mem_cons, List.not_mem_nil, or_false, not_or] at h
  obtain ⟨hseed, hsig, hdomain, hepc, hcnt⟩ := h
  have happly : (c.region.check.apply c.dropRegion).sysv r = c.sysv r := Checkpoint.apply_sysv _ c.dropRegion (by simp [hseed, hsig, hdomain])
  unfold Context.discarded
  dsimp only
  split
  · rw [Context.sysv_setSys_ne _ _ hcnt, Context.sysv_setSys_ne _ _ hepc, happly]
  · rw [Context.sysv_setSys_ne _ _ hepc, happly]

theorem Context.discarded_epc : (c.discarded counts).sysv rEPC = c.sysv rREGENT := by
  have happly : (c.region.check.apply c.dropRegion).sysv rREGENT = c.sysv rREGENT := Checkpoint.apply_sysv _ c.dropRegion (by decide)
  unfold Context.discarded
  dsimp only
  split
  · rw [Context.sysv_setSys_ne _ _ (by decide), Context.sysv_setSys_self, happly]
  · rw [Context.sysv_setSys_self, happly]

/-- A discard that counts raises REGCNT of a user-level region. -/
theorem Context.discarded_regcnt : (c.discarded counts).sysv rREGCNT = if counts = true ∧ c.super = false then c.countedUp else c.sysv rREGCNT := by
  have hstatus : (c.region.check.apply c.dropRegion).sysv rSTATUS = c.sysv rSTATUS := Checkpoint.apply_sysv _ c.dropRegion (by decide)
  have hregcnt : (c.region.check.apply c.dropRegion).sysv rREGCNT = c.sysv rREGCNT := Checkpoint.apply_sysv _ c.dropRegion (by decide)
  have hsuper := (Context.status_congr ((Context.sysv_setSys_ne _ ((c.region.check.apply c.dropRegion).sysv rREGENT)
    (show rSTATUS ≠ rEPC by decide)).trans hstatus)).2.2.1
  unfold Context.discarded
  simp only [hsuper, Bool.not_eq_true', Context.countedUp]
  split
  · rw [Context.sysv_setSys_self, Context.sysv_setSys_ne _ _ (by decide), hregcnt]
  · rw [Context.sysv_setSys_ne _ _ (by decide), hregcnt]

/-- What a discard leaves outside the registers: an empty region and what its checkpoint holds, EQ of the ring registers apart (R277). -/
theorem Context.discarded_rest :
    (c.discarded counts).region = { Region.reset with firstId := c.region.firstId, check := c.region.check } ∧
    (c.discarded counts).loop = c.region.check.loop ∧ (c.discarded counts).pos = c.region.check.pos ∧
    (∀ i : Fin 16, (c.discarded counts).rings[i] = { c.region.check.rings[i] with eq := c.rings[i].eq }) ∧
    (c.discarded counts).outbox = c.outbox ∧ (c.discarded counts).atomics = c.atomics ∧ (c.discarded counts).sigs = c.sigs ∧
    (c.flights = [] → (c.discarded counts).flights = []) ∧ (c.discarded counts).span = c.span ∧ (c.discarded counts).member = c.member := by
  obtain ⟨-, -, -, -, rings⟩ := c.region.check.apply_keeps c.dropRegion
  have flights : c.flights = [] → (c.region.check.apply c.dropRegion).flights = [] := fun h => by
    change (c.flights.filter _) = []
    rw [h]
    rfl
  unfold Context.discarded
  dsimp only
  split <;> exact ⟨rfl, rfl, rfl, rings, rfl, rfl, rfl, flights, rfl, rfl⟩

end Discarded

/-! ## The end of a context (R285, R295) -/

/-- A context that has handed off something ends once that has performed. -/
theorem State.endFaulted_closes {s : State} {k : Nat} {j : Fin 4} (h : (s.ctxAt k j).outbox ≠ []) :
    (s.endFaulted k j).ctxAt k j = { s.ctxAt k j with state := .closing, closing := some .faulted } := by
  have hh : (s.ctxAt k j).handedOff = false := by simp [Context.handedOff, h]
  rw [State.endFaulted, if_neg (by simp [hh]), State.ctxAt_modCore, State.ctxAt_modCtx_self]
  exact fun _ => rfl

/-- A context that has nothing left to perform ends at once: its slot is free. -/
theorem State.endFaulted_frees {s : State} {k : Nat} {j : Fin 4} (h : (s.ctxAt k j).handedOff = true) :
    ∃ regs, (s.endFaulted k j).ctxAt k j = { Context.reset j.val with regs := regs } := by
  rw [State.endFaulted, if_pos h, State.finishFaulted]
  exact ⟨_, State.freeSlot_ctxAt _ k j⟩

/-! ## The delivery (R295) -/

/-- A context that enters its handler: supervisor level with EXL set, the level before in PPL (R295). -/
def Context.entering (slot : Fin 4) (now : Nat) (c : Context) : Context :=
  { c.setSys rSTATUS (statusWord slot c.bsup true c.super true) with
    pc := c.sysv rTVEC, skipRm := false, running := 0, preHit := false, notBefore := now + 1 }

theorem Context.entering_pc (slot : Fin 4) (now : Nat) (c : Context) : (c.entering slot now).pc = c.sysv rTVEC := rfl

theorem Context.entering_sysv (slot : Fin 4) (now : Nat) (c : Context) {r : Fin 20} (h : r ≠ rSTATUS) : (c.entering slot now).sysv r = c.sysv r :=
  Context.sysv_setSys_ne c _ h

theorem Context.entering_status (slot : Fin 4) (now : Nat) (c : Context) : (c.entering slot now).sysv rSTATUS = statusWord slot c.bsup true c.super true :=
  Context.sysv_setSys_self c _ _

theorem Context.withCause_status (c : Context) (cause : Cause) (info : Word) : (c.withCause cause info).sysv rSTATUS = c.sysv rSTATUS :=
  c.withCause_sameAt cause info (g := .sys rSTATUS) (by decide) (by decide)

theorem Context.withCause_handedOff (c : Context) (cause : Cause) (info : Word) : (c.withCause cause info).handedOff = c.handedOff := by
  simp only [Context.handedOff, Context.withCause, Context.setSys]

/-- A context in its handler, a region open there (R264, R295). -/
def Context.inHandler (c : Context) (slot : Fin 4) (cause : Cause) (info : Word) (now : Nat) (region : Region) : Context :=
  { ((c.withCause cause info).entering slot now).setSys rREGENT ((c.withCause cause info).sysv rTVEC) with region := region }

theorem Context.inHandler_rest (c : Context) (slot : Fin 4) (cause : Cause) (info : Word) (now : Nat) (region : Region) :
    let d := c.inHandler slot cause info now region
    d.region = region ∧ d.loop = c.loop ∧ d.pos = c.pos ∧ d.rings = c.rings ∧ d.outbox = c.outbox := by
  simp only [Context.inHandler, Context.entering, Context.withCause, Context.setSys, and_self]

theorem Context.inHandler_sysv (c : Context) (slot : Fin 4) (cause : Cause) (info : Word) (now : Nat) (region : Region) {r : Fin 20} (h : r ≠ rREGENT) :
    (c.inHandler slot cause info now region).sysv r = ((c.withCause cause info).entering slot now).sysv r := Context.sysv_setSys_ne _ _ h

theorem Context.inHandler_regent (c : Context) (slot : Fin 4) (cause : Cause) (info : Word) (now : Nat) (region : Region) :
    (c.inHandler slot cause info now region).sysv rREGENT = (c.withCause cause info).sysv rTVEC := Context.sysv_setSys_self _ _ _

theorem State.deliver_cases (s : State) (k : Nat) (j : Fin 4) (cause : Cause) (info : Word) :
    let u := s.modCtx k j fun c => c.withCause cause info
    s.deliver k j cause info = if (u.ctxAt k j).exl ∨ (u.ctxAt k j).sysv rTVEC = 0 then u.endFaulted k j
      else (u.modCtx k j (Context.entering j s.now)).openRegion k j ((u.ctxAt k j).sysv rTVEC) := rfl

section Deliver
variable {s : State} {k : Nat} {j : Fin 4} (cause : Cause) (info : Word)

theorem State.deliver_enters (h : ¬ ((s.ctxAt k j).exl = true ∨ (s.ctxAt k j).sysv rTVEC = 0)) :
    ∃ region, region.buffer = [] ∧ region.atomic = none ∧ region.deferred = [] ∧ (s.deliver k j cause info).ctxAt k j =
      (s.ctxAt k j).inHandler j cause info s.now region := by
  obtain ⟨hexl, htvec⟩ := (s.ctxAt k j).withCause_handled cause info
  rw [State.deliver_cases]
  simp only [State.ctxAt_modCtx_self, hexl, htvec, if_neg h, State.openRegion_ctxAt]
  rw [← htvec]
  exact ⟨_, rfl, rfl, rfl, rfl⟩

theorem State.deliver_ends (h : (s.ctxAt k j).exl = true ∨ (s.ctxAt k j).sysv rTVEC = 0) :
    s.deliver k j cause info = (s.modCtx k j fun c => c.withCause cause info).endFaulted k j := by
  obtain ⟨hexl, htvec⟩ := (s.ctxAt k j).withCause_handled cause info
  rw [State.deliver_cases]
  simp only [State.ctxAt_modCtx_self, hexl, htvec, if_pos h]

end Deliver

/-! ## Traps that are delivered, handled in hardware or end the context (R279, R295) -/

section Discards
variable {v : State} {k : Nat} {j : Fin 4} {c : Context} {counts : Bool} (hv : v.ctxAt k j = c.discarded counts)
include hv

/-- A delivery after the discard: where the handler is entered, and what the context holds there. -/
theorem State.deliver_discarded (h : ¬ (c.exl = true ∨ c.sysv rTVEC = 0)) (cause : Cause) (info : Word) :
    let d := (v.deliver k j cause info).ctxAt k j
    (d.pc = c.sysv rTVEC ∧ d.sysv rEPC = c.sysv rREGENT ∧ d.sysv rREGENT = c.sysv rTVEC ∧ d.super = true ∧ d.ppl = c.super ∧ d.exl = true ∧
      d.bsup = c.bsup ∧ d.region.buffer = [] ∧ d.region.atomic = none ∧ d.region.deferred = [] ∧ d.loop = c.region.check.loop ∧
      d.pos = c.region.check.pos ∧ (∀ i : Fin 16, d.rings[i] = { c.region.check.rings[i] with eq := c.rings[i].eq }) ∧ d.outbox = c.outbox) ∧
    d.sysv rCAUSE = cause.setWidth 64 ∧ d.sysv rTRAPINFO = info ∧ d.sysv rREGCNT = (c.discarded counts).sysv rREGCNT := by
  have htvec : (c.discarded counts).sysv rTVEC = c.sysv rTVEC := c.discarded_sysv counts (by decide)
  obtain ⟨hexl, -, hsuper, hbsup⟩ := Context.status_congr (c.discarded_sysv counts (r := rSTATUS) (by decide))
  obtain ⟨-, hloop, hpos, hrings, hout, -⟩ := c.discarded_rest counts
  obtain ⟨region, hbuf, hatomic, hdef, hd⟩ := State.deliver_enters (s := v) (k := k) (j := j) cause info (by rw [hv, hexl, htvec]; exact h)
  rw [hv] at hd
  set w := (c.discarded counts).withCause cause info
  have hwtvec : w.sysv rTVEC = c.sysv rTVEC := ((c.discarded counts).withCause_handled cause info).2.trans htvec
  obtain ⟨-, -, hwsuper, hwbsup⟩ := Context.status_congr ((c.discarded counts).withCause_status cause info)
  have hsys : ∀ {r : Fin 20}, r ≠ rREGENT → ((v.deliver k j cause info).ctxAt k j).sysv r = (w.entering j v.now).sysv r := fun hr => by
    rw [hd, Context.inHandler_sysv _ _ _ _ _ _ hr]
  have hkept : ∀ {r : Fin 20}, r ≠ rREGENT → r ≠ rSTATUS → r ≠ rCAUSE → r ≠ rTRAPINFO →
      ((v.deliver k j cause info).ctxAt k j).sysv r = (c.discarded counts).sysv r := fun hr hs hc hi => by
    rw [hsys hr, Context.entering_sysv _ _ _ hs]
    exact (Context.sysv_setSys_ne _ _ hi).trans (Context.sysv_setSys_ne _ _ hc)
  have hstatus : ((v.deliver k j cause info).ctxAt k j).sysv rSTATUS = statusWord j c.bsup true c.super true := by
    rw [hsys (by decide), Context.entering_status, hwsuper, hwbsup, hsuper, hbsup]
  obtain ⟨hx, hp, hs, hb⟩ := Context.status_fields hstatus
  refine ⟨⟨?_, ?_, ?_, hs, hp, hx, hb, ?_⟩, ?_, ?_, ?_⟩
  · rw [hd]
    exact (Context.entering_pc j v.now w).trans hwtvec
  · rw [hkept (by decide) (by decide) (by decide) (by decide), c.discarded_epc counts]
  · rw [hd, Context.inHandler_regent]
    exact hwtvec
  · obtain ⟨hr, hl, hp, hrs, ho⟩ := (c.discarded counts).inHandler_rest j cause info v.now region
    rw [hd, hr, hl, hp, hrs, ho]
    exact ⟨hbuf, hatomic, hdef, hloop, hpos, hrings, hout⟩
  · rw [hsys (by decide), Context.entering_sysv _ _ _ (by decide)]
    exact (Context.sysv_setSys_ne _ _ (by decide)).trans (Context.sysv_setSys_self _ _ _)
  · rw [hsys (by decide), Context.entering_sysv _ _ _ (by decide)]
    exact Context.sysv_setSys_self _ _ _
  · rw [hkept (by decide) (by decide) (by decide) (by decide)]

/-- A double fault with accesses still to perform. -/
theorem State.deliver_closes (h : c.exl = true ∨ c.sysv rTVEC = 0) (hout : c.outbox ≠ []) (cause : Cause) (info : Word) :
    ((v.deliver k j cause info).ctxAt k j).state = .closing ∧ ((v.deliver k j cause info).ctxAt k j).closing = some .faulted := by
  have htvec : (c.discarded counts).sysv rTVEC = c.sysv rTVEC := c.discarded_sysv counts (by decide)
  have hexl := (Context.status_congr (c.discarded_sysv counts (r := rSTATUS) (by decide))).1
  rw [State.deliver_ends cause info (by rw [hv, hexl, htvec]; exact h), State.endFaulted_closes]
  · exact ⟨rfl, rfl⟩
  · rw [State.ctxAt_modCtx_self, hv]
    exact fun hnil => hout ((c.discarded_rest counts).2.2.2.2.1.symm.trans hnil)

/-- A context whose discard leaves nothing to perform has handed everything off. -/
theorem Context.discarded_handedOff (ho : c.outbox = []) (ha : c.atomics = []) (hf : c.flights = []) (hs : c.sigs = []) :
    (v.ctxAt k j).handedOff = true := by
  obtain ⟨-, -, -, -, hout, hatomics, hsigs, hflights, -⟩ := c.discarded_rest counts
  simp [hv, Context.handedOff, hout, hatomics, hsigs, hflights hf, ho, ha, hs]

/-- A double fault with nothing left to perform frees the slot. -/
theorem State.deliver_frees (h : c.exl = true ∨ c.sysv rTVEC = 0) (ho : c.outbox = []) (ha : c.atomics = []) (hf : c.flights = []) (hs : c.sigs = [])
    (cause : Cause) (info : Word) : ∃ regs, (v.deliver k j cause info).ctxAt k j = { Context.reset j.val with regs := regs } := by
  have htvec : (c.discarded counts).sysv rTVEC = c.sysv rTVEC := c.discarded_sysv counts (by decide)
  have hexl := (Context.status_congr (c.discarded_sysv counts (r := rSTATUS) (by decide))).1
  rw [State.deliver_ends cause info (by rw [hv, hexl, htvec]; exact h)]
  refine State.endFaulted_frees ?_
  rw [State.ctxAt_modCtx_self, Context.withCause_handedOff]
  exact Context.discarded_handedOff hv ho ha hf hs

/-- A re-entry in hardware (R265, R279). -/
theorem State.reenter_discarded : let d := (v.reenter k j).ctxAt k j
    d.pc = c.sysv rREGENT ∧ d.skipRm = true ∧ d.sysv rSTATUS = c.sysv rSTATUS ∧ d.region.buffer = [] ∧ d.loop = c.region.check.loop := by
  obtain ⟨hregion, hloop, -⟩ := c.discarded_rest counts
  have hd : (v.reenter k j).ctxAt k j = { v.ctxAt k j with pc := (v.ctxAt k j).sysv rREGENT, skipRm := true, notBefore := v.now + 1 } :=
    State.ctxAt_modCtx_self v k j _
  rw [hv] at hd
  rw [hd]
  exact ⟨c.discarded_sysv counts (by decide), rfl, c.discarded_sysv counts (by decide), congrArg Region.buffer hregion, hloop⟩

end Discards

/-- Whether a trap's discard counts (R276). -/
def Cause.counted (cause : Cause) : Bool := decide (cause ≠ cSYSCALL ∧ cause ≠ cBREAK)

/-- A trap that hardware may handle: the discard, counted unless the cause is SYSCALL or BREAK, and then REGLIM, the re-entry or the delivery; a yoke's
mismatch is counted in the telemetry (R279, R409). -/
theorem State.trapAt_cases (s : State) (k : Nat) (j : Fin 4) (cause : Cause) (info : Word) (hardware : Bool) :
    let c := (s.ctxAt k j).settle (s.now + 1)
    ∃ v : State, v.ctxAt k j = c.discarded cause.counted ∧
      v.granger.log = s.granger.log ++ (if cause = cYOKEMIS then [(6, BitVec.ofNat 64 (k / 2))] else []) ∧
      s.trapAt k j cause info hardware =
        if c.super = false ∧ cause.counted = true ∧ c.sysv rREGLIM < c.countedUp then
          v.deliver k j cREGLIM ((cause.setWidth 64 <<< 56) ||| (info &&& 0x00FFFFFFFFFFFFFF#64))
        else if hardware then v.reenter k j else v.deliver k j cause info := by
  intro c
  let u := if cause = cYOKEMIS then s.grangerLog 6 (BitVec.ofNat 64 (k / 2)) else s
  let w := u.modCtx k j fun c => c.settle (u.now + 1)
  let v := w.discard k j cause.counted
  have hlog : u.granger.log = s.granger.log ++ (if cause = cYOKEMIS then [(6, BitVec.ofNat 64 (k / 2))] else []) := by
    dsimp only [u]
    split
    · rfl
    · exact (List.append_nil _).symm
  have hw : w.ctxAt k j = c := by
    have hu : u.ctxAt k j = s.ctxAt k j ∧ u.now = s.now := by
      dsimp only [u]
      split <;> exact ⟨rfl, rfl⟩
    rw [State.ctxAt_modCtx_self, hu.1, hu.2]
  have hv : v.ctxAt k j = c.discarded cause.counted := by rw [State.discard_ctxAt, hw]
  have hlim : (c.discarded cause.counted).sysv rREGLIM = c.sysv rREGLIM := c.discarded_sysv _ (by decide)
  have hbranch : s.trapAt k j cause info hardware =
      if (!(w.ctxAt k j).super) = true ∧ (cause ≠ cSYSCALL ∧ cause ≠ cBREAK) ∧ (v.ctxAt k j).sysv rREGLIM < (v.ctxAt k j).sysv rREGCNT then
        v.deliver k j cREGLIM ((cause.setWidth 64 <<< 56) ||| (info &&& 0x00FFFFFFFFFFFFFF#64))
      else if hardware then v.reenter k j else v.deliver k j cause info := rfl
  refine ⟨v, hv, hlog, hbranch.trans (if_congr ?_ rfl rfl)⟩
  rw [hw, hv, hlim, Bool.not_eq_true', show (cause ≠ cSYSCALL ∧ cause ≠ cBREAK) ↔ cause.counted = true from decide_eq_true_iff.symm]
  refine and_congr_right fun hsuper => and_congr_right fun hcounts => ?_
  rw [c.discarded_regcnt, if_pos ⟨hcounts, hsuper⟩]

/-! ## The rewind of a span (R181, R282) -/

/-- A slot that a dropped call held is presented again: EQ of its ring register goes back to it, unless it stands before it already. -/
def Context.presentAgain (base c : Context) (h : HeldSlot) : Context :=
  let e := base.rings[h.rb].eq
  if e - c.rings[h.rb].eq < e - h.q then { c with rings := c.rings.set h.rb { c.rings[h.rb] with eq := h.q } } else c

/-- How far EQ of a ring register has gone back. -/
def Context.backBy (base c : Context) (rb : Fin 16) : BitVec 32 := base.rings[rb].eq - c.rings[rb].eq

/-- No step takes EQ forward again, and it goes back to the slot at least. -/
theorem Context.presentAgain_back (base c : Context) (h : HeldSlot) : (∀ rb, base.backBy c rb ≤ base.backBy (base.presentAgain c h) rb) ∧
    base.rings[h.rb].eq - h.q ≤ base.backBy (base.presentAgain c h) h.rb := by
  unfold Context.presentAgain Context.backBy
  dsimp only
  split
  next hlt =>
    refine ⟨fun rb => ?_, ?_⟩
    · by_cases hrb : h.rb = rb
      · subst hrb
        simpa using BitVec.le_of_lt hlt
      · simp only [Fin.getElem_fin, getElem_set_fin, if_neg hrb]
        exact BitVec.le_refl _
    · simp
  next hle => exact ⟨fun rb => BitVec.le_refl _, BitVec.not_lt.mp hle⟩

theorem Context.presentAgain_foldl (base : Context) : ∀ (held : List HeldSlot) (c : Context),
    (∀ rb, base.backBy c rb ≤ base.backBy (held.foldl base.presentAgain c) rb) ∧
      ∀ h ∈ held, base.rings[h.rb].eq - h.q ≤ base.backBy (held.foldl base.presentAgain c) h.rb
  | [], c => ⟨fun _ => BitVec.le_refl _, nofun⟩
  | x :: xs, c => by
    obtain ⟨hmono, hx⟩ := base.presentAgain_back c x
    obtain ⟨hrest, hall⟩ := Context.presentAgain_foldl base xs (base.presentAgain c x)
    exact ⟨fun rb => BitVec.le_trans (hmono rb) (hrest rb), List.forall_mem_cons.mpr ⟨BitVec.le_trans hx (hrest x.rb), hall⟩⟩

/-- Presenting slots again changes ring registers only. -/
theorem Context.presentAgain_keeps (base : Context) (held : List HeldSlot) (c : Context) :
    let d := held.foldl base.presentAgain c
    d.regs = c.regs ∧ d.loop = c.loop ∧ d.pos = c.pos ∧ d.span = c.span ∧ d.member = c.member := by
  have key := foldl_keeps (f := base.presentAgain) (g := fun c : Context => (c.regs, c.loop, c.pos, c.span, c.member)) (fun c h => by
    unfold Context.presentAgain
    dsimp only
    split <;> rfl) held c
  simpa only [Prod.mk.injEq] using key

/-- A context at the start of its span once more. -/
def Context.rewound (base : Context) (held : List HeldSlot) (now : Nat) (c : Context) : Context :=
  let c := held.foldl base.presentAgain c
  { c.setSys rREGENT c.span.addr with
    pc := c.span.addr, skipRm := true, notBefore := now + 1,
    member := c.member.map fun m => { m with sect := c.span.sect, iter := c.span.iter },
    span := { c.span with rewindable := false, rd := [], wr := [] } }

/-- A context without the calls that it has committed. -/
def Context.withoutMatrix (c : Context) : Context := { c with outbox := c.outbox.filter fun h => !h.isMatrix }

theorem Context.withoutMatrix_keeps (c : Context) : (∀ r, c.withoutMatrix.sysv r = c.sysv r) ∧ c.withoutMatrix.rings = c.rings ∧
    c.withoutMatrix.span = c.span ∧ c.withoutMatrix.member = c.member := ⟨fun _ => rfl, rfl, rfl, rfl⟩

/-- The checkpoint of a span restored to a context whose region is discarded, the calls that it has committed dropped (R282). -/
def Context.unwound (c : Context) : Context := c.span.check.apply (c.discarded false).withoutMatrix

theorem State.modCtx_banks (s : State) (k : Nat) (j : Fin 4) (f : Context → Context) : ((s.modCtx k j f).core k).banks = (s.core k).banks := by
  rw [State.core_modCtx_self]
  rfl

/-- A restore of a context moves its banks' cursors only. -/
theorem State.restore_banks (s : State) (k : Nat) (j : Fin 4) (ck : Checkpoint) (b : Fin 4) :
    ((s.restore k j ck).core k).banks[b].state = (s.core k).banks[b].state ∧ ((s.restore k j ck).core k).banks[b].owner = (s.core k).banks[b].owner := by
  rw [State.restore, State.core_modCore_self, State.modCtx_banks]
  simp only [Fin.getElem_fin, Vector.getElem_ofFn]
  split <;> exact ⟨rfl, rfl⟩

theorem State.discard_bankOwner (s : State) (k : Nat) (j : Fin 4) (counts : Bool) (b : Fin 4) :
    ((s.discard k j counts).core k).banks[b].owner = (s.core k).banks[b].owner := by
  rw [State.discard, State.modCtx_banks, (State.restore_banks _ k j _ b).2, State.modCtx_banks]

/-- A core without the matrix calls and commands of a slot, whose banks are EMPTY. -/
def Core.withoutCalls (j : Fin 4) (x : Core) : Core :=
  { x with banks := vecMap (fun b => if b.owner = some j then { Bank.reset with owner := some j } else b) x.banks,
           mq := x.mq.filter fun m => !(m.slot == j), calls := x.calls.filter fun m => !(m.cmd.slot == j),
           order := x.order.filter fun i => !(i == j),
           array := match x.array with
             | some b => if x.banks[b].owner = some j then none else some b
             | none => none }

theorem Core.withoutCalls_bank {x : Core} {j b : Fin 4} (h : x.banks[b].owner = some j) :
    (x.withoutCalls j).banks[b] = { Bank.reset with owner := some j } := by
  rw [Fin.getElem_fin] at h
  simp only [Core.withoutCalls, Fin.getElem_fin, vecMap_getElem, if_pos h]

section Mismatch
variable {s : State} {k : Nat} {j : Fin 4} {c : Context} (hc : (s.ctxAt k j).settle (s.now + 1) = c)
include hc

/-- MXMIS in a span that can be rewound (R181, R282): the context goes back, its banks are EMPTY, and the slots they held are presented again. -/
theorem State.mxmis_rewinds (hspan : c.span.rewindable = true) (info : Word) : ∃ (held : List HeldSlot) (v : State),
    (∀ b : Fin 4, (s.core k).banks[b].owner = some j → ∀ h ∈ (s.core k).banks[b].held, h ∈ held) ∧
    (∀ b : Fin 4, (s.core k).banks[b].owner = some j → (v.core k).banks[b].state = .empty ∧ (v.core k).banks[b].owner = some j) ∧
    v.ctxAt k j = c.unwound ∧ s.mxmis k j info = (v.modCtx k j (c.unwound.rewound held v.now)).openRegion k j c.span.addr := by
  let w := s.modCtx k j fun c => c.settle (s.now + 1)
  have hw : w.ctxAt k j = c := (State.ctxAt_modCtx_self s k j _).trans hc
  have hbanks : (w.core k).banks = (s.core k).banks := State.modCtx_banks s k j _
  have hrewind : (w.ctxAt k j).span.rewindable = true := by rw [hw, hspan]
  let held := ((List.finRange 4).flatMap fun b => if (w.core k).banks[b].owner = some j then (w.core k).banks[b].held else []) ++
    ((w.core k).calls.flatMap fun m => if m.cmd.slot = j then m.curA.toList ++ m.curB.toList else [])
  let x := (w.discard k j false).modCore k (Core.withoutCalls j)
  let y := x.modCtx k j fun c => { c with outbox := c.outbox.filter fun h => !h.isMatrix }
  let v := y.restore k j (w.ctxAt k j).span.check
  have hx : x.ctxAt k j = c.discarded false := by
    rw [State.ctxAt_modCore, State.discard_ctxAt, hw]
    exact fun _ => rfl
  have hv : v.ctxAt k j = c.unwound := by
    rw [State.restore_ctxAt, hw, State.ctxAt_modCtx_self, hx]
    rfl
  refine ⟨held, v, fun b hb h hh => ?_, fun b hb => ?_, hv, ?_⟩
  · refine List.mem_append_left _ (List.mem_flatMap.mpr ⟨b, List.mem_finRange b, ?_⟩)
    rw [hbanks, if_pos hb]
    exact hh
  · obtain ⟨hstate, hown⟩ := y.restore_banks k j (w.ctxAt k j).span.check b
    have hdown : ((w.discard k j false).core k).banks[b].owner = some j := by rw [State.discard_bankOwner, hbanks, hb]
    have hxb : (x.core k).banks[b] = { Bank.reset with owner := some j } := by
      rw [State.core_modCore_self, Core.withoutCalls_bank hdown]
    rw [hstate, hown, State.modCtx_banks, hxb]
    exact ⟨rfl, rfl⟩
  · rw [← hv, ← hw, State.mxmis]
    exact if_pos hrewind

/-- MXMIS in any other span ends the context (R181). -/
theorem State.mxmis_ends (hspan : c.span.rewindable = false) (info : Word) : ∃ v : State, v.ctxAt k j = (c.discarded true).withCause cMXMIS info ∧
    s.mxmis k j info = v.endFaulted k j := by
  have hw : (s.modCtx k j fun c => c.settle (s.now + 1)).ctxAt k j = c := (State.ctxAt_modCtx_self s k j _).trans hc
  have hspan' : ¬ ((s.modCtx k j fun c => c.settle (s.now + 1)).ctxAt k j).span.rewindable = true := by rw [hw, hspan]; decide
  refine ⟨((s.modCtx k j fun c => c.settle (s.now + 1)).discard k j true).modCtx k j fun c => c.withCause cMXMIS info, ?_, ?_⟩
  · rw [State.ctxAt_modCtx_self, State.discard_ctxAt, hw]
  · rw [State.mxmis]
    exact if_neg hspan'

end Mismatch

/-- What the span's checkpoint leaves of a context that goes back to it (R277, R282). -/
theorem Context.unwound_facts (c : Context) : (∀ r : Fin 20, r ∉ [rRNGSEED, rSIGREG, rDOMAIN] → c.unwound.sysv r = (c.discarded false).sysv r) ∧
    c.unwound.loop = c.span.check.loop ∧ c.unwound.pos = c.span.check.pos ∧ c.unwound.span = c.span ∧ c.unwound.member = c.member ∧
    ∀ i : Fin 16, c.unwound.rings[i].eq = c.rings[i].eq := by
  obtain ⟨-, -, -, hrings, -, -, -, -, hspan, hmember⟩ := c.discarded_rest false
  obtain ⟨msys, mrings, mspan, mmember⟩ := (c.discarded false).withoutMatrix_keeps
  obtain ⟨aloop, apos, aspan, amember, arings⟩ := c.span.check.apply_keeps (c.discarded false).withoutMatrix
  refine ⟨fun r hr => ?_, aloop, apos, aspan.trans (mspan.trans hspan), amember.trans (mmember.trans hmember), fun i => ?_⟩
  · rw [Context.unwound, Checkpoint.apply_sysv _ _ hr, msys]
  · rw [Context.unwound, arings, mrings, hrings i]

/-- A rewound context's parts, by those of the context that presents the slots once more. -/
theorem Context.rewound_parts (base : Context) (held : List HeldSlot) (now : Nat) (c : Context) : let d := base.rewound held now c
    let e := held.foldl base.presentAgain c
    d.pc = e.span.addr ∧ d.skipRm = true ∧ d.regs = (e.setSys rREGENT e.span.addr).regs ∧ d.loop = e.loop ∧ d.pos = e.pos ∧ d.rings = e.rings ∧
      d.span = { e.span with rewindable := false, rd := [], wr := [] } ∧
      d.member = e.member.map fun m => { m with sect := e.span.sect, iter := e.span.iter } := by
  simp only [Context.rewound, Context.setSys, and_self]

/-- What a rewound context holds: its span's start and position, and ring registers that present the slots once more. -/
theorem Context.rewound_facts (base : Context) (held : List HeldSlot) (now : Nat) : let d := base.rewound held now base
    d.pc = base.span.addr ∧ d.skipRm = true ∧ (∀ r, r ≠ rREGENT → d.sysv r = base.sysv r) ∧ d.loop = base.loop ∧ d.pos = base.pos ∧
    d.span.rewindable = false ∧ (∀ m, base.member = some m → d.member = some { m with sect := base.span.sect, iter := base.span.iter }) ∧
    ∀ h ∈ held, base.rings[h.rb].eq - h.q ≤ base.rings[h.rb].eq - d.rings[h.rb].eq := by
  obtain ⟨hpc, hskip, hregs, hloop, hpos, hrings, hspan, hmember⟩ := base.rewound_parts held now base
  obtain ⟨eregs, eloop, epos, espan, emember⟩ := base.presentAgain_keeps held base
  refine ⟨hpc.trans (by rw [espan]), hskip, fun r hr => ?_, hloop.trans eloop, hpos.trans epos, by rw [hspan], fun m hm => ?_, fun h hh => ?_⟩
  · rw [Context.sysv, hregs, ← Context.sysv, Context.sysv_setSys_ne _ _ hr, Context.sysv, eregs, Context.sysv]
  · rw [hmember, emember, hm, espan, Option.map_some]
  · have hback := (base.presentAgain_foldl held base).2 h hh
    rw [Context.backBy] at hback
    rw [hrings]
    exact hback

/-! ## The slot that raises a trap, and the return (R279, R296) -/

theorem State.raise_cur (s : State) (cause : Cause) (info : Word) : (s.raise cause info).cur = (s.takeTrap cause info).ctxAt s.issue.core s.issue.slot := by
  rw [State.cur, State.raise_issue]
  rfl

/-- A context that returns from a trap, at EPC at the level before with EXL clear (R296). -/
def Context.returned (slot : Fin 4) (now : Nat) (c : Context) : Context :=
  { c.setSys rSTATUS (statusWord slot c.bsup false c.ppl c.ppl) with
    pc := c.sysv rEPC, skipRm := true, state := .running, closing := none, notBefore := now + 3 }

theorem Context.returned_status (slot : Fin 4) (now : Nat) (c : Context) : (c.returned slot now).sysv rSTATUS = statusWord slot c.bsup false c.ppl c.ppl :=
  Context.sysv_setSys_self c _ _

/-- A region that opens leaves these. -/
theorem Context.opened_parts (c : Context) (addr : Word) (region : Region) : let d := { c.setSys rREGENT addr with region := region }
    (d.pc = c.pc ∧ d.skipRm = c.skipRm ∧ d.state = c.state ∧ d.region = region ∧ d.regs = (c.setSys rREGENT addr).regs) ∧
      d.loop = c.loop ∧ d.pos = c.pos ∧ d.rings = c.rings ∧ d.span = c.span ∧ d.member = c.member := by
  simp only [Context.setSys, and_self]

/-- The return of rfe (R296). -/
theorem State.trapReturn_ctxAt (s : State) (k : Nat) (j : Fin 4) : let c := (s.ctxAt k j).settle (s.now + 1)
    let d := (s.trapReturn k j).ctxAt k j
    d.pc = c.sysv rEPC ∧ d.super = c.ppl ∧ d.ppl = c.ppl ∧ d.exl = false ∧ d.bsup = c.bsup ∧ d.skipRm = true ∧ d.sysv rREGENT = c.sysv rEPC ∧
      d.region.buffer = [] ∧ d.state = .running := by
  intro c d
  have hc : (s.modCtx k j fun c => c.settle (s.now + 1)).ctxAt k j = c := State.ctxAt_modCtx_self ..
  have hopen : s.trapReturn k j = ((s.modCtx k j fun c => c.settle (s.now + 1)).modCtx k j fun _ => c.returned j s.now).openRegion k j (c.sysv rEPC) := by
    rw [← hc]
    rfl
  have hd : ∃ region : Region, region.buffer = [] ∧ d = { (c.returned j s.now).setSys rREGENT (c.sysv rEPC) with region := region } := by
    simp only [d, hopen, State.openRegion_ctxAt, State.ctxAt_modCtx_self]
    exact ⟨_, rfl, rfl⟩
  obtain ⟨region, hbuf, hd⟩ := hd
  obtain ⟨⟨hpc, hskip, hstate, hregion, hregs⟩, -⟩ := (c.returned j s.now).opened_parts (c.sysv rEPC) region
  rw [← hd] at hpc hskip hstate hregion hregs
  have hstatus : d.sysv rSTATUS = statusWord j c.bsup false c.ppl c.ppl := by
    rw [Context.sysv, hregs, ← Context.sysv, Context.sysv_setSys_ne _ _ (by decide), Context.returned_status]
  obtain ⟨hexl, hppl, hsuper, hbsup⟩ := Context.status_fields hstatus
  refine ⟨hpc, hsuper, hppl, hexl, hbsup, hskip, ?_, ?_, hstate⟩
  · rw [Context.sysv, hregs, ← Context.sysv, Context.sysv_setSys_self]
  · rw [hregion, hbuf]

/-- A context that has gone back to its span's start, a region open there (R181, R282). -/
theorem State.mxmis_rewound {s : State} {k : Nat} {j : Fin 4} {c : Context} (hc : (s.ctxAt k j).settle (s.now + 1) = c)
    (hspan : c.span.rewindable = true) (info : Word) : let d := (s.mxmis k j info).ctxAt k j
    d.pc = c.span.addr ∧ d.sysv rREGENT = c.span.addr ∧ d.sysv rREGCNT = c.sysv rREGCNT ∧ d.skipRm = true ∧ d.region.buffer = [] ∧
    d.region.atomic = none ∧ d.loop = c.span.check.loop ∧ d.pos = c.span.check.pos ∧ d.span.rewindable = false ∧
    (∀ m, c.member = some m → d.member = some { m with sect := c.span.sect, iter := c.span.iter }) ∧
    ∀ b : Fin 4, (s.core k).banks[b].owner = some j →
      ((s.mxmis k j info).core k).banks[b].state = .empty ∧ ((s.mxmis k j info).core k).banks[b].owner = some j ∧
      ∀ h ∈ (s.core k).banks[b].held, c.rings[h.rb].eq - h.q ≤ c.rings[h.rb].eq - d.rings[h.rb].eq := by
  intro d
  obtain ⟨held, v, hheld, hbanks, hv, hs⟩ := State.mxmis_rewinds hc hspan info
  have hd : ∃ region : Region, region.buffer = [] ∧ region.atomic = none ∧
      d = { (c.unwound.rewound held v.now c.unwound).setSys rREGENT c.span.addr with region := region } := by
    simp only [d, hs, State.openRegion_ctxAt, State.ctxAt_modCtx_self, hv]
    exact ⟨_, rfl, rfl, rfl⟩
  obtain ⟨region, hbuf, hatomic, hd⟩ := hd
  obtain ⟨usys, uloop, upos, uspan, umember, urings⟩ := c.unwound_facts
  obtain ⟨rpc, rskip, rsys, rloop, rpos, rspan, rmember, rrings⟩ := c.unwound.rewound_facts held v.now
  obtain ⟨⟨hpc, hskip, -, hregion, hregs⟩, hloop, hpos, hrings, hsp, hmember⟩ := (c.unwound.rewound held v.now c.unwound).opened_parts c.span.addr region
  rw [← hd] at hpc hskip hregion hregs hloop hpos hrings hsp hmember
  have hcnt : (c.discarded false).sysv rREGCNT = c.sysv rREGCNT := by simp [Context.discarded_regcnt]
  have hkept : ∀ b : Fin 4, ((s.mxmis k j info).core k).banks[b] = (v.core k).banks[b] := fun b => by
    rw [hs, State.openRegion, State.modCtx_banks, State.modCtx_banks]
  refine ⟨?_, ?_, ?_, hskip.trans rskip, ?_, ?_, ?_, ?_, ?_, fun m hm => ?_, fun b hb => ?_⟩
  · rw [hpc, rpc, uspan]
  · rw [Context.sysv, hregs, ← Context.sysv, Context.sysv_setSys_self]
  · rw [Context.sysv, hregs, ← Context.sysv, Context.sysv_setSys_ne _ _ (by decide), rsys _ (by decide), usys _ (by decide), hcnt]
  · rw [hregion, hbuf]
  · rw [hregion, hatomic]
  · rw [hloop, rloop, uloop]
  · rw [hpos, rpos, upos]
  · rw [hsp, rspan]
  · rw [hmember, rmember m (umember.trans hm), uspan]
  · obtain ⟨hstate, hown⟩ := hbanks b hb
    refine ⟨by rw [hkept, hstate], by rw [hkept, hown], fun h hh => ?_⟩
    have hback := rrings h (hheld b hb h hh)
    rw [urings] at hback
    rw [hrings]
    exact hback

/-- A context that MXMIS ends (R181). -/
theorem State.mxmis_faulted {s : State} {k : Nat} {j : Fin 4} {c : Context} (hc : (s.ctxAt k j).settle (s.now + 1) = c)
    (hspan : c.span.rewindable = false) (info : Word) : let d := (s.mxmis k j info).ctxAt k j
    (c.outbox ≠ [] → d.state = .closing ∧ d.closing = some .faulted ∧ d.sysv rCAUSE = cMXMIS.setWidth 64 ∧ d.sysv rTRAPINFO = info) ∧
    (c.outbox = [] → c.atomics = [] → c.flights = [] → c.sigs = [] → ∃ regs, d = { Context.reset j.val with regs := regs }) := by
  intro d
  obtain ⟨v, hv, hs⟩ := State.mxmis_ends hc hspan info
  obtain ⟨-, -, -, -, hout, hatomics, hsigs, hflights, -⟩ := c.discarded_rest true
  refine ⟨fun hne => ?_, fun ho ha hf hg => ?_⟩
  · have hd : d = { (c.discarded true).withCause cMXMIS info with state := .closing, closing := some .faulted } := by
      rw [← hv, ← State.endFaulted_closes, ← hs]
      rw [hv]
      exact fun hnil => hne (hout.symm.trans hnil)
    rw [hd]
    exact ⟨rfl, rfl, (Context.sysv_setSys_ne _ _ (by decide)).trans (Context.sysv_setSys_self _ _ _), Context.sysv_setSys_self _ _ _⟩
  · have hoff : (v.ctxAt k j).handedOff = true := by
      rw [hv, Context.withCause_handedOff]
      simp [Context.handedOff, hout, hatomics, hsigs, hflights hf, ho, ha, hg]
    obtain ⟨regs, hregs⟩ := State.endFaulted_frees hoff
    exact ⟨regs, by rw [← hregs, ← hs]⟩

/-! ## The traps of a slot (R276 to R279, R294 to R296) -/

/-- The traps other than MXMIS, by level, cause, count and handler. -/
theorem State.trapAt_outcomes {s : State} {k : Nat} {j : Fin 4} {c : Context} (hc : (s.ctxAt k j).settle (s.now + 1) = c) (cause : Cause) (info : Word)
    (hardware : Bool) : let d := (s.trapAt k j cause info hardware).ctxAt k j
    let counts := c.super = false ∧ cause ≠ cSYSCALL ∧ cause ≠ cBREAK
    let ends := c.exl = true ∨ c.sysv rTVEC = 0
    let entered := d.pc = c.sysv rTVEC ∧ d.sysv rEPC = c.sysv rREGENT ∧ d.sysv rREGENT = c.sysv rTVEC ∧ d.super = true ∧ d.ppl = c.super ∧
      d.exl = true ∧ d.bsup = c.bsup ∧ d.region.buffer = [] ∧ d.region.atomic = none ∧ d.region.deferred = [] ∧ d.loop = c.region.check.loop ∧
      d.pos = c.region.check.pos ∧ (∀ i : Fin 16, d.rings[i] = { c.region.check.rings[i] with eq := c.rings[i].eq }) ∧ d.outbox = c.outbox
    (hardware = false → (counts → c.countedUp ≤ c.sysv rREGLIM) → ¬ ends → entered ∧ d.sysv rCAUSE = cause.setWidth 64 ∧ d.sysv rTRAPINFO = info ∧
      d.sysv rREGCNT = if counts then c.countedUp else c.sysv rREGCNT) ∧
    (counts → c.sysv rREGLIM < c.countedUp → ¬ ends → entered ∧ d.sysv rCAUSE = cREGLIM.setWidth 64 ∧ d.sysv rREGCNT = c.countedUp ∧
      d.sysv rTRAPINFO = ((cause.setWidth 64 <<< 56) ||| (info &&& 0x00FFFFFFFFFFFFFF#64))) ∧
    (hardware = false → ends → c.outbox ≠ [] → d.state = .closing ∧ d.closing = some .faulted) ∧
    (hardware = false → ends → c.outbox = [] → c.atomics = [] → c.flights = [] → c.sigs = [] → ∃ regs, d = { Context.reset j.val with regs := regs }) ∧
    (hardware = true → (counts → c.countedUp ≤ c.sysv rREGLIM) → d.pc = c.sysv rREGENT ∧ d.skipRm = true ∧ d.sysv rSTATUS = c.sysv rSTATUS ∧
      d.region.buffer = [] ∧ d.loop = c.region.check.loop ∧ (s.trapAt k j cause info hardware).granger.log =
        s.granger.log ++ (if cause = cYOKEMIS then [(6, BitVec.ofNat 64 (k / 2))] else [])) := by
  intro d counts ends entered
  obtain ⟨v, hv, hlog, htrap⟩ := s.trapAt_cases k j cause info hardware
  rw [hc] at hv htrap
  have hcounted : cause.counted = true ↔ cause ≠ cSYSCALL ∧ cause ≠ cBREAK := decide_eq_true_iff
  have hcnt : (c.discarded cause.counted).sysv rREGCNT = if counts then c.countedUp else c.sysv rREGCNT := by
    rw [c.discarded_regcnt]
    exact if_congr ((and_congr_left' hcounted).trans and_comm) rfl rfl
  have within : (counts → c.countedUp ≤ c.sysv rREGLIM) → ¬ (c.super = false ∧ cause.counted = true ∧ c.sysv rREGLIM < c.countedUp) :=
    fun hle ⟨hs, hk, hlt⟩ => BitVec.not_lt.mpr (hle ⟨hs, hcounted.mp hk⟩) hlt
  have delivered : hardware = false → ∃ cause' info', s.trapAt k j cause info hardware = v.deliver k j cause' info' := fun hh => by
    rw [htrap, hh]
    split
    · exact ⟨_, _, rfl⟩
    · exact ⟨_, _, rfl⟩
  refine ⟨fun hh hle he => ?_, fun hk hlt he => ?_, fun hh he ho => ?_, fun hh he ho ha hf hg => ?_, fun hh hle => ?_⟩
  · have hs : s.trapAt k j cause info hardware = v.deliver k j cause info := by rw [htrap, if_neg (within hle), hh]; rfl
    obtain ⟨hent, hcause, hinfo, hreg⟩ := State.deliver_discarded hv he cause info
    simp only [entered, d, hs]
    exact ⟨hent, hcause, hinfo, hreg.trans hcnt⟩
  · have hs := htrap.trans (if_pos ⟨hk.1, hcounted.mpr hk.2, hlt⟩)
    obtain ⟨hent, hcause, hinfo, hreg⟩ := State.deliver_discarded hv he cREGLIM ((cause.setWidth 64 <<< 56) ||| (info &&& 0x00FFFFFFFFFFFFFF#64))
    simp only [entered, d, hs]
    exact ⟨hent, hcause, (hreg.trans hcnt).trans (if_pos hk), hinfo⟩
  · obtain ⟨cause', info', hs⟩ := delivered hh
    simp only [d, hs]
    exact State.deliver_closes hv he ho cause' info'
  · obtain ⟨cause', info', hs⟩ := delivered hh
    simp only [d, hs]
    exact State.deliver_frees hv he ho ha hf hg cause' info'
  · have hs : s.trapAt k j cause info hardware = v.reenter k j := by rw [htrap, if_neg (within hle), hh]; rfl
    obtain ⟨hpc, hskip, hstatus, hbuf, hloop⟩ := State.reenter_discarded hv
    simp only [d, hs]
    exact ⟨hpc, hskip, hstatus, hbuf, hloop, hlog⟩

/-- Settles O53: a slot's trap is MXMIS's rewind or end, or goes by the level, the count and the handler; the return is that of rfe. -/
theorem trapsAndReturns : Obligations.TrapsAndReturns := by
  unfold Obligations.TrapsAndReturns
  intro s cause info c d counts cnt ends entered hard
  have hc : (s.ctxAt s.issue.core s.issue.slot).settle (s.now + 1) = c := rfl
  have hd : d = (s.takeTrap cause info).ctxAt s.issue.core s.issue.slot := s.raise_cur cause info
  refine ⟨fun hne => ?_, fun he hspan => ?_, fun he hspan => ?_, ?_⟩
  · have htake : s.takeTrap cause info = s.trapAt s.issue.core s.issue.slot cause info (decide hard) := if_neg hne
    have hsoft : ¬ hard → decide hard = false := decide_eq_false
    have hhard : hard → decide hard = true := decide_eq_true
    obtain ⟨h1, h2, h3, h4, h5⟩ := State.trapAt_outcomes hc cause info (decide hard)
    simp only [entered, hd, htake]
    exact ⟨fun hh => h1 (hsoft hh), h2, fun hh => h3 (hsoft hh), fun hh => h4 (hsoft hh), fun hh hle => by
      have hlog : (s.raise cause info).granger = (s.trapAt s.issue.core s.issue.slot cause info (decide hard)).granger := by rw [← htake]; rfl
      rw [hlog]
      exact h5 (hhard hh) hle⟩
  · have htake : s.takeTrap cause info = s.mxmis s.issue.core s.issue.slot info := if_pos he
    have hcore : ∀ k, (s.raise cause info).core k = (s.mxmis s.issue.core s.issue.slot info).core k := fun k => by rw [← htake]; rfl
    simp only [hd, htake, hcore]
    exact State.mxmis_rewound hc hspan info
  · have htake : s.takeTrap cause info = s.mxmis s.issue.core s.issue.slot info := if_pos he
    simp only [hd, htake]
    exact State.mxmis_faulted hc hspan info
  · exact s.trapReturn_ctxAt s.issue.core s.issue.slot

end Sys2Proof.Machine
end

section
/-! SUPPORT. The matrix slots (R171 to R181): the status of a bank, what a drain moves and clears, and where mwait and mdrain trap or wait. -/

namespace Sys2Proof.Machine

/-! ## Status (R177) -/

theorem BankState.code_lt (x : BankState) : x.code < 4 := by cases x <;> decide

/-- Fields of given widths side by side, the first in the low bits. -/
def packed : List (Nat × Nat) → Nat
  | [] => 0
  | (n, x) :: fs => x + 2 ^ n * packed fs

/-- The values fit their fields. -/
def Fits (fs : List (Nat × Nat)) : Prop := ∀ f ∈ fs, f.2 < 2 ^ f.1

/-- The bits that fields take. -/
def packedBits : List (Nat × Nat) → Nat
  | [] => 0
  | (n, _) :: fs => packedBits fs + n

theorem packed_lt : ∀ {fs : List (Nat × Nat)}, Fits fs → packed fs < 2 ^ packedBits fs
  | [], _ => Nat.one_pos
  | (n, x) :: fs, h => by
    obtain ⟨hx, hfs⟩ := List.forall_mem_cons.mp h
    have hlow : x < 2 ^ n := hx
    calc x + 2 ^ n * packed fs < 2 ^ n + 2 ^ n * packed fs := Nat.add_lt_add_right hlow _
      _ = (packed fs + 1) * 2 ^ n := by rw [Nat.succ_mul, Nat.add_comm, Nat.mul_comm]
      _ ≤ 2 ^ packedBits fs * 2 ^ n := Nat.mul_le_mul_right _ (packed_lt hfs)
      _ = 2 ^ packedBits ((n, x) :: fs) := (Nat.pow_add ..).symm

/-- Each field reads back, above those before it. -/
theorem packed_field : ∀ {fs : List (Nat × Nat)}, Fits fs → ∀ {i lo n x : Nat}, packedBits (fs.take i) = lo → fs[i]? = some (n, x) →
    packed fs / 2 ^ lo % 2 ^ n = x
  | (m, y) :: fs, h, 0, lo, n, x, hlo, hx => by
    obtain ⟨rfl, rfl⟩ : m = n ∧ y = x := by simpa using hx
    have hlt : y < 2 ^ m := h (m, y) List.mem_cons_self
    cases hlo
    simp [packed, Nat.mod_eq_of_lt hlt, packedBits]
  | (m, y) :: fs, h, i + 1, lo, n, x, hlo, hx => by
    obtain ⟨hy, hfs⟩ := List.forall_mem_cons.mp h
    have hrest : packed ((m, y) :: fs) / 2 ^ m = packed fs := by
      rw [packed, Nat.add_mul_div_left _ _ (Nat.two_pow_pos m), Nat.div_eq_of_lt hy, Nat.zero_add]
    rw [← hlo, List.take_succ_cons, packedBits, Nat.add_comm, Nat.pow_add, ← Nat.div_div_eq_div_mul, hrest]
    exact packed_field hfs rfl hx

/-- The fields of a bank's status, from bit 0 up (R177). -/
def Bank.statusFields (b : Bank) (state : BankState) (qcnt : Nat) : List (Nat × Nat) :=
  [(2, state.code), (1, 0), (1, 1), (1, b.mis.toNat), (1, b.rerr.toNat), (1, b.inf.toNat), (1, b.nan.toNat), (1, b.dr.toNat), (1, b.ck.toNat),
   (1, b.uce.toNat), (8, b.tag.toNat), (13, b.dcur.toNat), (3, b.ccur.toNat), (5, min qcnt 16), (8, b.lrtn.toNat), (16, b.calln.toNat)]

theorem Bank.statusFields_fits (b : Bank) (state : BankState) (qcnt : Nat) : Fits (b.statusFields state qcnt) := by
  have hq : min qcnt 16 < 2 ^ 5 := (Nat.min_le_right qcnt 16).trans_lt (by decide)
  simp only [Fits, Bank.statusFields, List.forall_mem_cons, List.not_mem_nil, false_imp_iff, implies_true, and_true]
  exact ⟨state.code_lt, by decide, by decide, b.mis.toNat_lt, b.rerr.toNat_lt, b.inf.toNat_lt, b.nan.toNat_lt, b.dr.toNat_lt, b.ck.toNat_lt,
    b.uce.toNat_lt, b.tag.isLt, b.dcur.isLt, b.ccur.isLt, hq, b.lrtn.isLt, b.calln.isLt⟩

theorem Bank.status_toNat (b : Bank) (state : BankState) (qcnt : Nat) : (b.status state qcnt).toNat = packed (b.statusFields state qcnt) := by
  have hwidth : packedBits (b.statusFields state qcnt) = 64 := rfl
  have hlt := packed_lt (b.statusFields_fits state qcnt)
  rw [hwidth] at hlt
  refine Eq.trans ?_ (Nat.mod_eq_of_lt hlt)
  rw [Bank.status, BitVec.toNat_ofNat]
  simp only [Bank.statusFields, packed]
  omega

/-- A word of the fields of a bank's status holds each of them. -/
theorem Bank.status_holds (b : Bank) (state : BankState) (qcnt : Nat) : let x := b.status state qcnt
    x.extractLsb' 48 16 = b.calln ∧ x.extractLsb' 40 8 = b.lrtn ∧ (x.extractLsb' 35 5).toNat = min qcnt 16 ∧
    x.extractLsb' 32 3 = b.ccur ∧ x.extractLsb' 19 13 = b.dcur ∧ x.extractLsb' 11 8 = b.tag ∧ x.getLsbD 10 = b.uce ∧ x.getLsbD 9 = b.ck ∧
    x.getLsbD 8 = b.dr ∧ x.getLsbD 7 = b.nan ∧ x.getLsbD 6 = b.inf ∧ x.getLsbD 5 = b.rerr ∧ x.getLsbD 4 = b.mis ∧ x.getLsbD 3 = true ∧
    x.getLsbD 2 = false ∧ (x.extractLsb' 0 2).toNat = state.code := by
  intro x
  have bits : ∀ {lo n v : Nat}, packed (b.statusFields state qcnt) / 2 ^ lo % 2 ^ n = v → (x.extractLsb' lo n).toNat = v := fun h => by
    rw [BitVec.extractLsb'_toNat, Nat.shiftRight_eq_div_pow, Bank.status_toNat, h]
  have bit : ∀ {lo : Nat} {y : Bool}, packed (b.statusFields state qcnt) / 2 ^ lo % 2 ^ 1 = y.toNat → x.getLsbD lo = y := fun {lo y} h => by
    rw [BitVec.getLsbD, Nat.testBit_eq_decide_div_mod_eq, Bank.status_toNat, show packed _ / 2 ^ lo % 2 = y.toNat from h]
    cases y <;> rfl
  have hfits := b.statusFields_fits state qcnt
  exact ⟨BitVec.eq_of_toNat_eq (bits (packed_field hfits (i := 15) rfl rfl)), BitVec.eq_of_toNat_eq (bits (packed_field hfits (i := 14) rfl rfl)),
    bits (packed_field hfits (i := 13) rfl rfl), BitVec.eq_of_toNat_eq (bits (packed_field hfits (i := 12) rfl rfl)),
    BitVec.eq_of_toNat_eq (bits (packed_field hfits (i := 11) rfl rfl)), BitVec.eq_of_toNat_eq (bits (packed_field hfits (i := 10) rfl rfl)),
    bit (packed_field hfits (i := 9) rfl rfl), bit (packed_field hfits (i := 8) rfl rfl), bit (packed_field hfits (i := 7) rfl rfl),
    bit (packed_field hfits (i := 6) rfl rfl), bit (packed_field hfits (i := 5) rfl rfl), bit (packed_field hfits (i := 4) rfl rfl),
    bit (packed_field hfits (i := 3) rfl rfl), bit (packed_field hfits (i := 2) rfl rfl), bit (packed_field hfits (i := 1) rfl rfl),
    bits (packed_field hfits (i := 0) rfl rfl)⟩

/-! ## What a drain leaves (R175) -/

@[simp] theorem State.modBank_issue (s : State) (k : Nat) (a : Fin 4) (f : Bank → Bank) : (s.modBank k a f).issue = s.issue := rfl

theorem State.modBank_cur (s : State) (k : Nat) (a : Fin 4) (f : Bank → Bank) : (s.modBank k a f).cur = s.cur :=
  State.ctxAt_modCore (s := s) (k := k) (f := fun c => { c with banks := c.banks.set a (f c.banks[a]) }) (fun _ => rfl) _ _

/-- The slots that a bank gives back change no context. -/
theorem State.releaseHeld_keepsCur (s : State) (k : Nat) (a : Fin 4) : (s.releaseHeld k a).issue = s.issue ∧ (s.releaseHeld k a).cur = s.cur := by
  have hone : ∀ (j : Fin 4) (u : State) (x : HeldSlot), ((u.engineRelease k j x).issue, (u.engineRelease k j x).cur) = (u.issue, u.cur) := fun j u x => by
    unfold State.engineRelease
    dsimp only
    split <;> rfl
  have hfold := fun (j : Fin 4) (xs : List HeldSlot) => foldl_keeps (g := fun u : State => (u.issue, u.cur)) (hone j) xs s
  unfold State.releaseHeld
  dsimp only
  split
  next j _ =>
    obtain ⟨hissue, hcur⟩ := Prod.mk.inj (hfold j _)
    exact ⟨hissue, (State.modBank_cur ..).trans hcur⟩
  next => exact ⟨rfl, State.modBank_cur ..⟩

/-- The machine after a drain whose data are taken in the state t: a compared bank gives its slots back, the cursor moves on, and CLR defers the clear. -/
def State.afterDrain (s t : State) (a : Fin 4) (clr : Bool) (f : Fin 6) : State :=
  let k := s.issue.core
  let t := if (s.bank a).compare && (s.bank a).state == .live then (t.releaseHeld k a).modBank k a fun y => { y with compare := false } else t
  let t := t.modBank k a fun y => y.drained f
  if clr then t.defer (.clear a) else t

theorem State.drainData_keeps {s t : State} {b : Bank} {f : Fin 6} {x : Vec} {fl : BitVec 5} (h : s.drainData b f = (x, fl, t)) :
    t.issue = s.issue ∧ t.xe = s.xe := by
  have ht : t = (s.drainData b f).2.2 := by rw [h]
  have hstate : (s.drainData b f).2.2 = s ∨ ∃ rm n, (s.drainData b f).2.2 = (State.drawModes rm n s).2 := by
    unfold State.drainData
    dsimp only
    split
    · exact .inr ⟨_, _, rfl⟩
    · exact .inr ⟨_, _, rfl⟩
    · exact .inr ⟨_, _, rfl⟩
    · exact .inl rfl
    · exact .inl rfl
    · exact .inl rfl
  rw [ht]
  obtain hs | ⟨rm, n, hs⟩ := hstate
  · rw [hs]
    exact ⟨rfl, rfl⟩
  · rw [hs]
    exact ⟨State.drawModes_issue .., State.drawModes_xe ..⟩

@[simp] theorem State.defer_xe (s : State) (e : Effect) : (s.defer e).xe = s.xe := by
  refine State.xe_congr ?_
  rw [State.getSys, State.defer, State.cur_modCur]
  rfl

@[simp] theorem State.modBank_xe (s : State) (k : Nat) (a : Fin 4) (f : Bank → Bank) : (s.modBank k a f).xe = s.xe :=
  State.xe_congr (by rw [State.getSys, State.modBank_cur, State.getSys])

/-- A drain leaves FPMODE and the slot that runs as they were. -/
theorem State.afterDrain_keeps (s t : State) (a : Fin 4) (clr : Bool) (f : Fin 6) :
    (s.afterDrain t a clr f).issue = t.issue ∧ (s.afterDrain t a clr f).xe = t.xe := by
  obtain ⟨hissue, hcur⟩ := t.releaseHeld_keepsCur s.issue.core a
  have hxe : (t.releaseHeld s.issue.core a).xe = t.xe := State.xe_congr (by rw [State.getSys, hcur, State.getSys])
  unfold State.afterDrain
  dsimp only
  split <;> split <;> simp [hissue, hxe]

/-- A drain of cells none of which is poisoned writes its data. -/
theorem State.drain_writes {s t : State} {a : Fin 4} {f : Fin 6} {x : Vec} {fl : BitVec 5}
    (hpoison : ∀ n ∈ (s.bank a).drainCells (drainCount f), n ∉ (s.bank a).poisoned) (hdata : s.drainData (s.bank a) f = (x, fl, t)) (clr : Bool) (v : VOp) :
    s.drain a clr v f = ((s.afterDrain t a clr f).flyV .drain v 1024 x
      (if (s.bank a).compare && (s.bank a).state == .live then 70 else 6)).withFlags s fl := by
  have hnone : ¬ ((s.bank a).drainCells (drainCount f)).any (fun n => (s.bank a).poisoned.contains n) = true := by
    simpa using hpoison
  rw [State.drain]
  simp only [if_neg hnone, hdata]
  rfl

/-- A drain of a poisoned cell raises UCE (R175). -/
theorem State.drain_poisoned {s : State} {a : Fin 4} {f : Fin 6} (h : ∃ n ∈ (s.bank a).drainCells (drainCount f), n ∈ (s.bank a).poisoned)
    (clr : Bool) (v : VOp) : s.drain a clr v f = s.raiseAt ⟨cUCE, engineInfo a (s.bank a).lrtn (s.bank a).calln 0⟩ false := by
  rw [State.drain]
  exact if_pos (by simpa using h)

/-- The flags of a drain into a register. -/
theorem State.flyV_reg_withFlags {s w : State} (hissue : w.issue = s.issue) (v : Fin 16) (x : Vec) (n : Nat) (fl : BitVec 5) :
    (w.flyV .drain (.reg v) 1024 x n).withFlags s fl = (w.flyV .drain (.reg v) 1024 x n).flagged s fl :=
  if_pos (congrArg Issue.outcome ((State.fly_issue ..).trans hissue))

/-! ## The order of the outcomes (R171, R173 to R176) -/

/-- A windrow that a drain may not write. -/
def State.wrongSort (s : State) : VOp → Bool
  | .reg _ => false
  | .win w => (s.win w).misused true 1024

/-- The cell that a drain finds unlike its copy, where the rows are to be compared. -/
def Bank.toTell (b : Bank) : Option Nat := if b.compare && b.state == .live then b.mismatch else none

section Drain
variable {s : State} {a : Fin 4} {v : VOp} (z : Bool) (f : Fin 6)

theorem exec_mdrain_illop (h : s.owns a = false ∨ s.bankPending a = true ∨ s.wrongSort v = true) : exec (.mdrain a z v f) s = .next s.illop := by
  have hstop : (!s.owns a || s.bankPending a || s.wrongSort v) = true := by obtain h | h | h := h <;> simp [h]
  cases v <;> exact if_pos hstop

section Owned
variable (hown : s.owns a = true) (hpend : s.bankPending a = false) (hsort : s.wrongSort v = false)
include hown hpend hsort

/-- What a drain of an owned bank without a pending command does. -/
theorem exec_mdrain_owned : exec (.mdrain a z v f) s = .next (if s.bankBusy a then s.wait else
    match (s.bank a).error with
    | some e => s.raiseBank a e
    | none =>
      match (s.bank a).toTell with
      | some n => s.mismatchTrap a n
      | none =>
        match s.pushStops v with
        | some t => t
        | none => s.drain a z v f) := by
  have hgo : ¬ (!s.owns a || s.bankPending a || s.wrongSort v) = true := by simp [hown, hpend, hsort]
  refine Eq.trans (b := if s.bankBusy a then s.wait.done else
    match (s.bank a).error with
    | some e => (s.raiseBank a e).done
    | none =>
      match (s.bank a).toTell with
      | some n => (s.mismatchTrap a n).done
      | none =>
        match s.pushStops v with
        | some t => t.done
        | none => (s.drain a z v f).done) ?_ ?_
  · cases v <;> exact if_neg hgo
  · cases s.bankBusy a
    · cases (s.bank a).error with
      | some e => rfl
      | none => cases (s.bank a).toTell with
        | some n => rfl
        | none => cases s.pushStops v <;> rfl
    · rfl

theorem exec_mdrain_waits (hbusy : s.bankBusy a = true) : exec (.mdrain a z v f) s = .next s.wait := by
  rw [exec_mdrain_owned z f hown hpend hsort, if_pos hbusy]

section Idle
variable (hidle : s.bankBusy a = false)
include hidle

theorem exec_mdrain_error {e : TrapVal} (he : (s.bank a).error = some e) : exec (.mdrain a z v f) s = .next (s.raiseBank a e) := by
  simp [exec_mdrain_owned z f hown hpend hsort, hidle, he]

theorem exec_mdrain_mismatch (he : (s.bank a).error = none) {n : Nat} (hn : (s.bank a).toTell = some n) :
    exec (.mdrain a z v f) s = .next (s.mismatchTrap a n) := by
  simp [exec_mdrain_owned z f hown hpend hsort, hidle, he, hn]

variable (he : (s.bank a).error = none) (hn : (s.bank a).toTell = none)
include he hn

theorem exec_mdrain_stops {q : State} (hq : s.pushStops v = some q) : exec (.mdrain a z v f) s = .next q := by
  simp [exec_mdrain_owned z f hown hpend hsort, hidle, he, hn, hq]

theorem exec_mdrain_drains (hq : s.pushStops v = none) : exec (.mdrain a z v f) s = .next (s.drain a z v f) := by
  simp [exec_mdrain_owned z f hown hpend hsort, hidle, he, hn, hq]

end Idle
end Owned
end Drain

section Wait
variable {s : State} {a : Fin 4}

theorem exec_mwait_illop (h : s.owns a = false ∨ s.bankPending a = true) : exec (.mwait a) s = .next s.illop := by
  rw [exec_mwait, execMwait]
  refine if_pos ?_
  obtain h | h := h <;> simp [h]

variable (hown : s.owns a = true) (hpend : s.bankPending a = false)
include hown hpend

theorem exec_mwait_waits (hbusy : s.bankBusy a = true) : exec (.mwait a) s = .next s.wait := by
  simp [exec_mwait, execMwait, hown, hpend, hbusy, State.done]

theorem exec_mwait_error (hidle : s.bankBusy a = false) {e : TrapVal} (he : (s.bank a).error = some e) : exec (.mwait a) s = .next (s.raiseBank a e) := by
  simp [exec_mwait, execMwait, hown, hpend, hidle, he, State.done]

theorem exec_mwait_next (hidle : s.bankBusy a = false) (he : (s.bank a).error = none) : exec (.mwait a) s = .next s := by
  simp [exec_mwait, execMwait, hown, hpend, hidle, he, State.done]

end Wait

/-! ## Calls, parameters and the rounding of drains (R172 to R174, R178) -/

/-- The codes that mcfg stores (R178). -/
theorem drmOf_toNat (x : Word) : (drmOf (x.setWidth 3)).toNat = if 5 < x.toNat % 8 then 0 else x.toNat % 8 := by
  have hx : (x.setWidth 3).toNat = x.toNat % 8 := BitVec.toNat_setWidth ..
  rw [drmOf, hx]
  split
  · rfl
  · exact hx

section Calls
variable {s : State} {a : Fin 4} {r : BitVec 8} {m : Fin 8}

theorem exec_mcall_illop (h : tget [] s.myCore.store r.toNat = [] ∨ mpValid s.cur.regs.mp[m] = false) : exec (.mcall a r m) s = .next s.illop := by
  have hstop : (!s.owns a || tget [] s.myCore.store r.toNat == [] || !mpValid s.cur.regs.mp[m]) = true := by
    obtain h | h := h <;> rw [h] <;> simp
  exact if_pos hstop

variable (hown : s.owns a = true)
include hown

theorem exec_mcall_defers (hstore : tget [] s.myCore.store r.toNat ≠ []) (hmp : mpValid s.cur.regs.mp[m] = true) :
    exec (.mcall a r m) s = .next (s.defer (.mcall a r s.cur.regs.mp[m])) := by
  have hgo : ¬ (!s.owns a || tget [] s.myCore.store r.toNat == [] || !mpValid s.cur.regs.mp[m]) = true := by
    rw [hown, hmp]
    simp [hstore]
  exact if_neg hgo

theorem exec_mzero_defers : exec (.mzero a) s = .next (s.defer (.mzero a)) := by
  have hgo : ¬ (!s.owns a) = true := by simp [hown]
  exact if_neg hgo

end Calls

/-! ## Raw drains and the cursor (R175) -/

/-- A raw drain gives the cells from the cursor on. -/
theorem State.drainData_raw (s : State) (b : Bank) : ∃ x, s.drainData b 4 = (x, 0, s) ∧
    HasLanes 128 1024 x fun i => (b.cell ((b.dcur.toNat + i) % b.tileCells)).setWidth 128 := by
  refine ⟨_, rfl, ?_⟩
  rw [Bank.drainCells, List.map_map]
  exact hasLanes_map_range (bits := 1024) (Nat.le_refl _) _

/-- The cursor stays in the tile. -/
theorem Bank.drained_dcur {f : Fin 6} (b : Bank) (hf : f.val ≠ 5) : (b.drained f).dcur.toNat = (b.dcur.toNat + drainCount f) % b.tileCells := by
  have htile : 0 < b.tileCells ∧ b.tileCells ≤ 2 ^ 13 := by
    unfold Bank.tileCells
    split <;> decide
  obtain ⟨hpos, hle⟩ := htile
  rw [Bank.drained, if_neg hf]
  exact (BitVec.toNat_ofNat ..).trans (Nat.mod_eq_of_lt ((Nat.mod_lt _ hpos).trans_le hle))

/-- Settles O33: each matrix slot by the branch of its form; a drain's register or windrow gets the data, its flags joined or trapped. -/
theorem matrixForms : Obligations.MatrixForms := by
  unfold Obligations.MatrixForms
  intro s a m d c r z v g f b k compared
  have hreg : s.wrongSort (.reg v) = false := rfl
  refine ⟨rfl, rfl, ⟨drmOf ((s.src c).setWidth 3), rfl, drmOf_toNat _⟩, rfl, fun howner => ?_, fun howner => ?_, s.drainData_raw b, fun hf _ => b.drained_dcur hf⟩
  · have hown : s.owns a = true := beq_iff_eq.mpr howner
    refine ⟨exec_mcall_defers hown, exec_mcall_illop, exec_mzero_defers hown, fun hpend => ?_, fun hsort => ?_, fun hpend hbusy => ?_, fun hpend hidle => ?_, ?_⟩
    · exact ⟨exec_mwait_illop (.inr hpend), exec_mdrain_illop z f (.inr (.inl hpend)), exec_mdrain_illop z f (.inr (.inl hpend))⟩
    · exact exec_mdrain_illop z f (.inr (.inr hsort))
    · exact ⟨exec_mwait_waits hown hpend hbusy, exec_mdrain_waits z f hown hpend hreg hbusy, fun hsort => exec_mdrain_waits (v := .win g) z f hown hpend hsort hbusy⟩
    · refine ⟨fun e he => ?_, fun he => ⟨exec_mwait_next hown hpend hidle he, fun n hcompared hn => ?_, fun hmatch => ?_⟩⟩
      · exact ⟨exec_mwait_error hown hpend hidle he, exec_mdrain_error z f hown hpend hreg hidle he,
          fun hsort => exec_mdrain_error (v := .win g) z f hown hpend hsort hidle he⟩
      · have htell : (s.bank a).toTell = some n := (if_pos hcompared).trans hn
        exact ⟨exec_mdrain_mismatch z f hown hpend hreg hidle he htell, fun hsort => exec_mdrain_mismatch (v := .win g) z f hown hpend hsort hidle he htell⟩
      · have htell : (s.bank a).toTell = none := by
          unfold Bank.toTell
          split
          next hc => exact hmatch hc
          next => rfl
        have hdrains := exec_mdrain_drains z f hown hpend hreg hidle he htell rfl
        refine ⟨fun hpoison => hdrains.trans (by rw [State.drain_poisoned hpoison]), fun x fl t hpoison hdata => ?_⟩
        obtain ⟨hti, htx⟩ := State.drainData_keeps hdata
        obtain ⟨hwi, hwx⟩ := s.afterDrain_keeps t a z f
        have hwrites := State.drain_writes hpoison hdata z
        refine ⟨completesFlagged_of_flagged ((State.fly_xe ..).trans (hwx.trans htx)) ?_, fun hsort => ⟨fun q hq => ?_, fun hq => ?_⟩⟩
        · rw [hdrains, hwrites, State.flyV_reg_withFlags (hwi.trans hti)]
          rfl
        · exact exec_mdrain_stops (v := .win g) z f hown hpend hsort hidle he htell hq
        · exact givesW_of_withFlags ((exec_mdrain_drains (v := .win g) z f hown hpend hsort hidle he htell hq).trans (by rw [hwrites]; rfl))
    · have hstat : exec (.mstat a d) s = .next (s.flyS .other d (b.status (s.myCore.bankState a) (s.bankCommands k a).length) 2) := by
        rw [exec_mstat, execMstat, if_pos hown]
        rfl
      exact ⟨_, hstat, b.status_holds _ _⟩
  · have hown : s.owns a = false := beq_eq_false_iff_ne.mpr howner
    refine ⟨?_, ?_, exec_mwait_illop (.inl hown), exec_mdrain_illop z f (.inl hown), exec_mdrain_illop z f (.inl hown), ?_⟩
    · simp [exec_mcall, execMcall, hown, State.done]
    · simp [exec_mzero, execMzero, hown, State.done]
    · simp [exec_mstat, execMstat, hown, State.done]

end Sys2Proof.Machine
end

section
/-! SUPPORT. The privileged slots (R179, R250 to R255, R288 to R304): levels, saves and restores, the translations that a range drops, and KIDs. -/

namespace Sys2Proof.Machine

/-! ## Levels (R46) -/

theorem State.asSuper_user {s : State} (h : s.cur.super = false) (f : State → Host.Outcome State Fault Refusal) :
    s.asSuper f = .next (s.raise cPRIV s.slotInfo) := by
  rw [State.asSuper, if_neg (by simp [h])]
  rfl

theorem State.asSuper_super {s : State} (h : s.cur.super = true) (f : State → Host.Outcome State Fault Refusal) : s.asSuper f = f s := if_pos h

/-! ## Fields of words and records -/

theorem recBits_lt (ws : List Word) (hi lo : Nat) : recBits ws hi lo < 2 ^ (hi + 1 - lo) := Nat.mod_lt _ (Nat.two_pow_pos _)

/-- A slot's number in a word. -/
theorem slot_of_word {x : Word} {j : Fin 4} (h : x = BitVec.ofNat 64 j.val) : ¬ 4 ≤ x.toNat ∧ (⟨x.toNat % 4, Nat.mod_lt _ (by decide)⟩ : Fin 4) = j := by
  have hx : x.toNat = j.val := by
    rw [h, BitVec.toNat_ofNat]
    omega
  exact ⟨by omega, Fin.ext (by simp only [hx]; omega)⟩

theorem ofNat_toNat_setWidth (x : Word) (n : Nat) : BitVec.ofNat n x.toNat = x.setWidth n := BitVec.ofNat_toNat ..

/-- A KID's number in a word is not 0. -/
theorem kid_ne_zero {x : Word} (hpos : 0 < x.toNat) (hlt : x.toNat < 256) : ¬ (256 ≤ x.toNat ∨ x.setWidth 8 = 0) := by
  have hx : (x.setWidth 8).toNat = x.toNat % 2 ^ 8 := BitVec.toNat_setWidth ..
  rintro (h | h)
  · omega
  · have hzero : (x.setWidth 8).toNat = 0 := by rw [h]; rfl
    omega

/-! ## Cores that a change of every live core reaches -/

theorem mem_tkeys_tput {α : Type} (k n : Nat) (x : α) : ∀ (t : Table α), n ∈ tkeys t → n ∈ tkeys (tput t k x)
  | [], h => absurd h List.not_mem_nil
  | (j, y) :: t, h => by
    have ih := mem_tkeys_tput k n x t
    simp only [tkeys, List.map_cons, List.mem_cons] at h ih
    simp only [tput]
    split
    · simp only [tkeys, List.map_cons, List.mem_cons]
      exact .inr h
    · split
      next hkj =>
        simp only [tkeys, List.map_cons, List.mem_cons, hkj]
        exact h
      · simp only [tkeys, List.map_cons, List.mem_cons]
        exact h.imp_right ih

theorem State.mem_liveCores_setCore {s : State} {n : Nat} (h : n ∈ s.liveCores) (k : Nat) (c : Core) : n ∈ (s.setCore k c).liveCores :=
  mem_tkeys_tput k n c s.cores h

/-- A change of each core of a list reaches a part of those cores, where a second change of it has no effect. -/
theorem foldl_cores {α : Type} {part : Core → α} {f : α → α} (hf : ∀ x, f (f x) = f x) {step : State → Nat → State}
    (hstep : ∀ s k n, part ((step s k).core n) = if k = n then f (part (s.core n)) else part (s.core n)) :
    ∀ (ks : List Nat) (s : State) (n : Nat), part ((ks.foldl step s).core n) = if n ∈ ks then f (part (s.core n)) else part (s.core n)
  | [], s, n => by simp
  | k :: ks, s, n => by
    rw [List.foldl_cons, foldl_cores hf hstep ks, hstep]
    by_cases hk : k = n
    · simp [hk, hf]
    · simp [hk, Ne.symm hk]

/-! ## Translations that are dropped (R250) -/

/-- A drop takes the translations that it hits out of the TLB of each live core. -/
theorem State.dropTlb_tlb (s : State) (hit : TlbEntry → Bool) (n : Nat) :
    ((s.dropTlb hit).core n).tlb = if n ∈ s.liveCores then (s.core n).tlb.filter fun e => !hit e else (s.core n).tlb := by
  refine foldl_cores (part := Core.tlb) (f := fun tlb => tlb.filter fun e => !hit e) (fun tlb => ?_) (fun u k n => ?_) s.liveCores s n
  · rw [List.filter_filter]
    simp only [Bool.and_self]
  · split
    next =>
      rw [State.core_modCore]
      split <;> rfl
    next hnone =>
      simp only [Bool.or_eq_true, List.any_eq_true, not_or, not_exists, not_and] at hnone
      split
      next hk =>
        subst hk
        exact (List.filter_eq_self.mpr fun e he => by simp [hnone.1 e he]).symm
      next => rfl

theorem State.dropTlb_l1 (s : State) (hit : TlbEntry → Bool) (n : Nat) : ((s.dropTlb hit).core n).l1 = (s.core n).l1 := by
  refine foldl_keeps (g := fun u : State => (u.core n).l1) (fun u k => ?_) s.liveCores s
  split
  · rw [State.core_modCore]
    split <;> rfl
  · rfl

theorem State.dropTlb_misses {s : State} {hit : TlbEntry → Bool} {n : Nat} (hn : n ∈ s.liveCores) {e : TlbEntry} (he : e ∈ ((s.dropTlb hit).core n).tlb) :
    hit e = false := by
  rw [State.dropTlb_tlb, if_pos hn, List.mem_filter] at he
  simpa using he.2

/-! ## The end of a KID (R255) -/

theorem State.dropGuest_core (s : State) (hit : BitVec 8 → Nat → Bool) (n : Nat) : (s.dropGuest hit).core n = s.core n := by
  unfold State.dropGuest
  split <;> rfl

theorem State.mem_liveCores_tell {s : State} {n : Nat} (h : n ∈ s.liveCores) (ident : Nat) (v : TrapVal) : n ∈ (s.tell ident v).liveCores := by
  refine List.foldlRecOn (motive := fun u : State => n ∈ u.liveCores) s.liveCores _ h fun u hu k _ => ?_
  refine List.foldlRecOn (motive := fun u : State => n ∈ u.liveCores) (List.finRange 4) _ hu fun u hu j _ => ?_
  split
  · exact State.mem_liveCores_setCore hu _ _
  · exact hu

/-- The machine once the contexts of late writes under a KID are told that they are dropped. -/
def State.toldLate (s : State) (kid : BitVec 8) : State :=
  s.liveCores.foldl (fun s k => (s.core k).late.foldl (fun s x =>
    if x.attr.under kid && !x.home then s.tell x.ident (s.droppedTrap cKEYDEAD 0 5 x.va) else s) s) s

theorem State.mem_liveCores_toldLate {s : State} {n : Nat} (h : n ∈ s.liveCores) (kid : BitVec 8) : n ∈ (s.toldLate kid).liveCores := by
  refine List.foldlRecOn (motive := fun u : State => n ∈ u.liveCores) s.liveCores _ h fun u hu k _ => ?_
  refine List.foldlRecOn (motive := fun u : State => n ∈ u.liveCores) (u.core k).late _ hu fun u hu x _ => ?_
  split
  · exact State.mem_liveCores_tell hu _ _
  · exact hu

/-- The machine once each live core has lost what it holds under a KID. -/
def State.killCores (s : State) (kid : BitVec 8) : State := s.liveCores.foldl (fun s k => s.modCore k fun c => c.killKid s kid) s

theorem State.mem_liveCores_killCores {s : State} {n : Nat} (h : n ∈ s.liveCores) (kid : BitVec 8) : n ∈ (s.killCores kid).liveCores :=
  List.foldlRecOn (motive := fun u : State => n ∈ u.liveCores) s.liveCores _ h fun _ hu _ _ => State.mem_liveCores_setCore hu _ _

theorem State.killCores_l1 (s : State) (kid : BitVec 8) (n : Nat) :
    ((s.killCores kid).core n).l1 = if n ∈ s.liveCores then (s.core n).l1.filter fun x => !(x.kid == kid) else (s.core n).l1 := by
  refine foldl_cores (part := Core.l1) (f := fun l1 => l1.filter fun x => !(x.kid == kid)) (fun l1 => ?_) (fun u k n => ?_) s.liveCores s n
  · rw [List.filter_filter]
    simp only [Bool.and_self]
  · rw [State.core_modCore]
    split <;> rfl

theorem State.setKid_core (s : State) (kid : BitVec 8) (e : KidEntry) (n : Nat) : (s.setKid kid e).core n = s.core n := rfl

/-- No line and no translation under a KID that ends is left in a live core. -/
theorem State.killKid_drops {s : State} {n : Nat} (hn : n ∈ s.liveCores) (kid : BitVec 8) :
    (∀ x ∈ ((s.killKid kid).core n).l1, x.kid ≠ kid) ∧ ∀ e ∈ ((s.killKid kid).core n).tlb, e.kid ≠ kid := by
  let u : State := { s with fields := s.fields.map fun (x : Nat × Field) => (x.1, x.2.killKid kid),
                            stackTab := s.stackTab.map fun (x : Nat × Stack) => (x.1, x.2.killKid kid) }
  let v := (u.toldLate kid).killCores kid
  have hlate : n ∈ (u.toldLate kid).liveCores := State.mem_liveCores_toldLate (s := u) hn kid
  have hlive : n ∈ v.liveCores := State.mem_liveCores_killCores hlate kid
  have hkill : s.killKid kid = ((v.dropTlb fun e => e.kid == kid).dropGuest fun k _ => k == kid).setKid kid
      { ((v.dropTlb fun e => e.kid == kid).dropGuest fun k _ => k == kid).kidEntry kid with state := .dead } := rfl
  have hcore : (s.killKid kid).core n = (v.dropTlb fun e => e.kid == kid).core n := by rw [hkill, State.setKid_core, State.dropGuest_core]
  rw [hcore]
  refine ⟨fun x hx => ?_, fun e he => ?_⟩
  · rw [State.dropTlb_l1, State.killCores_l1, if_pos hlate, List.mem_filter] at hx
    simpa using hx.2
  · simpa using State.dropTlb_misses hlive he

@[simp] theorem State.kidEntry_setKid_self (s : State) (kid : BitVec 8) (e : KidEntry) : (s.setKid kid e).kidEntry kid = e := tget_tput_self ..

theorem State.kidEntry_tookRow (s : State) (x : Nat × Nat) (kid : BitVec 8) : (s.tookRow x).kidEntry kid = s.kidEntry kid := rfl

theorem State.tookRow_core (s : State) (x : Nat × Nat) (n : Nat) : (s.tookRow x).core n = s.core n := rfl

section EndKid
variable {s : State} {kid : BitVec 8}

theorem State.endKid_live (h : (s.kidEntry kid).state = .live) : s.endKid kid = (s.killKid kid).tookRow (kidObject kid, 4) := by rw [State.endKid, h]

theorem State.endKid_free (h : (s.kidEntry kid).state = .free) :
    s.endKid kid = (s.setKid kid { s.kidEntry kid with state := .dead }).tookRow (kidObject kid, 5) := by rw [State.endKid, h]

theorem State.endKid_dead (h : (s.kidEntry kid).state = .dead) : s.endKid kid = s := by rw [State.endKid, h]

theorem State.endKid_state (s : State) (kid : BitVec 8) : ((s.endKid kid).kidEntry kid).state = .dead := by
  cases h : (s.kidEntry kid).state with
  | live => rw [State.endKid_live h, State.kidEntry_tookRow, State.killKid, State.kidEntry_setKid_self]
  | free => rw [State.endKid_free h, State.kidEntry_tookRow, State.kidEntry_setKid_self]
  | dead => rw [State.endKid_dead h, h]

end EndKid

/-! ## kidset (R252) -/

/-- The entry that a descriptor gives a KID. -/
def KidEntry.loaded (e : KidEntry) (w : List Word) : KidEntry :=
  { e with state := .live, root := BitVec.ofNat 64 (recBits w 127 64), htab := BitVec.ofNat 64 (recBits w 191 128), hcnt := BitVec.ofNat 20 (recBits w 211 192) }

theorem KidEntry.loaded_roots (e : KidEntry) (w : List Word) : (e.loaded w).root.toNat = recBits w 127 64 ∧
    (e.loaded w).htab.toNat = recBits w 191 128 ∧ (e.loaded w).hcnt.toNat = recBits w 211 192 :=
  ⟨(BitVec.toNat_ofNat ..).trans (Nat.mod_eq_of_lt (recBits_lt w 127 64)), (BitVec.toNat_ofNat ..).trans (Nat.mod_eq_of_lt (recBits_lt w 191 128)),
    (BitVec.toNat_ofNat ..).trans (Nat.mod_eq_of_lt (recBits_lt w 211 192))⟩

section LoadKid
variable {s : State} {kid : BitVec 8} {w : List Word}

theorem State.loadKid_new (h : (s.kidEntry kid).state ≠ .live) (hk : kdKeep w = false) :
    s.loadKid kid w = s.setKid kid { (s.kidEntry kid).loaded w with key1 := kdKey1 w, key2 := kdKey2 w } := by
  rw [State.loadKid]
  simp only [if_neg h, hk]
  rfl

theorem State.loadKid_kept (h : (s.kidEntry kid).state ≠ .live) (hk : kdKeep w = true) : s.loadKid kid w = s.illop := by
  rw [State.loadKid]
  simp only [if_neg h, hk, if_true]

theorem State.loadKid_same (h : (s.kidEntry kid).state = .live) (hk : kdKeep w = true ∨ ((s.kidEntry kid).key1 = kdKey1 w ∧ (s.kidEntry kid).key2 = kdKey2 w)) :
    s.loadKid kid w = (s.setKid kid ((s.kidEntry kid).loaded w)).invalidate ⟨kid, 0, 0⟩ := by
  rw [State.loadKid]
  simp only [if_pos h, if_pos hk]
  rfl

theorem State.loadKid_rekeyed (h : (s.kidEntry kid).state = .live) (hk : kdKeep w = false)
    (hne : ¬((s.kidEntry kid).key1 = kdKey1 w ∧ (s.kidEntry kid).key2 = kdKey2 w)) : s.loadKid kid w = s.illop := by
  rw [State.loadKid]
  simp only [if_pos h]
  exact if_neg (not_or.mpr ⟨by simp [hk], hne⟩)

theorem KidEntry.loaded_of_live {e : KidEntry} (h : e.state = .live) (w : List Word) : e.loaded w = { e with
    root := BitVec.ofNat 64 (recBits w 127 64), htab := BitVec.ofNat 64 (recBits w 191 128), hcnt := BitVec.ofNat 20 (recBits w 211 192) } := by
  rw [KidEntry.loaded, h]

end LoadKid

/-! ## A read changes no context (R224, R248)

A read fills caches and translations, and may replace lines; the contexts and the slot that runs are those from before it. -/

/-- The slot that runs, and every context slot. -/
def State.slots (s : State) : Issue × (Nat → Fin 4 → Context) := (s.issue, s.ctxAt)

theorem State.src_of_slots {s t : State} (h : t.slots = s.slots) (a : Src) : t.src a = s.src a := by
  obtain ⟨hissue, hctx⟩ := Prod.mk.inj h
  cases a with
  | reg r => rw [State.src, State.getS, State.cur, hissue, hctx, ← State.cur, ← State.getS, State.src]
  | lit w => rfl

theorem State.slots_modCore (s : State) (k : Nat) {f : Core → Core} (hf : ∀ c, (f c).ctx = c.ctx) : (s.modCore k f).slots = s.slots :=
  Prod.ext rfl (funext fun n => funext fun i => State.ctxAt_modCore hf n i)

section Slots
variable (s : State)

@[simp] theorem State.slots_drawn : s.drawn.slots = s.slots := rfl

@[simp] theorem State.slots_meetLine (t : Trans) (n : Nat) : (s.meetLine t n).slots = s.slots := by
  unfold State.meetLine
  dsimp only
  split
  · rfl
  · split
    · rfl
    · unfold State.passTag
      split <;> rfl

@[simp] theorem State.slots_meet (t : Trans) : (s.meet t).slots = s.slots := by
  unfold State.meet
  split
  · exact s.slots_meetLine _ _
  · rfl

@[simp] theorem State.slots_homeWrite (t : Trans) (n : Nat) (m : BitVec 64) (d : Line) : (s.homeWrite t n m d).slots = s.slots := by
  unfold State.homeWrite
  dsimp only
  split
  · rfl
  · split
    · rfl
    · exact s.slots_meetLine _ _

@[simp] theorem State.slots_evict (k : Nat) (x : CacheLine) : (s.evict k x).slots = s.slots := by
  unfold State.evict
  dsimp only
  split
  · exact s.slots_modCore k fun _ => rfl
  · exact (State.slots_homeWrite ..).trans (s.slots_modCore k fun _ => rfl)

@[simp] theorem State.slots_replaceLine (k : Nat) : (s.replaceLine k).slots = s.slots := by
  unfold State.replaceLine
  split
  · rfl
  · split
    · rfl
    · exact State.slots_evict ..

@[simp] theorem State.slots_oweIf (k : Nat) (test : CacheLine → Bool) : (s.oweIf k test).slots = s.slots := by
  refine foldl_keeps (g := State.slots) (fun u j => ?_) _ s
  dsimp only
  split
  · exact u.slots_modCore j fun _ => rfl
  · rfl

@[simp] theorem State.slots_l1Line (k : Nat) (attr : Trans) (line : Nat) : (s.l1Line k attr line).2.slots = s.slots := by
  have add : ∀ (u : State) (x : CacheLine), (u.modCore k fun c => { c with l1 := x :: c.l1 }).slots = u.slots := fun u _ =>
    u.slots_modCore k fun _ => rfl
  have fill : ∀ (u : State) (d : Line), (((u.meetLine attr line).oweIf k fun x => x.line == line && x.kid == attr.kid).modCore k
      fun c => { c with l1 := ⟨line, attr.kid, d, 0, attr, []⟩ :: c.l1 }).slots = u.slots := fun u d =>
    (add _ _).trans ((State.slots_oweIf ..).trans (u.slots_meetLine ..))
  have hr := s.slots_replaceLine k
  unfold State.l1Line
  dsimp only
  generalize s.replaceLine k = u at hr ⊢
  split
  · exact (fill u _).trans hr
  next x _ =>
    split
    · exact hr
    · exact (State.slots_drawn _).trans ((fill (u.drawn.evict k x) _).trans ((u.drawn.slots_evict k x).trans hr))

@[simp] theorem State.slots_readLine (k : Nat) (t : Trans) : (s.readLine k t).2.slots = s.slots := by
  unfold State.readLine
  dsimp only
  split
  · rfl
  · split
    · exact s.slots_l1Line k t _
    · split <;> rfl
    · rfl

@[simp] theorem State.slots_meetWalk (kid : BitVec 8) (va : Nat) : (s.meetWalk kid va).slots = s.slots :=
  foldl_keeps (g := State.slots) (fun u _ => u.slots_meet _) _ s

theorem Core.use_ctx (c : Core) (e : TlbEntry) : (c.use e).ctx = c.ctx := by
  unfold Core.use
  split <;> rfl

theorem State.slots_use (k : Nat) (e : TlbEntry) : (s.modCore k fun c => c.use e).slots = s.slots := s.slots_modCore k fun c => c.use_ctx e

theorem State.slots_cache (k : Nat) (e : TlbEntry) : (s.modCore k fun c => { c.use e with tlb := e :: c.tlb }).slots = s.slots :=
  s.slots_modCore k fun c => c.use_ctx e

theorem State.slots_uncache (k : Nat) (e : TlbEntry) : (s.modCore k fun c => { c with tlb := c.tlb.filter fun x => x != e }).slots = s.slots :=
  s.slots_modCore k fun _ => rfl

@[simp] theorem State.slots_translateData (k : Nat) (w : Who) (acc : Access) (va : Nat) : (s.translateData k w acc va).2.slots = s.slots := by
  have miss : ∀ u : State, ((match (u.meetWalk w.kid va).walk w.kid va with
      | .error c => (Translated.fault c, u.meetWalk w.kid va)
      | .ok e =>
        match (u.meetWalk w.kid va).useLeaf w acc va e with
        | .fault c => (.fault c, u.meetWalk w.kid va)
        | r => (r, (u.meetWalk w.kid va).drawn.modCore k fun c => { c.use e with tlb := e :: c.tlb })) : Translated × State).2.slots = u.slots := fun u => by
    have hwalk := u.slots_meetWalk w.kid va
    generalize u.meetWalk w.kid va = x at hwalk ⊢
    split
    · exact hwalk
    next e _ =>
      split
      · exact hwalk
      · exact (x.drawn.slots_cache k e).trans (x.slots_drawn.trans hwalk)
  unfold State.translateData
  split
  · rfl
  · split
    · rfl
    · dsimp only
      split
      · exact miss s
      next e _ =>
        split
        · exact (s.drawn.slots_use k e).trans s.slots_drawn
        · exact (miss _).trans ((s.drawn.slots_uncache k e).trans s.slots_drawn)

theorem State.slots_noteShadow {t : State} {m : Member} {page entry : Nat} (h : s.noteShadow m page entry = some t) : t.slots = s.slots := by
  unfold State.noteShadow at h
  split at h
  · cases h
    rfl
  · split at h
    · cases h
      rfl
    · split at h <;> cases h
      rfl

@[simp] theorem State.slots_locateFor (k : Nat) (j : Fin 4) (acc : Access) (va win kind : Nat) : (s.locateFor k j acc va win kind).2.slots = s.slots := by
  have ht := s.slots_translateData k (s.ctxAt k j).who acc va
  unfold State.locateFor
  dsimp only
  split
  · split <;> rfl
  · split
    next e =>
      rw [e] at ht
      exact ht
    next e =>
      rw [e] at ht
      split
      · exact ht
      · refine (State.slots_modCore _ k fun c => ?_).trans ht
        split <;> rfl
    next e =>
      rw [e] at ht
      split
      · split
        · split
          next hnote => exact (State.slots_noteShadow _ hnote).trans ht
          next => exact ht
        · exact ht
      · exact ht

end Slots

theorem State.slots_readRunsFor (k : Nat) (j : Fin 4) (win kind : Nat) (own : Bool) : ∀ (runs : List (Nat × Nat)) (acc : List Byte) (loft : Bool) (s : State),
    (State.readRunsFor k j win kind own runs acc loft s).2.slots = s.slots
  | [], _, _, _ => rfl
  | (a, m) :: rest, acc, loft, s => by
    have hl := s.slots_locateFor k j .read a win kind
    unfold State.readRunsFor
    split
    next e =>
      rw [e] at hl
      exact hl
    next e =>
      rw [e] at hl
      exact hl
    next e =>
      rw [e] at hl
      dsimp only at hl ⊢
      refine iteInduction (motive := fun x : ReadResult × State => x.2.slots = s.slots) (fun _ => hl) fun _ => ?_
      · split
        · exact hl
        · exact (State.slots_readRunsFor k j win kind own rest _ _ _).trans ((State.slots_readLine ..).trans hl)

/-- A table that is read leaves the sources of the slot that reads it. -/
theorem State.slots_readTable (s : State) (a : Word) (align words : Nat) : (s.readTable a align words).2.slots = s.slots := by
  have hread : (s.readVa a.toNat (8 * words) 0).2.slots = s.slots := State.slots_readRunsFor ..
  unfold State.readTable
  dsimp only
  split
  · rfl
  · split
    next e =>
      rw [e] at hread
      exact hread
    next e =>
      rw [e] at hread
      exact hread
    next e =>
      rw [e] at hread
      exact hread

/-! ## Saves and restores (R300, R304) -/

section Images
variable {s t u : State} {a b : Src} {j : Fin 4} (hsup : s.cur.super = true) (hslot : s.src b = BitVec.ofNat 64 j.val)
include hsup hslot

/-- ctxsave with both pages translated. -/
theorem exec_ctxsave_request {p0 p1 : Trans} (hal : (s.src a).toNat % 8192 = 0) (h0 : s.imagePage (s.src a).toNat = (.ok p0, t))
    (h1 : t.imagePage ((s.src a).toNat + 4096) = (.ok p1, u)) : exec (.ctxsave a b) s = .next (u.requestSave j (s.src a).toNat p0 p1) := by
  obtain ⟨hlt, hj⟩ := slot_of_word hslot
  rw [exec_ctxsave, execCtxsave, State.asSuper_super hsup]
  dsimp only
  rw [if_neg hlt, if_neg (not_not.mpr hal), h0]
  dsimp only
  rw [h1, hj]
  rfl

/-- ctxrest with its image read. -/
theorem exec_ctxrest_restores {ws : List Word} (hva : (s.src a).toNat < loftBase) (hread : s.readTable (s.src a) 8192 1024 = (.ok ws, t)) :
    exec (.ctxrest a b) s = .next (t.restoreAt j (s.src a).toNat ws) := by
  obtain ⟨hlt, -⟩ := slot_of_word hslot
  have hbarred : barred 0 (s.src a).toNat = none := by
    have hloft : loftBase < 2 ^ 56 := by decide
    rw [barred, if_neg (by omega), if_neg (by omega)]
  rw [exec_ctxrest, execCtxrest, State.asSuper_super hsup, if_neg hlt, State.readOutside, hbarred]
  dsimp only
  rw [hread]
  have hslots : t.slots = s.slots := by
    rw [← State.slots_readTable s (s.src a) 8192 1024, hread]
  obtain ⟨-, hj⟩ := slot_of_word ((State.src_of_slots hslots b).trans hslot)
  dsimp only
  rw [hj, State.src_of_slots hslots a]
  rfl

end Images

theorem State.ctxAt_lastSave (s : State) (k : Nat) (x : Option LastImage) (n : Nat) (i : Fin 4) :
    (s.modCore k fun c => { c with lastSave := x }).ctxAt n i = s.ctxAt n i :=
  State.ctxAt_modCore (f := fun c => { c with lastSave := x }) (fun _ => rfl) n i

theorem State.ctxAt_lastRest (s : State) (k : Nat) (x : Option LastImage) (n : Nat) (i : Fin 4) :
    (s.modCore k fun c => { c with lastRest := x }).ctxAt n i = s.ctxAt n i :=
  State.ctxAt_modCore (f := fun c => { c with lastRest := x }) (fun _ => rfl) n i

section RequestSave
variable {u : State} {j : Fin 4} {addr : Nat} {p0 p1 : Trans} (hother : j ≠ u.issue.slot)
  (hstate : (u.ctxAt u.issue.core j).state ∈ [SlotState.ready, .yielded, .stalled])
include hother hstate

theorem State.requestSave_named : u.requestSave j addr p0 p1 =
    if (u.core u.issue.core).lastSave = some ⟨j, BitVec.ofNat 56 addr⟩ then u
    else if (u.ctxAt u.issue.core j).save.isSome then u.illop
    else (u.modCtx u.issue.core j fun c => { c with save := some ⟨p0, p1, none, u.cur.ident, addr⟩ }).modCore u.issue.core
      fun c => { c with lastSave := some ⟨j, BitVec.ofNat 56 addr⟩ } := by
  have hsave : (u.ctxAt u.issue.core j).state.saveable = true := by
    simp only [List.mem_cons, List.not_mem_nil, or_false] at hstate
    obtain h | h | h := hstate <;> rw [h] <;> rfl
  exact if_neg (by simp [hother, hsave])

theorem State.requestSave_again (h : (u.core u.issue.core).lastSave = some ⟨j, BitVec.ofNat 56 addr⟩) : u.requestSave j addr p0 p1 = u := by
  rw [State.requestSave_named hother hstate, if_pos h]

theorem State.requestSave_busy (h : (u.core u.issue.core).lastSave ≠ some ⟨j, BitVec.ofNat 56 addr⟩) (hs : (u.ctxAt u.issue.core j).save.isSome = true) :
    u.requestSave j addr p0 p1 = u.illop := by
  rw [State.requestSave_named hother hstate, if_neg h, if_pos hs]

/-- A save that is recorded. -/
theorem State.requestSave_records (h : (u.core u.issue.core).lastSave ≠ some ⟨j, BitVec.ofNat 56 addr⟩) (hs : (u.ctxAt u.issue.core j).save = none) :
    let v := u.requestSave j addr p0 p1
    (v.ctxAt u.issue.core j).save = some ⟨p0, p1, none, u.cur.ident, addr⟩ ∧ (v.core u.issue.core).lastSave = some ⟨j, BitVec.ofNat 56 addr⟩ := by
  intro v
  have hv : v = (u.modCtx u.issue.core j fun c => { c with save := some ⟨p0, p1, none, u.cur.ident, addr⟩ }).modCore u.issue.core
      fun c => { c with lastSave := some ⟨j, BitVec.ofNat 56 addr⟩ } := by
    rw [show v = _ from State.requestSave_named hother hstate, if_neg h, hs]
    rfl
  rw [hv, State.ctxAt_lastSave, State.ctxAt_modCtx_self, State.core_modCore_self]
  exact ⟨rfl, rfl⟩

end RequestSave

section RestoreAt
variable {t : State} {j : Fin 4} {addr : Nat} {ws : List Word}

theorem State.restoreAt_again (hstate : (t.ctxAt t.issue.core j).state ≠ .free)
    (h : (t.core t.issue.core).lastRest = some ⟨j, BitVec.ofNat 56 addr⟩) : t.restoreAt j addr ws = t :=
  if_pos ⟨h, by simp [hstate]⟩

theorem State.restoreAt_busy (hstate : (t.ctxAt t.issue.core j).state ≠ .free)
    (h : (t.core t.issue.core).lastRest ≠ some ⟨j, BitVec.ofNat 56 addr⟩) : t.restoreAt j addr ws = t.illop :=
  (if_neg fun hh => h hh.1).trans (if_pos (.inl (by simp [hstate])))

variable (hstate : (t.ctxAt t.issue.core j).state = .free)
include hstate

theorem State.restoreAt_refused (h : imageOk ws = false ∨ t.banksTaken t.issue.core j ws = true) : t.restoreAt j addr ws = t.illop := by
  refine (if_neg fun hh => ?_).trans (if_pos ?_)
  · simp [hstate] at hh
  · obtain h | h := h <;> simp [h]

theorem State.restoreAt_installs (hok : imageOk ws = true) (hbanks : t.banksTaken t.issue.core j ws = false) : t.restoreAt j addr ws =
    (t.installImage t.issue.core j ws (t.unseal ws)).modCore t.issue.core fun c => { c with lastRest := some ⟨j, BitVec.ofNat 56 addr⟩ } := by
  refine (if_neg fun hh => ?_).trans (if_neg fun hh => ?_)
  · simp [hstate] at hh
  · simp [hstate, hok, hbanks] at hh

end RestoreAt

/-- The slot of an installed image holds its context. -/
theorem State.installImage_ctxAt (s : State) (k : Nat) (j : Fin 4) (ws : List Word) (x : Sealed) :
    ∃ flt, (s.installImage k j ws x).ctxAt k j = imageContext ws x k j flt s.now := by
  unfold State.installImage
  dsimp only
  rw [State.ctxAt_modCore, State.ctxAt_modCtx_self]
  · exact ⟨_, rfl⟩
  · exact fun _ => rfl

theorem imageContext_regs (ws : List Word) (x : Sealed) (core : Nat) (slot : Fin 4) (flt : Bool) (now : Nat) (r : Fin 63) :
    (imageContext ws x core slot flt now).regs.s[r] = imageWord ws (0x40 + 8 * r.val) := Vector.getElem_ofFn _

/-- A restored slot is LOADING, with what the image holds. -/
theorem State.restoreAt_loads {t : State} {j : Fin 4} {addr : Nat} {ws : List Word} (hstate : (t.ctxAt t.issue.core j).state = .free)
    (hok : imageOk ws = true) (hbanks : t.banksTaken t.issue.core j ws = false) : let v := t.restoreAt j addr ws
    (v.ctxAt t.issue.core j).state = .loading ∧ (v.ctxAt t.issue.core j).loadAt = t.now + 512 ∧
      (v.ctxAt t.issue.core j).tokens = (t.unseal ws).tokens ∧ (v.ctxAt t.issue.core j).windrows = (t.unseal ws).windrows ∧
      (∀ r : Fin 63, (v.ctxAt t.issue.core j).regs.s[r] = imageWord ws (0x40 + 8 * r.val)) ∧
      (v.core t.issue.core).lastRest = some ⟨j, BitVec.ofNat 56 addr⟩ := by
  intro v
  obtain ⟨flt, hctx⟩ := t.installImage_ctxAt t.issue.core j ws (t.unseal ws)
  have hv : v.ctxAt t.issue.core j = imageContext ws (t.unseal ws) t.issue.core j flt t.now := by
    rw [show v = _ from State.restoreAt_installs hstate hok hbanks, State.ctxAt_lastRest, hctx]
  have hcore : (v.core t.issue.core).lastRest = some ⟨j, BitVec.ofNat 56 addr⟩ := by
    rw [show v = _ from State.restoreAt_installs hstate hok hbanks, State.core_modCore_self]
  rw [hv]
  exact ⟨rfl, rfl, rfl, rfl, imageContext_regs ws _ _ j flt _, hcore⟩

/-! ## Routines, ranges and KIDs at supervisor level (R179, R250, R252) -/

section Super
variable {s t u : State} {a b : Src} (hsup : s.cur.super = true)
include hsup

theorem exec_mpld_waits (hrtn : (s.src b).toNat < 256) (hidle : s.engineIdle s.issue.core = false) : exec (.mpld a b) s = .next s.wait := by
  rw [exec_mpld, execMpld, State.asSuper_super hsup]
  dsimp only
  rw [if_neg (by omega), if_pos (by simp [hidle])]
  rfl

/-- A routine that can be read and is well formed is loaded. -/
theorem exec_mpld_loads {h : List Word} {bs : List Byte} {loft : Bool} (hrtn : (s.src b).toNat < 256) (hidle : s.engineIdle s.issue.core = true)
    (hhead : s.readTable (s.src a) 64 1 = (.ok h, t)) (hlo : 1 ≤ (wordAt h 0).toNat) (hhi : (wordAt h 0).toNat ≤ 32)
    (hbody : t.readVa ((s.src a).toNat % 2 ^ 56 + 8) (2 * (wordAt h 0).toNat) 0 = (.ok bs loft, u)) (hok : routineOk (halves bs) = true) :
    exec (.mpld a b) s = .next (u.modCore u.issue.core fun c => { c with store := tput c.store (s.src b).toNat (halves bs) }) := by
  rw [exec_mpld, execMpld, State.asSuper_super hsup]
  dsimp only
  rw [if_neg (by omega), if_neg (by simp [hidle]), hhead]
  dsimp only
  rw [if_neg (by omega), hbody]
  dsimp only
  rw [if_pos hok]
  rfl

theorem exec_tlbinv_illop (h : (s.src a).toNat % 4096 ≠ 0 ∨ 2 ^ 32 ≤ (s.src b).toNat ∨ ((s.src b).toNat / 256 = 0 ∧ s.src a ≠ 0)) :
    exec (.tlbinv a b) s = .next s.illop := by
  have hcount : ((s.src b).extractLsb' 8 24).toNat = (s.src b).toNat / 256 % 2 ^ 24 := by
    rw [BitVec.extractLsb'_toNat, Nat.shiftRight_eq_div_pow]
  rw [exec_tlbinv, execTlbinv, State.asSuper_super hsup]
  dsimp only
  rw [hcount]
  refine if_pos (h.imp_right (Or.imp_right fun hzero => ⟨by rw [hzero.1]; rfl, hzero.2⟩))

/-- tlbinv of a legal range. -/
theorem exec_tlbinv_range (hal : (s.src a).toNat % 4096 = 0) (hb : (s.src b).toNat < 2 ^ 32) (hall : (s.src b).toNat / 256 = 0 → s.src a = 0) :
    exec (.tlbinv a b) s = .next (if 2 ^ 56 ≤ (s.src a).toNat then s.raise cPFAULT (info249 0 0 (s.src a).toNat)
      else s.invalidate ⟨(s.src b).setWidth 8, (s.src a).toNat / 4096, (s.src b).toNat / 256⟩) := by
  have hcount : ((s.src b).extractLsb' 8 24).toNat = (s.src b).toNat / 256 := by
    rw [BitVec.extractLsb'_toNat, Nat.shiftRight_eq_div_pow]
    omega
  have hlegal : ¬ ((s.src a).toNat % 4096 ≠ 0 ∨ 2 ^ 32 ≤ (s.src b).toNat ∨ ((s.src b).toNat / 256 = 0 ∧ s.src a ≠ 0)) := by
    rintro (h | h | ⟨hz, hne⟩)
    · exact h hal
    · omega
    · exact hne (hall hz)
  rw [exec_tlbinv, execTlbinv, State.asSuper_super hsup]
  dsimp only
  rw [hcount, if_neg hlegal]
  split <;> rfl

/-- kidset with its descriptor read. -/
theorem exec_kidset_reads {w : List Word} (hpos : 0 < (s.src b).toNat) (hlt : (s.src b).toNat < 256) (hask : s.asked = none)
    (hread : s.readTable (s.src a) 64 8 = (.ok w, t)) : let kid : BitVec 8 := (s.src b).setWidth 8
    exec (.kidset a b) s = .next (if kidInvalid w then t.illop else if t.tooLate (kidObject kid, t.kidRow kid w) then t.wait
      else (t.tookRow (kidObject kid, t.kidRow kid w)).loadKid kid w) := by
  intro kid
  rw [exec_kidset, execKidset, State.asSuper_super hsup]
  dsimp only
  rw [if_neg (kid_ne_zero hpos hlt), hask, hread]
  dsimp only [Option.isSome_none]
  rw [if_neg (by decide)]
  split
  · rfl
  · split <;> rfl

theorem exec_kidset_asked (hpos : 0 < (s.src b).toNat) (hlt : (s.src b).toNat < 256) (hask : s.asked.isSome = true) :
    exec (.kidset a b) s = .next (s.invalidate ⟨(s.src b).setWidth 8, 0, 0⟩) := by
  rw [exec_kidset, execKidset, State.asSuper_super hsup]
  dsimp only
  rw [if_neg (kid_ne_zero hpos hlt), if_pos hask]
  rfl

section Kidkill
variable (hpos : 0 < (s.src a).toNat) (hlt : (s.src a).toNat < 256)
include hpos hlt

theorem exec_kidkill_asked (hask : s.asked.isSome = true) : exec (.kidkill a) s = .next (if s.guestAcked then s else s.wait) := by
  rw [exec_kidkill, execKidkill, State.asSuper_super hsup]
  dsimp only
  rw [if_neg (kid_ne_zero hpos hlt), if_pos hask]
  rfl

theorem exec_kidkill_ends (hask : s.asked = none) : let v := s.endKid ((s.src a).setWidth 8)
    exec (.kidkill a) s = .next (if v.guestAcked then v else v.ask.wait) := by
  intro v
  rw [exec_kidkill, execKidkill, State.asSuper_super hsup]
  dsimp only
  rw [if_neg (kid_ne_zero hpos hlt), if_neg (by simp [hask])]
  rfl

end Kidkill
end Super

end Sys2Proof.Machine

namespace Sys2Proof
open Machine

/-- Settles O43: each privileged slot raises PRIV at user level; at supervisor level each goes by the row of its table. -/
theorem privileged : Obligations.Privileged := by
  unfold Obligations.Privileged
  intro s a b r q
  refine ⟨fun huser => ?_, fun hsup => ?_⟩
  · have hpriv := State.asSuper_user huser
    simp only [List.forall_mem_cons, exec_rfe, exec_halt, exec_ctxsave, exec_ctxrest, exec_wrsysp, exec_mpld, exec_tlbinv, exec_kidset, exec_kidkill, exec_enq,
      execRfe, execHalt, execCtxsave, execCtxrest, execWrsysp, execMpld, execTlbinv, execKidset, execKidkill, execEnq, hpriv]
    simp
  refine ⟨(exec_rfe ..).trans (State.asSuper_super hsup _), (exec_halt ..).trans (State.asSuper_super hsup _), fun j t u p0 p1 hslot hal _ h0 h1 hother hstate => ?_,
    fun j t ws hslot hva hread => ?_, exec_mpld_waits hsup,
    fun h t u bs loft hrtn hidle hhead hlo hhi hbody hok => exec_mpld_loads hsup hrtn hidle hhead hlo hhi hbody hok,
    fun hal hb hall => ?_, exec_tlbinv_illop hsup, fun range k e hk he => State.dropTlb_misses hk he,
    fun w t hpos hlt hask hread => ?_, exec_kidset_asked hsup, fun hpos hlt => ?_⟩
  · have hexec := exec_ctxsave_request hsup hslot hal h0 h1
    simp only [Goes, hexec, ← ofNat_toNat_setWidth]
    refine ⟨fun h => ?_, fun h hs => ?_, fun h hs => ⟨_, rfl, State.requestSave_records hother hstate h hs⟩⟩
    · rw [State.requestSave_again hother hstate h]
    · rw [State.requestSave_busy hother hstate h hs]
  · have hexec := exec_ctxrest_restores hsup hslot hva hread
    simp only [Goes, hexec, ← ofNat_toNat_setWidth]
    refine ⟨fun hfree hok hbanks => ⟨_, rfl, State.restoreAt_loads hfree hok hbanks⟩, fun hn h => ?_, fun hn h => ?_, fun hfree h => ?_⟩
    · rw [State.restoreAt_again hn h]
    · rw [State.restoreAt_busy hn h]
    · rw [State.restoreAt_refused hfree h]
  · have hexec := exec_tlbinv_range hsup hal hb hall
    exact ⟨fun hva => hexec.trans (by rw [if_neg (not_le.mpr hva)]), fun hva => hexec.trans (by rw [if_pos hva])⟩
  · intro kid old row
    have hexec := exec_kidset_reads hsup hpos hlt hask hread
    refine ⟨fun hbad => hexec.trans (by rw [if_pos hbad]), fun hgood hlate => hexec.trans ?_, fun hgood hrow => ?_⟩
    · rw [if_neg (by simp [hgood]), if_pos hlate]
    have hload : exec (.kidset a b) s = .next ((t.tookRow row).loadKid kid w) := by
      rw [hexec, if_neg (by simp [hgood]), if_neg (by rw [hrow]; decide)]
    refine ⟨fun hnew hkeep => Goes.intro hload ?_, fun hnew hkeep => hload.trans ?_, fun hlive hsame => hload.trans ?_, fun hlive hkeep hne => hload.trans ?_⟩
    · obtain ⟨hroot, htab, hcnt⟩ := ((t.tookRow row).kidEntry kid).loaded_roots w
      have hentry : ((t.tookRow row).loadKid kid w).kidEntry kid = { ((t.tookRow row).kidEntry kid).loaded w with key1 := kdKey1 w, key2 := kdKey2 w } := by
        rw [State.loadKid_new (s := t.tookRow row) hnew hkeep, State.kidEntry_setKid_self]
      rw [hentry]
      exact ⟨rfl, hroot, htab, hcnt, rfl, rfl⟩
    · rw [State.loadKid_kept (s := t.tookRow row) hnew hkeep]
    · rw [State.loadKid_same (s := t.tookRow row) hlive hsame, State.kidEntry_tookRow, KidEntry.loaded_of_live hlive]
    · rw [State.loadKid_rekeyed (s := t.tookRow row) hlive hkeep hne]
  · intro kid v
    refine ⟨exec_kidkill_ends hsup hpos hlt, exec_kidkill_asked hsup hpos hlt, s.endKid_state kid, fun hlive => ?_, State.endKid_free, State.endKid_dead⟩
    have hcore : ∀ k, v.core k = (s.killKid kid).core k := fun k => by
      rw [show v = _ from State.endKid_live hlive, State.tookRow_core]
    refine ⟨fun k x hx hk => ?_, fun k e he hk => ?_⟩
    · rw [hcore] at hx
      exact (State.killKid_drops hk kid).1 x hx
    · rw [hcore] at he
      exact (State.killKid_drops hk kid).2 e he

end Sys2Proof
end

section
/-! SUPPORT. Ring-table entries and their slots (R185, R189, R190, R201): an entry after a change of it, a slot that is taken, filled or released, and the
effect that leaves an outbox. -/

namespace Sys2Proof.Machine

/-! ## Entries of the ring table -/

@[simp] theorem State.ringEntry_modRing_self (s : State) (h rid : Nat) (f : RingEntry → RingEntry) :
    (s.modRing h rid f).ringEntry h rid = f (s.ringEntry h rid) := by
  simp [ringEntry, modRing]

theorem State.ringEntry_congr {s t : State} (h : t.sheaves = s.sheaves) (n rid : Nat) : t.ringEntry n rid = s.ringEntry n rid := by
  rw [ringEntry, ringEntry, sheaf, sheaf, h]

@[simp] theorem State.modRing_core (s : State) (h rid : Nat) (f : RingEntry → RingEntry) (k : Nat) : (s.modRing h rid f).core k = s.core k := rfl

@[simp] theorem State.modRing_ctxAt (s : State) (h rid : Nat) (f : RingEntry → RingEntry) (k : Nat) (j : Fin 4) :
    (s.modRing h rid f).ctxAt k j = s.ctxAt k j := rfl

/-! ## Slots of an entry -/

section Slots
variable (e : RingEntry) (q : BitVec 32)

theorem RingEntry.slot_setSlot (q' : BitVec 32) (x : RingSlot) :
    (e.setSlot q x).slot q' = if e.desc.index q = e.desc.index q' then x else e.slot q' := tget_tput ..

@[simp] theorem RingEntry.slot_setSlot_self (x : RingSlot) : (e.setSlot q x).slot q = x := by simp [slot_setSlot]

theorem RingEntry.slot_setSlot_of_ne {q' : BitVec 32} (x : RingSlot) (hq : e.desc.index q' ≠ e.desc.index q) : (e.setSlot q x).slot q' = e.slot q' := by
  rw [slot_setSlot, if_neg (Ne.symm hq)]

/-- A slot that is taken is FILLING with its tag. -/
theorem RingEntry.slot_take (eos : Bool) (v : Nat) :
    (e.take q eos v).slot q = { RingSlot.reset with state := .filling, tag := q, eos := eos, visible := v } := slot_setSlot_self e q _

theorem RingEntry.slot_take_of_ne {q' : BitVec 32} (eos : Bool) (v : Nat) (hq : e.desc.index q' ≠ e.desc.index q) : (e.take q eos v).slot q' = e.slot q' :=
  slot_setSlot_of_ne e q _ hq

/-- Where contexts consume the ring, a slot that is filled is FULL, the ring's mask pending. -/
theorem RingEntry.slot_fill (eos err : Bool) (v : Nat) (hcons : e.desc.cons = false) (hmask : e.cmask ≠ 0) :
    (e.fill q eos err v).slot q = ⟨.full, q, e.cmask, false, eos, err, v⟩ := by
  rw [fill, if_neg (fun h => hmask h.2), slot_setSlot_self, hcons]
  rfl

theorem RingEntry.slot_fill_of_ne {q' : BitVec 32} (eos err : Bool) (v : Nat) (hq : e.desc.index q' ≠ e.desc.index q) :
    (e.fill q eos err v).slot q' = e.slot q' := by
  unfold fill
  dsimp only
  split <;> exact slot_setSlot_of_ne e q _ hq

@[simp] theorem RingEntry.fill_next (eos err : Bool) (v : Nat) : (e.fill q eos err v).next = e.next := by
  unfold fill
  dsimp only
  split <;> rfl

/-- A slot that is taken and filled at once: FULL with its tag, NEXT one further on. -/
theorem RingEntry.take_fill (eos eos' err : Bool) (v v' : Nat) (hcons : e.desc.cons = false) (hmask : e.cmask ≠ 0) :
    ((e.take q eos v).fill q eos' err v').slot q = ⟨.full, q, e.cmask, false, eos', err, v'⟩ ∧ ((e.take q eos v).fill q eos' err v').next = e.next + 1 :=
  ⟨slot_fill (e.take q eos v) q eos' err v' hcons hmask, fill_next ..⟩

theorem RingEntry.slot_take_fill_of_ne {q' : BitVec 32} (eos eos' err : Bool) (v v' : Nat) (hq : e.desc.index q' ≠ e.desc.index q) :
    ((e.take q eos v).fill q eos' err v').slot q' = e.slot q' := (slot_fill_of_ne (e.take q eos v) q eos' err v' hq).trans (slot_take_of_ne e q eos v hq)

end Slots

/-- A FULL slot that loses its last pending bits is FREE, visibly from two cycles on. -/
theorem RingSlot.clear_last {x : RingSlot} {keep : BitVec 32} {g : Bool} (n : Nat) (hp : x.pending &&& keep = 0) (hg : (x.gpend && !g) = false) :
    x.clear n keep g = { RingSlot.reset with visible := n + 2 } := if_pos ⟨hp, by rw [hg]; rfl⟩

theorem RingSlot.clear_more {x : RingSlot} {keep : BitVec 32} {g : Bool} (n : Nat) (hp : x.pending &&& keep ≠ 0) :
    x.clear n keep g = { x with pending := x.pending &&& keep, gpend := x.gpend && !g } := if_neg fun h => hp h.1

/-- A release by a consumer whose bit is set clears that bit. -/
theorem RingEntry.release_of_full {e : RingEntry} {q : BitVec 32} {bit : Nat} (n : Nat) (hfull : (e.slot q).state = .full)
    (hbit : (e.slot q).pending.getLsbD bit = true) : e.release n q bit = e.setSlot q ((e.slot q).clear n (~~~ (1#32 <<< bit)) false) := if_pos ⟨hfull, hbit⟩

/-- A release of a slot that is not FULL, or without the bit, changes nothing. -/
theorem RingEntry.release_idle {e : RingEntry} {q : BitVec 32} {bit : Nat} (n : Nat)
    (h : (e.slot q).state ≠ .full ∨ (e.slot q).pending.getLsbD bit = false) : e.release n q bit = e :=
  if_neg fun ⟨hfull, hbit⟩ => h.elim (fun hn => hn hfull) fun hn => Bool.noConfusion (hn.symm.trans hbit)

/-! ## Effects that leave an outbox (R274) -/

/-- The next deferred effect of a context takes effect, where it is no matrix command and no packet of the guest. -/
theorem exec_deferredEffectHandoff_takes {s : State} {k : Nat} {j : Fin 4} {e : Effect} {rest : List Handed}
    (hout : (s.ctxAt k j).outbox = .effect e :: rest) (hret : (s.ctxAt k j).returning = false) (hpush : (s.ctxAt k j).pushesOut = false)
    (hguest : ∀ p, e ≠ .guest p) (hmatrix : e.isMatrix = false) :
    exec (.deferredEffectHandoff k j.val) s = .next ((s.modCtx k j fun c => { c with outbox := rest }).takeEffect k j e) := by
  rw [exec_deferredEffectHandoff, execDeferredEffectHandoff, slotNum_val]
  rw [hout]
  cases e with
  | guest p => exact absurd rfl (hguest p)
  | _ => simp [hret, hpush, hmatrix]

section Epoch
variable {s : State} {k : Nat} {epoch : BitVec 8} {rid : Fin 64} {q : BitVec 32} (hready : (s.ringEntry (sheafOf k) rid.val).ready = true)
  (hepoch : (s.ringEntry (sheafOf k) rid.val).epoch = epoch)
include hready hepoch

/-- An effect acts within the epoch of its binding. -/
theorem State.inEpoch_current (j : Fin 4) (f : State → State) : s.inEpoch k j epoch rid f = f s := if_pos ⟨hready, hepoch⟩

/-- A publish in its epoch takes and fills the FREE slot of a local ring. -/
theorem State.ringEntry_publish (j : Fin 4) (eos : Bool) (hlocal : (s.ringEntry (sheafOf k) rid.val).desc.mcast = false)
    (hfree : ((s.ringEntry (sheafOf k) rid.val).slot q).state = .free) :
    (s.publish k j q epoch rid eos).ringEntry (sheafOf k) rid.val =
      ((s.ringEntry (sheafOf k) rid.val).take q eos 0).fill q eos false (s.now + 2) := by
  rw [publish, inEpoch_current hready hepoch, ringEntry_modRing_self, if_neg (not_not_intro hfree), hlocal]
  rfl

theorem State.publish_ctxAt (j : Fin 4) (eos : Bool) (n : Nat) (i : Fin 4) : (s.publish k j q epoch rid eos).ctxAt n i = s.ctxAt n i := by
  rw [publish, inEpoch_current hready hepoch, modRing_ctxAt]

theorem State.ringEntry_releaseSlot (j : Fin 4) :
    (s.releaseSlot k j q epoch rid).ringEntry (sheafOf k) rid.val = (s.ringEntry (sheafOf k) rid.val).release s.now q (meBit k j) := by
  rw [releaseSlot, inEpoch_current hready hepoch, ringEntry_modRing_self]

end Epoch

end Sys2Proof.Machine

namespace Sys2Proof
open Machine

/-- Settles O37: a publish takes and fills the one slot of its sequence, and a release clears the consumer's bit in it. -/
theorem ringLifecycle : Obligations.RingLifecycle := by
  unfold Obligations.RingLifecycle
  intro s k j rb q epoch rid rest h z e hready hepoch hret hpush
  refine ⟨fun eos hout hlocal hcons hmask hfree => ?_, fun hout => ?_⟩
  · have hexec := exec_deferredEffectHandoff_takes hout hret hpush (fun _ => Effect.noConfusion) rfl
    have hentry : (z.publish k j q epoch rid eos).ringEntry h rid.val = (e.take q eos 0).fill q eos false (z.now + 2) :=
      State.ringEntry_publish hready hepoch j eos hlocal hfree
    have hout' : (z.publish k j q epoch rid eos).ctxAt k j = z.ctxAt k j := State.publish_ctxAt hready hepoch j eos k j
    obtain ⟨hslot, hnext⟩ := e.take_fill q eos eos false 0 (z.now + 2) hcons hmask
    refine .intro (t := z.publish k j q epoch rid eos) hexec ?_
    simp only [hentry, hslot, hout', true_and]
    exact ⟨hnext, fun q' hq => e.slot_take_fill_of_ne q eos eos false 0 _ hq⟩
  · have hexec := exec_deferredEffectHandoff_takes hout hret hpush (fun _ => Effect.noConfusion) rfl
    have hentry : (z.releaseSlot k j q epoch rid).ringEntry h rid.val = e.release z.now q (meBit k j) := State.ringEntry_releaseSlot hready hepoch j
    refine ⟨fun hfull hbit => .intro (t := z.releaseSlot k j q epoch rid) hexec ?_,
      fun hidle => .intro (t := z.releaseSlot k j q epoch rid) hexec (hentry.trans (RingEntry.release_idle (e := e) z.now hidle))⟩
    rw [RingEntry.release_of_full _ hfull hbit] at hentry
    simp only [hentry, RingEntry.slot_setSlot_self]
    refine ⟨fun hlast hg => ?_, fun hmore => ?_, rfl, fun q' hq => e.slot_setSlot_of_ne q _ hq⟩
    · rw [RingSlot.clear_last _ hlast (by simp [hg])]
      exact ⟨rfl, rfl⟩
    · rw [RingSlot.clear_more _ hmore]
      exact ⟨hfull, rfl, rfl⟩

end Sys2Proof
end

section
/-! SUPPORT. The ring slots (R186, R187, R194 to R198, R204): what each form makes of a binding, the binding that an rcfg makes, and the items of rstat. -/

namespace Sys2Proof.Machine

/-! ## Forms that use a binding (R195 to R197) -/

/-- Only a register that is BOUND can be found BOUND. -/
theorem State.bindState_of_state {s : State} {k : Nat} {j : Fin 4} {r : RingReg} (h : r.state ≠ .bound) : s.bindState k j r ≠ .bound := by
  unfold bindState
  split
  · exact absurd ‹_› h
  · exact h

section Bound
variable {s : State} {n : Fin 16} (hb : s.bindState s.issue.core s.issue.slot (s.rb n) = .bound)
include hb

theorem exec_racq_bound : exec (.racq n) s = .next (let r := s.rb n
    if !r.p || r.pcur then s.ringErr n else if !s.slotFree r then s.wait else (s.acquireMine .sheaf).setRb n { r with pcur := true }) := if_pos hb

theorem exec_rpub_bound : exec (.rpub n) s = .next (let r := s.rb n
    if !r.p || !r.pcur then s.ringErr n
    else (s.defer (.publish n r.pq r.epoch r.desc.rid false)).setRb n { r with pq := r.pq + 1, pcur := false }) := if_pos hb

theorem exec_reos_bound : exec (.reos n) s = .next (let r := s.rb n
    if !r.p || r.pcur then s.ringErr n else if !s.slotFree r then s.wait
    else (s.defer (.publish n r.pq r.epoch r.desc.rid true)).setRb n { r with pq := r.pq + 1 }) := if_pos hb

theorem exec_rwait_bound : exec (.rwait n) s = .next (let r := s.rb n
    if !r.c || r.ccur then s.ringErr n else if s.cur.region.publishes r.desc.rid r.cq then s.illop
    else if !(s.entryOf r).fullFor s.now r.cq (meBit s.issue.core s.issue.slot) then s.wait
    else (s.acquireMine .sheaf).setRb n { r with ccur := true }) := if_pos hb

theorem exec_rrel_bound : exec (.rrel n) s = .next (let r := s.rb n
    if !r.c || !r.ccur then s.ringErr n
    else (s.defer (.release n r.cq r.epoch r.desc.rid)).setRb n { r with cq := r.cq + 1, ccur := false }) := if_pos hb

theorem exec_rmask_bound (a : Src) : exec (.rmask n a) s = .next (let r := s.rb n
    if !r.desc.maskOk s.issue.core ((s.src a).setWidth 32) then s.ringErr n else s.defer (.mask n r.epoch r.desc.rid ((s.src a).setWidth 32))) := if_pos hb

/-- A form of the producer raises RINGERR without the role, and where it is to hold no slot and holds one. -/
theorem exec_racq_reos_refused (h : (s.rb n).p = false ∨ (s.rb n).pcur = true) :
    exec (.racq n) s = .next (s.ringErr n) ∧ exec (.reos n) s = .next (s.ringErr n) := by
  have hrole : (!(s.rb n).p || (s.rb n).pcur) = true := by rcases h with h | h <;> simp [h]
  exact ⟨(exec_racq_bound hb).trans (congrArg _ (if_pos hrole)), (exec_reos_bound hb).trans (congrArg _ (if_pos hrole))⟩

theorem exec_rpub_refused (h : (s.rb n).p = false ∨ (s.rb n).pcur = false) : exec (.rpub n) s = .next (s.ringErr n) :=
  (exec_rpub_bound hb).trans (congrArg _ (if_pos (by rcases h with h | h <;> simp [h])))

theorem exec_rwait_refused (h : (s.rb n).c = false ∨ (s.rb n).ccur = true) : exec (.rwait n) s = .next (s.ringErr n) :=
  (exec_rwait_bound hb).trans (congrArg _ (if_pos (by rcases h with h | h <;> simp [h])))

theorem exec_rrel_refused (h : (s.rb n).c = false ∨ (s.rb n).ccur = false) : exec (.rrel n) s = .next (s.ringErr n) :=
  (exec_rrel_bound hb).trans (congrArg _ (if_pos (by rcases h with h | h <;> simp [h])))

end Bound

/-! ## rstat (R198) -/

theorem RingState.code_lt (x : RingState) : x.code < 4 := by cases x <;> decide

/-- The fields of rstat's item 0, from bit 0 up. -/
def State.ringFields (s : State) (r : RingReg) : List (Nat × Nat) :=
  let slot := (s.entryOf r).slot r.cq
  [(2, (s.bindState s.issue.core s.issue.slot r).code), (1, r.desc.mcast.toNat), (1, r.p.toNat), (1, r.c.toNat), (1, r.e.toNat), (1, r.pcur.toNat),
   (1, r.ccur.toNat), (1, (r.ccur && slot.eos).toNat), (1, (r.ccur && slot.err).toNat), (6, r.desc.rid.val)]

theorem State.ringFields_fit (s : State) (r : RingReg) : Fits (s.ringFields r) := by
  simp only [Fits, State.ringFields, List.forall_mem_cons, List.not_mem_nil, false_imp_iff, implies_true, and_true]
  exact ⟨RingState.code_lt _, Bool.toNat_lt _, Bool.toNat_lt _, Bool.toNat_lt _, Bool.toNat_lt _, Bool.toNat_lt _, Bool.toNat_lt _, Bool.toNat_lt _,
    Bool.toNat_lt _, r.desc.rid.isLt⟩

theorem State.ringItem_zero_toNat (s : State) (r : RingReg) : (s.ringItem r 0).toNat = packed (s.ringFields r) := by
  have hlt : packed (s.ringFields r) < 2 ^ 16 := packed_lt (s.ringFields_fit r)
  refine Eq.trans ?_ (Nat.mod_eq_of_lt (hlt.trans (by decide : 2 ^ 16 < 2 ^ 64)))
  refine (BitVec.toNat_ofNat ..).trans (congrArg (· % 2 ^ 64) ?_)
  simp only [State.ringFields, packed]
  omega

/-- Item 0 of rstat holds each of its fields. -/
theorem State.ringItem_zero_holds (s : State) (r : RingReg) : let x := s.ringItem r 0
    let slot := (s.entryOf r).slot r.cq
    x.extractLsb' 10 6 = BitVec.ofNat 6 r.desc.rid.val ∧ x.getLsbD 9 = (r.ccur && slot.err) ∧ x.getLsbD 8 = (r.ccur && slot.eos) ∧
    x.getLsbD 7 = r.ccur ∧ x.getLsbD 6 = r.pcur ∧ x.getLsbD 5 = r.e ∧ x.getLsbD 4 = r.c ∧ x.getLsbD 3 = r.p ∧ x.getLsbD 2 = r.desc.mcast ∧
    (x.extractLsb' 0 2).toNat = (s.bindState s.issue.core s.issue.slot r).code := by
  intro x slot
  have bits : ∀ {lo n v : Nat}, packed (s.ringFields r) / 2 ^ lo % 2 ^ n = v → (x.extractLsb' lo n).toNat = v := fun h => by
    rw [BitVec.extractLsb'_toNat, Nat.shiftRight_eq_div_pow, State.ringItem_zero_toNat, h]
  have bit : ∀ {lo : Nat} {y : Bool}, packed (s.ringFields r) / 2 ^ lo % 2 ^ 1 = y.toNat → x.getLsbD lo = y := fun {lo y} h => by
    rw [BitVec.getLsbD, Nat.testBit_eq_decide_div_mod_eq, State.ringItem_zero_toNat, show packed _ / 2 ^ lo % 2 = y.toNat from h]
    cases y <;> rfl
  have hfit := s.ringFields_fit r
  refine ⟨BitVec.eq_of_toNat_eq ((bits (packed_field hfit (i := 9) rfl rfl)).trans ?_), bit (packed_field hfit (i := 8) rfl rfl),
    bit (packed_field hfit (i := 7) rfl rfl), bit (packed_field hfit (i := 6) rfl rfl), bit (packed_field hfit (i := 5) rfl rfl),
    bit (packed_field hfit (i := 4) rfl rfl), bit (packed_field hfit (i := 3) rfl rfl), bit (packed_field hfit (i := 2) rfl rfl),
    bit (packed_field hfit (i := 1) rfl rfl), bits (packed_field hfit (i := 0) rfl rfl)⟩
  rw [BitVec.toNat_ofNat, Nat.mod_eq_of_lt r.desc.rid.isLt]

/-! ## rcfg (R194) -/

@[simp] theorem State.rb_setRb_self (s : State) (n : Fin 16) (x : RingReg) : (s.setRb n x).rb n = x := by simp [State.rb_setRb]

@[simp] theorem State.cur_setRb_region (s : State) (n : Fin 16) (x : RingReg) : (s.setRb n x).cur.region = s.cur.region := by simp [State.setRb]

@[simp] theorem State.rb_defer (s : State) (e : Effect) (n : Fin 16) : (s.defer e).rb n = s.rb n := by simp [State.rb, State.defer]

@[simp] theorem State.cur_defer_deferred (s : State) (e : Effect) : (s.defer e).cur.region.deferred = s.cur.region.deferred ++ [e] := by
  simp [State.defer]

section Rcfg
variable {s t : State} {n : Fin 16} {a : Src} {ws : List Word} {i p c e : Bool}

/-- rcfg, its descriptor read: it refuses a bad one, and binds the register where the core holds the slots' steps. -/
theorem exec_rcfg_reads (hroles : (c && e) = false) (hal : (s.src a).toNat % 32 = 0) (hread : s.readTable (s.src a) 32 4 = (.ok ws, t)) :
    exec (.rcfg n a i p c e) s = (let d := RingDesc.ofNat (wordsNat ws)
      let steps := d.steps.map t.myCore.stepAccess
      if !d.valid (wordsNat ws) t.issue.core then (t.badTable (s.src a)).done
      else if steps.contains .wait then t.wait.done else if steps.contains .refuse then (t.badTable (s.src a)).done
      else (t.bindRing n d i p c e).done) := by
  rw [exec_rcfg, execRcfg]
  dsimp only
  rw [hroles, if_neg (by decide), if_neg (not_not_intro hal), hread]

theorem exec_rcfg_binds (hroles : (c && e) = false) (hal : (s.src a).toNat % 32 = 0) (hread : s.readTable (s.src a) 32 4 = (.ok ws, t))
    (hvalid : (RingDesc.ofNat (wordsNat ws)).valid (wordsNat ws) t.issue.core = true)
    (hsteps : ∀ x ∈ (RingDesc.ofNat (wordsNat ws)).steps, t.myCore.stepAccess x = .go) :
    exec (.rcfg n a i p c e) s = .next (t.bindRing n (RingDesc.ofNat (wordsNat ws)) i p c e) := by
  have hgo : ∀ y, y ≠ .go → ((RingDesc.ofNat (wordsNat ws)).steps.map t.myCore.stepAccess).contains y = false := fun y hy => by
    rw [List.map_congr_left hsteps, List.contains_eq_mem, decide_eq_false_iff_not, List.mem_map]
    rintro ⟨_, _, h⟩
    exact hy h.symm
  rw [exec_rcfg_reads hroles hal hread]
  dsimp only
  rw [hvalid, hgo .wait (by decide), hgo .refuse (by decide)]
  rfl

end Rcfg

section Bind
variable {t : State} {n : Fin 16} {d : RingDesc} {i p c e : Bool}

/-- A binding without init waits for what its context has committed on the ring. -/
theorem State.bindRing_waits (h : i = false ∧ ∃ x ∈ t.cur.effectsOut, x.ring = some d.rid) : t.bindRing n d i p c e = t.wait := by
  obtain ⟨hi, x, hx, hr⟩ := h
  exact if_pos ⟨by rw [hi]; rfl, List.any_eq_true.mpr ⟨x, hx, by rw [hr]; exact beq_self_eq_true _⟩⟩

/-- The mask that a binding's consumer bit is looked up in. -/
def RingEntry.maskFor (y : RingEntry) (d : RingDesc) (i : Bool) : BitVec 32 := if i then d.cmask else y.cmask

/-- The binding that an rcfg makes to an entry (R194). -/
def RingEntry.binding (y : RingEntry) (d : RingDesc) (i p c e : Bool) (core : Nat) : RingReg :=
  let q := if i then 0 else y.oldest
  ⟨{ d with cmask := y.maskFor d i }, .bound, p, c, e, if i then y.epoch + 1 else y.epoch, core, 0, q, q, false, false⟩

/-- Roles that an entry does not give, or an entry that is not there (R194). -/
def RingEntry.Refuses (y : RingEntry) (d : RingDesc) (i p c e : Bool) (bit : Nat) : Prop :=
  (p = true ∧ (i = false ∨ d.prod = true)) ∨ ((c = true ∨ e = true) ∧ (d.cons = true ∨ (y.maskFor d i).getLsbD bit = false)) ∨
    (i = false ∧ (y.ready = false ∨ { y.desc with cmask := d.cmask } ≠ d))

section NotWaiting
variable (hgo : ¬ (i = false ∧ ∃ x ∈ t.cur.effectsOut, x.ring = some d.rid))
include hgo

/-- A binding that need not wait is refused, or the register has it. -/
theorem State.bindRing_acts : t.bindRing n d i p c e = (let y := t.ringEntry (sheafOf t.issue.core) d.rid.val
    if p ∧ (!i ∨ d.prod) then t.ringErr n
    else if (c ∨ e) ∧ (d.cons ∨ !(y.maskFor d i).getLsbD (meBit t.issue.core t.issue.slot)) then t.ringErr n
    else if !i ∧ (!y.ready ∨ { y.desc with cmask := d.cmask } ≠ d) then t.ringErr n
    else
      let u := t.setRb n (y.binding d i p c e t.issue.core)
      if i then u.defer (.init n d p) else u) := by
  refine if_neg fun ⟨hi, hany⟩ => hgo ⟨by simpa using hi, ?_⟩
  obtain ⟨x, hx, hr⟩ := List.any_eq_true.mp hany
  exact ⟨x, hx, by simpa using hr⟩

theorem State.bindRing_refused (h : (t.ringEntry (sheafOf t.issue.core) d.rid.val).Refuses d i p c e (meBit t.issue.core t.issue.slot)) :
    t.bindRing n d i p c e = t.ringErr n := by
  rw [State.bindRing_acts hgo]
  dsimp only
  rcases h with hprod | hcons | hentry
  · exact if_pos (by simpa using hprod)
  · split
    · rfl
    · exact if_pos (by simpa using hcons)
  · split
    · rfl
    · split
      · rfl
      · exact if_pos (by simpa using hentry)

theorem State.bindRing_binds (h : ¬ (t.ringEntry (sheafOf t.issue.core) d.rid.val).Refuses d i p c e (meBit t.issue.core t.issue.slot)) :
    t.bindRing n d i p c e = (let u := t.setRb n ((t.ringEntry (sheafOf t.issue.core) d.rid.val).binding d i p c e t.issue.core)
      if i then u.defer (.init n d p) else u) := by
  obtain ⟨hprod, hcons, hentry⟩ : _ ∧ _ ∧ _ := by simpa only [RingEntry.Refuses, not_or] using h
  rw [State.bindRing_acts hgo]
  dsimp only
  rw [if_neg (by simpa using hprod), if_neg (by simpa using hcons), if_neg (by simpa using hentry)]

end NotWaiting

end Bind

end Sys2Proof.Machine

namespace Sys2Proof
open Machine

/-- Settles O36: each form goes by the role and the slot of its binding, rcfg by the entry that its descriptor names. -/
theorem ringForms : Obligations.RingForms := by
  unfold Obligations.RingForms
  intro s n a d item
  dsimp only
  refine ⟨fun hb => ?_, fun hb => ?_, State.bindState_of_state, ⟨_, rfl, rfl⟩, ?_, fun i p => rfl, fun i p c e hroles hal => ?_,
    fun ws t i p c e hroles hal hread => ?_⟩
  · refine ⟨fun hp hcur hfree => ?_, fun hp hcur hfree => ⟨?_, ?_⟩, fun hp hcur => ?_, fun hp hcur hfree => ?_, fun hc hcur hown => ?_,
      fun hc hcur hown => ⟨fun hfull => ?_, fun hfull => ?_⟩, fun hc hcur => ?_, fun hmask => ?_, fun hmask => ?_, exec_racq_reos_refused hb,
      exec_rpub_refused hb, exec_rwait_refused hb, exec_rrel_refused hb⟩
    · simp [exec_racq_bound hb, hp, hcur, hfree, State.setRb, State.acquireMine]
    · simp [exec_racq_bound hb, hp, hcur, hfree]
    · simp [exec_reos_bound hb, hp, hcur, hfree]
    · simp [exec_rpub_bound hb, hp, hcur, State.setRb]
    · simp [exec_reos_bound hb, hp, hcur, hfree, State.setRb]
    · simp [exec_rwait_bound hb, hc, hcur, hown]
    · simp [exec_rwait_bound hb, hc, hcur, hown, hfull, State.setRb, State.acquireMine]
    · simp [exec_rwait_bound hb, hc, hcur, hown, hfull]
    · simp [exec_rrel_bound hb, hc, hcur, State.setRb]
    · simp [exec_rmask_bound hb, hmask]
    · simp [exec_rmask_bound hb, hmask]
  · simp only [List.forall_mem_cons, List.not_mem_nil, false_imp_iff, implies_true, and_true]
    exact ⟨if_neg hb, if_neg hb, if_neg hb, if_neg hb, if_neg hb, if_neg hb⟩
  · obtain ⟨hrid, herr, heos, hccur, hpcur, he, hc, hp, hmcast, hcode⟩ := s.ringItem_zero_holds (s.rb n)
    exact ⟨hrid, herr, heos, hccur, hpcur, he, hc, hp, hmcast, hcode, rfl, rfl, rfl, rfl, rfl, fun hstate => congrArg (BitVec.ofNat 64) (if_neg hstate)⟩
  · rw [exec_rcfg, execRcfg, hroles]
    exact (if_neg (by decide)).trans (if_pos hal)
  · refine ⟨fun hbad => ?_, fun hvalid hsteps => ?_⟩
    · rw [exec_rcfg_reads hroles hal hread]
      exact if_pos (by rw [hbad]; rfl)
    · have hexec := exec_rcfg_binds (n := n) (i := i) (p := p) hroles hal hread hvalid hsteps
      refine ⟨fun hwait => hexec.trans (congrArg _ (State.bindRing_waits hwait)), fun hgo href => hexec.trans (congrArg _ (State.bindRing_refused hgo href)),
        fun hgo href => .intro (hexec.trans (congrArg _ (State.bindRing_binds hgo href))) ?_⟩
      cases i <;> simp [RingEntry.binding, RingEntry.maskFor]

end Sys2Proof
end

section
/-! SUPPORT. Engine commands at issue (R202, R257, R261, R396): a command whose block has been read, and the check of its handles. -/

namespace Sys2Proof.Machine

/-- A command acts on its block once it has been read. -/
theorem State.withBlock_reads {s t : State} {c : Src} {b : List Word} (hread : s.readTable (s.src c) 64 8 = (.ok b, t)) (f : List Word → State → State) :
    s.withBlock c f = .next (f b t) := by
  rw [withBlock, hread]
  rfl

/-- Both operands of a copy that are handles pass their check. -/
def State.HandlesGood (s : State) (b : List Word) (src dst : Nat) : Prop :=
  (cbSh b = true → s.handleBad s.cur.kid (cbSrc b) src false = false) ∧ (cbDh b = true → s.handleBad s.cur.kid (cbDst b) dst true = false)

section Copy
variable {s : State} {b : List Word} {src dst : Nat} (kind : CmdKind) (tok : Fin 64) (a l : Bool) (x : Scope)

theorem State.sendCopy_good (h : s.HandlesGood b src dst) : s.sendCopy kind src dst tok a l x b =
    ((s.meetHandle s.cur.kid (cbSrc b) (cbSh b)).meetHandle s.cur.kid (cbDst b) (cbDh b)).sendEngine kind tok a l x b := by
  obtain ⟨hsrc, hdst⟩ := h
  refine if_neg ?_
  simp only [Bool.or_eq_true, Bool.and_eq_true, not_or, not_and, Bool.not_eq_true]
  exact ⟨hsrc, hdst⟩

theorem State.sendCopy_bad (h : ¬ s.HandlesGood b src dst) : s.sendCopy kind src dst tok a l x b = s.raise47 cHANDLE := by
  refine if_pos ?_
  rw [HandlesGood, not_and_or] at h
  simpa using h

end Copy

section Read
variable {s t : State} {c : Src} {b : List Word} (hread : s.readTable (s.src c) 64 8 = (.ok b, t)) (a l : Bool) (x : Scope) (tok : Fin 64)
include hread

theorem exec_ecopy_reads : exec (.ecopy a l x c tok) s =
    .next (if copyBlockBad b || cbCount b != 0 || cbIdx b != 0 then t.illop else t.sendCopy .copy (cbLen b) (cbLen b) tok a l x b) :=
  State.withBlock_reads hread _

theorem exec_egath_reads : exec (.egath a l x c tok) s =
    .next (if copyBlockBad b || indexBad b then t.illop else t.sendCopy .gath 0 (cbCount b * cbLen b) tok a l x b) := State.withBlock_reads hread _

theorem exec_escat_reads : exec (.escat a l x c tok) s =
    .next (if copyBlockBad b || indexBad b then t.illop else t.sendCopy .scat (cbCount b * cbLen b) 0 tok a l x b) := State.withBlock_reads hread _

theorem exec_eckpt_reads : exec (.eckpt a l x c tok) s = .next (if pagesBad b then t.illop else t.sendEngine .ckpt tok a l x b) :=
  State.withBlock_reads hread _

theorem exec_erolb_reads : exec (.erolb a l x c tok) s = .next (if pagesBad b then t.illop else t.sendEngine .rolb tok a l x b) :=
  State.withBlock_reads hread _

theorem exec_ehalo_reads (hsys : s.levelSys = true) :
    exec (.ehalo a l c tok) s = .next (if haloBad b then t.illop else t.sendEngine .halo tok a l .sys b) :=
  (if_neg (by simp [hsys])).trans (State.withBlock_reads hread _)

theorem exec_ered_reads (hsys : s.levelSys = true) :
    exec (.ered a l c tok) s = .next (if reduceBad b then t.illop else t.sendEngine .red tok a l .sys b) :=
  (if_neg (by simp [hsys])).trans (State.withBlock_reads hread _)

end Read

end Sys2Proof.Machine

namespace Sys2Proof
open Machine

/-- Settles O38: each command goes by its block and, where it copies, by its handles. -/
theorem engineForms : Obligations.EngineForms := by
  unfold Obligations.EngineForms
  intro s t c b a l x tok hread
  have hcopy := exec_ecopy_reads hread a l x tok
  have hgath := exec_egath_reads hread a l x tok
  have hscat := exec_escat_reads hread a l x tok
  refine ⟨fun hblock hcount hidx => ?_, fun hblock hindex => ?_, fun hpages => ⟨?_, ?_⟩, State.withBlock_reads hread _, State.withBlock_reads hread _,
    fun hbad => ?_, fun hbad => ?_, fun hbad => ⟨?_, ?_⟩, fun hsys hgood => ?_, fun hsys hbad => ?_, fun hsys hgood => ?_, fun hsys hbad => ?_,
    fun hsys => ⟨if_pos (by simp [hsys]), if_pos (by simp [hsys])⟩, fun kind y v => State.cur_defer_deferred v _⟩
  · rw [if_neg (by simp [hblock, hcount, hidx])] at hcopy
    exact ⟨fun h => hcopy.trans (congrArg _ (State.sendCopy_good _ _ _ _ _ h)), fun h => hcopy.trans (congrArg _ (State.sendCopy_bad _ _ _ _ _ h))⟩
  · rw [if_neg (by simp [hblock, hindex])] at hgath hscat
    exact ⟨fun h => hgath.trans (congrArg _ (State.sendCopy_good _ _ _ _ _ h)), fun h => hgath.trans (congrArg _ (State.sendCopy_bad _ _ _ _ _ h)),
      fun h => hscat.trans (congrArg _ (State.sendCopy_good _ _ _ _ _ h)), fun h => hscat.trans (congrArg _ (State.sendCopy_bad _ _ _ _ _ h))⟩
  · rw [exec_eckpt_reads hread, if_neg (by simp [hpages])]
  · rw [exec_erolb_reads hread, if_neg (by simp [hpages])]
  · exact hcopy.trans (congrArg _ (if_pos (by simpa [or_assoc] using hbad)))
  · have hillop : (copyBlockBad b || indexBad b) = true := by simpa using hbad
    exact ⟨hgath.trans (congrArg _ (if_pos hillop)), hscat.trans (congrArg _ (if_pos hillop))⟩
  · rw [exec_eckpt_reads hread, if_pos hbad]
  · rw [exec_erolb_reads hread, if_pos hbad]
  · rw [exec_ehalo_reads hread a l tok hsys, if_neg (by simp [hgood])]
  · rw [exec_ehalo_reads hread a l tok hsys, if_pos hbad]
  · rw [exec_ered_reads hread a l tok hsys, if_neg (by simp [hgood])]
  · rw [exec_ered_reads hread a l tok hsys, if_pos hbad]

end Sys2Proof
end

section
/-! SUPPORT. The end of an engine command (R227, R238, R239): what its late writes leave of the machine as they land, and the token that it completes. -/

namespace Sys2Proof.Machine

/-! ## What late writes leave as they land -/

/-- What no write at its home and no line that leaves an L1 changes: rings and streams, the engines, and each context's number and tokens. -/
structure State.KeepsEngines (s t : State) : Prop where
  sheaves : t.sheaves = s.sheaves
  engines : ∀ f, (t.field f).engines = (s.field f).engines
  ident : ∀ k j, (t.ctxAt k j).ident = (s.ctxAt k j).ident
  tokens : ∀ k j, (t.ctxAt k j).tokens = (s.ctxAt k j).tokens
  live : ∀ k ∈ s.liveCores, k ∈ t.liveCores

namespace State.KeepsEngines

theorem refl (s : State) : s.KeepsEngines s := ⟨rfl, fun _ => rfl, fun _ _ => rfl, fun _ _ => rfl, fun _ h => h⟩

theorem trans {s t u : State} (h : s.KeepsEngines t) (h' : t.KeepsEngines u) : s.KeepsEngines u where
  sheaves := h'.sheaves.trans h.sheaves
  engines f := (h'.engines f).trans (h.engines f)
  ident k j := (h'.ident k j).trans (h.ident k j)
  tokens k j := (h'.tokens k j).trans (h.tokens k j)
  live k hk := h'.live k (h.live k hk)

theorem foldl {α : Type} {step : State → α → State} (hstep : ∀ (u : State) (x : α), u.KeepsEngines (step u x)) :
    ∀ (xs : List α) (s : State), s.KeepsEngines (xs.foldl step s)
  | [], s => refl s
  | x :: xs, s => (hstep s x).trans (foldl hstep xs (step s x))

/-- A change of the stores of bytes, the stacks and the links alone. -/
theorem of_eq {s t : State} (hsheaves : t.sheaves = s.sheaves) (hfields : t.fields = s.fields) (hcores : t.cores = s.cores) :
    s.KeepsEngines t where
  sheaves := hsheaves
  engines f := by rw [State.field, State.field, hfields]
  ident k j := by rw [State.ctxAt, State.ctxAt, State.core_congr hcores]
  tokens k j := by rw [State.ctxAt, State.ctxAt, State.core_congr hcores]
  live k hk := by rwa [State.liveCores, hcores]

theorem setSealed {s t : State} (h : s.KeepsEngines t) (x : List Sealed) : s.KeepsEngines { t with sealed := x } := h.trans (of_eq rfl rfl rfl)

theorem modField (s : State) (n : Nat) {g : Field → Field} (hg : ∀ x, (g x).engines = x.engines) : s.KeepsEngines (s.modField n g) where
  sheaves := rfl
  engines f := by
    rw [State.field_modField]
    split
    · exact hg _
    · rfl
  ident _ _ := rfl
  tokens _ _ := rfl
  live _ hk := hk

theorem modCore (s : State) (n : Nat) {g : Core → Core} (hg : ∀ x, (g x).ctx = x.ctx) : s.KeepsEngines (s.modCore n g) where
  sheaves := rfl
  engines _ := rfl
  ident k j := by rw [State.ctxAt_modCore hg]
  tokens k j := by rw [State.ctxAt_modCore hg]
  live _ hk := State.mem_liveCores_setCore hk n _

theorem modCtx (s : State) (n : Nat) (i : Fin 4) {g : Context → Context} (hident : ∀ c, (g c).ident = c.ident) (htokens : ∀ c, (g c).tokens = c.tokens) :
    s.KeepsEngines (s.modCtx n i g) where
  sheaves := rfl
  engines _ := rfl
  ident k j := by
    rw [State.ctxAt_modCtx]
    split
    · exact hident _
    · rfl
  tokens k j := by
    rw [State.ctxAt_modCtx]
    split
    · exact htokens _
    · rfl
  live _ hk := State.mem_liveCores_setCore hk n _

/-! ### The home of memory -/

theorem passTag (s : State) (n : Nat) : s.KeepsEngines (s.passTag n) := by
  unfold State.passTag
  split
  · exact refl s
  · exact of_eq rfl rfl rfl

theorem meetLine (s : State) (t : Trans) (n : Nat) : s.KeepsEngines (s.meetLine t n) := by
  unfold State.meetLine
  dsimp only
  split
  · exact of_eq rfl rfl rfl
  · split
    · exact refl s
    · refine .trans ?_ (modField _ _ fun _ => rfl)
      exact (passTag s _).trans (of_eq rfl rfl rfl)

theorem meet (s : State) (t : Trans) : s.KeepsEngines (s.meet t) := by
  unfold State.meet
  split
  · exact meetLine s _ _
  · exact refl s

theorem homeWrite (s : State) (t : Trans) (n : Nat) (m : BitVec 64) (d : Line) : s.KeepsEngines (s.homeWrite t n m d) := by
  unfold State.homeWrite
  dsimp only
  split
  · exact of_eq rfl rfl rfl
  · split
    · exact refl s
    · refine .trans ?_ (modField _ _ fun _ => rfl)
      exact meetLine s t n

theorem writeHome (s : State) (t : Trans) (m : BitVec 64) (d : Line) : s.KeepsEngines (s.writeHome t m d) := by
  unfold State.writeHome
  dsimp only
  split
  · exact modCore s _ fun _ => rfl
  · split
    · exact refl s
    · split
      · exact homeWrite s t _ m d
      · split
        · exact homeWrite s t _ m d
        · refine modField s _ fun x => ?_
          unfold Field.granWrite
          rfl
        · exact refl s
        · exact of_eq rfl rfl rfl

/-! ### Lines that leave, errors that are told, and the writes of a command -/

theorem evict (s : State) (k : Nat) (x : CacheLine) : s.KeepsEngines (s.evict k x) := by
  unfold State.evict
  dsimp only
  split
  · exact modCore s k fun _ => rfl
  · refine .trans ?_ (homeWrite _ _ _ _ _)
    exact modCore s k fun _ => rfl

theorem evictLines (s : State) (h : Nat) (kid : BitVec 8) (n : Nat) : s.KeepsEngines (s.evictLines h kid n) := by
  refine foldl (fun u k => ?_) _ s
  split
  · exact evict u k _
  · exact refl u

theorem tell (s : State) (ident : Nat) (v : TrapVal) : s.KeepsEngines (s.tell ident v) := by
  unfold State.tell
  refine setSealed ?_ _
  refine foldl (fun u k => foldl (fun w j => ?_) _ u) _ s
  split
  · exact modCtx w k j (fun _ => rfl) fun _ => rfl
  · exact refl w

theorem landWrite (s : State) (k : Nat) (x : LateWrite) : s.KeepsEngines (s.landWrite k x) := by
  have hhome : s.KeepsEngines (if x.home then s else s.writeHome x.attr x.mask x.data) := by
    split
    · exact refl s
    · exact writeHome s _ _ _
  unfold State.landWrite
  split
  · split
    · exact refl s
    · exact tell s _ _
  · dsimp only
    split
    · refine hhome.trans ?_
      exact evictLines _ _ _ _
    · exact hhome

theorem landLateIf (s : State) (k : Nat) (p : LateWrite → Bool) : s.KeepsEngines (s.landLateIf k p) := by
  unfold State.landLateIf
  split
  · refine .trans ?_ (modCore _ k fun _ => rfl)
    exact foldl (fun u x => landWrite u k x) _ s
  · exact refl s

theorem landCommand (s : State) (ident : Nat) (tok : Fin 64) : s.KeepsEngines (s.landCommand ident tok) :=
  foldl (step := fun u k => u.landLateIf k _) (fun u k => landLateIf u k _) _ s

end State.KeepsEngines

/-! ## The token (R238) -/

/-- A fold over the slots of a core changes each of its slots that the list names, where a second change has no effect. -/
theorem foldl_slots {k n : Nat} {i : Fin 4} {f : Context → Context} (hf : ∀ c, f (f c) = f c) {step : State → Fin 4 → State}
    (hstep : ∀ s j, (step s j).ctxAt n i = if k = n ∧ j = i then f (s.ctxAt n i) else s.ctxAt n i) :
    ∀ (js : List (Fin 4)) (s : State), (js.foldl step s).ctxAt n i = if k = n ∧ i ∈ js then f (s.ctxAt n i) else s.ctxAt n i
  | [], s => by simp
  | j :: js, s => by
    rw [List.foldl_cons, foldl_slots hf hstep js, hstep]
    by_cases hk : k = n <;> by_cases hj : j = i
    · simp [hk, hj, hf]
    · simp [hk, hj, Ne.symm hj]
    · simp [hk]
    · simp [hk]

theorem doneToken_idem (ts : Vector Token 64) (tok : Fin 64) (st : Status) (v : TrapVal) :
    doneToken (doneToken ts tok st v) tok st v = doneToken ts tok st v := by
  by_cases h : ts[tok].state = .pending
  · have hset : doneToken ts tok st v = ts.set tok { ts[tok] with state := .done st v } := if_pos h
    rw [hset]
    exact if_neg (by simp)
  · have hsame : doneToken ts tok st v = ts := if_neg h
    rw [hsame, hsame]

theorem doneToken_state {ts : Vector Token 64} {tok : Fin 64} (st : Status) (v : TrapVal) (h : ts[tok].state = .pending) :
    (doneToken ts tok st v)[tok].state = .done st v := by
  rw [doneToken, if_pos h]
  simp

/-- A context whose token completes, where it is the one that issued the command. -/
def Context.tokenDone (c : Context) (ident : Nat) (tok : Fin 64) (st : Status) (v : TrapVal) : Context :=
  if c.ident = ident then { c with tokens := doneToken c.tokens tok st v } else c

theorem Context.tokenDone_idem (c : Context) (ident : Nat) (tok : Fin 64) (st : Status) (v : TrapVal) :
    (c.tokenDone ident tok st v).tokenDone ident tok st v = c.tokenDone ident tok st v := by
  by_cases h : c.ident = ident
  · have hdone : c.tokenDone ident tok st v = { c with tokens := doneToken c.tokens tok st v } := if_pos h
    rw [hdone]
    refine (if_pos h).trans ?_
    rw [doneToken_idem]
  · have hsame : c.tokenDone ident tok st v = c := if_neg h
    rw [hsame, hsame]

section Complete
variable (s : State) (ident : Nat) (tok : Fin 64) (st : Status) (v : TrapVal)

theorem State.completeToken_ctxAt (n : Nat) (i : Fin 4) :
    (s.completeToken ident tok st v).ctxAt n i = if n ∈ s.liveCores then (s.ctxAt n i).tokenDone ident tok st v else s.ctxAt n i := by
  have hidem := fun c : Context => c.tokenDone_idem ident tok st v
  refine foldl_cores (part := fun c : Core => c.ctx[i]) (f := fun c => c.tokenDone ident tok st v) hidem (fun u k n => ?_) s.liveCores _ n
  refine (foldl_slots (k := k) (f := fun c => c.tokenDone ident tok st v) hidem (fun w j => ?_) (List.finRange 4) u).trans ?_
  · unfold Context.tokenDone
    split
    next hident =>
      rw [State.ctxAt_modCtx]
      split
      next heq =>
        obtain ⟨rfl, rfl⟩ := heq
        rw [if_pos hident]
      next => rfl
    next hident =>
      split
      next heq =>
        obtain ⟨rfl, rfl⟩ := heq
        rw [if_neg hident]
      next => rfl
  · simp only [List.mem_finRange, and_true]
    rfl

/-- A fold of changes of context slots keeps what each of them keeps. -/
theorem State.completeToken_keeps {γ : Type} {g : State → γ} (hsealed : ∀ u x, g { u with sealed := x } = g u)
    (hctx : ∀ u k j x, g (u.modCtx k j x) = g u) : g (s.completeToken ident tok st v) = g s := by
  refine (foldl_keeps (g := g) (fun u k => foldl_keeps (g := g) (fun w j => ?_) _ u) _ _).trans (hsealed s _)
  split
  · exact hctx ..
  · rfl

@[simp] theorem State.completeToken_sheaves : (s.completeToken ident tok st v).sheaves = s.sheaves :=
  State.completeToken_keeps s ident tok st v (g := State.sheaves) (fun _ _ => rfl) fun _ _ _ _ => rfl

@[simp] theorem State.completeToken_fields : (s.completeToken ident tok st v).fields = s.fields :=
  State.completeToken_keeps s ident tok st v (g := State.fields) (fun _ _ => rfl) fun _ _ _ _ => rfl

end Complete

section EndCommand
variable (s : State) (ident : Nat) (c : EngineCmd) (st : Status) (v : TrapVal)

/-- The machine with a command's writes landed, where it has L. -/
theorem State.endCommand_lands : ∃ t, s.KeepsEngines t ∧ s.endCommand ident c st v = t.completeToken ident c.tok st v := by
  refine ⟨if c.l then s.landCommand ident c.tok else s, ?_, rfl⟩
  split
  · exact .landCommand s ident c.tok
  · exact .refl s

theorem State.endCommand_sheaves : (s.endCommand ident c st v).sheaves = s.sheaves := by
  obtain ⟨t, ht, he⟩ := s.endCommand_lands ident c st v
  rw [he, State.completeToken_sheaves, ht.sheaves]

theorem State.endCommand_engines (f : Nat) : ((s.endCommand ident c st v).field f).engines = (s.field f).engines := by
  obtain ⟨t, ht, he⟩ := s.endCommand_lands ident c st v
  rw [he, State.field, State.completeToken_fields, ← State.field, ht.engines]

/-- The end of a command sets its PENDING token DONE. -/
theorem State.endCommand_token {k : Nat} {j : Fin 4} (hk : k ∈ s.liveCores) (hident : (s.ctxAt k j).ident = ident)
    (hpending : (s.ctxAt k j).tokens[c.tok].state = .pending) : ((s.endCommand ident c st v).ctxAt k j).tokens[c.tok].state = .done st v := by
  obtain ⟨t, ht, he⟩ := s.endCommand_lands ident c st v
  rw [he, State.completeToken_ctxAt, if_pos (ht.live k hk), Context.tokenDone, if_pos ((ht.ident k j).trans hident)]
  exact doneToken_state st v (by rw [ht.tokens k j]; exact hpending)

end EndCommand

end Sys2Proof.Machine
end

section
/-! SUPPORT. Engine runs (R257, R260, R262, R263, R399): the run of a field, the chunks of a copy, gather or scatter, the pages of an eckpt or erolb, and
the end of a run. -/

namespace Sys2Proof.Machine

/-! ## The run of a field -/

theorem State.engineRun_id {s : State} {f id : Nat} {r : EngineRun} (h : s.engineRun f id = some r) : r.id = id := by
  simpa using List.find?_some h

theorem State.engineRun_congr {s t : State} {f : Nat} (h : (t.field f).engines = (s.field f).engines) (id : Nat) : t.engineRun f id = s.engineRun f id := by
  rw [engineRun, engineRun, h]

/-- A run after a change of it that keeps the numbers of runs. -/
theorem State.engineRun_modEngine {s : State} {f id : Nat} {r : EngineRun} (hrun : s.engineRun f id = some r) {g : EngineRun → EngineRun}
    (hg : ∀ x, (g x).id = x.id) : (s.modEngine f id g).engineRun f id = some (g r) := by
  have hid : ((fun x : EngineRun => x.id == id) ∘ fun x => if x.id = id then g x else x) = fun x => x.id == id := by
    funext x
    by_cases h : x.id = id
    · simp [h, hg]
    · simp [h]
  have hfind : (s.field f).engines.find? (fun x => x.id == id) = some r := hrun
  rw [engineRun, modEngine, State.field_modField_self, List.find?_map, hid, hfind]
  exact congrArg some (if_pos (State.engineRun_id hrun))

@[simp] theorem State.modEngine_core (s : State) (f id : Nat) (g : EngineRun → EngineRun) (k : Nat) : (s.modEngine f id g).core k = s.core k := rfl

/-- ENGINE_CHUNK moves a command that has not stopped: a copy, gather or scatter by a chunk, an eckpt or erolb by a page, and an exchange to its peers. -/
theorem exec_engineChunk_live {s : State} {f id : Nat} {r : EngineRun} (hrun : s.engineRun f id = some r) (hlive : r.status = none) :
    (r.cmd.kind = .copy ∨ r.cmd.kind = .gath ∨ r.cmd.kind = .scat → exec (.engineChunk f id) s = .next (s.copyChunk f r)) ∧
    (r.cmd.kind = .ckpt ∨ r.cmd.kind = .rolb → exec (.engineChunk f id) s = .next (s.pageChunk f r)) ∧
    (r.cmd.kind = .halo ∨ r.cmd.kind = .red → exec (.engineChunk f id) s = .next (s.postExchange f r)) := by
  rw [exec_engineChunk, execEngineChunk, hrun]
  dsimp only
  rw [hlive]
  refine ⟨?_, ?_, ?_⟩
  · rintro (h | h | h) <;> rw [h] <;> rfl
  · rintro (h | h) <;> rw [h] <;> rfl
  · rintro (h | h) <;> rw [h] <;> rfl

/-! ## The start of a chunk (R257, R262, R263) -/

/-- The offsets of an element's source and destination within their operands, n bytes an element: a gather and a scatter find one of them at their
index. -/
def State.elementOffsets (s : State) (c : EngineCmd) (i n : Nat) : Except (Cause × Nat) (Nat × Nat) :=
  match c.kind with
  | .gath => (s.indexOf c i).map fun x => (x * n, i * n)
  | .scat => (s.indexOf c i).map fun x => (i * n, x * n)
  | _ => .ok (0, 0)

theorem State.elementOffsets_error {s : State} {c : EngineCmd} {i : Nat} {e : Cause × Nat} (hkind : c.kind = .gath ∨ c.kind = .scat)
    (h : s.indexOf c i = .error e) (n : Nat) : s.elementOffsets c i n = .error e := by
  unfold elementOffsets
  rcases hkind with hk | hk <;> rw [hk, h] <;> rfl

/-- The offsets that a kind of command gives its elements. -/
def State.OffsetsAre (s : State) (c : EngineCmd) (i n so d : Nat) : Prop :=
  (c.kind = .copy ∧ so = 0 ∧ d = 0) ∨ (c.kind = .gath ∧ ∃ x, s.indexOf c i = .ok x ∧ so = x * n ∧ d = i * n) ∨
    (c.kind = .scat ∧ ∃ x, s.indexOf c i = .ok x ∧ so = i * n ∧ d = x * n)

theorem State.elementOffsets_ok {s : State} {c : EngineCmd} {i n so d : Nat} (h : s.OffsetsAre c i n so d) : s.elementOffsets c i n = .ok (so, d) := by
  unfold elementOffsets
  obtain ⟨hk, rfl, rfl⟩ | ⟨hk, x, hx, rfl, rfl⟩ | ⟨hk, x, hx, rfl, rfl⟩ := h
  · rw [hk]
  · rw [hk, hx]
    rfl
  · rw [hk, hx]
    rfl

/-- The checks of a chunk that starts: the granules of its source, the pages that a DUP member writes, and the places of its writes. -/
def State.openChunk (s : State) (c : EngineCmd) (to_ from_ m : Nat) : Except (Cause × Nat) (State × EngineChunk) := do
  let srcs ← s.vaSources c.who from_ m
  let s ← s.noteWrites c to_ m
  let (s, ws) ← s.vaPlaces c.who to_ (List.replicate m 0)
  return (s, ⟨srcs, List.replicate m 0, ws, [to_ / 4096, from_ / 4096, (from_ + m - 1) / 4096], c.kid⟩)

section Open
variable {s v t : State} {c : EngineCmd} {to_ from_ m : Nat} {srcs : List (Nat × Trans × Nat × Nat)} {ws : List LateWrite} {e : Cause × Nat}

theorem State.openChunk_source_error (h : s.vaSources c.who from_ m = .error e) : s.openChunk c to_ from_ m = .error e := by
  rw [openChunk, h]
  rfl

section Sources
variable (hsrcs : s.vaSources c.who from_ m = .ok srcs)
include hsrcs

theorem State.openChunk_note_error (h : s.noteWrites c to_ m = .error e) : s.openChunk c to_ from_ m = .error e := by
  rw [openChunk, hsrcs, h]
  rfl

theorem State.openChunk_place_error (hnote : s.noteWrites c to_ m = .ok v) (h : v.vaPlaces c.who to_ (List.replicate m 0) = .error e) :
    s.openChunk c to_ from_ m = .error e := by
  simp only [openChunk, hsrcs, hnote, h, bind, Except.bind]

theorem State.openChunk_ok (hnote : s.noteWrites c to_ m = .ok v) (h : v.vaPlaces c.who to_ (List.replicate m 0) = .ok (t, ws)) :
    s.openChunk c to_ from_ m = .ok (t, ⟨srcs, List.replicate m 0, ws, [to_ / 4096, from_ / 4096, (from_ + m - 1) / 4096], c.kid⟩) := by
  simp only [openChunk, hsrcs, hnote, h, bind, Except.bind]
  rfl

end Sources
end Open

/-- The chunk of an element whose source and destination stand at offsets of their operands. -/
def State.startElement (s : State) (f : Nat) (r : EngineRun) (src dst : Nat × Option Nat) (so d : Nat) : State :=
  let n := cbLen r.cmd.block
  let off := r.done % n
  let from_ := ((operandAt src so n).1 + off) % 2 ^ 64
  let to_ := ((operandAt dst d n).1 + off) % 2 ^ 64
  let m := min (n - off) (4096 - to_ % 4096)
  let u := s.meetChunk r.cmd (r.done / n) from_
  if !(operandAt src so n).2 then s.stopEngine f r.id .fault (s.engineFault (cPPROT, (operandAt src so n).1))
  else if !(operandAt dst d n).2 then s.stopEngine f r.id .fault (s.engineFault (cPPROT, (operandAt dst d n).1))
  else
    match s.copyHeld r.cmd.who to_ m with
    | some e => s.dropGuest e.covers
    | none =>
      match u.openChunk r.cmd to_ from_ m with
      | .error e => u.stopEngine f r.id .fault (u.engineFault e)
      | .ok (v, x) => v.modEngine f r.id fun r => { r with part := some x }

theorem State.startChunk_eq (s : State) (f : Nat) (r : EngineRun) : s.startChunk f r =
    match s.operand r.cmd.kid (cbSrc r.cmd.block) (cbSh r.cmd.block), s.operand r.cmd.kid (cbDst r.cmd.block) (cbDh r.cmd.block) with
    | some src, some dst =>
      match s.elementOffsets r.cmd (r.done / cbLen r.cmd.block) (cbLen r.cmd.block) with
      | .error e => s.stopEngine f r.id .fault (s.engineFault e)
      | .ok (so, d) => s.startElement f r src dst so d
    | _, _ => s.stopEngine f r.id .stale ⟨cHANDLE, 0⟩ := rfl

section Start
variable {s : State} (f : Nat) {r : EngineRun}

/-- A handle that has been freed stops the command with STALE. -/
theorem State.startChunk_stale (h : s.operand r.cmd.kid (cbSrc r.cmd.block) (cbSh r.cmd.block) = none ∨
    s.operand r.cmd.kid (cbDst r.cmd.block) (cbDh r.cmd.block) = none) : s.startChunk f r = s.stopEngine f r.id .stale ⟨cHANDLE, 0⟩ := by
  rw [State.startChunk_eq]
  split
  next src dst hsrc hdst => exact absurd h (by simp [hsrc, hdst])
  next => rfl

section Operands
variable {src dst : Nat × Option Nat} (hsrc : s.operand r.cmd.kid (cbSrc r.cmd.block) (cbSh r.cmd.block) = some src)
  (hdst : s.operand r.cmd.kid (cbDst r.cmd.block) (cbDh r.cmd.block) = some dst)
include hsrc hdst

theorem State.startChunk_index_fault {e : Cause × Nat} (hkind : r.cmd.kind = .gath ∨ r.cmd.kind = .scat)
    (h : s.indexOf r.cmd (r.done / cbLen r.cmd.block) = .error e) : s.startChunk f r = s.stopEngine f r.id .fault (s.engineFault e) := by
  rw [State.startChunk_eq, hsrc, hdst, State.elementOffsets_error hkind h]

theorem State.startChunk_element {so d : Nat} (h : s.OffsetsAre r.cmd (r.done / cbLen r.cmd.block) (cbLen r.cmd.block) so d) :
    s.startChunk f r = s.startElement f r src dst so d := by
  rw [State.startChunk_eq, hsrc, hdst, State.elementOffsets_ok h]

end Operands

section Element
variable {src dst : Nat × Option Nat} {so d : Nat}

theorem State.startElement_source_outside (h : (operandAt src so (cbLen r.cmd.block)).2 = false) : s.startElement f r src dst so d =
    s.stopEngine f r.id .fault (s.engineFault (cPPROT, (operandAt src so (cbLen r.cmd.block)).1)) := if_pos (by rw [h]; rfl)

variable (hs : (operandAt src so (cbLen r.cmd.block)).2 = true)
include hs

theorem State.startElement_destination_outside (h : (operandAt dst d (cbLen r.cmd.block)).2 = false) : s.startElement f r src dst so d =
    s.stopEngine f r.id .fault (s.engineFault (cPPROT, (operandAt dst d (cbLen r.cmd.block)).1)) :=
  (if_neg (by rw [hs]; decide)).trans (if_pos (by rw [h]; rfl))

variable (hd : (operandAt dst d (cbLen r.cmd.block)).2 = true) {from_ to_ m : Nat}
  (hto : to_ = ((operandAt dst d (cbLen r.cmd.block)).1 + r.done % cbLen r.cmd.block) % 2 ^ 64)
  (hm : m = min (cbLen r.cmd.block - r.done % cbLen r.cmd.block) (4096 - to_ % 4096))
include hd hto hm

theorem State.startElement_held {e : TlbEntry} (h : s.copyHeld r.cmd.who to_ m = some e) : s.startElement f r src dst so d = s.dropGuest e.covers := by
  subst hm hto
  unfold startElement
  dsimp only
  rw [hs, hd, h]
  rfl

variable (hfree : s.copyHeld r.cmd.who to_ m = none)
  (hfrom : from_ = ((operandAt src so (cbLen r.cmd.block)).1 + r.done % cbLen r.cmd.block) % 2 ^ 64)
include hfree hfrom

theorem State.startElement_fault {e : Cause × Nat} (h : (s.meetChunk r.cmd (r.done / cbLen r.cmd.block) from_).openChunk r.cmd to_ from_ m = .error e) :
    s.startElement f r src dst so d = (s.meetChunk r.cmd (r.done / cbLen r.cmd.block) from_).stopEngine f r.id .fault
      ((s.meetChunk r.cmd (r.done / cbLen r.cmd.block) from_).engineFault e) := by
  subst hm hto hfrom
  unfold startElement
  dsimp only
  rw [hs, hd, hfree, h]
  rfl

theorem State.startElement_starts {v : State} {x : EngineChunk}
    (h : (s.meetChunk r.cmd (r.done / cbLen r.cmd.block) from_).openChunk r.cmd to_ from_ m = .ok (v, x)) :
    s.startElement f r src dst so d = v.modEngine f r.id fun r => { r with part := some x } := by
  subst hm hto hfrom
  unfold startElement
  dsimp only
  rw [hs, hd, hfree, h]
  rfl

end Element
end Start

/-! ## A chunk in motion (R227, R239, R262) -/

/-- Granules that a run picks out of those of a chunk, and those left. -/
theorem pick_perm {α : Type} (xs : List α) (i n : Nat) :
    ((xs.drop i).take n ++ (xs.take i ++ (xs.drop i).drop n)).Perm xs := by
  calc ((xs.drop i).take n ++ (xs.take i ++ (xs.drop i).drop n)).Perm (xs.take i ++ ((xs.drop i).take n ++ (xs.drop i).drop n)) :=
        List.perm_append_comm_assoc ..
    _ = xs := by rw [List.take_append_drop, List.take_append_drop]

theorem pick_ne_nil {α : Type} {xs : List α} (h : xs ≠ []) (i n : Nat) : (xs.drop (i % xs.length)).take (n + 1) ≠ [] := by
  have hlt : i % xs.length < xs.length := Nat.mod_lt _ (List.length_pos_iff.mpr h)
  intro hnil
  have hlen := congrArg List.length hnil
  simp only [List.length_take, List.length_drop, List.length_nil] at hlen
  omega

section Move
variable (s : State) (f : Nat) (r : EngineRun) (x : EngineChunk)

/-- The granules of a chunk that this move reads, and those that it leaves. -/
def State.pickedGrains : List (Nat × Trans × Nat × Nat) :=
  (x.left.drop ((Config.pickPair s.draws 0).1 % x.left.length)).take ((Config.pickPair s.draws 0).2 + 1)

def State.leftGrains : List (Nat × Trans × Nat × Nat) :=
  x.left.take ((Config.pickPair s.draws 0).1 % x.left.length) ++
    (x.left.drop ((Config.pickPair s.draws 0).1 % x.left.length)).drop ((Config.pickPair s.draws 0).2 + 1)

/-- The machine once a move has read its granules. -/
def State.readsGrains : State :=
  (s.pickedGrains x).foldl (fun s y => if y.1 = 0 ∨ y.2.1.addr % 64 = 0 then s.meet y.2.1 else s) s.drawn

theorem State.readsGrains_cores : (s.readsGrains x).cores = s.cores := by
  refine (foldl_keeps (g := State.cores) (fun u y => ?_) _ s.drawn).trans rfl
  split
  · exact u.meet_cores _
  · rfl

theorem State.readsGrains_keeps : s.KeepsEngines (s.readsGrains x) := by
  refine .trans (t := s.drawn) (.of_eq rfl rfl rfl) (.foldl (fun u y => ?_) _ s.drawn)
  split
  · exact .meet u _
  · exact .refl u

variable {s x}

theorem State.moveChunk_fault {e : Cause × Nat} (h : s.readGrains (s.pickedGrains x) x.bytes = .error e) :
    s.moveChunk f r x = s.stopEngine f r.id .fault (s.engineFault e) := by
  unfold pickedGrains at h
  unfold moveChunk
  dsimp only
  rw [h]

variable {bs : List Byte} (h : s.readGrains (s.pickedGrains x) x.bytes = .ok bs)
include h

theorem State.moveChunk_goes_on (hleft : s.leftGrains x ≠ []) :
    s.moveChunk f r x = (s.readsGrains x).modEngine f r.id fun r => { r with part := some { x with left := s.leftGrains x, bytes := bs } } := by
  unfold pickedGrains at h
  unfold moveChunk
  dsimp only
  rw [h]
  exact if_neg fun hnil => hleft (List.isEmpty_iff.mp hnil)

theorem State.moveChunk_ends (hleft : s.leftGrains x = []) :
    s.moveChunk f r x = ((s.readsGrains x).sendWrites r.core r.ident r.cmd.tok (fillWrites x.writes bs)).modEngine f r.id fun q =>
      { q with done := r.done + bs.length, part := none,
               status := if r.done + bs.length = r.cmd.elements * cbLen r.cmd.block then some (.ok, ⟨0, 0⟩) else none } := by
  unfold pickedGrains at h
  unfold moveChunk
  dsimp only
  rw [h]
  exact if_pos (List.isEmpty_iff.mpr hleft)

end Move

/-! ## Pages of an eckpt or erolb (R260, R262) -/

/-- A page of the command is done. -/
def State.passPage (s : State) (f : Nat) (r : EngineRun) : State :=
  s.modEngine f r.id fun x => { x with done := x.done + 4096, status := if x.done + 4096 = cbLen r.cmd.block then some (.ok, ⟨0, 0⟩) else none }

section Pages
variable {s : State} (f : Nat) {r : EngineRun} {va : Nat} (hva : va = ((cbSrc r.cmd.block).toNat + r.done) % 2 ^ 64)
include hva

theorem State.pageChunk_fault {x : Cause} (h : s.translate r.cmd.who .read va = .fault x) :
    s.pageChunk f r = s.stopEngine f r.id .fault (s.engineFault (x, va)) := by
  subst hva
  rw [pageChunk, h]

variable {pa : Trans} {e : TlbEntry} (htrans : s.translate r.cmd.who .read va = .ok pa e)
include htrans

theorem State.pageChunk_unprotected (h : ptePr e.leaf < 2) : s.pageChunk f r = s.stopEngine f r.id .fault (s.engineFault (cPPROT, va)) := by
  subst hva
  rw [pageChunk, htrans]
  exact if_pos h

theorem State.pageChunk_clean (h : 2 < ptePr e.leaf) : s.pageChunk f r = s.passPage f r := by
  subst hva
  rw [pageChunk, htrans]
  dsimp only
  have hne : ptePr e.leaf ≠ 2 := by omega
  rw [if_neg (by omega), if_neg fun hh => hne hh.1, if_neg fun hh => hne hh.1, if_neg hne]
  rfl

section Dirty
variable (hpr : ptePr e.leaf = 2)
include hpr

theorem State.pageChunk_guest (h : s.guestHolds e.covers = true) : s.pageChunk f r = s.dropGuest e.covers := by
  subst hva
  rw [pageChunk, htrans]
  exact (if_neg (by omega)).trans (if_pos ⟨hpr, h⟩)

variable (hguest : s.guestHolds e.covers = false)
include hguest

theorem State.pageChunk_waits (h : s.dropDone e.kid e.covers = false) : s.pageChunk f r = s := by
  subst hva
  rw [pageChunk, htrans]
  exact (if_neg (by omega)).trans ((if_neg (by simp [hguest])).trans (if_pos ⟨hpr, by rw [h]; rfl⟩))

/-- A DIRTY page whose translations are gone is committed by an eckpt, and taken back by an erolb. -/
theorem State.pageChunk_dirty (h : s.dropDone e.kid e.covers = true) : s.pageChunk f r =
    (let u := (s.dropPage e).performAll
     if r.cmd.kind = .ckpt then u.ckptClean e else u.ckptBack e).passPage f r := by
  subst hva
  rw [pageChunk, htrans]
  dsimp only
  rw [if_neg (by omega), if_neg (by simp [hguest]), if_neg (by simp [h]), if_pos hpr]
  rfl

end Dirty
end Pages

/-! ## Exchanges that go out, and the end of a run (R238, R389, R398, R399) -/

/-- A round of one package goes out to no one. -/
theorem State.postExchange_alone {s : State} (f : Nat) {r : EngineRun} (hposted : r.posted = false) (h : r.alone = true) :
    s.postExchange f r = s.modEngine f r.id fun x => { x with posted := true } := by
  rw [postExchange, hposted, h]
  rfl

theorem State.postExchange_sends {s : State} (f : Nat) {r : EngineRun} (hposted : r.posted = false) (h : r.alone = false) :
    s.postExchange f r = (s.sendPacket r.dest r.cls (some r.id) []).modEngine f r.id fun x => { x with posted := true } := by
  rw [postExchange, hposted, h]
  rfl

theorem EngineRun.alone_of {r : EngineRun} (hkind : r.cmd.kind = .red) (h : r.npkg = 1) : r.alone = true := by simp [alone, hkind, h]

theorem EngineRun.not_alone_of {r : EngineRun} (h : r.cmd.kind = .halo ∨ r.npkg ≠ 1) : r.alone = false := by
  rcases h with h | h <;> simp [alone, h]

/-- A run leaves its engine, and its command ends. -/
def State.endEngine (s : State) (f : Nat) (r : EngineRun) (st : Status) (v : TrapVal) : State :=
  (s.modField f fun fd => { fd with engines := fd.engines.filter fun x => !(x.id == r.id) }).endCommand r.ident r.cmd st v

section EndEngine
variable (s : State) (f : Nat) (r : EngineRun) (st : Status) (v : TrapVal)

theorem State.endEngine_engines : ((s.endEngine f r st v).field f).engines = (s.field f).engines.filter fun x => !(x.id == r.id) := by
  rw [endEngine, State.endCommand_engines, State.field_modField_self]

theorem State.endEngine_token {k : Nat} {j : Fin 4} (hk : k ∈ s.liveCores) (hident : (s.ctxAt k j).ident = r.ident)
    (hpending : (s.ctxAt k j).tokens[r.cmd.tok].state = .pending) : ((s.endEngine f r st v).ctxAt k j).tokens[r.cmd.tok].state = .done st v :=
  State.endCommand_token (s.modField f _) r.ident r.cmd st v hk hident hpending

end EndEngine

section TokenComplete
variable {s : State} {f id : Nat} {r : EngineRun} (hrun : s.engineRun f id = some r)
include hrun

/-- A command that has stopped with OK waits for its SRC to be delivered. -/
theorem exec_engineTokenComplete_unsent {v : TrapVal} (hstatus : r.status = some (.ok, v)) (hunsent : s.unsent id = true) :
    exec (.engineTokenComplete f id) s = .next s := by
  rw [exec_engineTokenComplete, execEngineTokenComplete, hrun]
  dsimp only
  rw [hstatus]
  exact if_pos ⟨rfl, hunsent⟩

theorem exec_engineTokenComplete_ends {st : Status} {v : TrapVal} (hstatus : r.status = some (st, v)) (hsent : st = .ok → s.unsent id = false) :
    exec (.engineTokenComplete f id) s = .next (s.endEngine f r st v) := by
  rw [exec_engineTokenComplete, execEngineTokenComplete, hrun, State.endEngine, State.engineRun_id hrun]
  dsimp only
  rw [hstatus]
  exact if_neg fun h => Bool.noConfusion ((hsent h.1).symm.trans h.2)

/-- An exchange that has found no match in its time ends LOST. -/
theorem exec_engineTokenComplete_expires (hstatus : r.status = none) (hkind : r.cmd.kind = .halo ∨ r.cmd.kind = .red) (hmatched : r.matched = false)
    (halone : r.alone = false) (hsent : r.sent + 2 ^ 32 ≤ s.now) :
    exec (.engineTokenComplete f id) s = .next (s.endEngine f r .lost r.cmd.lostTrap) := by
  rw [exec_engineTokenComplete, execEngineTokenComplete, hrun, State.endEngine, State.engineRun_id hrun]
  dsimp only
  rw [hstatus]
  exact if_pos ⟨hkind, by rw [hmatched]; rfl, by rw [EngineRun.expired, halone]; simpa using hsent⟩

end TokenComplete

/-! ## What the events of a run leave -/

section Events
variable {s : State} {f id : Nat} {r : EngineRun} (hrun : s.engineRun f id = some r)
include hrun

/-- A move of a chunk reads some of its granules: it stops the command where one faults, and else goes on, or sends the chunk's writes. -/
theorem exec_engineChunk_moves {x : EngineChunk} (hlive : r.status = none) (hkind : r.cmd.kind = .copy ∨ r.cmd.kind = .gath ∨ r.cmd.kind = .scat)
    (hpart : r.part = some x) : ∃ xs left, (xs ++ left).Perm x.left ∧ (x.left ≠ [] → xs ≠ []) ∧
      (∀ e, s.readGrains xs x.bytes = .error e → exec (.engineChunk f id) s = .next (s.stopEngine f r.id .fault (s.engineFault e))) ∧
      (∀ bs, s.readGrains xs x.bytes = .ok bs → Goes s (.engineChunk f id) fun t =>
        (left ≠ [] → t.engineRun f id = some { r with part := some { x with left := left, bytes := bs } } ∧ (t.core r.core).late = (s.core r.core).late) ∧
        (left = [] →
          t.engineRun f id = some { r with done := r.done + bs.length, part := none,
                                           status := if r.done + bs.length = r.cmd.elements * cbLen r.cmd.block then some (.ok, ⟨0, 0⟩) else none } ∧
          (t.core r.core).late = (s.core r.core).late ++ (fillWrites x.writes bs).map fun w => { w with ident := r.ident, tok := r.cmd.tok })) := by
  have hexec : exec (.engineChunk f id) s = .next (s.moveChunk f r x) :=
    ((exec_engineChunk_live hrun hlive).1 hkind).trans (by rw [State.copyChunk, hpart])
  obtain rfl := State.engineRun_id hrun
  have hreads : (s.readsGrains x).engineRun f r.id = some r := (State.engineRun_congr ((s.readsGrains_keeps x).engines f) r.id).trans hrun
  have hcore : (s.readsGrains x).core r.core = s.core r.core := State.core_congr (s.readsGrains_cores x) _
  refine ⟨s.pickedGrains x, s.leftGrains x, pick_perm .., fun hne => pick_ne_nil hne _ _,
    fun e he => hexec.trans (congrArg _ (State.moveChunk_fault f r he)), fun bs hbs => .intro hexec ⟨fun hleft => ?_, fun hleft => ?_⟩⟩
  · rw [State.moveChunk_goes_on f r hbs hleft]
    exact ⟨State.engineRun_modEngine hreads fun _ => rfl, by rw [State.modEngine_core, hcore]⟩
  · rw [State.moveChunk_ends f r hbs hleft]
    have hsent : ((s.readsGrains x).sendWrites r.core r.ident r.cmd.tok (fillWrites x.writes bs)).engineRun f r.id = some r := hreads
    refine ⟨State.engineRun_modEngine hsent fun _ => rfl, ?_⟩
    rw [State.modEngine_core, State.sendWrites, State.core_modCore_self, hcore]

/-- A run that has a status, or an exchange whose time is over, leaves its engine and its token is DONE. -/
theorem exec_engineTokenComplete_done {v : Status × TrapVal} (h : (r.status = some v ∧ (v.1 = .ok → s.unsent id = false)) ∨
      (r.status = none ∧ (r.cmd.kind = .halo ∨ r.cmd.kind = .red) ∧ r.matched = false ∧ r.alone = false ∧ r.sent + 2 ^ 32 ≤ s.now ∧
        v = (.lost, r.cmd.lostTrap))) :
    Goes s (.engineTokenComplete f id) fun t => (t.field f).engines = (s.field f).engines.filter (fun x => !(x.id == id)) ∧
      ∀ (k : Nat) (j : Fin 4), k ∈ s.liveCores → (s.ctxAt k j).ident = r.ident → (s.ctxAt k j).tokens[r.cmd.tok].state = .pending →
        (t.ctxAt k j).tokens[r.cmd.tok].state = .done v.1 v.2 := by
  have hexec : exec (.engineTokenComplete f id) s = .next (s.endEngine f r v.1 v.2) := by
    obtain ⟨hstatus, hsent⟩ | ⟨hstatus, hkind, hmatched, halone, hsent, rfl⟩ := h
    · exact exec_engineTokenComplete_ends hrun hstatus hsent
    · exact exec_engineTokenComplete_expires hrun hstatus hkind hmatched halone hsent
  refine .intro hexec ⟨?_, fun k j hk hident hpending => s.endEngine_token f r v.1 v.2 hk hident hpending⟩
  rw [State.endEngine_engines, State.engineRun_id hrun]

end Events

end Sys2Proof.Machine
end

section
/-! SUPPORT. Exchanges with other packages (R397 to R399): the oldest one of its kind, a halo exchange, and a round of a reduction. -/

namespace Sys2Proof.Machine

/-- An exchange is found by its number and its kind. -/
theorem State.oldestExchange_some {s : State} {kind : CmdKind} {id f : Nat} {r : EngineRun} (h : s.oldestExchange kind id = some (f, r)) :
    r.id = id ∧ r.cmd.kind = kind := by
  unfold oldestExchange at h
  split at h
  · cases h
  next x hx =>
    split at h
    · cases h
    · cases h
      have hfind := List.find?_some hx
      simp only [Bool.and_eq_true, beq_iff_eq] at hfind
      exact ⟨hfind.1.1.1.1.1, hfind.1.1.1.1.2⟩

/-- A run that has found its match. -/
def State.matchRun (s : State) (f id : Nat) : State := s.modEngine f id fun x => { x with matched := true }

/-- An exchange whose rows have been written as far as they could be ends: FAULT where a row was refused, OK where all of them arrived. -/
def State.endExchange (t : State) (f id : Nat) (refused : Option (Cause × Nat)) (whole : Prop) [Decidable whole] (lost : TrapVal) :
    State :=
  match refused with
  | some e => t.stopEngine f id .fault (t.engineFault e)
  | none => if whole then t.stopEngine f id .ok ⟨0, 0⟩ else t.stopEngine f id .lost lost

/-- The end of an exchange by what refused its rows and whether they all arrived. -/
theorem State.endExchange_cases (t : State) (f id : Nat) (x : Option (Cause × Nat)) (whole : Prop) [Decidable whole] (lost : TrapVal) :
    (∀ e, x = some e → t.endExchange f id x whole lost = t.stopEngine f id .fault (t.engineFault e)) ∧
    (x = none → whole → t.endExchange f id x whole lost = t.stopEngine f id .ok ⟨0, 0⟩) ∧
    (x = none → ¬ whole → t.endExchange f id x whole lost = t.stopEngine f id .lost lost) := by
  refine ⟨fun e he => ?_, fun hx hw => ?_, fun hx hw => ?_⟩ <;> subst x
  · rfl
  · exact if_pos hw
  · exact if_neg hw

/-! ## Halo exchanges (R397) -/

section Halo
variable {s : State} {f id : Nat} {r : EngineRun} (hex : s.oldestExchange .halo id = some (f, r)) {cnt len : Nat} {rows : List Byte} {delivered : Bool}
include hex

theorem exec_haloMatch_down (h : s.routeUp r.dest r.cls = false) : exec (.haloMatch id cnt len rows delivered) s = .next s := by
  rw [exec_haloMatch, execHaloMatch, hex]
  exact if_pos (by rw [h]; rfl)

variable (hup : s.routeUp r.dest r.cls = true)
include hup

theorem exec_haloMatch_held {e : TlbEntry}
    (h : s.rowsHeld r.cmd (gbDst r.cmd.block) (hbDstr r.cmd.block) (hbLen r.cmd.block) (hbCount r.cmd.block) = some e) :
    exec (.haloMatch id cnt len rows delivered) s = .next (s.dropGuest e.covers) := by
  rw [exec_haloMatch, execHaloMatch, hex]
  dsimp only
  rw [hup, h]
  rfl

variable (hfree : s.rowsHeld r.cmd (gbDst r.cmd.block) (hbDstr r.cmd.block) (hbLen r.cmd.block) (hbCount r.cmd.block) = none)
include hfree

theorem exec_haloMatch_bad (h : cnt ≠ hbCount r.cmd.block ∨ len ≠ hbLen r.cmd.block) :
    exec (.haloMatch id cnt len rows delivered) s = .next ((s.matchRun f id).stopEngine f id .bad ⟨cILLOP, 0⟩) := by
  rw [exec_haloMatch, execHaloMatch, hex]
  dsimp only
  rw [hup, hfree]
  exact if_pos h

variable (hcnt : cnt = hbCount r.cmd.block) (hlen : len = hbLen r.cmd.block)
include hcnt hlen

theorem exec_haloMatch_unreadable {e : Cause × Nat} (h : (s.matchRun f id).readRows r.cmd (gbSrc r.cmd.block) (hbSstr r.cmd.block)
      (hbLen r.cmd.block) (hbCount r.cmd.block) = .error e) : exec (.haloMatch id cnt len rows delivered) s =
    .next ((s.matchRun f id).stopEngine f id .fault ((s.matchRun f id).engineFault e)) := by
  unfold State.matchRun at h
  rw [exec_haloMatch, execHaloMatch, hex]
  dsimp only
  rw [hup, hfree]
  dsimp only
  rw [if_neg (by decide), if_neg (by simp [hcnt, hlen]), h]
  rfl

/-- A halo exchange of the peer's sizes writes the peer's rows. -/
theorem exec_haloMatch_writes {own : List Byte} {t : State} {x : Option (Cause × Nat)}
    (hread : (s.matchRun f id).readRows r.cmd (gbSrc r.cmd.block) (hbSstr r.cmd.block) (hbLen r.cmd.block) (hbCount r.cmd.block) = .ok own)
    (hwrite : State.writeRows r.core r.ident r.cmd (gbDst r.cmd.block) (hbDstr r.cmd.block) (hbLen r.cmd.block) (hbCount r.cmd.block)
      (rows.take (hbCount r.cmd.block * hbLen r.cmd.block))
      (((s.matchRun f id).meetRows r.cmd (gbSrc r.cmd.block) (hbSstr r.cmd.block) (hbLen r.cmd.block) (hbCount r.cmd.block)).sendPacket
        r.dest r.cls (some r.id) own) = (t, x)) :
    exec (.haloMatch id cnt len rows delivered) s =
      .next (t.endExchange f id x (delivered = true ∧ hbCount r.cmd.block * hbLen r.cmd.block ≤ rows.length) r.cmd.lostTrap) := by
  unfold State.matchRun at hread hwrite
  rw [exec_haloMatch, execHaloMatch, hex]
  dsimp only
  rw [hup, hfree]
  dsimp only
  rw [if_neg (by decide), if_neg (by simp [hcnt, hlen]), hread]
  dsimp only
  rw [hwrite]
  cases x with
  | some e => rfl
  | none =>
    unfold State.endExchange
    dsimp only
    split <;> rfl

end Halo

/-! ## Rounds of a reduction (R398) -/

/-- The arrays that a round takes from its peers: none for a round of one package. -/
def EngineRun.peersOf (r : EngineRun) (ps : List (List (BitVec 32))) : List (List (BitVec 32)) := if r.npkg = 1 then [] else ps

/-- The machine once a package's contribution has gone out. -/
def State.sendShare (v : State) (r : EngineRun) (bs : List Byte) : State := if r.alone then v else v.sendPacket r.dest r.cls (some r.id) bs

/-- A round that has a contribution from each of its packages is due. -/
theorem EngineRun.round_due {r : EngineRun} (hnpkg : r.npkg ≠ 0) {agree : Bool} {ps : List (List (BitVec 32))}
    (hround : agree = true → (r.peersOf ps).length + 1 = r.npkg) : ¬ (r.npkg = 0 ∨ (agree = true ∧ (r.peersOf ps).length + 1 ≠ r.npkg)) :=
  not_or.mpr ⟨hnpkg, fun hr => hr.2 (hround hr.1)⟩

theorem State.sendShare_of_red (v : State) {r : EngineRun} (hkind : r.cmd.kind = .red) (bs : List Byte) :
    v.sendShare r bs = if r.npkg = 1 then v else v.sendPacket r.dest r.cls (some r.id) bs := by
  unfold sendShare
  by_cases hone : r.npkg = 1
  · rw [if_pos (EngineRun.alone_of hkind hone), if_pos hone]
  · rw [if_neg (by rw [EngineRun.not_alone_of (.inr hone)]; decide), if_neg hone]

section Reduction
variable {s : State} {f id : Nat} {r : EngineRun} (hex : s.oldestExchange .red id = some (f, r)) (hnpkg : r.npkg ≠ 0) {agree : Bool}
  {ps : List (List (BitVec 32))} (hround : agree = true → (r.peersOf ps).length + 1 = r.npkg)
include hex hnpkg hround

theorem exec_reductionRoundMatch_held {e : TlbEntry} (h : s.copyHeld r.cmd.who (gbDst r.cmd.block) (4 * rbCount r.cmd.block) = some e) :
    exec (.reductionRoundMatch id agree ps) s = .next (s.dropGuest e.covers) := by
  rw [exec_reductionRoundMatch, execReductionRoundMatch, hex]
  refine (if_neg (EngineRun.round_due hnpkg hround)).trans ?_
  rw [h]
  rfl

variable (hfree : s.copyHeld r.cmd.who (gbDst r.cmd.block) (4 * rbCount r.cmd.block) = none)
include hfree

theorem exec_reductionRoundMatch_bad (hagree : agree = false) (hpeers : r.npkg ≠ 1) :
    exec (.reductionRoundMatch id agree ps) s = .next ((s.matchRun f id).stopEngine f id .bad ⟨cILLOP, 0⟩) := by
  rw [exec_reductionRoundMatch, execReductionRoundMatch, hex]
  refine (if_neg (EngineRun.round_due hnpkg hround)).trans ?_
  rw [hfree]
  exact if_pos ⟨by rw [hagree]; rfl, hpeers⟩

variable (hagree : agree = true ∨ r.npkg = 1)
include hagree

theorem exec_reductionRoundMatch_unreadable {e : Cause × Nat}
    (h : (s.matchRun f id).vaRead r.cmd.who (gbSrc r.cmd.block) (4 * rbCount r.cmd.block) = .error e) : exec (.reductionRoundMatch id agree ps) s =
    .next ((s.matchRun f id).stopEngine f id .fault ((s.matchRun f id).engineFault e)) := by
  unfold State.matchRun at h
  have hok : ¬ ((!agree) = true ∧ r.npkg ≠ 1) := fun hb => hagree.elim (fun ha => by simp [ha] at hb) hb.2
  rw [exec_reductionRoundMatch, execReductionRoundMatch, hex]
  refine (if_neg (EngineRun.round_due hnpkg hround)).trans ?_
  rw [hfree]
  refine (if_neg hok).trans ?_
  rw [h]
  rfl

/-- A round computes each element once, and writes the elements that every peer's array gives. -/
theorem exec_reductionRoundMatch_writes {bs : List Byte} {w t : State} {x : Option (Cause × Nat)} {arrived : Nat}
    (hread : (s.matchRun f id).vaRead r.cmd.who (gbSrc r.cmd.block) (4 * rbCount r.cmd.block) = .ok bs)
    (hw : w = ((s.matchRun f id).meetVa r.cmd.who (gbSrc r.cmd.block) (4 * rbCount r.cmd.block)).sendShare r bs)
    (harrived : arrived = (r.peersOf ps).foldl (fun m p => min m p.length) (rbCount r.cmd.block))
    (hwrite : State.writeRows r.core r.ident r.cmd (gbDst r.cmd.block) 4 4 (rbCount r.cmd.block)
      ((((List.range (rbCount r.cmd.block)).map fun i => reduceElement (gbOp r.cmd.block) (Config.pickPair w.draws)
        ((elementsOf bs :: r.peersOf ps).map fun p => p.getD i 0)).take arrived).flatMap fun x => leBytes 4 x.toNat) w.drawn = (t, x)) :
    exec (.reductionRoundMatch id agree ps) s = .next (t.endExchange f id x (rbCount r.cmd.block ≤ arrived) r.cmd.lostTrap) := by
  subst hw harrived
  unfold State.matchRun State.sendShare EngineRun.peersOf at hwrite
  unfold State.matchRun at hread
  have hok : ¬ ((!agree) = true ∧ r.npkg ≠ 1) := fun hb => hagree.elim (fun ha => by simp [ha] at hb) hb.2
  rw [exec_reductionRoundMatch, execReductionRoundMatch, hex]
  refine (if_neg (EngineRun.round_due hnpkg hround)).trans ?_
  rw [hfree]
  refine (if_neg hok).trans ?_
  rw [hread]
  dsimp only
  rw [hwrite]
  cases x <;> rfl

end Reduction

end Sys2Proof.Machine
end

section
/-! SUPPORT. The Gleaners and the multicast copies (R189, R201 to R203): a stream's tiles into slots and out of them, its end, and the slots whose copies
are complete. -/

namespace Sys2Proof.Machine

/-! ## Streams and rings -/

theorem State.streamOn_rid {s : State} {h : Nat} {rid : Fin 64} {y : Stream} (hon : s.streamOn h rid.val = some y) : y.rid = rid :=
  Fin.ext (by simpa using List.find?_some hon)

/-- A stream that replaces the one on its ring is found there. -/
theorem find_replaced_stream {rid : Fin 64} {y y' : Stream} (hy : y'.rid = rid) : ∀ {xs : List Stream}, xs.find? (fun x => x.rid.val == rid.val) = some y →
    (xs.flatMap fun z => if z.rid = rid then (some y').toList else [z]).find? (fun x => x.rid.val == rid.val) = some y'
  | [], h => by cases h
  | z :: zs, h => by
    by_cases hz : z.rid = rid
    · simp [hz, hy]
    · have hne : (z.rid.val == rid.val) = false := by simpa [Fin.ext_iff] using hz
      rw [List.find?_cons, hne] at h
      simpa [hz, hne] using find_replaced_stream hy h

theorem State.streamOn_congr {s t : State} (h : t.sheaves = s.sheaves) (n rid : Nat) : t.streamOn n rid = s.streamOn n rid := by
  rw [streamOn, streamOn, sheaf, sheaf, h]

theorem State.streamOn_modRing (s : State) (h rid : Nat) (f : RingEntry → RingEntry) (n id : Nat) : (s.modRing h rid f).streamOn n id = s.streamOn n id := by
  simp only [streamOn, modRing, State.sheaf_modSheaf]
  split <;> rfl

@[simp] theorem State.setStream_core (s : State) (h : Nat) (rid : Fin 64) (x : Option Stream) (k : Nat) : (s.setStream h rid x).core k = s.core k := rfl

theorem State.streamOn_setStream {s : State} {h : Nat} {rid : Fin 64} {y y' : Stream} (hon : s.streamOn h rid.val = some y) (hy : y'.rid = rid) :
    (s.setStream h rid (some y')).streamOn h rid.val = some y' := by
  rw [streamOn, setStream, State.sheaf_modSheaf_self]
  exact find_replaced_stream hy hon

@[simp] theorem State.ringEntry_setStream (s : State) (h n id : Nat) (rid : Fin 64) (x : Option Stream) :
    (s.setStream h rid x).ringEntry n id = s.ringEntry n id := by
  simp only [ringEntry, setStream, State.sheaf_modSheaf]
  split <;> rfl

@[simp] theorem State.ringEntry_endCommand (s : State) (ident : Nat) (c : EngineCmd) (st : Status) (v : TrapVal) (n id : Nat) :
    (s.endCommand ident c st v).ringEntry n id = s.ringEntry n id := State.ringEntry_congr (s.endCommand_sheaves ident c st v) n id

@[simp] theorem State.ringEntry_completeToken (s : State) (ident : Nat) (tok : Fin 64) (st : Status) (v : TrapVal) (n id : Nat) :
    (s.completeToken ident tok st v).ringEntry n id = s.ringEntry n id := State.ringEntry_congr (s.completeToken_sheaves ident tok st v) n id

@[simp] theorem State.ringEntry_closeStream (s : State) (h : Nat) (y : Stream) (n id : Nat) : (s.closeStream h y).ringEntry n id = s.ringEntry n id := by
  unfold closeStream
  dsimp only
  split
  · rfl
  · simp

/-- A stream with tiles left goes on. -/
theorem State.closeStream_left (s : State) (h : Nat) {y : Stream} (hleft : y.tile < sbCount y.cmd.block) : s.closeStream h y = s :=
  if_pos (by simp [hleft])

/-! ## What reads by virtual address leave -/

theorem State.KeepsEngines.meetWalk (s : State) (kid : BitVec 8) (va : Nat) : s.KeepsEngines (s.meetWalk kid va) := by
  unfold State.meetWalk
  exact .foldl (fun u _ => .meet u _) _ s

theorem State.meetVa_keeps (s : State) (w : Who) (va n : Nat) : s.KeepsEngines (s.meetVa w va n) := by
  unfold meetVa
  refine .foldl (fun u x => ?_) _ s
  split
  · exact .trans (.meetWalk u _ _) (.meet _ _)
  · exact .refl u

theorem State.meetVa_cores (s : State) (w : Who) (va n : Nat) : (s.meetVa w va n).cores = s.cores := by
  refine foldl_keeps (g := State.cores) (fun u x => ?_) _ s
  split
  · rw [State.meet_cores, State.meetWalk_cores]
  · rfl

/-! ## Copies of a slot -/

theorem RingEntry.copies_nodup (e : RingEntry) (h : Nat) : (e.copies h).Nodup :=
  (List.nodup_range.filter _).map fun _ _ hab => by simpa using hab

/-- Bytes written into the Lofts of a list of cores are in each of them, and nothing else of a core changes. -/
theorem State.loftWrites_core (off : Nat) (bs : List Byte) : ∀ {ks : List Nat}, ks.Nodup → ∀ (s : State) (n : Nat),
    (ks.foldl (fun s k => s.loftWrite k off bs) s).core n = if n ∈ ks then { s.core n with loft := bsetN (s.core n).loft off bs } else s.core n
  | [], _, s, n => by simp
  | k :: ks, hks, s, n => by
    obtain ⟨hk, hnodup⟩ := List.nodup_cons.mp hks
    rw [List.foldl_cons, State.loftWrites_core off bs hnodup, loftWrite, State.core_modCore]
    by_cases hn : k = n
    · subst hn
      simp [hk]
    · simp [hn, Ne.symm hn]

theorem State.loftWrites_sheaves (off : Nat) (bs : List Byte) (ks : List Nat) (s : State) :
    (ks.foldl (fun s k => s.loftWrite k off bs) s).sheaves = s.sheaves :=
  foldl_keeps (f := fun (s : State) k => s.loftWrite k off bs) (g := State.sheaves) (fun _ _ => rfl) ks s

/-! ## An esubs stream (R202, R203) -/

/-- The tile that a stream has read goes into every copy of the next slot, which is then FILLING. -/
def State.startTile (u : State) (h : Nat) (rid : Fin 64) (y : Stream) (e : RingEntry) (read : Except (Cause × Nat) (List Byte)) : State :=
  match read with
  | .error (x, _) => (u.streamFault y x).setStream h y.rid (some { y with errEos := true })
  | .ok bs => ((e.copies h).foldl (fun s k => s.loftWrite k (e.desc.slotOff e.next) bs)
      (u.modRing h rid.val fun x => x.take e.next false 0)).setStream h y.rid (some { y with filling := true })

section Stream
variable {s : State} {h : Nat} {rid : Fin 64} {y : Stream} {e : RingEntry} (hon : s.streamOn h rid.val = some y) (hentry : s.ringEntry h rid.val = e)
include hon hentry

section Due
variable (hkind : y.cmd.kind = .subs) (hfilling : y.filling = false) (herr : y.errEos = false) (hdue : e.freeFor s.now e.next = true)
include hkind hfilling herr hdue

/-- A stream's next tile, as memory gives it, goes into the next slot; a fault ends the stream but for its EOS slot. -/
theorem exec_gleanerTileStart_tile (htile : y.tile < sbCount y.cmd.block) :
    let u := s.meetVa y.cmd.who y.tileAddr (sbBytes y.cmd.block)
    exec (.gleanerTileStart h rid.val) s = .next (u.startTile h rid y e (u.vaRead y.cmd.who y.tileAddr (sbBytes y.cmd.block))) := by
  intro u
  rw [exec_gleanerTileStart, execGleanerTileStart, hon]
  dsimp only
  rw [hentry, if_neg (by simp [hkind, hfilling, herr, hdue]), if_pos htile]
  unfold State.startTile
  split <;> rename_i heq <;> rw [heq] <;> rfl

/-- Past its last tile a stream publishes its EOS, and ends. -/
theorem exec_gleanerTileStart_eos (htile : sbCount y.cmd.block ≤ y.tile) : exec (.gleanerTileStart h rid.val) s =
    .next (((s.modRing h rid.val fun x => (x.take e.next true 0).fill e.next true false (s.now + 2)).setStream h y.rid none).completeToken
      y.ident y.cmd.tok .ok ⟨0, 0⟩) := by
  rw [exec_gleanerTileStart, execGleanerTileStart, hon]
  dsimp only
  rw [hentry, if_neg (by simp [hkind, hfilling, herr, hdue]), if_neg (not_lt.mpr htile)]
  rfl

theorem exec_gleanerTileStart_fills {bs : List Byte} (htile : y.tile < sbCount y.cmd.block)
    (hread : (s.meetVa y.cmd.who y.tileAddr (sbBytes y.cmd.block)).vaRead y.cmd.who y.tileAddr (sbBytes y.cmd.block) = .ok bs) :
    Goes s (.gleanerTileStart h rid.val) fun t =>
      ((t.ringEntry h rid.val).slot e.next).state = .filling ∧ ((t.ringEntry h rid.val).slot e.next).tag = e.next ∧
      (t.ringEntry h rid.val).next = e.next + 1 ∧ t.streamOn h rid.val = some { y with filling := true } ∧
      ∀ k ∈ e.copies h, (t.core k).loft = bsetN (s.core k).loft (e.desc.slotOff e.next) bs := by
  have hexec := exec_gleanerTileStart_tile hon hentry hkind hfilling herr hdue htile
  dsimp only at hexec
  rw [hread, State.startTile] at hexec
  refine .intro hexec ?_
  obtain rfl := State.streamOn_rid hon
  have hmeet := s.meetVa_keeps y.cmd.who y.tileAddr (sbBytes y.cmd.block)
  have hcores := s.meetVa_cores y.cmd.who y.tileAddr (sbBytes y.cmd.block)
  generalize s.meetVa y.cmd.who y.tileAddr (sbBytes y.cmd.block) = u at hmeet hcores
  have hsheaves := State.loftWrites_sheaves (e.desc.slotOff e.next) bs (e.copies h) (u.modRing h y.rid.val fun x => x.take e.next false 0)
  have hafter : ∀ w : State, w.sheaves = (u.modRing h y.rid.val fun x => x.take e.next false 0).sheaves → w.ringEntry h y.rid.val = e.take e.next false 0 :=
    fun w hw => by rw [State.ringEntry_congr hw, State.ringEntry_modRing_self, State.ringEntry_congr hmeet.sheaves, hentry]
  refine ⟨?_, ?_, ?_, ?_, fun k hk => ?_⟩
  · rw [State.ringEntry_setStream, hafter _ hsheaves, RingEntry.slot_take]
  · rw [State.ringEntry_setStream, hafter _ hsheaves, RingEntry.slot_take]
  · rw [State.ringEntry_setStream, hafter _ hsheaves]
    rfl
  · refine State.streamOn_setStream (y := y) ?_ rfl
    rw [State.streamOn_congr hsheaves, State.streamOn_modRing, State.streamOn_congr hmeet.sheaves]
    exact hon
  · rw [State.setStream_core, State.loftWrites_core _ _ (e.copies_nodup h), if_pos hk, State.modRing_core, State.core_congr hcores]

theorem exec_gleanerTileStart_publishes (htile : sbCount y.cmd.block ≤ y.tile) (hmask : e.cmask ≠ 0) (hcons : e.desc.cons = false) :
    Goes s (.gleanerTileStart h rid.val) fun t =>
      ((t.ringEntry h rid.val).slot e.next).state = .full ∧ ((t.ringEntry h rid.val).slot e.next).eos = true ∧
      ((t.ringEntry h rid.val).slot e.next).err = false ∧ (t.ringEntry h rid.val).next = e.next + 1 := by
  refine .intro (exec_gleanerTileStart_eos hon hentry hkind hfilling herr hdue htile) ?_
  obtain ⟨hslot, hnext⟩ := e.take_fill e.next true true false 0 (s.now + 2) hcons hmask
  simp only [State.ringEntry_completeToken, State.ringEntry_setStream, State.ringEntry_modRing_self, hentry, hslot, hnext, and_self]

end Due

/-- The slot of a tile that is complete is FULL. -/
theorem exec_gleanerTileComplete_fills (hfilling : y.filling = true) (hmask : e.cmask ≠ 0) (hcons : e.desc.cons = false) :
    Goes s (.gleanerTileComplete h rid.val) fun t =>
      ((t.ringEntry h rid.val).slot (e.next - 1)).state = .full ∧ ((t.ringEntry h rid.val).slot (e.next - 1)).pending = e.cmask ∧
      ((t.ringEntry h rid.val).slot (e.next - 1)).visible = s.now + 2 := by
  refine .intro (t := ((s.modRing h rid.val fun x => x.fill (x.next - 1) false false (s.now + 2)).setStream h y.rid
    (some { y with filling := false, tile := y.tile + 1 })).closeStream h { y with filling := false, tile := y.tile + 1 }) ?_ ?_
  · rw [exec_gleanerTileComplete, execGleanerTileComplete, hon]
    exact if_neg (by simp [hfilling])
  · simp only [State.ringEntry_closeStream, State.ringEntry_setStream, State.ringEntry_modRing_self, hentry,
      RingEntry.slot_fill e (e.next - 1) false false (s.now + 2) hcons hmask, and_self]

/-- After a fault the next slot that is FREE is an EOS slot with ERR. -/
theorem exec_gleanerErrorEos_publishes (herr : y.errEos = true) (hdue : e.freeFor s.now e.next = true) (hmask : e.cmask ≠ 0) (hcons : e.desc.cons = false) :
    Goes s (.gleanerErrorEos h rid.val) fun t =>
      ((t.ringEntry h rid.val).slot e.next).state = .full ∧ ((t.ringEntry h rid.val).slot e.next).eos = true ∧
      ((t.ringEntry h rid.val).slot e.next).err = true ∧ (t.ringEntry h rid.val).next = e.next + 1 := by
  refine .intro (t := (s.modRing h rid.val fun x => (x.take x.next true 0).fill x.next true true (s.now + 2)).setStream h y.rid none) ?_ ?_
  · rw [exec_gleanerErrorEos, execGleanerErrorEos, hon]
    dsimp only
    rw [hentry]
    exact if_neg (by simp [herr, hdue])
  · obtain ⟨hslot, hnext⟩ := e.take_fill e.next true true true 0 (s.now + 2) hcons hmask
    simp only [State.ringEntry_setStream, State.ringEntry_modRing_self, hentry, hslot, hnext, and_self]

/-! ## An ecoll stream (R202) -/

/-- The Gleaner gives its oldest slot back. -/
def State.freeOldest (s : State) (h rid : Nat) (q : BitVec 32) : State :=
  s.modRing h rid fun x => x.setSlot q ((x.slot q).clear s.now (BitVec.allOnes 32) true)

/-- The tile of a slot has been written to memory: the stream goes on to the next, or ends; a fault ends it. -/
def State.collectTile (s : State) (h : Nat) (rid : Fin 64) (y : Stream) (q : BitVec 32) (written : Except (Cause × Nat) State) : State :=
  match written with
  | .error (x, _) => (s.streamFault y x).setStream h y.rid none
  | .ok t => ((t.freeOldest h rid.val q).setStream h y.rid (some { y with tile := y.tile + 1 })).closeStream h { y with tile := y.tile + 1 }

section Collect
variable (hkind : y.cmd.kind = .coll) (hfull : (e.slot e.oldest).state = .full) (hgpend : (e.slot e.oldest).gpend = true)
  (hvisible : (e.slot e.oldest).visible ≤ s.now)
include hkind hfull hgpend hvisible

/-- An EOS slot ends a collection and is FREE, where no context's bit is left in it. -/
theorem exec_gleanerCollect_ends (heos : (e.slot e.oldest).eos = true) (hpending : (e.slot e.oldest).pending = 0) :
    Goes s (.gleanerCollect h rid.val) fun t =>
      ((t.ringEntry h rid.val).slot e.oldest).state = .free ∧ ((t.ringEntry h rid.val).slot e.oldest).visible = s.now + 2 := by
  refine .intro (t := ((s.freeOldest h rid.val e.oldest).setStream h y.rid none).endCommand y.ident y.cmd .ok ⟨0, 0⟩) ?_ ?_
  · rw [exec_gleanerCollect, execGleanerCollect, hon]
    dsimp only
    rw [hentry, if_neg (by simp [hkind, hfull, hgpend, hvisible]), if_pos heos]
    rfl
  · have hclear := RingSlot.clear_last (x := e.slot e.oldest) (keep := BitVec.allOnes 32) (g := true) s.now (by simp [hpending]) (by simp)
    simp only [State.ringEntry_endCommand, State.ringEntry_setStream, State.freeOldest, State.ringEntry_modRing_self, hentry,
      RingEntry.slot_setSlot_self, hclear, and_true]
    rfl

section Tile
variable (heos : (e.slot e.oldest).eos = false)
include heos

theorem exec_gleanerCollect_held {x : TlbEntry} (h' : s.copyHeld y.cmd.who y.tileAddr (sbBytes y.cmd.block) = some x) :
    exec (.gleanerCollect h rid.val) s = .next (s.dropGuest x.covers) := by
  rw [exec_gleanerCollect, execGleanerCollect, hon]
  dsimp only
  rw [hentry, if_neg (by simp [hkind, hfull, hgpend, hvisible]), if_neg (by simp [heos]), h']
  rfl

/-- A tile is written to memory, and its slot given back. -/
theorem exec_gleanerCollect_tile {k : Nat} {j : Fin 4} (hproducer : e.producer = some (k, j))
    (hfree : s.copyHeld y.cmd.who y.tileAddr (sbBytes y.cmd.block) = none) : exec (.gleanerCollect h rid.val) s =
    .next (s.collectTile h rid y e.oldest
      (s.engineWrite k y.ident y.cmd y.tileAddr (s.loftRead k (e.desc.slotOff e.oldest) (sbBytes y.cmd.block)))) := by
  rw [exec_gleanerCollect, execGleanerCollect, hon]
  dsimp only
  rw [hentry, if_neg (by simp [hkind, hfull, hgpend, hvisible]), if_neg (by simp [heos]), hfree]
  dsimp only
  rw [hproducer]
  unfold State.collectTile
  split <;> rename_i heq <;> rw [heq] <;> rfl

end Tile
end Collect
end Stream

/-! ## Multicast copies (R189, R201) -/

/-- The machine once the producer's bytes are in every other copy of a slot; an EOS slot has none. -/
def State.copySlot (s : State) (h k : Nat) (e : RingEntry) (q : BitVec 32) : State :=
  if (e.slot q).eos then s
  else ((e.copies h).filter (· != k)).foldl (fun u c => u.loftWrite c (e.desc.slotOff q) (s.loftRead k (e.desc.slotOff q) e.desc.slotBytes)) s

theorem State.copySlot_sheaves (s : State) (h k : Nat) (e : RingEntry) (q : BitVec 32) : (s.copySlot h k e q).sheaves = s.sheaves := by
  unfold copySlot
  split
  · rfl
  · exact State.loftWrites_sheaves ..

theorem State.copySlot_loft (s : State) {h k : Nat} {e : RingEntry} (q : BitVec 32) {c : Nat} (hc : c ∈ e.copies h) (hk : c ≠ k) :
    ((s.copySlot h k e q).core c).loft = if (e.slot q).eos then (s.core c).loft
      else bsetN (s.core c).loft (e.desc.slotOff q) (s.loftRead k (e.desc.slotOff q) e.desc.slotBytes) := by
  unfold copySlot
  split
  · rfl
  · rw [State.loftWrites_core _ _ ((e.copies_nodup h).filter _), if_pos (List.mem_filter.mpr ⟨hc, by simpa using hk⟩)]

theorem exec_multicastCopyComplete_fills {s : State} {h : Nat} {rid : Fin 64} {e : RingEntry} {k : Nat} {j : Fin 4} {q : BitVec 32}
    (hentry : s.ringEntry h rid.val = e) (hproducer : e.producer = some (k, j)) (hready : e.ready = true) (hmcast : e.desc.mcast = true)
    (hfilling : (e.slot q).state = .filling) (htag : (e.slot q).tag = q) (hvisible : (e.slot q).visible ≤ s.now) :
    exec (.multicastCopyComplete h rid.val q.toNat) s =
      .next ((s.copySlot h k e q).modRing h rid.val fun x => x.fill q (e.slot q).eos false (e.slot q).visible) := by
  rw [exec_multicastCopyComplete, execMulticastCopyComplete]
  dsimp only
  rw [hentry, BitVec.ofNat_toNat, BitVec.setWidth_eq, hproducer]
  exact if_neg (by simp [hready, hmcast, hfilling, htag, hvisible])

/-- The slot of a multicast ring is FULL once every other copy has the producer's bytes. -/
theorem exec_multicastCopyComplete_copies {s : State} {h : Nat} {rid : Fin 64} {e : RingEntry} {k : Nat} {j : Fin 4} {q : BitVec 32}
    (hentry : s.ringEntry h rid.val = e) (hproducer : e.producer = some (k, j)) (hready : e.ready = true) (hmcast : e.desc.mcast = true)
    (hfilling : (e.slot q).state = .filling) (htag : (e.slot q).tag = q) (hvisible : (e.slot q).visible ≤ s.now) (hcons : e.desc.cons = false)
    (hmask : e.cmask ≠ 0) : Goes s (.multicastCopyComplete h rid.val q.toNat) fun t =>
      ((t.ringEntry h rid.val).slot q).state = .full ∧ ((t.ringEntry h rid.val).slot q).pending = e.cmask ∧
      ∀ c ∈ e.copies h, c ≠ k → (t.core c).loft = if (e.slot q).eos then (s.core c).loft
        else bsetN (s.core c).loft (e.desc.slotOff q) (s.loftRead k (e.desc.slotOff q) e.desc.slotBytes) := by
  refine .intro (exec_multicastCopyComplete_fills hentry hproducer hready hmcast hfilling htag hvisible) ?_
  have hcopied : (s.copySlot h k e q).ringEntry h rid.val = e := (State.ringEntry_congr (s.copySlot_sheaves h k e q) h rid.val).trans hentry
  rw [State.ringEntry_modRing_self, hcopied, RingEntry.slot_fill e q _ _ _ hcons hmask]
  exact ⟨rfl, rfl, fun c hc hk => s.copySlot_loft q hc hk⟩

end Sys2Proof.Machine
end

section
/-! SUPPORT. The obligation on the events of engines, exchanges, Gleaners and multicast copies. -/

namespace Sys2Proof
open Machine

/-- Settles O47: each event of an engine, an exchange, a Gleaner and a multicast copy is one of the moves that the lemmas above give. -/
theorem engineEvents : Obligations.EngineEvents := by
  unfold Obligations.EngineEvents
  intro s f id h r rid y b c n i off stops
  refine ⟨fun hrun => ?_, fun cnt len rows delivered hex => ?_, fun agree ps hex hnpkg => ?_, fun hon => ?_, ?_⟩
  · refine ⟨fun v hstatus hok hunsent => ?_, fun v hv => exec_engineTokenComplete_done hrun hv, fun hlive hkind hpart => ?_,
      fun x hlive hkind hpart => exec_engineChunk_moves hrun hlive hkind hpart, fun hlive hkind => ?_, fun hlive hkind hposted => ?_⟩
    · obtain ⟨st, v⟩ := v
      obtain rfl : st = .ok := hok
      exact exec_engineTokenComplete_unsent hrun hstatus hunsent
    · have hexec : exec (.engineChunk f id) s = .next (s.startChunk f r) :=
        ((exec_engineChunk_live hrun hlive).1 hkind).trans (by rw [State.copyChunk, hpart])
      refine ⟨fun hfreed => hexec.trans (congrArg _ (State.startChunk_stale f hfreed)),
        fun src dst hsrc hdst => ⟨fun e hne he => ?_, fun so d hoff => ?_⟩⟩
      · exact hexec.trans (congrArg _ (State.startChunk_index_fault f hsrc hdst (hkind.resolve_left hne) he))
      · rw [State.startChunk_element f hsrc hdst hoff] at hexec
        refine ⟨fun hs => hexec.trans (congrArg _ (State.startElement_source_outside f hs)),
          fun hs hd => hexec.trans (congrArg _ (State.startElement_destination_outside f hs hd)), fun hs hd => ?_⟩
        intro from_ to_ m u
        refine ⟨fun e he => hexec.trans (congrArg _ (State.startElement_held f hs hd rfl rfl he)), fun hfree => ?_⟩
        have hfault : ∀ e, u.openChunk c to_ from_ m = .error e → exec (.engineChunk f id) s = .next (stops u .fault (u.engineFault e)) := fun e he =>
          hexec.trans (congrArg _ (State.startElement_fault f hs hd rfl rfl hfree rfl he))
        exact ⟨fun e he => hfault e (State.openChunk_source_error he), fun srcs e hsrcs he => hfault e (State.openChunk_note_error hsrcs he),
          fun srcs v e hsrcs hnote he => hfault e (State.openChunk_place_error hsrcs hnote he),
          fun srcs v t ws hsrcs hnote hplace => hexec.trans (congrArg _ (State.startElement_starts f hs hd rfl rfl hfree rfl
            (State.openChunk_ok hsrcs hnote hplace)))⟩
    · have hexec := (exec_engineChunk_live hrun hlive).2.1 hkind
      intro va passed
      refine ⟨fun x hx => hexec.trans (congrArg _ (State.pageChunk_fault f rfl hx)), fun pa e he => ⟨fun hpr => ?_, fun hpr => ?_,
        fun hpr hguest => ?_, fun hpr hguest hdrop => ?_, fun hpr hguest hdrop => ?_⟩⟩
      · exact hexec.trans (congrArg _ (State.pageChunk_unprotected f rfl he hpr))
      · exact hexec.trans (congrArg _ (State.pageChunk_clean f rfl he hpr))
      · exact hexec.trans (congrArg _ (State.pageChunk_guest f rfl he hpr hguest))
      · exact hexec.trans (congrArg _ (State.pageChunk_waits f rfl he hpr hguest hdrop))
      · have hdirty := hexec.trans (congrArg _ (State.pageChunk_dirty f rfl he hpr hguest hdrop))
        refine ⟨fun hk => hdirty.trans ?_, fun hk => hdirty.trans ?_⟩
        · dsimp only
          rw [if_pos hk]
          rfl
        · dsimp only
          rw [if_neg (by rw [hk]; decide)]
          rfl
    · have hexec := (exec_engineChunk_live hrun hlive).2.2 hkind
      exact ⟨fun hred hone => hexec.trans (congrArg _ (State.postExchange_alone f hposted (EngineRun.alone_of hred hone))),
        fun hpeers => hexec.trans (congrArg _ (State.postExchange_sends f hposted (EngineRun.not_alone_of hpeers)))⟩
  · have hlost : r.cmd.lostTrap = ⟨cPOISON, BitVec.ofNat 64 (gbPeer b)⟩ := by
      rw [EngineCmd.lostTrap, if_pos (State.oldestExchange_some hex).2]
    intro u ends
    refine ⟨exec_haloMatch_down hex, fun e hup he => exec_haloMatch_held hex hup he, fun hup hfree => ⟨exec_haloMatch_bad hex hup hfree,
      fun hcnt hlen => ⟨fun e he => exec_haloMatch_unreadable hex hup hfree hcnt hlen he, fun own t x hread hwrite => ?_⟩⟩⟩
    have hexec := exec_haloMatch_writes (delivered := delivered) hex hup hfree hcnt hlen hread hwrite
    obtain ⟨hfault, hok, hpart⟩ := t.endExchange_cases f id x (delivered = true ∧ hbCount b * hbLen b ≤ rows.length) r.cmd.lostTrap
    refine ⟨fun e he => hexec.trans (congrArg _ (hfault e he)), fun hx hd hall => hexec.trans (congrArg _ (hok hx ⟨hd, hall⟩)), fun hx hsome => ?_⟩
    rw [hexec, hpart hx fun hw => hsome.elim (fun h => Bool.noConfusion (h.symm.trans hw.1)) (Nat.not_lt.mpr hw.2), hlost]
  · have hkind := (State.oldestExchange_some hex).2
    have hlost : r.cmd.lostTrap = ⟨cPOISON, 0x1FFF#64⟩ := by
      rw [EngineCmd.lostTrap, if_neg (by rw [hkind]; decide)]
    intro peers u ends
    refine ⟨fun e hround he => exec_reductionRoundMatch_held hex hnpkg hround he, fun hfree => ⟨fun hagree hpeers => ?_, fun hagree hlen => ?_⟩⟩
    · exact exec_reductionRoundMatch_bad hex hnpkg (fun ha => absurd (hagree.symm.trans ha) (by decide)) hfree hagree hpeers
    intro v w
    refine ⟨fun e he => ?_, fun bs t x arrived hread harrived => ?_⟩
    · exact exec_reductionRoundMatch_unreadable hex hnpkg (fun _ => hlen) hfree hagree he
    · intro out hwrite
      have hw : w = v.sendShare r bs := by
        have hbs : (u.vaRead c.who (gbSrc b) (4 * rbCount b)).toOption.getD [] = bs := by rw [hread]; rfl
        rw [State.sendShare_of_red v hkind, ← hbs]
      have hexec := exec_reductionRoundMatch_writes hex hnpkg (fun _ => hlen) hfree hagree hread hw harrived hwrite
      obtain ⟨hfault, hok, hpart⟩ := t.endExchange_cases f id x (rbCount b ≤ arrived) r.cmd.lostTrap
      refine ⟨fun e he => hexec.trans (congrArg _ (hfault e he)), fun hx hall => hexec.trans (congrArg _ (hok hx hall.ge)), fun hx hless => ?_⟩
      rw [hexec, hpart hx (Nat.not_le.mpr hless), hlost]
  · intro e due
    refine ⟨fun hkind hfilling herr hdue htile => ?_, fun hkind hfilling herr hdue htile hmask hcons =>
      exec_gleanerTileStart_publishes hon rfl hkind hfilling herr hdue htile hmask hcons, exec_gleanerTileComplete_fills hon rfl,
      fun hkind hfull hgpend hvisible => ⟨exec_gleanerCollect_ends hon rfl hkind hfull hgpend hvisible, fun x heos hheld =>
        exec_gleanerCollect_held hon rfl hkind hfull hgpend hvisible heos hheld, fun k j heos hproducer hfree => ?_⟩, exec_gleanerErrorEos_publishes hon rfl⟩
    · intro u
      refine ⟨fun bs hread => exec_gleanerTileStart_fills hon rfl hkind hfilling herr hdue htile hread, fun x a hread => ?_⟩
      rw [exec_gleanerTileStart_tile hon rfl hkind hfilling herr hdue htile, hread]
      rfl
    · intro w
      have hexec : exec (.gleanerCollect h rid.val) s = .next (s.collectTile h rid y e.oldest w) :=
        exec_gleanerCollect_tile hon rfl hkind hfull hgpend hvisible heos hproducer hfree
      refine ⟨fun t htile hwrite => ?_, fun x a hwrite => ?_⟩
      · rw [hexec, hwrite]
        exact congrArg _ (State.closeStream_left _ h htile)
      · rw [hexec, hwrite]
        rfl
  · intro e k j q
    exact exec_multicastCopyComplete_copies rfl

end Sys2Proof
end
